-- ==== Sys2Proof/Word.lean ====
section
/-! DEFINITION. The plain types of registers and fields, and the plainest arithmetic over them. -/

namespace Sys2Proof

/-- A 32-bit register word. -/
abbrev Word := BitVec 32
/-- A byte of memory. -/
abbrev Byte := BitVec 8

/-- The register access types of R10. -/
inductive Access where
  | ro | rw | wo | w1c | w1s | rws | rwm
  deriving DecidableEq, Repr

/-- A named register field: its bits `hi:lo`, its access type and the value of its Reset column. -/
structure Fld where
  hi  : Nat
  lo  : Nat
  acc : Access
  rst : Nat
  deriving DecidableEq, Repr

/-- Width of a field in bits. -/
def Fld.width (f : Fld) : Nat := f.hi - f.lo + 1

end Sys2Proof
end

