-- ==== Sys2Proof/Syntax.lean ====
section
/-! DEFINITION. The commands of the block, one constructor per row of spec/opcode_table.json, and the
plain types of their operands: what the outside supplies with a command (edge times, converter codes,
received frames, addresses and values). -/

namespace Sys2Proof

/-- The masters of R29, and the firmware's two roles: the control cores, and the management paths that
write the dictionary. -/
inductive Master where
  | core | dma | host | engine (e : Fin 256) | scheduler
  deriving DecidableEq, Repr

/-- An edge as the TDC fabric captures it: the coarse tick and the tap of the interpolator (R61). -/
structure TdcEdge where
  tick : BitVec 64
  tap  : Fin 128
  deriving DecidableEq, Repr

/-- The comparator edges of one low pulse (R38): its rise; its fall, absent while the comparator is still
high when the window closes; the high comparator's rise within it; whether the pulse reached the clamp. -/
structure PulseIn where
  rise  : TdcEdge
  fall  : Option TdcEdge
  high  : Option TdcEdge
  clamp : Bool
  deriving DecidableEq, Repr

/-- The counts of one interpolator's fill (R71): the edges on each tap and the total. -/
structure FillCount where
  taps  : List (BitVec 16)
  total : BitVec 32
  deriving DecidableEq, Repr

/-- The blocks and functions that have a CNT_CLR bit. -/
inductive CntBlock where
  | feChan (t : Fin 64) (k : Fin 16) | tdc | aux (a : Fin 6) | sht | tile (t : Fin 64) | enp | ps | tilth
  | ctl | emg | saf | hk | dec | thm | memRegion (r : Fin 4) | drc | slq | dma (n : Fin 16)
  | lane (p : Fin 3) | ring | evt | event (n : Fin 640) | can (c : Fin 2) | eth (k : Fin 2) | sec | sys
  | clk
  deriving DecidableEq, Repr

/-- What a kernel run met in its engine's local memory (R325, R326): the errors that it corrected, and whether there was one that
cannot be corrected. -/
structure LocalErrors where
  ce : BitVec 16
  ue : Bool
  deriving DecidableEq, Repr

/-- The sender of an ENUM (R389): whether it is this device's own come round the ring, and ORIGIN. -/
structure EnumSender where
  own    : Bool
  origin : Fin 32
  deriving DecidableEq, Repr

/-- How an SDRAM beat reads (R345): clean, a corrected single-bit error, or uncorrectable twice. -/
inductive BeatRead where
  | clean | ce | ue
  deriving DecidableEq, Repr

/-- A command of the SDRAM retry buffer (R346): a number that identifies it, its address, whether it is a write. -/
structure DramCmd where
  id : Nat
  addr : BitVec 40
  write : Bool
  deriving DecidableEq, Repr

/-- A frame of a lane port (R382): the header fields that carry information, the trailer's credit grant, and the
payload bytes, 8 × LEN of them. -/
structure LaneFrame where
  vc : Fin 4
  type : Fin 16
  seq : BitVec 12
  queue : BitVec 8
  last : Bool
  nak : Bool
  ackVc : Fin 4
  ack : BitVec 12
  grant : BitVec 16
  grantVc : Fin 4
  body : List Byte
  deriving DecidableEq, Repr

/-- What the flash gives a SEC command, and what the spec does not print of the certificates: the KINDs that the purpose extension of
the signer's certificate names (R438), for the object that the command checks and for the transfer object of R449. -/
structure SecVerdict where
  purpose : List Byte
  transfer : List Byte
  flash : Bool
  deriving DecidableEq, Repr

/-- What BOOT finds that no reset leaves in the state (R442): bytes put into the boot flash from outside since the last boot, the KINDs
that the purpose extensions of the signers name (R438) in the two banks and in the two slots of the board and safety records, and the
register writes that the payload of the board record stands for, whose layout the spec does not print. -/
structure BootIn where
  flash : List (BitVec 25 × Byte)
  bank0 : List Byte
  bank1 : List Byte
  board0 : List Byte
  board1 : List Byte
  safety0 : List Byte
  safety1 : List Byte
  board : List (BitVec 40 × Word)
  deriving DecidableEq, Repr

/-- The path of a management message (R405): a lane port, or an SGMII port with the requester's IPv4 address and UDP
port. -/
inductive MgmtPath where
  | lane (p : Fin 3)
  | udp (k : Fin 2) (ip : Word) (port : BitVec 16)
  deriving DecidableEq, Repr

/-- What an SDO or USDO request says beside its object (R410): whether its command specifier is invalid, whether it asks for a
block transfer, and for a USDO the client's node-ID and session. -/
structure SdoHead where
  bad : Bool
  block : Bool
  client : BitVec 7
  session : Byte
  deriving DecidableEq, Repr

/-- A received Ethernet frame (R415): one that carries what the command says, one whose FCS is wrong, or a frame that the port does
not handle: VLAN-tagged, IPv6, TCP, larger than 1,518 B, or any other. -/
inductive EthForm where
  | plain | badFcs | other
  deriving DecidableEq, Repr

/-- The event messages of IEEE 1588. -/
inductive PtpType where
  | sync | delayReq | pdelayReq | pdelayResp
  deriving DecidableEq, Repr

/-- An event message on a port (R416): its direction, whether it goes over UDP/IPv4 (else Layer 2), and its type. -/
structure PtpFrame where
  egress : Bool
  udp : Bool
  type : PtpType
  deriving DecidableEq, Repr

/-- The header fields of a management message but OP and LEN (R407). -/
structure MgmtHdr where
  fwd : Bool
  dest : Fin 32
  tag : BitVec 16
  index : BitVec 16
  sub : Byte
  ofs : Word
  deriving DecidableEq, Repr


/-- The commands: one constructor per row of spec/opcode_table.json, in its order. -/
inductive Instr where
  /-- REGISTER_WRITE: A write to a register field that has no row of its own takes effect according to its access type (R10). Master, address, value. -/
  | registerWrite (m : Master) (a : BitVec 40) (v : Word)
  /-- CNT_CLR: Writing 1 to a block's CNT_CLR bit clears that block's counters to zero (R56). -/
  | cntClr (b : CntBlock)
  /-- FE_CFG_WRITE: A write to FE_CFG stages gain, thresholds and enable, or is rejected when the threshold ordering is violated (R40). -/
  | feCfgWrite (n : Fin 1024) (v : Word)
  /-- FE_IDLE_LATCH: While no shots are fired, the staged set is copied to the active set within 1 us of the write (R42). -/
  | feIdleLatch (n : Fin 1024)
  /-- SETTLE_TIMEOUT: With no latch point 1.0 ms after staging, the tile stops arming the channel until its pending windows have closed (R44). -/
  | settleTimeout (n : Fin 1024)
  /-- PULSE_RECORD: Comparator edges on a return channel form a pulse record, which is also passed to the marl path (R38). -/
  | pulseRecord (n : Fin 1024) (p : PulseIn)
  /-- OVERLOAD_ENTRY: After clamp or DCR_LIM has held continuously for 1.0 ms, the channel enters OVERLOAD (R48). Which of the two has held for 1.0 ms. -/
  | overloadEntry (n : Fin 1024) (clamp : Bool) (lim : Bool)
  /-- OVERLOAD_EXIT: After the clamp has been idle and DCR_LIM 0 for 10.0 ms, the channel returns to ACTIVE at its next arm point (R48). -/
  | overloadExit (n : Fin 1024)
  /-- AUTOTRIM: Writing AUTOTRIM in CALIBRATE starts trimming the comparator offsets of the tile (R52). -/
  | autotrim (t : Fin 64)
  /-- AUTOTRIM_DONE: The trim completes, FE_TRIM is written with TRIM_OK set, and AUTOTRIM clears (R52). -/
  | autotrimDone (t : Fin 64)
  /-- BIAS_REF_WRITE: A write to CODE starts moving BIASREF towards the new code, limited to MAX (R54). -/
  | biasRefWrite (g : Fin 16) (v : BitVec 14)
  /-- BIAS_SLEW_STEP: Every 10 us the bias output moves by at most SLEW codes towards its target (R54). -/
  | biasSlewStep (g : Fin 16)
  /-- BIAS_MON_SAMPLE: BIASMON is sampled every 10 us, window flags are updated, and gating is applied according to ACTION (R55). The converter code of BIASMON[g]. -/
  | biasMonSample (g : Fin 16) (v : BitVec 10)
  /-- BIAS_GATE_HOLD_END: Under ACTION 01, gating of the group ends 10.0 ms after the violation has ended (R55). -/
  | biasGateHoldEnd (g : Fin 16)
  /-- FE_BASELINE_REFRESH: FE_BASELINE is refreshed every 10.0 us with the averaged restoration current (R37). The averaged restoration current in LSB of the active gain, and whether the loop is at capacity. -/
  | feBaselineRefresh (n : Fin 1024) (cur : BitVec 32) (atCap : Bool)
  /-- TB_REPLICA_CHECK: Every 1,024 ticks each unit's timebase replica is compared with the master count, and reloaded on a mismatch (R66). The replica that unit u holds. -/
  | tbReplicaCheck (u : Fin 65) (r : BitVec 64)
  /-- TB_LO_READ: A read of TB_LO latches the whole 64-bit timebase for the following TB_HI read (R67). -/
  | tbLoRead
  /-- LOAD_NOW: LOAD_NOW applies TB_LOAD at the next tick, unless the load would move the count backwards or the device is a follower (R68). -/
  | loadNow
  /-- LOAD_PPS: LOAD_PPS arms a timebase load at the next PPS_IN edge (R68). -/
  | loadPps
  /-- CAL_FILL_START: After the band's pause, rolling recalibration starts the fill of the next unit (R76). -/
  | calFillStart
  /-- CAL_FILL_END: A fill ends after FILL_MS; the new tables are formed and accepted, or rejected as starved (R73). The counts of the unit, by interpolator. -/
  | calFillEnd (u : Fin 65) (c : List FillCount)
  /-- FB_TABLE_ACTIVATE: An accepted feedback table becomes active once no shot of its bank is waiting for feedback (R74). -/
  | fbTableActivate (b : Fin 16)
  /-- FILL_ALL: FILL_ALL in CALIBRATE fills all 65 units at once for one fill period (R76). -/
  | fillAll
  /-- REQ_MODE: A write to REQ_MODE requests, forces or cancels a change of coarse clock mode (R77). -/
  | reqMode (lp : Bool) (force : Bool)
  /-- RELOCK_DONE: All DLLs lock after a mode switch, CUR_MODE is updated, and PEND clears (R77). -/
  | relockDone
  /-- RELOCK_TIMEOUT: 100 us after a switch, RELOCK ends and units still unlocked are handled under the unlock rule (R77). The units still unlocked. -/
  | relockTimeout (still : List (Fin 65))
  /-- DLL_UNLOCK: A unit's DLL loses lock: it stops arming, discards open windows, invalidates its tables and raises the event (R79). -/
  | dllUnlock (u : Fin 65)
  /-- DLL_LOCK: A unit's DLL locks again, and arming resumes at the next arm point on DLL calibration (R79). -/
  | dllLock (u : Fin 65)
  /-- AUX_EDGE: A counted edge on an auxiliary input is timestamped into the FIFO or updates the period (R80). -/
  | auxEdge (a : Fin 6) (e : TdcEdge) (rising : Bool)
  /-- AUX_TS_HI_READ: A read of AUX_TS_HI returns the upper tick and removes the head FIFO entry (R81). -/
  | auxTsHiRead (a : Fin 6)
  /-- AUX_CFG_WRITE: A change of AUX_CFG clears VALID of the period measurement (R82). -/
  | auxCfgWrite (a : Fin 6) (v : Word)
  /-- AUX_TIMEOUT: With no counted edge for TIMEOUT ms, VALID clears and the TIMEOUT flag is set (R82). -/
  | auxTimeout (a : Fin 6)
  /-- GATE_IN_EDGE: A level change on GATE_IN is timestamped and starts the FILT qualification (R83). -/
  | gateInEdge (level : Bool) (e : TdcEdge)
  /-- FILTERED_GATE_CHANGE: A level that has lasted FILT ticks changes the filtered gate and, 16 ticks later, the range-gate qualifier (R83). -/
  | filteredGateChange
  /-- CAL_RUN: Setting CAL_RUN in CALIBRATE starts firing, resets SEQ and sets the first frame start (R92). -/
  | calRun
  /-- SCHED_COMMIT: COMMIT starts validation of the next row range (R90). -/
  | schedCommit
  /-- VALIDATION_DONE: Validation ends with OK and a pending range, or with ERR and ERR_ROW (R90). -/
  | validationDone
  /-- SCHED_ROW_WRITE: A write to a protected schedule row is discarded, WPROT is set and the event is raised (R91). Row, byte offset in the row, bytes. -/
  | schedRowWrite (r : Fin 16384) (o : Fin 128) (d : List Byte)
  /-- FRAME_START: A frame starts: FRAME_NO increments, the pending range becomes active, and frame-start actions are applied (R92). Whether the channel B test pattern meets its golden value. -/
  | frameStart (chb : Bool)
  /-- FRAME_MARK: A frame mark from the selected source arrives and starts a frame, unless it comes early (R92). The source, coded as FRAME_SRC. -/
  | frameMark (src : Fin 4) (chb : Bool)
  /-- FRAME_MARK_LOST: No frame for 2 x FRAME_LEN raises the event, and firing stops until a mark arrives (R92). -/
  | frameMarkLost
  /-- SYNC_IO_EDGE: A rising edge on SYNC_IO gives a frame mark or a capture trigger (R92). -/
  | syncIoEdge (chb : Bool)
  /-- ROW_FETCH: A schedule row is fetched ahead of its first shot, its CRC is checked and its slice opens (R94). -/
  | rowFetch
  /-- SHOT_ARM: 400 ns before the commanded fire time the shot is armed, postponed, withheld or dropped, and its arm message is sent (R94). The scheduler is behind and cannot arm by the arm instant. -/
  | shotArm (behind : Bool)
  /-- SHOT_FIRE: The first EMIT_TRIG pulse rises at the commanded fire time and the listening windows open (R95). -/
  | shotFire (q : BitVec 48)
  /-- SECOND_PULSE: The second EMIT_TRIG pulse rises one code spacing after the first (R95). -/
  | secondPulse (q : BitVec 48)
  /-- EMIT_FB_EDGE: A rising feedback edge is timed and matched to the waiting shot, or counted as STRAY (R99). -/
  | emitFbEdge (b : Fin 16) (e : TdcEdge)
  /-- FEEDBACK_WAIT_END: When the feedback wait ends, the shot is resolved as accepted, NO_FB or BAD_FB, and the policy is applied (R100). -/
  | feedbackWaitEnd (q : BitVec 48)
  /-- RESUME: Writing a bank's RESUME bit ends its halt (R100). -/
  | resume (b : Fin 16)
  /-- SEED_WRITE: A seed word written in STANDBY updates the domain seed and SEED_CHK; in any other mode it is discarded (R96). -/
  | seedWrite (m : Fin 4) (v : Word)
  /-- CAP_ARM: ARM on the ring master starts capture recording and broadcasts the arm (R105). -/
  | capArm
  /-- CAP_DISARM: DISARM stops recording, returns the capture to IDLE and broadcasts the disarm (R105). -/
  | capDisarm
  /-- CAP_FIRE: FIRE, or an enabled trigger, moves the capture to SETTLE and broadcasts the fire tick (R105). -/
  | capFire
  /-- CAP_RELEASE: RELEASE leaves DONE for ARMED or IDLE according to REPEAT (R105). -/
  | capRelease
  /-- CAP_SETTLE_END: After the ring round trip plus 1.0 us, T is fixed as the smallest fire tick and the capture enters POST (R105). -/
  | capSettleEnd
  /-- CAP_POST_END: When the timebase reaches T + POST, recording stops, CAP_TICK is set and CAP_DONE is raised (R105). -/
  | capPostEnd
  /-- SEQ_LO_READ: A read of SHT_SEQ_LO latches SEQ_HI of the next SEQ (R106). -/
  | seqLoRead
  /-- WINDOW_ARM: An arm message reaches the listening tiles and gives each channel an arm point (R101). -/
  | windowArm
  /-- LISTEN_WINDOW_CLOSE: A channel's listening window closes after 256 x (BINW + 1) ticks (R101). -/
  | listenWindowClose (n : Fin 1024) (q : BitVec 48)
  /-- PAIR_DECIDE: Once the fire offset has arrived, records are excluded, paired, checked for coincidence and accumulated (R110). -/
  | pairDecide (n : Fin 1024) (q : BitVec 48)
  /-- CONVERSION_DONE: The list conversion completes and the waiting pairs are replayed (R118). -/
  | conversionDone (n : Fin 1024)
  /-- HIST_CLOSE: 20 tile cycles after the last window closes, the histogram is posted or refused (R120). -/
  | histClose (n : Fin 1024)
  /-- HIST_DEADLINE: A posted histogram whose deadline passes is reclaimed with a DEADLINE or REFUSED gap record (R120). -/
  | histDeadline (n : Fin 1024) (f : Fin 2)
  /-- BUFFER_CLEAR_DONE: 64 tile cycles after CLEARING starts, the area is zeroed and the buffer is FREE (R120). -/
  | bufferClearDone (n : Fin 1024) (f : Fin 2)
  /-- TICKET_POST: A ticket enters its home cluster queue once the queue grants credit (R121). -/
  | ticketPost (t : Fin 64)
  /-- TICKET_TAKE: An engine takes a home, helped or stolen ticket and starts its fetch, or discards it when expired (R131). -/
  | ticketTake (e : Fin 256)
  /-- STEAL_PROBE: An idle engine with an empty home queue probes other clusters and is granted a steal (R132). -/
  | stealProbe (e : Fin 256)
  /-- STEAL_MOVE_DONE: The stolen tickets arrive in the thief's queue with the stolen mark (R133). -/
  | stealMoveDone (e : Fin 256)
  /-- FETCH_DONE: A histogram fetch completes, the tile buffer clears, and the kernel starts (R135). -/
  | fetchDone (e : Fin 256)
  /-- KERNEL_COMPLETE: A kernel run completes and its echoes are offered to the point stage under credit (R140). The errors that the run corrected in local memory, and whether it met an uncorrectable one. -/
  | kernelComplete (e : Fin 256) (errors : LocalErrors)
  /-- KERNEL_OVERRUN: A kernel run that exceeds its cycle count by more than 64 cycles retires the engine and loses its histograms (R135). -/
  | kernelOverrun (e : Fin 256)
  /-- SELF_TEST_START: A draining engine that holds no ticket starts its self-test (R135). -/
  | selfTestStart (e : Fin 256)
  /-- SELF_TEST_DONE: A self-test passes or fails, and the next engine is selected (R144). The verdict, single-bit errors corrected, an uncorrectable error found. -/
  | selfTestDone (e : Fin 256) (pass : Bool) (ce : BitVec 16) (ue : Bool)
  /-- SELF_TEST_TIMEOUT: A test that exceeds ST_SLOT retires the engine with ST_FAIL (R135). -/
  | selfTestTimeout (e : Fin 256)
  /-- ENGINE_LOAD_DONE: An engine's kernel sets load and check, and the engine becomes IDLE or is retired (R135). -/
  | engineLoadDone (e : Fin 256)
  /-- CLUSTER_REINIT: REINIT reloads and retests every engine of a cluster while its queue keeps its tickets (R146). -/
  | clusterReinit (c : Fin 16)
  /-- KSWAP_REQ: REQ starts loading a kernel set into the inactive banks (R147). -/
  | kswapReq
  /-- KSWAP_CANCEL: CANCEL abandons a loading or armed swap and marks the inactive bank empty (R147). -/
  | kswapCancel
  /-- KSWAP_LOADED: Every engine in service has loaded and checked the new set, and the swap is ARMED (R147). -/
  | kswapLoaded
  /-- KSWAP_TIMEOUT: Loading that is not done within 200 us fails with ERR 10 (R147). -/
  | kswapTimeout
  /-- KSWAP_OLD_FREED: When no ticket older than the switch frame remains, the old bank is freed (R147). -/
  | kswapOldFreed
  /-- ANGLE_PAIRING: Once a bracketing angle sample has arrived, the echo becomes a point that is classified and queued (R173). -/
  | anglePairing
  /-- ANGLE_WAIT_TIMEOUT: After ANG_WAIT without a later sample, the point uses an older sample and carries ANGLE (R174). -/
  | angleWaitTimeout
  /-- SLICE_CLOSE: When all its conditions hold, a slice closes: gap records are appended and the header is written (R179). Row and frame of the slice. -/
  | sliceClose (r : Fin 16384) (f : BitVec 32)
  /-- SLICE_TIMEOUT: A slice still open SLICE_TO after its row's END closes with CLOSE = 1 (R180). Row and frame of the slice. -/
  | sliceTimeout (r : Fin 16384) (f : BitVec 32)
  /-- SUM_SLOT_AGE_OUT: A slot still unfetched after SUM_AGE is freed and counted (R168). The slot. -/
  | sumSlotAgeOut (i : BitVec 16)
  /-- EGO_COMMIT: COMMIT, or a write of 0x6A00.02, makes the displacement effective for the next frame start (R192). -/
  | egoCommit
  /-- TILTH_SWEEP: The sweeper visits a bucket and invalidates ways older than AGE_MAX (R197). -/
  | tilthSweep
  /-- TILTH_CLEAR: CLEAR, outside SCAN, starts zeroing the tilth table (R197). -/
  | tilthClear
  /-- TILTH_CLEAR_DONE: The table clear completes and CLR_BUSY clears (R197). -/
  | tilthClearDone
  /-- AXIS_SAMPLE: At an axis sample instant the engine computes the axis program and sends the previous word (R212). The last 46 bits of each of the streams ACC_IN[0] to ACC_IN[3], 46 bits an input. -/
  | axisSample (a : Fin 4) (acc : BitVec 184)
  /-- AXIS_OVERRUN: A sample not completed by the next instant is abandoned; the fourth consecutive overrun parks the scanner (R214). -/
  | axisOverrun (a : Fin 4)
  /-- TRAJECTORY_WRITE: A write to a trajectory entry in an active range is discarded and sets WPROT (R210). -/
  | trajectoryWrite (a : Fin 4) (i : Fin 2048) (v : Word)
  /-- COEFF_BANK_WRITE: A write to the active coefficient bank is discarded and sets WPROT (R215). Bank, word of the bank, value. -/
  | coeffBankWrite (a : Fin 4) (b : Fin 2) (w : Fin 32) (v : Word)
  /-- AXIS_SWAP: SWAP requests a coefficient bank swap, either at the next sample or after the next frame start (R215). AT_FRAME. -/
  | axisSwap (a : Fin 4) (frame : Bool)
  /-- PARK_COMPLETE: The park generator completes, and the scanner enters OFF or FAULT with MIR_EN low (R217). -/
  | parkComplete (c : Fin 2)
  /-- SCN_START: START moves an OFF or FAULT scanner into SWEEP or RAMP (R218). -/
  | scnStart (c : Fin 2)
  /-- SCN_STOP: STOP parks a starting or running scanner (R218). -/
  | scnStop (c : Fin 2)
  /-- START_TIMEOUT: START_TO after START without RUN parks the scanner with CAUSE START_TO (R218). -/
  | startTimeout (c : Fin 2)
  /-- EMG_BIN_BOUNDARY: At a bin boundary the oldest bin leaves each accumulator window and a zeroed bin becomes current (R236). -/
  | emgBinBoundary
  /-- V_PRE_SAMPLE: The reservoir is sampled 50 ns before the commanded fire time (R233). The converter code of RESSNS. -/
  | vPreSample (q : BitVec 48) (v : BitVec 14)
  /-- V_POST_SAMPLE: The reservoir is sampled POST ticks after the second accepted feedback edge (R233). The converter code of RESSNS. -/
  | vPostSample (q : BitVec 48) (v : BitVec 14)
  /-- SHOT_SETTLE: When E_meas is available, the shot's reservation is replaced by its charged energy (R232). -/
  | shotSettle (q : BitVec 48)
  /-- STORE_MONITOR_SAMPLE: Every 1 us the stored energy is checked, and three high samples inhibit the bank (R235). The converter code of RESSNS. -/
  | storeMonitorSample (b : Fin 16) (v : BitVec 14)
  /-- BANK_RELEASE: RELEASE in STANDBY ends a bank inhibit (R235). -/
  | bankRelease (b : Fin 16)
  /-- EMG_COMMIT: COMMIT copies the staged sealed set to the active set when the CRC matches (R242). -/
  | emgCommit
  /-- RESREF_STEP: Each microsecond RESREF moves one code towards its band code (R241). -/
  | resrefStep (b : Fin 16)
  /-- STALL_STOP: A stall declaration reaching the governor sets STALL_INH and refuses the scanner's permits (R239). -/
  | stallStop (c : Fin 2)
  /-- OUTPUT_GATE: The governor forces the output gate of the stalled scanner's banks (R239). -/
  | outputGate (c : Fin 2)
  /-- SAFETY_EVAL: At EVAL both channels evaluate the frame's fields, compare occupancy and decide the pair permits (R251). -/
  | safetyEval
  /-- FRAME_MAX_TIMEOUT: No frame start within FRAME_MAX counts an invalid frame (R251). -/
  | frameMaxTimeout
  /-- SAFETY_INPUT_SAMPLE: Every 0.5 ms the dual-channel inputs are sampled, input states change, and permits are rechecked (R266). Levels of SIN_A and SIN_B. -/
  | safetyInputSample (x : BitVec 8) (y : BitVec 8)
  /-- DISC_TIMEOUT: A discrepancy lasting DISC moves the input to FAULT (R267). -/
  | discTimeout (i : Fin 8)
  /-- RESTART_DELAY_END: Once the conditions have held for RST_DLY ms, an automatic pair switches on (R263). -/
  | restartDelayEnd (p : Fin 2)
  /-- OSSD_TEST_PULSE: An output that is on starts its 200 us test pulse (R264). 0 OSSD_A[0], 1 OSSD_A[1], 2 OSSD_B[0], 3 OSSD_B[1]. -/
  | ossdTestPulse (o : Fin 4)
  /-- OSSD_TEST_PULSE_END: The test pulse ends and the output returns high unless an off demand arrived (R264). -/
  | ossdTestPulseEnd (o : Fin 4)
  /-- READBACK_CHECK: A readback deadline passes and the readback is checked, latching OSSD_RB or CROSS on failure (R264). Levels of the readbacks, by output. -/
  | readbackCheck (r : BitVec 4)
  /-- SEAL_SAMPLE: The seal inputs are sampled every 0.5 ms (R268). SEAL_A and SEAL_B read open. -/
  | sealSample (x : Bool) (y : Bool)
  /-- SEAL_DISC: A seal disagreement lasting 500 ms sets SEAL_DISC (R268). -/
  | sealDisc
  /-- SAF_COMMIT: COMMIT starts independent verification of the staged safety configuration by both channels (R269). -/
  | safCommit
  /-- SAF_COMMIT_DONE: The commit completes: both channels take the configuration, or ERR is set (R269). The KINDs that the purpose extension of the signer's certificate names; channel B acknowledges the same CRCs; the record is written. -/
  | safCommitDone (purpose : List Byte) (ack : Bool) (flash : Bool)
  /-- CLR_FAULT: CLR_FAULT in SAFE_HOLD clears latched faults whose cause has ended (R275). -/
  | clrFault
  /-- WDOG: A supervisor service outside the watchdog window latches WDOG (R273). -/
  | wdog
  /-- LOCKSTEP: A mismatch between the lockstep supervisor cores latches LOCKSTEP (R273). -/
  | lockstep
  /-- CLOCK_DEVIATION: A deviation of the 500 MHz clock beyond 12 % against the RC oscillator latches CLOCK (R273). -/
  | clockDeviation
  /-- ISLAND_SUPPLY_TRIP: VDD_SAF outside its window for the filter time latches SUPPLY (R496). -/
  | islandSupplyTrip
  /-- HK_RUN: RUN = 1 starts the sequencer at entry 0 (R293). -/
  | hkRun
  /-- HK_STOP: RUN = 0 abandons the conversion in progress within 1 us (R293). -/
  | hkStop
  /-- HK_BREAK: An entry begins with break-before-make and discharge, latching its settings (R286). -/
  | hkBreak
  /-- HK_MAKE: After discharge the source, excitation and gain are connected (R286). -/
  | hkMake
  /-- HK_INTEGRATION_START: After DELAY the integration of the entry starts (R286). -/
  | hkIntegrationStart
  /-- HK_INTEGRATION_END: The integration ends, the code is formed, and the excitation goes off (R287). Mean input voltage and VEXC in pV; integrator past full scale; input clamp engaged. -/
  | hkIntegrationEnd (vin : Int) (vexc : Nat) (full : Bool) (clamp : Bool)
  /-- HK_RESULT: The result, flags, timestamp and info of the entry are written, and the next entry follows (R289). Whether the open-wire check found a change of more than 0.25 V. -/
  | hkResult (wire : Bool)
  /-- HKS_RES_READ: A read of RES latches the entry's TS and INFO (R294). -/
  | hksResRead (i : Fin 64)
  /-- DEC_OUTPUT: At an output instant a decimation output is formed, stamped, linearised, recorded and delivered (R296). Raw outputs of the channel and of its partner at this instant. -/
  | decOutput (c : Fin 8) (x : BitVec 16) (y : BitVec 16)
  /-- DEC_CFG_WRITE: A write changing HB, K, SRC or EN schedules a channel restart (R297). -/
  | decCfgWrite (c : Fin 8) (v : Word)
  /-- DEC_SYNC: SYNC schedules a restart of the channels in SYNC_MASK at a common edge (R297). -/
  | decSync
  /-- DEC_RESTART: At the first qualifying 125-tick multiple the channel clears its filters and starts its INVALID count (R297). -/
  | decRestart (c : Fin 8)
  /-- MOD_OVERLOAD_START: 16 equal consecutive modulator bits declare overload (R300). -/
  | modOverloadStart (m : Fin 8)
  /-- MOD_OVERLOAD_END: The first differing bit ends the overload and is the cause of a restart (R300). -/
  | modOverloadEnd (m : Fin 8)
  /-- THM_CAPTURE: A sensor capture converts the counts, applies plausibility, and sets T_ctl, band and THROTTLE (R311). The counts of the sensors. -/
  | thmCapture (counts : List (BitVec 24))
  /-- AUTOCAP: After 10 ms without a sequencer capture, THM captures on its own (R311). The counts of the sensors. -/
  | autocap (counts : List (BitVec 24))
  /-- THM_HOLD_END: The 10 s hold after a hottest sensor was ignored ends (R314). -/
  | thmHoldEnd
  /-- RECAL: RECAL in STANDBY or CALIBRATE starts recalibrating the sensors (R317). -/
  | recal
  /-- RECAL_DONE: The recalibration completes, TRIM is adjusted, and outliers are ignored (R317). The counts of the eight captures. -/
  | recalDone (caps : List (List (BitVec 24)))
  /-- ORDERLY_STOP_WITHDRAW: 2 ms into the orderly stop, safety permits are withdrawn and scanners park (R318). -/
  | orderlyStopWithdraw
  /-- ORDERLY_STOP_BYPASS: By 50 ms into the orderly stop, the device enters BYPASS (R318). -/
  | orderlyStopBypass
  /-- ANALOGUE_TRIP: A diode comparator trip forces outputs low, releases the bypass and holds reset (R319). -/
  | analogueTrip
  /-- ANALOGUE_TRIP_RELEASE: 1 s after all comparators cool by 10 C, reset is released (R319). -/
  | analogueTripRelease
  /-- SCRUB_LINE: A scrubber reads a line and writes back corrected words (R325). Region; words of the line with a corrected and with an uncorrectable error. -/
  | scrubLine (r : Fin 4) (ce : BitVec 8) (ue : BitVec 8)
  /-- SCRUB_PASS_END: A scrub pass period ends, and SCRUB_LATE is set if the pass is unfinished (R325). -/
  | scrubPassEnd (r : Fin 4)
  /-- CM_COMMIT: COMMIT in CM_CHECK starts checking the clay memory allocation (R331). -/
  | cmCommit
  /-- CM_COMMIT_DONE: The allocation check ends with OK or ERR and the failing regions (R331). -/
  | cmCommitDone
  /-- DRC_INIT: INIT starts SDRAM initialisation, or self-refresh exit from SELF_REF (R336). -/
  | drcInit
  /-- DDR_RESET_DONE: After 200 us DDR_RESET_N rises and the controller enters CKE_WAIT (R336). -/
  | ddrResetDone
  /-- CKE_WAIT_DONE: After 500 us CKE rises and the mode registers are written (R336). -/
  | ckeWaitDone
  /-- MRS_DONE: The last mode register is written and ZQCL starts (R336). -/
  | mrsDone
  /-- ZQCL_DONE: ZQCL completes and the test-pattern CHECK starts (R336). -/
  | zqclDone
  /-- CHECK_DONE: CHECK ends in READY or in ERROR with LANE_ERR (R336). The lanes that mismatch. -/
  | checkDone (lanes : BitVec 9)
  /-- TRAIN_START: TRAIN written 1 in CALIBRATE with CAL_RUN 0 holds the ports for training (R336). -/
  | trainStart
  /-- TRAIN_END: TRAIN written 0 returns the controller to CHECK (R336). -/
  | trainEnd
  /-- ALERT_STUCK: ALERT_n low for more than 1 us in READY puts the controller in ERROR (R336). -/
  | alertStuck
  /-- ALERT_FALL: A parity alert stops command issue (R346). -/
  | alertFall
  /-- ALERT_RISE: ALERT_n rises, rows are reopened and recent commands are replayed (R346). The commands to reissue. -/
  | alertRise (caught : List DramCmd)
  /-- REFRESH_DUE: A refresh falls due and is issued, postponed or forced (R343). Rank; a real-time request is pending or in progress; no port has a request. -/
  | refreshDue (r : Fin 2) (rt : Bool) (idle : Nat)
  /-- SPLIT_POINT: A real-time piece ends, and an owed forced refresh is issued there (R343). -/
  | splitPoint
  /-- DRAM_TEMP_READ: Every 32 ms the MPR temperature status is read and HOT is updated (R342). A device reports above 85 C; the report is valid. -/
  | dramTempRead (hot : Bool) (valid : Bool)
  /-- TEMP_LOST: With no valid temperature report for 1 s, TEMP_LOST is set and HOT is forced (R342). -/
  | tempLost
  /-- POWER_DOWN_ENTRY: An idle rank enters precharge power-down after PD_IDLE clocks (R344). -/
  | powerDownEntry (r : Fin 2)
  /-- PATROL_SCRUB: The patrol scrubber issues its next SDRAM read (R345). -/
  | patrolScrub
  /-- ZQCS: Every 128 ms a ZQCS calibration is issued (R333). -/
  | zqcs
  /-- REQUEST_AGE: A request's age crosses into URGENT or CRITICAL (R339). Port and arrival tick of the request. -/
  | requestAge (p : Fin 6) (arrival : BitVec 64)
  /-- WRITE_QUEUE_ACCEPT: The write queue takes a waiting write once it has room (R341). Port, address, ticks since the arrival. -/
  | writeQueueAccept (p : Fin 6) (a : BitVec 40) (lat : Nat)
  /-- SDRAM_BEAT_READ: A read beat returns; single-bit errors are corrected and uncorrectable beats are re-read or poisoned (R345). Port (none: patrol scrubber), address, ticks since the arrival, what the beat reads as. -/
  | sdramBeatRead (p : Option (Fin 6)) (a : BitVec 40) (lat : Nat) (e : BeatRead)
  /-- DRC_TEST_GO: GO in TRAIN runs one MPR pattern burst and reports the matching lanes (R349). Lanes that match in all 64 reads. -/
  | drcTestGo (pass : BitVec 9)
  /-- SLQ_PTR_CHECK: The duplicated queue pointers are compared (R357). -/
  | slqPtrCheck (q : Fin 256) (mismatch : Bool)
  /-- SLQ_GROUP_REINIT: REINIT of a queue group force-resets its 16 queues with CAUSE 3 (R359). -/
  | slqGroupReinit (g : Fin 16)
  /-- DMA_DOORBELL: A write to TAIL makes new descriptors available to the channel (R360). Channel, value written to TAIL. -/
  | dmaDoorbell (n : Fin 16) (tail : BitVec 12)
  /-- DMA_BEAT_RESPONSE: A response for a DMA beat returns, and an error stops the channel with ERR or TAIL_ERR (R365). -/
  | dmaBeatResponse (n : Fin 16)
  /-- DMA_DESC_COMPLETE: A descriptor's writes complete, the trailer and status are written, and HEAD advances (R364). -/
  | dmaDescComplete (n : Fin 16)
  /-- DMA_RESTART: RESTART re-executes the stopped descriptor from its start (R365). -/
  | dmaRestart (n : Fin 16)
  /-- DMA_SKIP: SKIP advances HEAD past the stopped descriptor (R365). -/
  | dmaSkip (n : Fin 16)
  /-- DMA_REINIT: REINIT abandons the descriptor, clears EN and resets HEAD and TAIL (R365). -/
  | dmaReinit (n : Fin 16)
  /-- LANE_ENABLE: EN written 1 moves the port to DETECT and starts the clock and IDLE rows (R378). -/
  | laneEnable (p : Fin 3)
  /-- LANE_DISABLE: EN written 0 moves the port to DISABLED (R378). -/
  | laneDisable (p : Fin 3)
  /-- DETECT_CHECK: A check for the partner's forwarded clock moves the port to CLOCK or reports ABSENT (R378). Whether the partner's forwarded clock is present. -/
  | detectCheck (p : Fin 3) (present : Bool)
  /-- TRACKERS_SETTLED: Every phase tracker settles, and the port enters LOCK (R378). Phase of each lane's tracker in 1/256 UI. -/
  | trackersSettled (p : Fin 3) (phases : List Byte)
  /-- WORD_LOCK: Every lane shows 64 valid sync headers, and the port enters DESKEW (R378). Bit slips of each lane in this LOCK. -/
  | wordLock (p : Fin 3) (slips : List Byte)
  /-- DESKEW_DONE: MARK rows align on every lane, and the port enters PARAM (R378). -/
  | deskewDone (p : Fin 3)
  /-- PARAM_SEND: Every 10 us in PARAM a PARAM frame is sent (R378). -/
  | paramSend (p : Fin 3)
  /-- PARAM_RX: A received PARAM frame moves the port to ACTIVE, or to DISABLED on incompatibility (R384). The two payload words. -/
  | paramRx (p : Fin 3) (w0 : BitVec 64) (w1 : BitVec 64)
  /-- TRAINING_TIMEOUT: A training state times out and the port returns to DETECT (R378). -/
  | trainingTimeout (p : Fin 3)
  /-- PARTNER_CLOCK_LOST: The partner clock is absent for 2 us and the port falls to DETECT (R378). -/
  | partnerClockLost (p : Fin 3)
  /-- SYNC_HEADER_ERRORS: 16 invalid sync headers within 64 blocks drop the port to DETECT (R378). -/
  | syncHeaderErrors (p : Fin 3)
  /-- LP_REQ: LP_REQ asks the partner for STANDBY or DEEP by an LP frame (R380). The value written to LN_CTRL.LP_REQ. -/
  | lpReq (p : Fin 3) (target : BitVec 2)
  /-- LP_RX: An LP frame is received and a request is accepted, refused or completed (R384). OP and TARGET of the frame. -/
  | lpRx (p : Fin 3) (o : BitVec 2) (target : BitVec 2)
  /-- LP_REQ_RESEND: An unanswered LP request is resent every 10 us (R384). -/
  | lpReqResend (p : Fin 3)
  /-- LP_REQ_TIMEOUT: An LP request unanswered for 100 us is abandoned and LP_DENIED is set (R384). -/
  | lpReqTimeout (p : Fin 3)
  /-- STANDBY_EXIT: A frame to send, or the partner's exit, returns a STANDBY port to ACTIVE (R378). -/
  | standbyExit (p : Fin 3)
  /-- DEEP_EXIT: A frame to send, or the partner clock, restarts a DEEP port into CLOCK (R378). -/
  | deepExit (p : Fin 3)
  /-- PRBS_ENABLE: PRBS_EN written 1 from DISABLED enters PRBS test mode (R381). PRBS_SEL. -/
  | prbsEnable (p : Fin 3) (sel : BitVec 2)
  /-- PRBS_DISABLE: PRBS_EN written 0 leaves PRBS for DISABLED (R381). -/
  | prbsDisable (p : Fin 3)
  /-- LANE_REINIT: REINIT retrains the port while keeping its configuration and unacknowledged frames (R378). -/
  | laneReinit (p : Fin 3)
  /-- TRACKER_WINDOW: At the end of each 1,024 UI window a tracker freezes or resumes according to its transition count (R375). Lane, transitions in the window, the phase a running tracker has. -/
  | trackerWindow (p : Fin 3) (l : Fin 8) (transitions : BitVec 11) (phase : Byte)
  /-- TAP_WRITE: A write to LN_TX sets the pre-emphasis taps, or is rejected when the taps are too large (R376). -/
  | tapWrite (p : Fin 3) (l : Fin 8) (v : Word)
  /-- MARK_ROW: After the set row count a MARK row is sent on every lane (R377). -/
  | markRow (p : Fin 3)
  /-- LANE_FRAME_SEND: A frame is sent on a virtual channel once credit is available (R382). Virtual channel, for VC2 the queue, and whether the read of its segment is poisoned. -/
  | laneFrameSend (p : Fin 3) (vc : Fin 4) (q : Fin 256) (ue : Bool)
  /-- LANE_FRAME_RX: A received frame is accepted in sequence, or discarded with a NAK (R385). -/
  | laneFrameRx (p : Fin 3) (f : LaneFrame) (crcOk : Bool)
  /-- ACK_RX: An acknowledgement releases acknowledged frames and queue marks (R386). -/
  | ackRx (p : Fin 3) (vc : Fin 4) (seq : BitVec 12) (gvc : Fin 4) (grant : BitVec 16)
  /-- NAK_RX: A NAK resends from the retry buffer and rewinds the queues (R386). -/
  | nakRx (p : Fin 3) (vc : Fin 4) (seq : BitVec 12) (gvc : Fin 4) (grant : BitVec 16)
  /-- REPLAY_TIMEOUT: No acknowledgement within REPLAY_TO triggers a replay, and a retrain after REPLAY_MAX (R386). -/
  | replayTimeout (p : Fin 3) (vc : Fin 4)
  /-- ACK_SEND: An ACK frame is sent when no acknowledgement has left for ACK_DLY (R382). -/
  | ackSend (p : Fin 3)
  /-- HOST_WRITE: A host WR frame writes through a host window, with an error completion on failure (R387). Window, OFFSET, TAG, the BYTES of data. -/
  | hostWrite (win : Bool) (ofs : BitVec 32) (tag : Byte) (d : List Byte)
  /-- HOST_READ: A host RD frame reads through a host window (R387). Window, OFFSET, TAG, BYTES. -/
  | hostRead (win : Bool) (ofs : BitVec 32) (tag : Byte) (bytes : BitVec 13)
  /-- HOST_COMPLETION: A CPL carrying the read data or status is sent to the host (R387). -/
  | hostCompletion
  /-- DRSP_RX: A DRSP answers an outward non-posted DMA write, possibly with an error (R387). -/
  | drspRx (tag : Byte) (error : Bool)
  /-- ENUM_START: A master with RING_EN set and U and D active broadcasts ENUM (R389). -/
  | enumStart
  /-- ENUM_RX: An ENUM broadcast is received; a follower takes its position, or the master completes the ring (R389). Whether it arrives on port D, whether it is this device's own come round the ring, ORIGIN, BSEQ, COUNT, RING_ID, the timebase carried. -/
  | enumRx (fromD : Bool) (sender : EnumSender) (bseq : Byte) (count : Fin 32) (id : BitVec 11) (value : BitVec 64)
  /-- RING_UP_RX: A RING_UP broadcast sets the ring state UP (R396). Whether it arrives on port D, ORIGIN, BSEQ, SIZE, RING_MAP. -/
  | ringUpRx (fromD : Bool) (origin : Fin 32) (bseq : Byte) (size : BitVec 6) (map : Word)
  /-- WRAP_RX: A WRAP notice sets the ring state WRAPPED and updates RING_MAP (R396). Whether it arrives on port D, ORIGIN, BSEQ, the positions at the break. -/
  | wrapRx (fromD : Bool) (origin : Fin 32) (bseq : Byte) (p1 : Fin 32) (p2 : Fin 32)
  /-- UNWRAP_RX: An UNWRAP notice returns the ring to UP (R396). Whether it arrives on port D, ORIGIN, BSEQ, the positions at the break. -/
  | unwrapRx (fromD : Bool) (origin : Fin 32) (bseq : Byte) (p1 : Fin 32) (p2 : Fin 32)
  /-- FRAME_START_RX: A FRAME_START broadcast schedules the frame start at T + FS_LEAD, or starts it at once if late (R397). Whether it arrives on port D, ORIGIN, BSEQ, the tick T; whether the channel B test pattern meets its golden value. -/
  | frameStartRx (fromD : Bool) (origin : Fin 32) (bseq : Byte) (t : BitVec 64) (chb : Bool)
  /-- TB_LOAD_RX: A TB_LOAD broadcast applies the master's load offset at the next tick (R392). Whether it arrives on port D, ORIGIN, BSEQ, the offset. -/
  | tbLoadRx (fromD : Bool) (origin : Fin 32) (bseq : Byte) (d : BitVec 64)
  /-- CAP_ARM_RX: A received capture arm starts recording (R105). Whether it arrives on port D, ORIGIN, BSEQ. -/
  | capArmRx (fromD : Bool) (origin : Fin 32) (bseq : Byte)
  /-- CAP_DISARM_RX: A received capture disarm stops recording (R105). Whether it arrives on port D, ORIGIN, BSEQ. -/
  | capDisarmRx (fromD : Bool) (origin : Fin 32) (bseq : Byte)
  /-- CAP_FIRE_RX: A received capture fire moves an armed capture to SETTLE (R105). Whether it arrives on port D, ORIGIN, BSEQ, the fire tick. -/
  | capFireRx (fromD : Bool) (origin : Fin 32) (bseq : Byte) (tick : BitVec 64)
  /-- ENUM_TIMEOUT: Enumeration that is not complete within 100 ms puts the ring in ERROR TIMEOUT (R389). -/
  | enumTimeout
  /-- RING_RETRY: 1 s after a timed-out ENUM, the master enumerates again (R389). -/
  | ringRetry
  /-- REFORM: REFORM on the master re-enumerates the ring (R389). -/
  | reform
  /-- RING_RTT_MEASURE: Every 100 ms the master measures the broadcast round trip (R396). The round trip in ticks. -/
  | ringRttMeasure (rtt : Word)
  /-- TIME_REQUEST: Every 100 us a follower sends a TIME request with its MARK row (R391). Fine part of t1 in 6.25 ps. -/
  | timeRequest (fine : Fin 128)
  /-- TIME_REQUEST_RX: A partner answers a TIME request with t2 and t3 (R384). Port, NUMBER, t2 (tick in bits 63:7, fine part below), fine part of t3. -/
  | timeRequestRx (p : Fin 3) (number : Byte) (t2 : BitVec 64) (fine : Fin 128)
  /-- TIME_REPLY_RX: A TIME reply gives an offset sample, and after 64 exchanges the correction is chosen (R391). Port and content of the reply, and t4. -/
  | timeReplyRx (p : Fin 3) (number : Byte) (refLost : Bool) (aligned : Bool) (master : Bool) (t2 : BitVec 64) (t3 : BitVec 64) (t4 : BitVec 64)
  /-- ALIGN_STEP: A phase correction step of 6.25 ps is applied, at most one per 10 us (R392). -/
  | alignStep
  /-- REF_CHANGE: A follower in holdover takes a new reference port and relocks (R395). The port whose partner is taken, and the REF that the partner reports. -/
  | refChange (toD : Bool) (ref : BitVec 2)
  /-- EXPORT_RX: A VC3 export frame is received, then forwarded or landed (R398). -/
  | exportRx (p : Fin 3) (f : LaneFrame) (crcOk : Bool)
  /-- STREAM_RX: A VC2 frame is received for a ring-receive silt queue (R399). -/
  | streamRx (p : Fin 3) (f : LaneFrame)
  /-- STREAM_APPEND: A held VC2 frame is appended once its queue can take it, and credit is returned (R399). -/
  | streamAppend (p : Fin 3)
  /-- MGMT_READ: A READ management message is answered with the object's bytes or an abort (R407). Path, header, whether OP is none of 1 to 4, LEN. -/
  | mgmtRead (path : MgmtPath) (h : MgmtHdr) (bad : Bool) (len : Word)
  /-- MGMT_WRITE: A WRITE management message writes an object and is answered once (R407). Path, header, data. -/
  | mgmtWrite (path : MgmtPath) (h : MgmtHdr) (d : List Byte)
  /-- MGMT_RESPONSE: A RESPONSE or ABORT to a forwarded message returns along the same way (R408). Port, and the RESPONSE or ABORT as it arrived. -/
  | mgmtResponse (p : Fin 3) (msg : List Byte)
  /-- SDO_REQUEST: A CAN SDO or USDO request accesses the dictionary (R405). Controller, CAN frames of the request, its head, object, and the data of a write. -/
  | sdoRequest (c : Fin 2) (frames : BitVec 16) (head : SdoHead) (index : BitVec 16) (sub : Byte) (w : Option (List Byte))
  /-- NMT_COMMAND: An NMT command changes the CANopen communication state only (R411). Controller, command specifier, node-ID. -/
  | nmtCommand (c : Fin 2) (cs : Byte) (node : Byte)
  /-- RPDO_RX: An RPDO is applied in mapping order, or rejected for a length mismatch (R413). Controller, RPDO, data, whether the receive buffer was full. -/
  | rpdoRx (c : Fin 2) (n : Fin 16) (d : List Byte) (ovr : Bool)
  /-- TPDO_TX: A TPDO samples its mapped objects and is transmitted (R413). -/
  | tpdoTx (n : Fin 16)
  /-- SYNC_RX: A CANopen SYNC is received (R410). -/
  | syncRx (c : Fin 2)
  /-- SYNC_LOST: 1.5 cycle periods without SYNC raise SYNC_LOST (R425). -/
  | syncLost
  /-- HEARTBEAT_TX: The producer heartbeat is sent at its period (R410). -/
  | heartbeatTx (c : Fin 2)
  /-- HB_LOST: A heartbeat consumer timeout raises HB_LOST (R425). The consumer entry. -/
  | hbLost (j : Fin 4)
  /-- BUS_OFF: A CAN controller enters bus-off (R410). -/
  | busOff (c : Fin 2)
  /-- BUS_OFF_RECOVERY: After 128 occurrences of 11 recessive bits the controller recovers (R410). -/
  | busOffRecovery (c : Fin 2)
  /-- TX_TO: A CAN frame not sent within 100 ms sets TX_TO (R432). -/
  | txTo (c : Fin 2)
  /-- ETH_ARP: An ARP request for ETH_IP is answered (R415). Port, address asked for, requester, the frame that arrives. -/
  | ethArp (k : Fin 2) (target : Word) (mac : BitVec 48) (ip : Word) (form : EthForm)
  /-- ICMP_ECHO: An ICMP echo request is answered (R415). Port, address asked, requester, ICMP identifier, sequence number and data. -/
  | icmpEcho (k : Fin 2) (dst : Word) (ip : Word) (body : List Byte)
  /-- PTP_MESSAGE: An IEEE 1588 event message is timestamped and processed by the ordinary clock (R416). Port, tick of the start-of-frame delimiter, the message, and the Sync interval in ticks. -/
  | ptpMessage (k : Fin 2) (tick : BitVec 64) (msg : PtpFrame) (interval : BitVec 64)
  /-- PTP_SYNC_TIMEOUT: Three Sync intervals without Sync in the slave state raise ETH_PTP_FAULT (R416). -/
  | ptpSyncTimeout (k : Fin 2)
  /-- LINK_UP: An SGMII link comes up (R433). Port, whether auto-negotiation completed. -/
  | linkUp (k : Fin 2) (an : Bool)
  /-- LINK_DOWN: An SGMII link goes down (R433). -/
  | linkDown (k : Fin 2)
  /-- PTP_MAP_READ: A read of 0x6410.01 latches the other mapping subindices (R417). -/
  | ptpMapRead
  /-- VIEW_REFRESH: Every 10 ms the dictionary view of the unit state words is refreshed (R421). -/
  | viewRefresh
  /-- EVT_REPUB: A unit number written to EVT_REPUB increments that unit's GEN (R420). -/
  | evtRepub (u : Byte)
  /-- IRQ_REASSERT: 200 ns after release for a new raise, IRQ_N is asserted again (R427). -/
  | irqReassert (k : Fin 2)
  /-- EMCY_SEND: A queued EMCY message is sent once the inhibit time has passed (R428). -/
  | emcySend
  /-- NOTICE_SEND: After COAL us the gathered raises are sent as a notice (R429). Whether it is the notice of the SGMII path. -/
  | noticeSend (eth : Bool)
  /-- VERIFY_KSET: VERIFY_KSET verifies a kernel set image and copies it into the staging allocation (R448). -/
  | verifyKset
  /-- VERIFY_BANK: VERIFY_BANK verifies the inactive firmware bank (R444). -/
  | verifyBank
  /-- ACTIVATE: ACTIVATE loads the inactive bank's code for a hitless switch (R446). -/
  | activate
  /-- ACTIVATE_RESET: ACTIVATE_RESET rewrites the boot header and performs a warm reset (R444). -/
  | activateReset
  /-- CONFIRM: CONFIRM raises ARC to the running SVN and clears TRIAL (R447). -/
  | confirm
  /-- GEN_OPK: GEN_OPK generates and wraps a new operational key pair (R450). -/
  | genOpk
  /-- MAKE_CSR: MAKE_CSR writes a PKCS#10 request for the operational key (R450). -/
  | makeCsr
  /-- INSTALL_OPCERT: INSTALL_OPCERT installs an operational certificate that chains to the owner anchor (R450). -/
  | installOpcert
  /-- ENROL_OWNER: ENROL_OWNER programs a new owner anchor digest into the next OTP slot (R449). -/
  | enrolOwner
  /-- ATTEST: ATTEST writes a signed attestation report for a nonce (R451). -/
  | attest (nonce : List Byte) (key : Bool)
  /-- DBG_CHALLENGE: DBG_CHALLENGE returns a fresh 32-byte debug challenge (R453). -/
  | dbgChallenge
  /-- DBG_UNLOCK: DBG_UNLOCK checks a debug token and unlocks debug, or counts a failure (R453). -/
  | dbgUnlock
  /-- RECOVER_BOOT: RECOVER_BOOT verifies and starts a firmware image placed in SRAM during RECOVERY (R443). -/
  | recoverBoot
  /-- SEC_COMMAND_DONE: A SEC command completes and sets ERR (R444). What the engine and the flash give; for RECOVER_BOOT, what the boot then loads. -/
  | secCommandDone (v : SecVerdict) (b : BootIn)
  /-- BANK_WRITE: A write to 0x5805 programs image data into the inactive flash bank (R445). Offset in the bank, bytes. -/
  | bankWrite (o : BitVec 23) (d : List Byte)
  /-- SAVE_DLY: SAVE_DLY writes the delay supplement record to boot flash (R441). -/
  | saveDly
  /-- KIMAGE_WRITE: A non-SEC write to the kernel-image allocation is discarded (R448). -/
  | kimageWrite (m : Master) (a : BitVec 40) (d : List Byte)
  /-- MODE_REQUEST: A write of REQ requests a mode change, which is performed or refused with REASON (R459). -/
  | modeRequest (m : BitVec 3)
  /-- MODE_LEAVE_DONE: Once the last open window has closed, the new mode takes effect (R462). -/
  | modeLeaveDone
  /-- BOOT_COMPLETE: BOOT completes and the device enters BYPASS, SCAN or STANDBY (R459). -/
  | bootComplete
  /-- WARM_RESET_REQUEST: KEY 0x5752 starts the warm reset sequence (R464). Whether the firmware requests it after a control-core memory UE. -/
  | warmResetRequest (fw : Bool)
  /-- CORE_WATCHDOG: No KICK within WDT_MS starts a warm reset (R464). -/
  | coreWatchdog
  /-- KICK: KICK restarts the control-core watchdog (R471). -/
  | kick
  /-- WARM_RESET_ASSERT: At P the SDRAM enters self-refresh, reset is asserted and BYP_HOLD falls (R466). -/
  | warmResetAssert
  /-- RESET_RELEASE: Reset is released and BOOT runs its verification and loading steps (R442). -/
  | resetRelease (b : BootIn)
  /-- POWER_ON_RESET: A supply monitor or RESET_N asserts power-on reset of every block (R464). RESET_N low time in 0.1 µs; 0 for a supply monitor. -/
  | powerOnReset (low : BitVec 32)
  /-- TILE_REINIT: A tile re-initialisation frees buffers, clears background and tables, and returns channels with GAIN_NEW (R468). -/
  | tileReinit (t : Fin 64)
  /-- CAN_REINIT: A CAN controller re-initialisation resets its communication state (R468). -/
  | canReinit (c : Fin 2)
  /-- AXIS_REINIT: An axis re-initialisation clears filter and integrator states and any pending swap (R468). -/
  | axisReinit (a : Fin 4)
  /-- FUNC_REINIT_DONE: A rung-2 re-initialisation completes and FUNC_REINIT is raised (R467). The unit. -/
  | funcReinitDone (u : Byte)
  /-- CLK_GATE_WRITE: A CLK_GATE0 write in STANDBY requests gating of tile groups or clusters (R478). -/
  | clkGateWrite (v : Word)
  /-- GATE_APPLY: Gating or ungating of a domain takes effect at the next 1 us mark (R479). -/
  | gateApply (d : Fin 60)
  /-- REF_LOST: Loss of the selected reference puts the root PLL into holdover (R474). The reference: 0 REFCLK, 1 port U, 2 port D. -/
  | refLost (r : Fin 3)
  /-- PULL_IN_DONE: The PLL completes pull-in to a returned reference and HOLDOVER clears (R474). -/
  | pullInDone
  /-- LOCK_LOST: A loss of lock with the reference present sets LOCK_LOST and holds over (R475). -/
  | lockLost
  /-- REFERENCE_RETURN: A reference of the root PLL becomes available again, and the PLL starts pull-in, or refuses a reference more than 40 ppm off (R474). The reference, and whether it is within 40 ppm of the held frequency. -/
  | referenceReturn (r : Fin 3) (near : Bool)
  /-- PRBS_CHECKER_SYNC: A PRBS receive checker synchronises on 64 error-free bits and sets PLOCK (R381). -/
  | prbsCheckerSync (p : Fin 3) (l : Fin 8)
  /-- PRBS_BIT_ERROR: A synchronised PRBS checker detects a bit error and counts it in ERRORS (R381). -/
  | prbsBitError (p : Fin 3) (l : Fin 8)
  /-- CAN_ERROR_PASSIVE: A CAN controller enters or leaves error passive, setting ERR_PASSIVE and changing its unit class (R410). Controller, whether it enters, the error counts. -/
  | canErrorPassive (c : Fin 2) (enter : Bool) (tec : Byte) (rec : Byte)
  /-- HEARTBEAT_RX: A heartbeat from a consumed node is received and restarts that consumer's timeout (R410). -/
  | heartbeatRx (c : Fin 2) (node : BitVec 7) (state : Byte)
  /-- BANK_BYTES_PROGRAMMED: Flash erase and programming of buffered bank data completes, advancing the bytes-programmed count of 0x5806.02 and freeing buffer space (R445). Bytes programmed. -/
  | bankBytesProgrammed (n : BitVec 18)
  /-- JTAG_TRST: TRST_N resets the test access port only (R464). -/
  | jtagTrst
  deriving DecidableEq, Repr

end Sys2Proof
end

