-- ==== Sys2Proof/Decode.lean ====
section
/-! DEFINITION. Commands from table words. The command table gives no row any bits: commands come from outside as
writes, frames, edges and converter results, so no word spells one. -/

namespace Sys2Proof

/-- The command that a table word spells: none, since no row of the table has bits. -/
def decodeTableWord (_nbits _w : Nat) : Option Instr := none

end Sys2Proof
end

