-- ==== Sys2Proof/Config.lean ====
section
/-! DEFINITION. What one implementation fixes and the values the spec leaves open: constants without
a body (no proof can see their values), each named in a row of notes/assumptions. -/

namespace Sys2Proof.Config

/-- A fresh open value of 64 bits; applied to the model's counter `State.free`, which every use
advances. DESIGN CHOICE (log 3). -/
opaque freeWord : Nat → BitVec 64

/-- Content of the boot ROM, which the spec does not print (R24). DESIGN CHOICE (log 4). -/
opaque bootRom : Nat → BitVec 8

/-- The device secret DS of 256 bits and the scalar of the identity private key IDK, which no interface can read (R435). DESIGN
CHOICE (log 5). -/
opaque deviceSecret : Nat
opaque identityKey : Nat

/-- AES-256-GCM of a private key of 384 bits under the "wrap" key with a nonce (R436, R450): the spec prints neither nonce nor format.
DESIGN CHOICE (log 93). -/
opaque wrapped : (wrapKey : List (BitVec 8)) → (key nonce : Nat) → List (BitVec 8)

/-- F25 of sensor `s` in mHz, and SLOPE in mHz per °C: two coefficients of each part's OTP that the spec does not print
(R311). DESIGN CHOICE (log 8). -/
opaque f25 : (s : Nat) → Int
opaque slope : (s : Nat) → Int

/-- Whether an inexact reading in 1/16 °C of sensor `s`, for a count over a gate time in 0.1 µs, is the neighbour above the
exact value (R311 names no rounding). DESIGN CHOICE (log 8). -/
opaque readsUp : (s count gate : Nat) → Bool

/-- The error, in units of 0.25 mm from one below the exact value's floor, of a world coordinate that R191 gives
to within ±2 units; used modulo 4. Applied to RANGE, EL, AZ + Ψ and the axis (0 X, 1 Y, 2 Z). DESIGN CHOICE
(log 9). -/
opaque worldErr : (range el az axis : Nat) → Nat

/-- The error, in units of 2 mm from one below the exact value's floor, of a head coordinate that R258 gives to
within ±2 units; used modulo 4. Applied to the channel (0 A, 1 B), RANGE, AZ, EL and the axis. DESIGN CHOICE
(log 9). -/
opaque safErr : (channel range az el axis : Nat) → Nat

/-- The serial number in OTP, object 0x1018.04 (R435). DESIGN CHOICE (log 13). -/
opaque serial : BitVec 32

/-- The firmware version string of object 0x100A (R412). DESIGN CHOICE (log 13). -/
opaque firmwareVersion : List (BitVec 8)

/-- The Kelestuno intermediate certificate in OTP, DER, and what stands in the device certificate before its subject, between the subject
and the public key, and after the key (R435). DESIGN CHOICE (log 13). -/
opaque intermediate : List (BitVec 8)
opaque certPart : Nat → List (BitVec 8)

/-- The Kelestuno root public key that the part's firmware carries and its SHA-384 digest in OTP (R435). DESIGN CHOICE (log 13). -/
opaque rootKey : List (BitVec 8)
opaque rootDigest : List (BitVec 8)

end Sys2Proof.Config
end

