-- ==== Sys2Proof/Machine/Bits.lean ====
section
/-! DEFINITION. Bit, byte-order, rounding and checksum helpers, and the sparse tables every block
keeps its per-channel and per-queue state in. -/

namespace Sys2Proof.Machine

/-! ### Sparse tables: lists of (key, value) pairs in rising key order -/

/-- The value listed at a key. -/
def lookup {α : Type} : List (Nat × α) → Nat → Option α
  | [], _ => none
  | (k, v) :: l, a => if k = a then some v else lookup l a

/-- The table without a key. -/
def eraseKey {α : Type} (l : List (Nat × α)) (a : Nat) : List (Nat × α) :=
  l.filter (fun p => p.1 ≠ a)

/-- Inserts a pair before the first larger key. -/
def insertKey {α : Type} : List (Nat × α) → Nat → α → List (Nat × α)
  | [], a, v => [(a, v)]
  | (k, w) :: l, a, v => if a < k then (a, v) :: (k, w) :: l else (k, w) :: insertKey l a v

/-- The value a table holds at a key; `d` where nothing is listed. -/
def tget {α : Type} (d : α) (l : List (Nat × α)) (a : Nat) : α := (lookup l a).getD d

/-- Writes a key. An entry equal to the unlisted value `d` is never kept, so equal tables are equal
lists. -/
def tput {α : Type} [DecidableEq α] (d : α) (l : List (Nat × α)) (a : Nat) (v : α) :
    List (Nat × α) :=
  if v = d then eraseKey l a else insertKey (eraseKey l a) a v

/-- Changes the value at a key. -/
def tmod {α : Type} [DecidableEq α] (d : α) (l : List (Nat × α)) (a : Nat) (f : α → α) :
    List (Nat × α) :=
  tput d l a (f (tget d l a))

/-- Rising keys: the canonical order of a table. -/
def risingKeys {α : Type} : List (Nat × α) → Bool
  | [] => true
  | [_] => true
  | (k, _) :: (k', w) :: l => decide (k < k') && risingKeys ((k', w) :: l)

/-! ### Numbers -/

/-- `n`, held at the largest value of a `w`-bit field (a saturating counter). -/
def satN (w n : Nat) : Nat := min n (2 ^ w - 1)

/-- Quotient rounded up. -/
def ceilDiv (a b : Nat) : Nat := (a + b - 1) / b

/-- `a / b` rounded to nearest, ties away from zero. -/
def roundDiv (a : Int) (b : Nat) : Int :=
  if 0 ≤ a then (2 * a + b) / (2 * b) else -((2 * (-a) + b) / (2 * b))

/-- Two's complement reading of an `w`-bit field value. -/
def signed (w n : Nat) : Int := if n % 2 ^ w < 2 ^ (w - 1) then (n % 2 ^ w : Nat) else (n % 2 ^ w : Nat) - (2 ^ w : Nat)

/-- The `w`-bit two's complement code of an integer, modulo `2 ^ w`. -/
def unsigned (w : Nat) (i : Int) : Nat := (i % (2 ^ w : Nat)).toNat

/-- An integer held within `lo..hi`. -/
def clampInt (lo hi i : Int) : Int := max lo (min hi i)

/-- Bit `i` of a number. -/
def bitOf (n i : Nat) : Bool := n / 2 ^ i % 2 = 1

/-- Bits `hi:lo` of a number. -/
def bitsOf (n hi lo : Nat) : Nat := n / 2 ^ lo % 2 ^ (hi - lo + 1)

/-- 1 for true. -/
def b2n (b : Bool) : Nat := if b then 1 else 0

/-- Number of ones among the low `w` bits. -/
def popCount (w n : Nat) : Nat := ((List.range w).filter (fun i => bitOf n i)).length

/-- The indices below `w` whose bit is 1, rising. -/
def bitList (w n : Nat) : List Nat := (List.range w).filter (fun i => bitOf n i)

/-- Sets or clears bit `i` of a number. -/
def setBitN (n i : Nat) (b : Bool) : Nat :=
  if b then (if bitOf n i then n else n + 2 ^ i) else (if bitOf n i then n - 2 ^ i else n)

/-! ### Bytes, little-endian under R13 -/

/-- The `n` bytes of a number, least significant first. -/
def leBytes : Nat → Nat → List Byte
  | 0, _ => []
  | n + 1, v => BitVec.ofNat 8 v :: leBytes n (v / 256)

/-- The number whose bytes are listed least significant first. -/
def ofLeBytes : List Byte → Nat
  | [] => 0
  | b :: l => b.toNat + 256 * ofLeBytes l

/-- The bytes of a list of 32-bit words, little-endian. -/
def wordsBytes (ws : List Nat) : List Byte := ws.flatMap (leBytes 4)

/-! ### Checksums -/

/-- One bit step of the reflected CRC-32C register. -/
def crc32cBit (c : BitVec 32) : BitVec 32 :=
  if c.getLsbD 0 then (c >>> 1) ^^^ 0x82F63B78#32 else c >>> 1

/-- One byte step of CRC-32C. -/
def crc32cByte (c : BitVec 32) (b : Byte) : BitVec 32 :=
  let c := c ^^^ b.zeroExtend 32
  crc32cBit (crc32cBit (crc32cBit (crc32cBit (crc32cBit (crc32cBit (crc32cBit (crc32cBit c)))))))

/-- CRC-32C (Castagnoli): polynomial 0x1EDC6F41 reflected, initial value and final XOR all ones.
PRESUMED (log 6): the spec names the CRC and does not print its parameters. -/
def crc32c (bs : List Byte) : BitVec 32 := (bs.foldl crc32cByte 0xFFFFFFFF#32) ^^^ 0xFFFFFFFF#32

/-- One bit step of the CRC-16 of R96. -/
def crc16Bit (c : BitVec 16) : BitVec 16 :=
  if c.getLsbD 15 then (c <<< 1) ^^^ 0x1021#16 else c <<< 1

/-- One byte step of the CRC-16 of R96. -/
def crc16Byte (c : BitVec 16) (b : Byte) : BitVec 16 :=
  let c := c ^^^ (b.zeroExtend 16 <<< 8)
  crc16Bit (crc16Bit (crc16Bit (crc16Bit (crc16Bit (crc16Bit (crc16Bit (crc16Bit c)))))))

/-- CRC-16 of R96: polynomial 0x1021, initial value 0, no reflection, no final XOR. -/
def crc16 (bs : List Byte) : BitVec 16 := bs.foldl crc16Byte 0#16

end Sys2Proof.Machine
end

