-- ==== Sys2Proof/Machine/RegMap.lean ====
section
/-! DEFINITION. The register map of spec/: the address of every register (namespace `R`), every
named field with its bits, access type and Reset-column value (namespace `F`), the fields of each
register (namespace `D`), and `regDesc`, which answers for a 40-bit address the fields of the
register that stands there, or `none` for a reserved address (R25, R28).  Chapter and rule of the
register table stand in each docstring. -/

namespace Sys2Proof.Machine

/-- Base address of register block `n` (R28: successive 64 KiB steps from 0x08_0000_0000). -/
abbrev blockBase (n : Nat) : Nat := 0x0800000000 + n * 0x10000

/-! ### Addresses -/
namespace R

/-- FE_CFG (02_return_inputs.md, R56). -/
def FE_CFG (t : Nat) (k : Nat) : Nat := blockBase 0x20 + 0x1000 + t * 0x10000 + k * 0x40
/-- FE_ACT (02_return_inputs.md, R56). -/
def FE_ACT (t : Nat) (k : Nat) : Nat := blockBase 0x20 + 0x1004 + t * 0x10000 + k * 0x40
/-- FE_MODE (02_return_inputs.md, R56). -/
def FE_MODE (t : Nat) (k : Nat) : Nat := blockBase 0x20 + 0x1008 + t * 0x10000 + k * 0x40
/-- FE_TEST (02_return_inputs.md, R56). -/
def FE_TEST (t : Nat) (k : Nat) : Nat := blockBase 0x20 + 0x100C + t * 0x10000 + k * 0x40
/-- FE_TEST_TIME (02_return_inputs.md, R56). -/
def FE_TEST_TIME (t : Nat) (k : Nat) : Nat := blockBase 0x20 + 0x1010 + t * 0x10000 + k * 0x40
/-- FE_STAT (02_return_inputs.md, R56). -/
def FE_STAT (t : Nat) (k : Nat) : Nat := blockBase 0x20 + 0x1014 + t * 0x10000 + k * 0x40
/-- FE_BASELINE (02_return_inputs.md, R56). -/
def FE_BASELINE (t : Nat) (k : Nat) : Nat := blockBase 0x20 + 0x1018 + t * 0x10000 + k * 0x40
/-- FE_CNT_A (02_return_inputs.md, R56). -/
def FE_CNT_A (t : Nat) (k : Nat) : Nat := blockBase 0x20 + 0x101C + t * 0x10000 + k * 0x40
/-- FE_CNT_B (02_return_inputs.md, R56). -/
def FE_CNT_B (t : Nat) (k : Nat) : Nat := blockBase 0x20 + 0x1020 + t * 0x10000 + k * 0x40
/-- FE_TRIM (02_return_inputs.md, R56). -/
def FE_TRIM (t : Nat) (k : Nat) : Nat := blockBase 0x20 + 0x1024 + t * 0x10000 + k * 0x40
/-- FE_TILE_CTRL (02_return_inputs.md, R57). -/
def FE_TILE_CTRL (t : Nat) : Nat := blockBase 0x20 + 0x800 + t * 0x10000
/-- FE_TILE_SUM (02_return_inputs.md, R57). -/
def FE_TILE_SUM (t : Nat) : Nat := blockBase 0x20 + 0x804 + t * 0x10000
/-- BIAS_REF (02_return_inputs.md, R58). -/
def BIAS_REF (g : Nat) : Nat := blockBase 0x4 + 0xC000 + g * 0x10
/-- BIAS_LIM (02_return_inputs.md, R58). -/
def BIAS_LIM (g : Nat) : Nat := blockBase 0x4 + 0xC004 + g * 0x10
/-- BIAS_MON (02_return_inputs.md, R58). -/
def BIAS_MON (g : Nat) : Nat := blockBase 0x4 + 0xC008 + g * 0x10
/-- BIAS_STAT (02_return_inputs.md, R58). -/
def BIAS_STAT (g : Nat) : Nat := blockBase 0x4 + 0xC00C + g * 0x10
/-- TDC_CTRL (03_time_measurement.md, R85). -/
def TDC_CTRL : Nat := blockBase 0x9 + 0x0
/-- TDC_CLK (03_time_measurement.md, R85). -/
def TDC_CLK : Nat := blockBase 0x9 + 0x4
/-- TDC_CAL_GAP (03_time_measurement.md, R85). -/
def TDC_CAL_GAP : Nat := blockBase 0x9 + 0x8
/-- TDC_CAL_STAT (03_time_measurement.md, R85). -/
def TDC_CAL_STAT : Nat := blockBase 0x9 + 0xC
/-- TDC_CD_MAP (03_time_measurement.md, R85). -/
def TDC_CD_MAP (m : Nat) : Nat := blockBase 0x9 + 0x10 + m * 0x4
/-- TDC_CNT (03_time_measurement.md, R85). -/
def TDC_CNT : Nat := blockBase 0x9 + 0x1C
/-- TB_LO (03_time_measurement.md, R85). -/
def TB_LO : Nat := blockBase 0x9 + 0x20
/-- TB_HI (03_time_measurement.md, R85). -/
def TB_HI : Nat := blockBase 0x9 + 0x24
/-- TB_LOAD_LO (03_time_measurement.md, R85). -/
def TB_LOAD_LO : Nat := blockBase 0x9 + 0x28
/-- TB_LOAD_HI (03_time_measurement.md, R85). -/
def TB_LOAD_HI : Nat := blockBase 0x9 + 0x2C
/-- TB_CTRL (03_time_measurement.md, R85). -/
def TB_CTRL : Nat := blockBase 0x9 + 0x30
/-- TDC_FAULT (03_time_measurement.md, R85). -/
def TDC_FAULT : Nat := blockBase 0x9 + 0x34
/-- TAB_SEL (03_time_measurement.md, R85). -/
def TAB_SEL : Nat := blockBase 0x9 + 0x40
/-- TAB_DATA (03_time_measurement.md, R85). -/
def TAB_DATA : Nat := blockBase 0x9 + 0x44
/-- TAB_INFO (03_time_measurement.md, R85). -/
def TAB_INFO : Nat := blockBase 0x9 + 0x48
/-- AUX_CFG (03_time_measurement.md, R86). -/
def AUX_CFG (a : Nat) : Nat := blockBase 0x9 + 0x100 + a * 0x20
/-- AUX_STAT (03_time_measurement.md, R86). -/
def AUX_STAT (a : Nat) : Nat := blockBase 0x9 + 0x104 + a * 0x20
/-- AUX_TS_F (03_time_measurement.md, R86). -/
def AUX_TS_F (a : Nat) : Nat := blockBase 0x9 + 0x108 + a * 0x20
/-- AUX_TS_LO (03_time_measurement.md, R86). -/
def AUX_TS_LO (a : Nat) : Nat := blockBase 0x9 + 0x10C + a * 0x20
/-- AUX_TS_HI (03_time_measurement.md, R86). -/
def AUX_TS_HI (a : Nat) : Nat := blockBase 0x9 + 0x110 + a * 0x20
/-- AUX_PER_INT (03_time_measurement.md, R86). -/
def AUX_PER_INT (a : Nat) : Nat := blockBase 0x9 + 0x114 + a * 0x20
/-- AUX_PER_FRAC (03_time_measurement.md, R86). -/
def AUX_PER_FRAC (a : Nat) : Nat := blockBase 0x9 + 0x118 + a * 0x20
/-- AUX_CNT (03_time_measurement.md, R86). -/
def AUX_CNT (a : Nat) : Nat := blockBase 0x9 + 0x11C + a * 0x20
/-- GATE_CFG (03_time_measurement.md, R87). -/
def GATE_CFG : Nat := blockBase 0x9 + 0x200
/-- SHT_CTRL (04_shot_scheduling.md, R106). -/
def SHT_CTRL : Nat := blockBase 0x8 + 0x0
/-- SHT_TAB_BASE (04_shot_scheduling.md, R106). -/
def SHT_TAB_BASE : Nat := blockBase 0x8 + 0x4
/-- SHT_VAL (04_shot_scheduling.md, R106). -/
def SHT_VAL : Nat := blockBase 0x8 + 0x10
/-- SHT_FRAME_LEN (04_shot_scheduling.md, R106). -/
def SHT_FRAME_LEN : Nat := blockBase 0x8 + 0x14
/-- SHT_FB (04_shot_scheduling.md, R106). -/
def SHT_FB : Nat := blockBase 0x8 + 0x18
/-- SHT_HOLD (04_shot_scheduling.md, R106). -/
def SHT_HOLD : Nat := blockBase 0x8 + 0x1C
/-- SHT_STAT (04_shot_scheduling.md, R106). -/
def SHT_STAT : Nat := blockBase 0x8 + 0x20
/-- SHT_BANK (04_shot_scheduling.md, R106). -/
def SHT_BANK : Nat := blockBase 0x8 + 0x24
/-- SHT_FRAME_NO (04_shot_scheduling.md, R106). -/
def SHT_FRAME_NO : Nat := blockBase 0x8 + 0x28
/-- SHT_NODE (04_shot_scheduling.md, R106). -/
def SHT_NODE : Nat := blockBase 0x8 + 0x2C
/-- SHT_SEQ_LO (04_shot_scheduling.md, R106). -/
def SHT_SEQ_LO : Nat := blockBase 0x8 + 0x30
/-- SHT_SEQ_HI (04_shot_scheduling.md, R106). -/
def SHT_SEQ_HI : Nat := blockBase 0x8 + 0x34
/-- SHT_CNT_A (04_shot_scheduling.md, R106). -/
def SHT_CNT_A : Nat := blockBase 0x8 + 0x38
/-- SHT_CNT_B (04_shot_scheduling.md, R106). -/
def SHT_CNT_B : Nat := blockBase 0x8 + 0x3C
/-- SEED_CHK (04_shot_scheduling.md, R106). -/
def SEED_CHK : Nat := blockBase 0x8 + 0x50
/-- SHT_ACT (04_shot_scheduling.md, R106). -/
def SHT_ACT : Nat := blockBase 0x8 + 0x8
/-- SHT_NEXT (04_shot_scheduling.md, R106). -/
def SHT_NEXT : Nat := blockBase 0x8 + 0xC
/-- SEED (04_shot_scheduling.md, R106). -/
def SEED (m : Nat) : Nat := blockBase 0x8 + 0x40 + m * 0x4
/-- GAP_CNT (04_shot_scheduling.md, R106). -/
def GAP_CNT (code : Nat) : Nat := blockBase 0x8 + 0x104 + code * 0x4
/-- CAP_CTRL (04_shot_scheduling.md, R106). -/
def CAP_CTRL : Nat := blockBase 0x8 + 0x200
/-- CAP_STAT (04_shot_scheduling.md, R106). -/
def CAP_STAT : Nat := blockBase 0x8 + 0x204
/-- CAP_LEN (04_shot_scheduling.md, R106). -/
def CAP_LEN : Nat := blockBase 0x8 + 0x210
/-- CAP_WIN (04_shot_scheduling.md, R106). -/
def CAP_WIN : Nat := blockBase 0x8 + 0x214
/-- CAP_BASE_LO (04_shot_scheduling.md, R106). -/
def CAP_BASE_LO : Nat := blockBase 0x8 + 0x208
/-- CAP_BASE_HI (04_shot_scheduling.md, R106). -/
def CAP_BASE_HI : Nat := blockBase 0x8 + 0x20C
/-- CAP_TICK_LO (04_shot_scheduling.md, R106). -/
def CAP_TICK_LO : Nat := blockBase 0x8 + 0x218
/-- CAP_TICK_HI (04_shot_scheduling.md, R106). -/
def CAP_TICK_HI : Nat := blockBase 0x8 + 0x21C
/-- CAP_FIRST_LO (04_shot_scheduling.md, R106). -/
def CAP_FIRST_LO : Nat := blockBase 0x8 + 0x220
/-- CAP_FIRST_HI (04_shot_scheduling.md, R106). -/
def CAP_FIRST_HI : Nat := blockBase 0x8 + 0x224
/-- GT_CTRL (05_grain_tiles.md, R125). -/
def GT_CTRL (t : Nat) : Nat := blockBase 0x20 + 0x0 + t * 0x10000
/-- GT_REP (05_grain_tiles.md, R125). -/
def GT_REP (t : Nat) : Nat := blockBase 0x20 + 0x4 + t * 0x10000
/-- GT_COINC (05_grain_tiles.md, R125). -/
def GT_COINC (t : Nat) : Nat := blockBase 0x20 + 0x8 + t * 0x10000
/-- GT_DEADLINE (05_grain_tiles.md, R125). -/
def GT_DEADLINE (t : Nat) : Nat := blockBase 0x20 + 0xC + t * 0x10000
/-- GT_STAT (05_grain_tiles.md, R125). -/
def GT_STAT (t : Nat) : Nat := blockBase 0x20 + 0x10 + t * 0x10000
/-- GT_CNT_A (05_grain_tiles.md, R125). -/
def GT_CNT_A (t : Nat) : Nat := blockBase 0x20 + 0x14 + t * 0x10000
/-- GT_CNT_B (05_grain_tiles.md, R125). -/
def GT_CNT_B (t : Nat) : Nat := blockBase 0x20 + 0x18 + t * 0x10000
/-- GT_CNT_C (05_grain_tiles.md, R125). -/
def GT_CNT_C (t : Nat) : Nat := blockBase 0x20 + 0x1C + t * 0x10000
/-- GT_TICKETS (05_grain_tiles.md, R125). -/
def GT_TICKETS (t : Nat) : Nat := blockBase 0x20 + 0x20 + t * 0x10000
/-- GT_MODEMAP (05_grain_tiles.md, R125). -/
def GT_MODEMAP (t : Nat) : Nat := blockBase 0x20 + 0x24 + t * 0x10000
/-- GT_NB (05_grain_tiles.md, R126). -/
def GT_NB (t : Nat) (k : Nat) : Nat := blockBase 0x20 + 0x1400 + t * 0x10000 + k * 0x40
/-- GT_BG (05_grain_tiles.md, R126). -/
def GT_BG (t : Nat) (k : Nat) : Nat := blockBase 0x20 + 0x1404 + t * 0x10000 + k * 0x40
/-- GT_OCC (05_grain_tiles.md, R126). -/
def GT_OCC (t : Nat) (k : Nat) : Nat := blockBase 0x20 + 0x1408 + t * 0x10000 + k * 0x40
/-- GT_CH_CNT (05_grain_tiles.md, R126). -/
def GT_CH_CNT (t : Nat) (k : Nat) : Nat := blockBase 0x20 + 0x140C + t * 0x10000 + k * 0x40
/-- GT_BUF (05_grain_tiles.md, R126). -/
def GT_BUF (t : Nat) (k : Nat) : Nat := blockBase 0x20 + 0x1410 + t * 0x10000 + k * 0x40
/-- ENP_CTRL (06_loam_engine_pool.md, R149). -/
def ENP_CTRL : Nat := blockBase 0xA + 0x0
/-- ENP_ST (06_loam_engine_pool.md, R149). -/
def ENP_ST : Nat := blockBase 0xA + 0x4
/-- ENP_STAT (06_loam_engine_pool.md, R149). -/
def ENP_STAT : Nat := blockBase 0xA + 0x8
/-- ENP_KSWAP (06_loam_engine_pool.md, R149). -/
def ENP_KSWAP : Nat := blockBase 0xA + 0xC
/-- ENP_KINFO (06_loam_engine_pool.md, R149). -/
def ENP_KINFO : Nat := blockBase 0xA + 0x18
/-- ENP_KSRC_LO (06_loam_engine_pool.md, R149). -/
def ENP_KSRC_LO : Nat := blockBase 0xA + 0x10
/-- ENP_KSRC_HI (06_loam_engine_pool.md, R149). -/
def ENP_KSRC_HI : Nat := blockBase 0xA + 0x14
/-- ENP_KMAP (06_loam_engine_pool.md, R149). -/
def ENP_KMAP (m : Nat) : Nat := blockBase 0xA + 0x20 + m * 0x4
/-- ENP_RETIRED (06_loam_engine_pool.md, R149). -/
def ENP_RETIRED (m : Nat) : Nat := blockBase 0xA + 0x40 + m * 0x4
/-- CL_CTRL (06_loam_engine_pool.md, R150). -/
def CL_CTRL (c : Nat) : Nat := blockBase 0xA + 0x100 + c * 0x20
/-- CL_Q (06_loam_engine_pool.md, R150). -/
def CL_Q (c : Nat) : Nat := blockBase 0xA + 0x104 + c * 0x20
/-- CL_STAT (06_loam_engine_pool.md, R150). -/
def CL_STAT (c : Nat) : Nat := blockBase 0xA + 0x108 + c * 0x20
/-- CL_CNT_A (06_loam_engine_pool.md, R150). -/
def CL_CNT_A (c : Nat) : Nat := blockBase 0xA + 0x10C + c * 0x20
/-- CL_CNT_B (06_loam_engine_pool.md, R150). -/
def CL_CNT_B (c : Nat) : Nat := blockBase 0xA + 0x110 + c * 0x20
/-- CL_CNT_C (06_loam_engine_pool.md, R150). -/
def CL_CNT_C (c : Nat) : Nat := blockBase 0xA + 0x114 + c * 0x20
/-- CL_CNT_D (06_loam_engine_pool.md, R150). -/
def CL_CNT_D (c : Nat) : Nat := blockBase 0xA + 0x118 + c * 0x20
/-- CL_LAT (06_loam_engine_pool.md, R150). -/
def CL_LAT (c : Nat) : Nat := blockBase 0xA + 0x11C + c * 0x20
/-- ENG_STAT (06_loam_engine_pool.md, R151). -/
def ENG_STAT (e : Nat) : Nat := blockBase 0xA + 0x1000 + e * 0x4
/-- PS_CTRL (07_echo_extraction.md, R183). -/
def PS_CTRL : Nat := blockBase 0xB + 0x2000
/-- PS_STAT (07_echo_extraction.md, R183). -/
def PS_STAT : Nat := blockBase 0xB + 0x2004
/-- PS_CNT_A (07_echo_extraction.md, R183). -/
def PS_CNT_A : Nat := blockBase 0xB + 0x2008
/-- PS_CNT_B (07_echo_extraction.md, R183). -/
def PS_CNT_B : Nat := blockBase 0xB + 0x200C
/-- PS_CNT_C (07_echo_extraction.md, R183). -/
def PS_CNT_C : Nat := blockBase 0xB + 0x2010
/-- PS_CNT_D (07_echo_extraction.md, R183). -/
def PS_CNT_D : Nat := blockBase 0xB + 0x2014
/-- PS_POINTS (07_echo_extraction.md, R183). -/
def PS_POINTS : Nat := blockBase 0xB + 0x2018
/-- PS_SUM (07_echo_extraction.md, R183). -/
def PS_SUM : Nat := blockBase 0xB + 0x201C
/-- PS_SUM_BASE_LO (07_echo_extraction.md, R183). -/
def PS_SUM_BASE_LO : Nat := blockBase 0xB + 0x2020
/-- PS_SUM_BASE_HI (07_echo_extraction.md, R183). -/
def PS_SUM_BASE_HI : Nat := blockBase 0xB + 0x2024
/-- SCN_CFG (07_echo_extraction.md, R183). -/
def SCN_CFG (s : Nat) : Nat := blockBase 0xB + 0x2040 + s * 0x10
/-- SCN_GAIN (07_echo_extraction.md, R183). -/
def SCN_GAIN (s : Nat) : Nat := blockBase 0xB + 0x2044 + s * 0x10
/-- PS_EMIT (07_echo_extraction.md, R183). -/
def PS_EMIT (e : Nat) : Nat := blockBase 0xB + 0x2400 + e * 0x4
/-- PS_CHOFS (07_echo_extraction.md, R183). -/
def PS_CHOFS (n : Nat) : Nat := blockBase 0xB + 0x3000 + n * 0x8
/-- PS_CHDIR (07_echo_extraction.md, R183). -/
def PS_CHDIR (n : Nat) : Nat := blockBase 0xB + 0x3004 + n * 0x8
/-- PS_CHPAR (07_echo_extraction.md, R183). -/
def PS_CHPAR (n : Nat) : Nat := blockBase 0xB + 0x5000 + n * 0x4
/-- TT_CTRL (08_rejection.md, R202). -/
def TT_CTRL : Nat := blockBase 0xB + 0x0
/-- TT_AGE (08_rejection.md, R202). -/
def TT_AGE : Nat := blockBase 0xB + 0x4
/-- TT_BASE_LO (08_rejection.md, R202). -/
def TT_BASE_LO : Nat := blockBase 0xB + 0x8
/-- TT_BASE_HI (08_rejection.md, R202). -/
def TT_BASE_HI : Nat := blockBase 0xB + 0xC
/-- TT_STAT (08_rejection.md, R202). -/
def TT_STAT : Nat := blockBase 0xB + 0x10
/-- TT_OCC (08_rejection.md, R202). -/
def TT_OCC : Nat := blockBase 0xB + 0x14
/-- TT_CNT_A (08_rejection.md, R202). -/
def TT_CNT_A : Nat := blockBase 0xB + 0x18
/-- TT_CNT_B (08_rejection.md, R202). -/
def TT_CNT_B : Nat := blockBase 0xB + 0x1C
/-- TT_CNT_C (08_rejection.md, R202). -/
def TT_CNT_C : Nat := blockBase 0xB + 0x20
/-- TT_CNT_D (08_rejection.md, R202). -/
def TT_CNT_D : Nat := blockBase 0xB + 0x24
/-- EGO_DXY (08_rejection.md, R202). -/
def EGO_DXY : Nat := blockBase 0xB + 0x40
/-- EGO_DZP (08_rejection.md, R202). -/
def EGO_DZP : Nat := blockBase 0xB + 0x44
/-- EGO_CTRL (08_rejection.md, R202). -/
def EGO_CTRL : Nat := blockBase 0xB + 0x48
/-- EGO_PSI (08_rejection.md, R202). -/
def EGO_PSI : Nat := blockBase 0xB + 0x4C
/-- CLS_CFG (08_rejection.md, R202). -/
def CLS_CFG : Nat := blockBase 0xB + 0x80
/-- CLS_CNT (08_rejection.md, R202). -/
def CLS_CNT (k : Nat) : Nat := blockBase 0xB + 0x90 + k * 0x4
/-- BL_CFG (08_rejection.md, R202). -/
def BL_CFG (g : Nat) : Nat := blockBase 0xB + 0x1000 + g * 0x10
/-- BL_STAT (08_rejection.md, R202). -/
def BL_STAT (g : Nat) : Nat := blockBase 0xB + 0x1004 + g * 0x10
/-- CTL_CTRL (09_beam_steering.md, R223). -/
def CTL_CTRL : Nat := blockBase 0x6 + 0x0
/-- CTL_STAT (09_beam_steering.md, R223). -/
def CTL_STAT : Nat := blockBase 0x6 + 0x4
/-- CTL_LOAD (09_beam_steering.md, R223). -/
def CTL_LOAD : Nat := blockBase 0x6 + 0x8
/-- SCN_CTRL (09_beam_steering.md, R224). -/
def SCN_CTRL (s : Nat) : Nat := blockBase 0x6 + 0x40 + s * 0x20
/-- SCN_START (09_beam_steering.md, R224). -/
def SCN_START (s : Nat) : Nat := blockBase 0x6 + 0x44 + s * 0x20
/-- SCN_PARK (09_beam_steering.md, R224). -/
def SCN_PARK (s : Nat) : Nat := blockBase 0x6 + 0x48 + s * 0x20
/-- SCN_STAT (09_beam_steering.md, R224). -/
def SCN_STAT (s : Nat) : Nat := blockBase 0x6 + 0x4C + s * 0x20
/-- SCN_CNT (09_beam_steering.md, R224). -/
def SCN_CNT (s : Nat) : Nat := blockBase 0x6 + 0x50 + s * 0x20
/-- SCN_MARK (09_beam_steering.md, R224). -/
def SCN_MARK (s : Nat) : Nat := blockBase 0x6 + 0x54 + s * 0x20
/-- AX_CFG (09_beam_steering.md, R225). -/
def AX_CFG (a : Nat) : Nat := blockBase 0x6 + 0x100 + a * 0x40
/-- AX_DRV (09_beam_steering.md, R225). -/
def AX_DRV (a : Nat) : Nat := blockBase 0x6 + 0x104 + a * 0x40
/-- AX_SWAP (09_beam_steering.md, R225). -/
def AX_SWAP (a : Nat) : Nat := blockBase 0x6 + 0x108 + a * 0x40
/-- AX_LIVE (09_beam_steering.md, R225). -/
def AX_LIVE (a : Nat) : Nat := blockBase 0x6 + 0x10C + a * 0x40
/-- AX_RES (09_beam_steering.md, R225). -/
def AX_RES (a : Nat) : Nat := blockBase 0x6 + 0x110 + a * 0x40
/-- AX_FREQ (09_beam_steering.md, R225). -/
def AX_FREQ (a : Nat) : Nat := blockBase 0x6 + 0x114 + a * 0x40
/-- AX_CNT (09_beam_steering.md, R225). -/
def AX_CNT (a : Nat) : Nat := blockBase 0x6 + 0x118 + a * 0x40
/-- AX_DLY (09_beam_steering.md, R225). -/
def AX_DLY (a : Nat) : Nat := blockBase 0x6 + 0x11C + a * 0x40
/-- AX_FF (09_beam_steering.md, R225). -/
def AX_FF (a : Nat) : Nat := blockBase 0x6 + 0x120 + a * 0x40
/-- AX_TRJ (09_beam_steering.md, R225). -/
def AX_TRJ (a : Nat) : Nat := blockBase 0x6 + 0x124 + a * 0x40
/-- EMG_CTRL (10_emission_governor.md, R244). -/
def EMG_CTRL : Nat := blockBase 0x7 + 0x0
/-- EMG_STAT (10_emission_governor.md, R244). -/
def EMG_STAT : Nat := blockBase 0x7 + 0x4
/-- EMG_E1 (10_emission_governor.md, R244). -/
def EMG_E1 : Nat := blockBase 0x7 + 0x8
/-- EMG_MON_SEL (10_emission_governor.md, R244). -/
def EMG_MON_SEL : Nat := blockBase 0x7 + 0x1C
/-- EMG_MON_VAL (10_emission_governor.md, R244). -/
def EMG_MON_VAL : Nat := blockBase 0x7 + 0x20
/-- EMG_EM100 (10_emission_governor.md, R244). -/
def EMG_EM100 : Nat := blockBase 0x7 + 0xC
/-- EMG_EM10S (10_emission_governor.md, R244). -/
def EMG_EM10S : Nat := blockBase 0x7 + 0x10
/-- EMG_EXP_CRC (10_emission_governor.md, R244). -/
def EMG_EXP_CRC : Nat := blockBase 0x7 + 0x14
/-- EMG_ACT_CRC (10_emission_governor.md, R244). -/
def EMG_ACT_CRC : Nat := blockBase 0x7 + 0x18
/-- EMG_REF (10_emission_governor.md, R244). -/
def EMG_REF (m : Nat) : Nat := blockBase 0x7 + 0x24 + m * 0x4
/-- EMG_EN (10_emission_governor.md, R244). -/
def EMG_EN (m : Nat) : Nat := blockBase 0x7 + 0x40 + m * 0x4
/-- EM_OFS (10_emission_governor.md, R244). -/
def EM_OFS (e : Nat) : Nat := blockBase 0x7 + 0x400 + e * 0x4
/-- SEC_X (10_emission_governor.md, R245). -/
def SEC_X (s : Nat) : Nat := blockBase 0x7 + 0x80 + s * 0x20
/-- SEC_Y (10_emission_governor.md, R245). -/
def SEC_Y (s : Nat) : Nat := blockBase 0x7 + 0x84 + s * 0x20
/-- SEC_SLEW (10_emission_governor.md, R245). -/
def SEC_SLEW (s : Nat) : Nat := blockBase 0x7 + 0x88 + s * 0x20
/-- SEC_CFG (10_emission_governor.md, R245). -/
def SEC_CFG (s : Nat) : Nat := blockBase 0x7 + 0x8C + s * 0x20
/-- SEC_C100 (10_emission_governor.md, R245). -/
def SEC_C100 (s : Nat) : Nat := blockBase 0x7 + 0x90 + s * 0x20
/-- SEC_C10S (10_emission_governor.md, R245). -/
def SEC_C10S (s : Nat) : Nat := blockBase 0x7 + 0x94 + s * 0x20
/-- SEC_STAT (10_emission_governor.md, R245). -/
def SEC_STAT (s : Nat) : Nat := blockBase 0x7 + 0x98 + s * 0x20
/-- BANK_CFG (10_emission_governor.md, R246). -/
def BANK_CFG (b : Nat) : Nat := blockBase 0x7 + 0x100 + b * 0x20
/-- BANK_CAL (10_emission_governor.md, R246). -/
def BANK_CAL (b : Nat) : Nat := blockBase 0x7 + 0x104 + b * 0x20
/-- BANK_SNS (10_emission_governor.md, R246). -/
def BANK_SNS (b : Nat) : Nat := blockBase 0x7 + 0x108 + b * 0x20
/-- BANK_REF (10_emission_governor.md, R246). -/
def BANK_REF (b : Nat) : Nat := blockBase 0x7 + 0x10C + b * 0x20
/-- BANK_STAT (10_emission_governor.md, R246). -/
def BANK_STAT (b : Nat) : Nat := blockBase 0x7 + 0x110 + b * 0x20
/-- BANK_MEAS (10_emission_governor.md, R246). -/
def BANK_MEAS (b : Nat) : Nat := blockBase 0x7 + 0x114 + b * 0x20
/-- BANK_CNT (10_emission_governor.md, R246). -/
def BANK_CNT (b : Nat) : Nat := blockBase 0x7 + 0x118 + b * 0x20
/-- SAF_CTRL (11_safety.md, R277). -/
def SAF_CTRL : Nat := blockBase 0xC + 0x0
/-- SAF_STAT (11_safety.md, R277). -/
def SAF_STAT : Nat := blockBase 0xC + 0x4
/-- SAF_ACT (11_safety.md, R277). -/
def SAF_ACT : Nat := blockBase 0xC + 0x10
/-- SAF_OSSD (11_safety.md, R277). -/
def SAF_OSSD : Nat := blockBase 0xC + 0x14
/-- SAF_FIELDS (11_safety.md, R277). -/
def SAF_FIELDS : Nat := blockBase 0xC + 0x18
/-- SAF_INPUTS (11_safety.md, R277). -/
def SAF_INPUTS : Nat := blockBase 0xC + 0x1C
/-- SAF_INSTATE (11_safety.md, R277). -/
def SAF_INSTATE : Nat := blockBase 0xC + 0x20
/-- SAF_FAULT (11_safety.md, R277). -/
def SAF_FAULT : Nat := blockBase 0xC + 0x24
/-- SAF_CNT_A (11_safety.md, R277). -/
def SAF_CNT_A : Nat := blockBase 0xC + 0x28
/-- SAF_CNT_B (11_safety.md, R277). -/
def SAF_CNT_B : Nat := blockBase 0xC + 0x2C
/-- SAF_EVAL (11_safety.md, R277). -/
def SAF_EVAL : Nat := blockBase 0xC + 0x30
/-- SAF_EXP_CRC (11_safety.md, R277). -/
def SAF_EXP_CRC : Nat := blockBase 0xC + 0x8
/-- SAF_ACT_CRC (11_safety.md, R277). -/
def SAF_ACT_CRC : Nat := blockBase 0xC + 0xC
/-- HK_CTRL (12_housekeeping.md, R304). -/
def HK_CTRL : Nat := blockBase 0x4 + 0x0
/-- HK_STAT (12_housekeeping.md, R304). -/
def HK_STAT : Nat := blockBase 0x4 + 0x4
/-- HK_ROUND (12_housekeeping.md, R304). -/
def HK_ROUND : Nat := blockBase 0x4 + 0x8
/-- HK_CNT (12_housekeeping.md, R304). -/
def HK_CNT : Nat := blockBase 0x4 + 0xC
/-- HK_RIP (12_housekeeping.md, R304). -/
def HK_RIP : Nat := blockBase 0x4 + 0x10
/-- HKS_CFG (12_housekeeping.md, R305). -/
def HKS_CFG (i : Nat) : Nat := blockBase 0x4 + 0x1000 + i * 0x10
/-- HKS_TIME (12_housekeeping.md, R305). -/
def HKS_TIME (i : Nat) : Nat := blockBase 0x4 + 0x1004 + i * 0x10
/-- HKS_LIM (12_housekeeping.md, R305). -/
def HKS_LIM (i : Nat) : Nat := blockBase 0x4 + 0x1008 + i * 0x10
/-- HKS_RES (12_housekeeping.md, R305). -/
def HKS_RES (i : Nat) : Nat := blockBase 0x4 + 0x2000 + i * 0x10
/-- HKS_INFO (12_housekeeping.md, R305). -/
def HKS_INFO (i : Nat) : Nat := blockBase 0x4 + 0x200C + i * 0x10
/-- HKS_TS_LO (12_housekeeping.md, R305). -/
def HKS_TS_LO (i : Nat) : Nat := blockBase 0x4 + 0x2004 + i * 0x10
/-- HKS_TS_HI (12_housekeeping.md, R305). -/
def HKS_TS_HI (i : Nat) : Nat := blockBase 0x4 + 0x2008 + i * 0x10
/-- DEC_CTRL (12_housekeeping.md, R306). -/
def DEC_CTRL : Nat := blockBase 0x5 + 0x0
/-- DEC_STAT (12_housekeeping.md, R306). -/
def DEC_STAT : Nat := blockBase 0x5 + 0x8
/-- DEC_HIST_BASE_LO (12_housekeeping.md, R306). -/
def DEC_HIST_BASE_LO : Nat := blockBase 0x5 + 0x10
/-- DEC_HIST_BASE_HI (12_housekeeping.md, R306). -/
def DEC_HIST_BASE_HI : Nat := blockBase 0x5 + 0x14
/-- DEC_CFG (12_housekeeping.md, R306). -/
def DEC_CFG (c : Nat) : Nat := blockBase 0x5 + 0x100 + c * 0x40
/-- DEC_DLY (12_housekeeping.md, R306). -/
def DEC_DLY (c : Nat) : Nat := blockBase 0x5 + 0x104 + c * 0x40
/-- DEC_LIN (12_housekeeping.md, R306). -/
def DEC_LIN (c : Nat) : Nat := blockBase 0x5 + 0x108 + c * 0x40
/-- DEC_DET (12_housekeeping.md, R306). -/
def DEC_DET (c : Nat) : Nat := blockBase 0x5 + 0x120 + c * 0x40
/-- DEC_OUT (12_housekeeping.md, R306). -/
def DEC_OUT (c : Nat) : Nat := blockBase 0x5 + 0x124 + c * 0x40
/-- DEC_PK (12_housekeeping.md, R306). -/
def DEC_PK (c : Nat) : Nat := blockBase 0x5 + 0x128 + c * 0x40
/-- DEC_RMS (12_housekeeping.md, R306). -/
def DEC_RMS (c : Nat) : Nat := blockBase 0x5 + 0x12C + c * 0x40
/-- DEC_ENV (12_housekeeping.md, R306). -/
def DEC_ENV (c : Nat) : Nat := blockBase 0x5 + 0x130 + c * 0x40
/-- DEC_IDX (12_housekeeping.md, R306). -/
def DEC_IDX (c : Nat) : Nat := blockBase 0x5 + 0x134 + c * 0x40
/-- DEC_CNT (12_housekeeping.md, R306). -/
def DEC_CNT (c : Nat) : Nat := blockBase 0x5 + 0x138 + c * 0x40
/-- DEC_C (12_housekeeping.md, R306). -/
def DEC_C (c : Nat) (m : Nat) : Nat := blockBase 0x5 + 0x10C + c * 0x40 + m * 0x4
/-- THM_CTRL (13_thermal.md, R320). -/
def THM_CTRL : Nat := blockBase 0x3 + 0x0
/-- THM_STAT (13_thermal.md, R320). -/
def THM_STAT : Nat := blockBase 0x3 + 0x4
/-- THM_TCTL (13_thermal.md, R320). -/
def THM_TCTL : Nat := blockBase 0x3 + 0x8
/-- THM_IGN (13_thermal.md, R320). -/
def THM_IGN : Nat := blockBase 0x3 + 0xC
/-- THM_CNT (13_thermal.md, R320). -/
def THM_CNT : Nat := blockBase 0x3 + 0x10
/-- THM_SENS (13_thermal.md, R320). -/
def THM_SENS (s : Nat) : Nat := blockBase 0x3 + 0x100 + s * 0x4
/-- MEM_RCFG (14_memory.md, R327). -/
def MEM_RCFG (r : Nat) : Nat := blockBase 0xF + 0x8010 + r * 0x10
/-- MEM_RSTAT (14_memory.md, R327). -/
def MEM_RSTAT (r : Nat) : Nat := blockBase 0xF + 0x8014 + r * 0x10
/-- MEM_RCNT (14_memory.md, R327). -/
def MEM_RCNT (r : Nat) : Nat := blockBase 0xF + 0x8018 + r * 0x10
/-- MEM_RADDR (14_memory.md, R327). -/
def MEM_RADDR (r : Nat) : Nat := blockBase 0xF + 0x801C + r * 0x10
/-- CM_TQ_BASE (14_memory.md, R332). -/
def CM_TQ_BASE : Nat := blockBase 0xF + 0x8080
/-- CM_SPILL_BASE (14_memory.md, R332). -/
def CM_SPILL_BASE : Nat := blockBase 0xF + 0x8084
/-- CM_SPILL_LEN (14_memory.md, R332). -/
def CM_SPILL_LEN : Nat := blockBase 0xF + 0x8088
/-- CM_GAP_BASE (14_memory.md, R332). -/
def CM_GAP_BASE : Nat := blockBase 0xF + 0x808C
/-- CM_GAP_LEN (14_memory.md, R332). -/
def CM_GAP_LEN : Nat := blockBase 0xF + 0x8090
/-- CM_CHECK (14_memory.md, R332). -/
def CM_CHECK : Nat := blockBase 0xF + 0x8094
/-- DRC_CTRL (14_memory.md, R348). -/
def DRC_CTRL : Nat := blockBase 0xF + 0x0
/-- DRC_STAT (14_memory.md, R348). -/
def DRC_STAT : Nat := blockBase 0xF + 0x4
/-- DRC_GEOM (14_memory.md, R348). -/
def DRC_GEOM : Nat := blockBase 0xF + 0x8
/-- DRC_TIM0 (14_memory.md, R348). -/
def DRC_TIM0 : Nat := blockBase 0xF + 0xC
/-- DRC_TIM1 (14_memory.md, R348). -/
def DRC_TIM1 : Nat := blockBase 0xF + 0x10
/-- DRC_TIM2 (14_memory.md, R348). -/
def DRC_TIM2 : Nat := blockBase 0xF + 0x14
/-- DRC_REF (14_memory.md, R348). -/
def DRC_REF : Nat := blockBase 0xF + 0x18
/-- DRC_TEMP (14_memory.md, R348). -/
def DRC_TEMP : Nat := blockBase 0xF + 0x1C
/-- DRC_PD (14_memory.md, R348). -/
def DRC_PD : Nat := blockBase 0xF + 0x20
/-- DRC_ERR_LO (14_memory.md, R348). -/
def DRC_ERR_LO : Nat := blockBase 0xF + 0x24
/-- DRC_ERR_HI (14_memory.md, R348). -/
def DRC_ERR_HI : Nat := blockBase 0xF + 0x28
/-- DRC_CNT_A (14_memory.md, R348). -/
def DRC_CNT_A : Nat := blockBase 0xF + 0x2C
/-- DRC_CNT_B (14_memory.md, R348). -/
def DRC_CNT_B : Nat := blockBase 0xF + 0x30
/-- DRC_SCRUB (14_memory.md, R348). -/
def DRC_SCRUB : Nat := blockBase 0xF + 0x34
/-- DRC_PORT (14_memory.md, R349). -/
def DRC_PORT (p : Nat) : Nat := blockBase 0xF + 0x40 + p * 0x4
/-- DRC_PLAT (14_memory.md, R349). -/
def DRC_PLAT (p : Nat) : Nat := blockBase 0xF + 0x60 + p * 0x4
/-- DRC_MR (14_memory.md, R349). -/
def DRC_MR (i : Nat) : Nat := blockBase 0xF + 0x80 + i * 0x4
/-- DLY_W (14_memory.md, R349). -/
def DLY_W (rank : Nat) (l : Nat) : Nat := blockBase 0xF + 0x100 + rank * 0x100 + l * 0x10
/-- DLY_R (14_memory.md, R349). -/
def DLY_R (rank : Nat) (l : Nat) : Nat := blockBase 0xF + 0x104 + rank * 0x100 + l * 0x10
/-- DLY_V (14_memory.md, R349). -/
def DLY_V (rank : Nat) (l : Nat) : Nat := blockBase 0xF + 0x108 + rank * 0x100 + l * 0x10
/-- DLY_CA (14_memory.md, R349). -/
def DLY_CA : Nat := blockBase 0xF + 0x300
/-- DRC_TEST (14_memory.md, R349). -/
def DRC_TEST : Nat := blockBase 0xF + 0x310
/-- SLQ_CTRL (15_queues_dma.md, R369). -/
def SLQ_CTRL : Nat := blockBase 0xE + 0x0
/-- SLQ_POOL_C (15_queues_dma.md, R369). -/
def SLQ_POOL_C : Nat := blockBase 0xE + 0xC
/-- SLQ_POOL_S (15_queues_dma.md, R369). -/
def SLQ_POOL_S : Nat := blockBase 0xE + 0x10
/-- SLQ_STAT (15_queues_dma.md, R369). -/
def SLQ_STAT : Nat := blockBase 0xE + 0x14
/-- SLQ_GRP (15_queues_dma.md, R369). -/
def SLQ_GRP : Nat := blockBase 0xE + 0x18
/-- SLQ_SD_BASE_LO (15_queues_dma.md, R369). -/
def SLQ_SD_BASE_LO : Nat := blockBase 0xE + 0x4
/-- SLQ_SD_BASE_HI (15_queues_dma.md, R369). -/
def SLQ_SD_BASE_HI : Nat := blockBase 0xE + 0x8
/-- SLQ_ROUTE (15_queues_dma.md, R369). -/
def SLQ_ROUTE (t : Nat) : Nat := blockBase 0xE + 0x40 + t * 0x4
/-- SLQ_CFG (15_queues_dma.md, R370). -/
def SLQ_CFG (q : Nat) : Nat := blockBase 0xE + 0x1000 + q * 0x20
/-- SLQ_QSTAT (15_queues_dma.md, R370). -/
def SLQ_QSTAT (q : Nat) : Nat := blockBase 0xE + 0x1004 + q * 0x20
/-- SLQ_LEVEL (15_queues_dma.md, R370). -/
def SLQ_LEVEL (q : Nat) : Nat := blockBase 0xE + 0x1008 + q * 0x20
/-- SLQ_CNT (15_queues_dma.md, R370). -/
def SLQ_CNT (q : Nat) : Nat := blockBase 0xE + 0x100C + q * 0x20
/-- SLQ_LOST (15_queues_dma.md, R370). -/
def SLQ_LOST (q : Nat) : Nat := blockBase 0xE + 0x1010 + q * 0x20
/-- DMA_CFG (15_queues_dma.md, R371). -/
def DMA_CFG (n : Nat) : Nat := blockBase 0xD + 0x100 + n * 0x40
/-- DMA_RING_LO (15_queues_dma.md, R371). -/
def DMA_RING_LO (n : Nat) : Nat := blockBase 0xD + 0x104 + n * 0x40
/-- DMA_RING_HI (15_queues_dma.md, R371). -/
def DMA_RING_HI (n : Nat) : Nat := blockBase 0xD + 0x108 + n * 0x40
/-- DMA_TAIL (15_queues_dma.md, R371). -/
def DMA_TAIL (n : Nat) : Nat := blockBase 0xD + 0x10C + n * 0x40
/-- DMA_HEAD (15_queues_dma.md, R371). -/
def DMA_HEAD (n : Nat) : Nat := blockBase 0xD + 0x110 + n * 0x40
/-- DMA_COUNT (15_queues_dma.md, R371). -/
def DMA_COUNT (n : Nat) : Nat := blockBase 0xD + 0x114 + n * 0x40
/-- DMA_CRC (15_queues_dma.md, R371). -/
def DMA_CRC (n : Nat) : Nat := blockBase 0xD + 0x118 + n * 0x40
/-- DMA_STAT (15_queues_dma.md, R371). -/
def DMA_STAT (n : Nat) : Nat := blockBase 0xD + 0x11C + n * 0x40
/-- DMA_CNT (15_queues_dma.md, R371). -/
def DMA_CNT (n : Nat) : Nat := blockBase 0xD + 0x128 + n * 0x40
/-- DMA_ERR_LO (15_queues_dma.md, R371). -/
def DMA_ERR_LO (n : Nat) : Nat := blockBase 0xD + 0x120 + n * 0x40
/-- DMA_ERR_HI (15_queues_dma.md, R371). -/
def DMA_ERR_HI (n : Nat) : Nat := blockBase 0xD + 0x124 + n * 0x40
/-- LN_CTRL (16_lanes_cascade.md, R401). -/
def LN_CTRL (p : Nat) : Nat := blockBase 0x10 + 0x0 + p * 0x10000
/-- LN_STAT (16_lanes_cascade.md, R401). -/
def LN_STAT (p : Nat) : Nat := blockBase 0x10 + 0x4 + p * 0x10000
/-- LN_CFG (16_lanes_cascade.md, R401). -/
def LN_CFG (p : Nat) : Nat := blockBase 0x10 + 0x8 + p * 0x10000
/-- LN_CNT_A (16_lanes_cascade.md, R401). -/
def LN_CNT_A (p : Nat) : Nat := blockBase 0x10 + 0xC + p * 0x10000
/-- LN_CNT_B (16_lanes_cascade.md, R401). -/
def LN_CNT_B (p : Nat) : Nat := blockBase 0x10 + 0x10 + p * 0x10000
/-- LN_TX (16_lanes_cascade.md, R401). -/
def LN_TX (p : Nat) (l : Nat) : Nat := blockBase 0x10 + 0x20 + p * 0x10000 + l * 0x4
/-- LN_RX (16_lanes_cascade.md, R401). -/
def LN_RX (p : Nat) (l : Nat) : Nat := blockBase 0x10 + 0x40 + p * 0x10000 + l * 0x4
/-- LN_PRBS (16_lanes_cascade.md, R401). -/
def LN_PRBS (p : Nat) (l : Nat) : Nat := blockBase 0x10 + 0x60 + p * 0x10000 + l * 0x4
/-- HWIN1_BASE_LO (16_lanes_cascade.md, R401). -/
def HWIN1_BASE_LO : Nat := blockBase 0x10 + 0x100
/-- HWIN1_BASE_HI (16_lanes_cascade.md, R401). -/
def HWIN1_BASE_HI : Nat := blockBase 0x10 + 0x104
/-- RING_CFG (16_lanes_cascade.md, R402). -/
def RING_CFG : Nat := blockBase 0x11 + 0x1000
/-- RING_STAT (16_lanes_cascade.md, R402). -/
def RING_STAT : Nat := blockBase 0x11 + 0x1004
/-- RING_RTT (16_lanes_cascade.md, R402). -/
def RING_RTT : Nat := blockBase 0x11 + 0x1008
/-- RING_ALIGN (16_lanes_cascade.md, R402). -/
def RING_ALIGN : Nat := blockBase 0x11 + 0x100C
/-- RING_ASYM (16_lanes_cascade.md, R402). -/
def RING_ASYM : Nat := blockBase 0x11 + 0x1010
/-- RING_CNT (16_lanes_cascade.md, R402). -/
def RING_CNT : Nat := blockBase 0x11 + 0x1014
/-- RING_CNT_B (16_lanes_cascade.md, R402). -/
def RING_CNT_B : Nat := blockBase 0x11 + 0x1018
/-- RING_MAP (16_lanes_cascade.md, R402). -/
def RING_MAP : Nat := blockBase 0x11 + 0x101C
/-- EVT_CTRL (17_dictionary.md, R431). -/
def EVT_CTRL : Nat := blockBase 0x2 + 0x0
/-- EVT_STAT (17_dictionary.md, R431). -/
def EVT_STAT : Nat := blockBase 0x2 + 0x4
/-- EVT_REPUB (17_dictionary.md, R431). -/
def EVT_REPUB : Nat := blockBase 0x2 + 0x10
/-- EVT_IRQ (17_dictionary.md, R431). -/
def EVT_IRQ (k : Nat) : Nat := blockBase 0x2 + 0x8 + k * 0x4
/-- EV_FLAG (17_dictionary.md, R431). -/
def EV_FLAG (w : Nat) : Nat := blockBase 0x2 + 0x100 + w * 0x4
/-- EV_ROUTE (17_dictionary.md, R431). -/
def EV_ROUTE (n : Nat) : Nat := blockBase 0x2 + 0x1000 + n * 0x4
/-- UNIT_STATE (17_dictionary.md, R431). -/
def UNIT_STATE (u : Nat) : Nat := blockBase 0x2 + 0x2000 + u * 0x4
/-- CAN_CFG (17_dictionary.md, R432). -/
def CAN_CFG (c : Nat) : Nat := blockBase 0x13 + 0x0 + c * 0x40
/-- CAN_STAT (17_dictionary.md, R432). -/
def CAN_STAT (c : Nat) : Nat := blockBase 0x13 + 0x4 + c * 0x40
/-- CAN_CNT (17_dictionary.md, R432). -/
def CAN_CNT (c : Nat) : Nat := blockBase 0x13 + 0x8 + c * 0x40
/-- ETH_CFG (17_dictionary.md, R433). -/
def ETH_CFG (k : Nat) : Nat := blockBase 0x14 + 0x0 + k * 0x100
/-- ETH_STAT (17_dictionary.md, R433). -/
def ETH_STAT (k : Nat) : Nat := blockBase 0x14 + 0x4 + k * 0x100
/-- ETH_CNT (17_dictionary.md, R433). -/
def ETH_CNT (k : Nat) : Nat := blockBase 0x14 + 0x8 + k * 0x100
/-- ETH_MAC_LO (17_dictionary.md, R433). -/
def ETH_MAC_LO (k : Nat) : Nat := blockBase 0x14 + 0xC + k * 0x100
/-- ETH_MAC_HI (17_dictionary.md, R433). -/
def ETH_MAC_HI (k : Nat) : Nat := blockBase 0x14 + 0x10 + k * 0x100
/-- ETH_IP (17_dictionary.md, R433). -/
def ETH_IP (k : Nat) : Nat := blockBase 0x14 + 0x14 + k * 0x100
/-- ETH_PEER_IP (17_dictionary.md, R433). -/
def ETH_PEER_IP (k : Nat) : Nat := blockBase 0x14 + 0x18 + k * 0x100
/-- ETH_UDP (17_dictionary.md, R433). -/
def ETH_UDP (k : Nat) : Nat := blockBase 0x14 + 0x1C + k * 0x100
/-- ETH_TS_CORR (17_dictionary.md, R433). -/
def ETH_TS_CORR (k : Nat) : Nat := blockBase 0x14 + 0x20 + k * 0x100
/-- SEC_STAT of block SEC (18_identity.md, R454). -/
def SECU_STAT : Nat := blockBase 0x15 + 0x0
/-- SEC_OTP (18_identity.md, R454). -/
def SEC_OTP : Nat := blockBase 0x15 + 0x4
/-- SEC_CMD (18_identity.md, R454). -/
def SEC_CMD : Nat := blockBase 0x15 + 0x8
/-- SEC_CMD_STAT (18_identity.md, R454). -/
def SEC_CMD_STAT : Nat := blockBase 0x15 + 0xC
/-- SEC_LEN (18_identity.md, R454). -/
def SEC_LEN : Nat := blockBase 0x15 + 0x18
/-- SEC_CNT (18_identity.md, R454). -/
def SEC_CNT : Nat := blockBase 0x15 + 0x1C
/-- SEC_ARG_LO (18_identity.md, R454). -/
def SEC_ARG_LO : Nat := blockBase 0x15 + 0x10
/-- SEC_ARG_HI (18_identity.md, R454). -/
def SEC_ARG_HI : Nat := blockBase 0x15 + 0x14
/-- SYS_MODE (19_modes_recovery.md, R472). -/
def SYS_MODE : Nat := blockBase 0x0 + 0x0
/-- SYS_CFG (19_modes_recovery.md, R472). -/
def SYS_CFG : Nat := blockBase 0x0 + 0x4
/-- SYS_RESET (19_modes_recovery.md, R472). -/
def SYS_RESET : Nat := blockBase 0x0 + 0x8
/-- SYS_CAUSE (19_modes_recovery.md, R472). -/
def SYS_CAUSE : Nat := blockBase 0x0 + 0xC
/-- SYS_REINIT (19_modes_recovery.md, R472). -/
def SYS_REINIT : Nat := blockBase 0x0 + 0x10
/-- SYS_DECERR_LO (19_modes_recovery.md, R472). -/
def SYS_DECERR_LO : Nat := blockBase 0x0 + 0x14
/-- SYS_DECERR_HI (19_modes_recovery.md, R472). -/
def SYS_DECERR_HI : Nat := blockBase 0x0 + 0x18
/-- SYS_CNT (19_modes_recovery.md, R472). -/
def SYS_CNT : Nat := blockBase 0x0 + 0x1C
/-- SYS_WDT (19_modes_recovery.md, R472). -/
def SYS_WDT : Nat := blockBase 0x0 + 0x20
/-- CLK_STAT (20_clocks_power.md, R480). -/
def CLK_STAT : Nat := blockBase 0x1 + 0x0
/-- CLK_CNT (20_clocks_power.md, R480). -/
def CLK_CNT : Nat := blockBase 0x1 + 0x4
/-- CLK_OFS (20_clocks_power.md, R480). -/
def CLK_OFS : Nat := blockBase 0x1 + 0x8
/-- CLK_GATE0 (20_clocks_power.md, R480). -/
def CLK_GATE0 : Nat := blockBase 0x1 + 0x10
/-- CLK_ACT0 (20_clocks_power.md, R480). -/
def CLK_ACT0 : Nat := blockBase 0x1 + 0x14
/-- CLK_ACT1 (20_clocks_power.md, R480). -/
def CLK_ACT1 : Nat := blockBase 0x1 + 0x18

end R

/-! ### Fields -/
namespace F

def FE_CFG_EN : Fld := ⟨31, 31, .rw, 0x0⟩
def FE_CFG_GAIN : Fld := ⟨30, 30, .rw, 0x0⟩
def FE_CFG_HYST : Fld := ⟨29, 28, .rw, 0x1⟩
def FE_CFG_TH_HIGH : Fld := ⟨25, 16, .rw, 0x0⟩
def FE_CFG_TH_LOW : Fld := ⟨9, 0, .rw, 0x20⟩
def FE_ACT_EN : Fld := ⟨31, 31, .ro, 0x0⟩
def FE_ACT_GAIN : Fld := ⟨30, 30, .ro, 0x0⟩
def FE_ACT_HYST : Fld := ⟨29, 28, .ro, 0x1⟩
def FE_ACT_PEND : Fld := ⟨27, 27, .ro, 0x0⟩
def FE_ACT_TH_HIGH : Fld := ⟨25, 16, .ro, 0x0⟩
def FE_ACT_TH_LOW : Fld := ⟨9, 0, .ro, 0x20⟩
def FE_MODE_POL : Fld := ⟨4, 4, .rwm, 0x0⟩
def FE_MODE_DCR_BW : Fld := ⟨3, 2, .rwm, 0x2⟩
def FE_MODE_DCR_HOLD : Fld := ⟨1, 1, .rwm, 0x1⟩
def FE_TEST_TEST_EN : Fld := ⟨31, 31, .rw, 0x0⟩
def FE_TEST_PAIR : Fld := ⟨30, 30, .rw, 0x0⟩
def FE_TEST_EVERY : Fld := ⟨29, 26, .rw, 0x0⟩
def FE_TEST_WIDTH : Fld := ⟨25, 21, .rw, 0x5⟩
def FE_TEST_AMP : Fld := ⟨7, 0, .rw, 0x0⟩
def FE_TEST_TIME_DELAY : Fld := ⟨15, 0, .rw, 0x0⟩
def FE_STAT_STATE : Fld := ⟨31, 30, .ro, 0x0⟩
def FE_STAT_DCR_LIM : Fld := ⟨29, 29, .ro, 0x0⟩
def FE_STAT_CLAMP_NOW : Fld := ⟨28, 28, .ro, 0x0⟩
def FE_STAT_CNT_CLR : Fld := ⟨8, 8, .wo, 0x0⟩
def FE_STAT_TMISS : Fld := ⟨4, 4, .w1c, 0x0⟩
def FE_STAT_TH_ORDER : Fld := ⟨3, 3, .w1c, 0x0⟩
def FE_STAT_OVL : Fld := ⟨2, 2, .w1c, 0x0⟩
def FE_STAT_SKIP : Fld := ⟨1, 1, .w1c, 0x0⟩
def FE_STAT_SAT : Fld := ⟨0, 0, .w1c, 0x0⟩
def FE_BASELINE_GAIN : Fld := ⟨16, 16, .ro, 0x0⟩
def FE_BASELINE_CURRENT : Fld := ⟨15, 0, .ro, 0x0⟩
def FE_CNT_A_TEST_HIT : Fld := ⟨31, 16, .ro, 0x0⟩
def FE_CNT_A_TEST_MISS : Fld := ⟨15, 0, .ro, 0x0⟩
def FE_CNT_B_CLAMP_SHOTS : Fld := ⟨31, 16, .ro, 0x0⟩
def FE_CNT_B_REC_DROP : Fld := ⟨15, 0, .ro, 0x0⟩
def FE_TRIM_TRIM_OK : Fld := ⟨31, 31, .ro, 0x0⟩
def FE_TRIM_OFS_HIGH : Fld := ⟨15, 8, .ro, 0x80⟩
def FE_TRIM_OFS_LOW : Fld := ⟨7, 0, .ro, 0x80⟩
def FE_TILE_CTRL_AUTOTRIM : Fld := ⟨31, 31, .w1s, 0x0⟩
def FE_TILE_CTRL_MISS_LIM : Fld := ⟨19, 16, .rw, 0x3⟩
def FE_TILE_CTRL_TOL : Fld := ⟨11, 8, .rw, 0x2⟩
def FE_TILE_CTRL_FE_FAULT_MASK : Fld := ⟨2, 0, .rw, 0x7⟩
def FE_TILE_SUM_FAULT_CH : Fld := ⟨15, 0, .ro, 0x0⟩
def BIAS_REF_CODE : Fld := ⟨13, 0, .rw, 0x0⟩
def BIAS_LIM_MAX : Fld := ⟨29, 16, .rwm, 0x0⟩
def BIAS_LIM_SLEW : Fld := ⟨9, 0, .rwm, 0x10⟩
def BIAS_MON_ACTION : Fld := ⟨31, 30, .rw, 0x1⟩
def BIAS_MON_HI : Fld := ⟨25, 16, .rw, 0x3FF⟩
def BIAS_MON_LO : Fld := ⟨9, 0, .rw, 0x0⟩
def BIAS_STAT_MOVE : Fld := ⟨31, 31, .ro, 0x0⟩
def BIAS_STAT_WIN_HI : Fld := ⟨30, 30, .w1c, 0x0⟩
def BIAS_STAT_WIN_LO : Fld := ⟨29, 29, .w1c, 0x0⟩
def BIAS_STAT_CLIP : Fld := ⟨28, 28, .w1c, 0x0⟩
def BIAS_STAT_MON : Fld := ⟨27, 18, .ro, 0x0⟩
def BIAS_STAT_OUT : Fld := ⟨13, 0, .ro, 0x0⟩
def TDC_CTRL_CAL_MODE : Fld := ⟨31, 31, .rw, 0x1⟩
def TDC_CTRL_ROLL_EN : Fld := ⟨30, 30, .rw, 0x1⟩
def TDC_CTRL_FILL_ALL : Fld := ⟨29, 29, .w1s, 0x0⟩
def TDC_CTRL_STALE_DT : Fld := ⟨23, 16, .rw, 0x8⟩
def TDC_CTRL_FILL_MS : Fld := ⟨12, 8, .rw, 0x10⟩
def TDC_CTRL_MIN_HITS : Fld := ⟨2, 0, .rw, 0x5⟩
def TDC_CLK_CUR_MODE : Fld := ⟨31, 31, .ro, 0x0⟩
def TDC_CLK_PEND : Fld := ⟨30, 30, .ro, 0x0⟩
def TDC_CLK_RELOCK : Fld := ⟨29, 29, .ro, 0x0⟩
def TDC_CLK_FORCE : Fld := ⟨1, 1, .wo, 0x0⟩
def TDC_CLK_REQ_MODE : Fld := ⟨0, 0, .rw, 0x0⟩
def TDC_CAL_GAP_GAP_WARM : Fld := ⟨23, 16, .rw, 0x18⟩
def TDC_CAL_GAP_GAP_NORMAL : Fld := ⟨15, 8, .rw, 0x54⟩
def TDC_CAL_GAP_GAP_COLD : Fld := ⟨7, 0, .rw, 0x0⟩
def TDC_CAL_STAT_FILLING : Fld := ⟨31, 31, .ro, 0x0⟩
def TDC_CAL_STAT_FILL_UNIT : Fld := ⟨30, 24, .ro, 0x0⟩
def TDC_CAL_STAT_ROUNDS : Fld := ⟨23, 16, .ro, 0x0⟩
def TDC_CAL_STAT_CNT_CLR : Fld := ⟨8, 8, .wo, 0x0⟩
def TDC_CAL_STAT_REPLICA : Fld := ⟨5, 5, .w1c, 0x0⟩
def TDC_CAL_STAT_XMODE : Fld := ⟨4, 4, .w1c, 0x0⟩
def TDC_CAL_STAT_STALE : Fld := ⟨3, 3, .w1c, 0x0⟩
def TDC_CAL_STAT_STARVED : Fld := ⟨2, 2, .w1c, 0x0⟩
def TDC_CAL_STAT_DISCARD : Fld := ⟨1, 1, .w1c, 0x0⟩
def TDC_CAL_STAT_DLL_UNLOCK : Fld := ⟨0, 0, .w1c, 0x0⟩
def TDC_CD_MAP_UNITS : Fld := ⟨31, 0, .ro, 0x0⟩
def TDC_CNT_UNLOCK_CNT : Fld := ⟨31, 16, .ro, 0x0⟩
def TDC_CNT_REPLICA_CNT : Fld := ⟨15, 8, .ro, 0x0⟩
def TDC_CNT_STARVE_CNT : Fld := ⟨7, 0, .ro, 0x0⟩
def TB_LO_VALUE : Fld := ⟨31, 0, .ro, 0x0⟩
def TB_HI_VALUE : Fld := ⟨31, 0, .ro, 0x0⟩
def TB_LOAD_LO_VALUE : Fld := ⟨31, 0, .rwm, 0x0⟩
def TB_LOAD_HI_VALUE : Fld := ⟨31, 0, .rwm, 0x0⟩
def TB_CTRL_LOAD_LOW : Fld := ⟨9, 9, .w1c, 0x0⟩
def TB_CTRL_DENIED : Fld := ⟨8, 8, .w1c, 0x0⟩
def TB_CTRL_LOAD_PPS : Fld := ⟨1, 1, .rwm, 0x0⟩
def TB_CTRL_LOAD_NOW : Fld := ⟨0, 0, .rwm, 0x0⟩
def TDC_FAULT_UNLOCK_UNIT : Fld := ⟨22, 16, .ro, 0x0⟩
def TDC_FAULT_STARVE_UNIT : Fld := ⟨6, 0, .ro, 0x0⟩
def TAB_SEL_UNIT : Fld := ⟨30, 24, .rw, 0x0⟩
def TAB_SEL_INTERP : Fld := ⟨20, 16, .rw, 0x0⟩
def TAB_SEL_ENTRY : Fld := ⟨6, 0, .rw, 0x0⟩
def TAB_DATA_VALID : Fld := ⟨31, 31, .ro, 0x0⟩
def TAB_DATA_MODE : Fld := ⟨30, 30, .ro, 0x0⟩
def TAB_DATA_SRC : Fld := ⟨29, 29, .ro, 0x0⟩
def TAB_DATA_POS : Fld := ⟨11, 0, .ro, 0x8⟩
def TAB_INFO_VALID : Fld := ⟨31, 31, .ro, 0x0⟩
def TAB_INFO_MODE : Fld := ⟨30, 30, .ro, 0x0⟩
def TAB_INFO_TEMP : Fld := ⟨23, 16, .ro, 0x0⟩
def TAB_INFO_AGE : Fld := ⟨15, 0, .ro, 0x0⟩
def AUX_CFG_EN : Fld := ⟨31, 31, .rw, 0x0⟩
def AUX_CFG_EDGE : Fld := ⟨30, 29, .rw, 0x0⟩
def AUX_CFG_MODE : Fld := ⟨28, 27, .rw, 0x0⟩
def AUX_CFG_PRESC : Fld := ⟨23, 20, .rw, 0x0⟩
def AUX_CFG_AVG : Fld := ⟨19, 16, .rw, 0x0⟩
def AUX_CFG_TIMEOUT : Fld := ⟨7, 0, .rw, 0x64⟩
def AUX_STAT_VALID : Fld := ⟨31, 31, .ro, 0x0⟩
def AUX_STAT_GATE : Fld := ⟨30, 30, .ro, 0x0⟩
def AUX_STAT_FILL : Fld := ⟨20, 16, .ro, 0x0⟩
def AUX_STAT_CNT_CLR : Fld := ⟨2, 2, .wo, 0x0⟩
def AUX_STAT_LOST : Fld := ⟨1, 1, .w1c, 0x0⟩
def AUX_STAT_TIMEOUT : Fld := ⟨0, 0, .w1c, 0x0⟩
def AUX_TS_F_EMPTY : Fld := ⟨31, 31, .ro, 0x1⟩
def AUX_TS_F_FINE : Fld := ⟨6, 0, .ro, 0x0⟩
def AUX_TS_LO_TICK : Fld := ⟨31, 0, .ro, 0x0⟩
def AUX_TS_HI_TICK : Fld := ⟨31, 0, .ro, 0x0⟩
def AUX_PER_INT_PER_INT : Fld := ⟨31, 0, .ro, 0x0⟩
def AUX_PER_FRAC_PER_FRAC : Fld := ⟨15, 0, .ro, 0x0⟩
def AUX_CNT_LOST : Fld := ⟨31, 16, .ro, 0x0⟩
def AUX_CNT_EDGES : Fld := ⟨15, 0, .ro, 0x0⟩
def GATE_CFG_POL : Fld := ⟨31, 31, .rw, 0x0⟩
def GATE_CFG_STATE : Fld := ⟨30, 30, .ro, 0x0⟩
def GATE_CFG_FILT : Fld := ⟨7, 0, .rw, 0x4⟩
def SHT_CTRL_CODE_MODE : Fld := ⟨31, 31, .rwm, 0x0⟩
def SHT_CTRL_FRAME_SRC : Fld := ⟨30, 29, .rwm, 0x0⟩
def SHT_CTRL_CAL_RUN : Fld := ⟨28, 28, .rw, 0x0⟩
def SHT_CTRL_PW : Fld := ⟨19, 16, .rw, 0x4⟩
def SHT_CTRL_THROTTLE : Fld := ⟨3, 0, .ro, 0x0⟩
def SHT_TAB_BASE_OFS : Fld := ⟨23, 7, .rwm, 0x8000⟩
def SHT_VAL_BUSY : Fld := ⟨31, 31, .ro, 0x0⟩
def SHT_VAL_OK : Fld := ⟨30, 30, .ro, 0x0⟩
def SHT_VAL_PENDING : Fld := ⟨29, 29, .ro, 0x0⟩
def SHT_VAL_ERR : Fld := ⟨19, 16, .ro, 0x0⟩
def SHT_VAL_ERR_ROW : Fld := ⟨13, 0, .ro, 0x0⟩
def SHT_FRAME_LEN_FRAME_LEN : Fld := ⟨31, 0, .rw, 0x989680⟩
def SHT_FB_FB_POLICY : Fld := ⟨31, 31, .rw, 0x0⟩
def SHT_FB_FB_LIM : Fld := ⟨30, 28, .rw, 0x4⟩
def SHT_FB_FB_TOL : Fld := ⟨27, 24, .rw, 0x8⟩
def SHT_FB_FB_NOM : Fld := ⟨23, 16, .rw, 0xE⟩
def SHT_FB_FB_MAX : Fld := ⟨15, 8, .rw, 0x40⟩
def SHT_FB_FB_MIN : Fld := ⟨7, 0, .rw, 0x4⟩
def SHT_HOLD_MAX_DEFER : Fld := ⟨31, 16, .rw, 0x80⟩
def SHT_HOLD_EMIT_HOLD : Fld := ⟨15, 0, .rw, 0x4E2⟩
def SHT_STAT_DENIED : Fld := ⟨11, 11, .w1c, 0x0⟩
def SHT_STAT_CNT_CLR : Fld := ⟨10, 10, .wo, 0x0⟩
def SHT_STAT_GAP_LOST : Fld := ⟨9, 9, .w1c, 0x0⟩
def SHT_STAT_WPROT : Fld := ⟨8, 8, .w1c, 0x0⟩
def SHT_STAT_EARLY_MARK : Fld := ⟨7, 7, .w1c, 0x0⟩
def SHT_STAT_FRAME_CUT : Fld := ⟨6, 6, .w1c, 0x0⟩
def SHT_STAT_ROW_CRC : Fld := ⟨5, 5, .w1c, 0x0⟩
def SHT_STAT_LATE : Fld := ⟨4, 4, .w1c, 0x0⟩
def SHT_STAT_CONGEST : Fld := ⟨3, 3, .w1c, 0x0⟩
def SHT_STAT_BAD_FB : Fld := ⟨2, 2, .w1c, 0x0⟩
def SHT_STAT_NO_FB : Fld := ⟨1, 1, .w1c, 0x0⟩
def SHT_STAT_MARK_LOST : Fld := ⟨0, 0, .w1c, 0x0⟩
def SHT_BANK_RESUME : Fld := ⟨31, 16, .w1s, 0x0⟩
def SHT_BANK_HALTED : Fld := ⟨15, 0, .ro, 0x0⟩
def SHT_FRAME_NO_FRAME_NO : Fld := ⟨31, 0, .ro, 0x0⟩
def SHT_NODE_NODE_ID : Fld := ⟨15, 0, .ro, 0x0⟩
def SHT_SEQ_LO_SEQ_LO : Fld := ⟨31, 0, .ro, 0x0⟩
def SHT_SEQ_HI_SEQ_HI : Fld := ⟨15, 0, .ro, 0x0⟩
def SHT_CNT_A_DEFER_CNT : Fld := ⟨31, 16, .ro, 0x0⟩
def SHT_CNT_A_EARLY_CNT : Fld := ⟨15, 8, .ro, 0x0⟩
def SHT_CNT_A_LATE_CNT : Fld := ⟨7, 0, .ro, 0x0⟩
def SHT_CNT_B_NO_FB : Fld := ⟨31, 16, .ro, 0x0⟩
def SHT_CNT_B_BAD_FB : Fld := ⟨15, 8, .ro, 0x0⟩
def SHT_CNT_B_STRAY : Fld := ⟨7, 0, .ro, 0x0⟩
def SEED_CHK_CHK : Fld := ⟨15, 0, .ro, 0x0⟩
def SHT_ACT_LAST : Fld := ⟨29, 16, .ro, 0x0⟩
def SHT_ACT_FIRST : Fld := ⟨13, 0, .ro, 0x0⟩
def SHT_NEXT_COMMIT : Fld := ⟨31, 31, .w1s, 0x0⟩
def SHT_NEXT_LAST : Fld := ⟨29, 16, .rw, 0x0⟩
def SHT_NEXT_FIRST : Fld := ⟨13, 0, .rw, 0x0⟩
def SEED_SEED : Fld := ⟨31, 0, .wo, 0x0⟩
def GAP_CNT_COUNT : Fld := ⟨31, 0, .ro, 0x0⟩
def CAP_CTRL_ARM : Fld := ⟨31, 31, .w1s, 0x0⟩
def CAP_CTRL_DISARM : Fld := ⟨30, 30, .w1s, 0x0⟩
def CAP_CTRL_FIRE : Fld := ⟨29, 29, .w1s, 0x0⟩
def CAP_CTRL_RELEASE : Fld := ⟨28, 28, .w1s, 0x0⟩
def CAP_CTRL_REPEAT : Fld := ⟨27, 27, .rw, 0x0⟩
def CAP_CTRL_TRIG : Fld := ⟨26, 24, .rw, 0x0⟩
def CAP_CTRL_FB : Fld := ⟨23, 23, .rw, 0x0⟩
def CAP_CTRL_TILE : Fld := ⟨21, 16, .rw, 0x0⟩
def CAP_CTRL_MASK : Fld := ⟨15, 0, .rw, 0x0⟩
def CAP_STAT_STATE : Fld := ⟨31, 29, .ro, 0x0⟩
def CAP_STAT_PARTIAL : Fld := ⟨28, 28, .ro, 0x0⟩
def CAP_STAT_CAP_EV : Fld := ⟨9, 0, .rw, 0x0⟩
def CAP_LEN_LEN : Fld := ⟨31, 0, .rwm, 0x0⟩
def CAP_WIN_PRE : Fld := ⟨31, 16, .rw, 0x0⟩
def CAP_WIN_POST : Fld := ⟨15, 0, .rw, 0x0⟩
def CAP_BASE_LO_BASE : Fld := ⟨31, 0, .rwm, 0x0⟩
def CAP_BASE_HI_BASE : Fld := ⟨7, 0, .rwm, 0x0⟩
def CAP_TICK_LO_VALUE : Fld := ⟨31, 0, .ro, 0x0⟩
def CAP_TICK_HI_VALUE : Fld := ⟨31, 0, .ro, 0x0⟩
def CAP_FIRST_LO_VALUE : Fld := ⟨31, 0, .ro, 0x0⟩
def CAP_FIRST_HI_VALUE : Fld := ⟨31, 0, .ro, 0x0⟩
def GT_CTRL_REP_MODE : Fld := ⟨31, 30, .rw, 0x1⟩
def GT_CTRL_GN_KEEP : Fld := ⟨29, 29, .rw, 0x0⟩
def GT_CTRL_PAIR_REQ : Fld := ⟨28, 28, .rw, 0x1⟩
def GT_CTRL_PAIR_TOL : Fld := ⟨26, 24, .rw, 0x4⟩
def GT_CTRL_BG_AVG : Fld := ⟨23, 20, .rw, 0x4⟩
def GT_REP_DENSE_ON : Fld := ⟨24, 16, .rw, 0x180⟩
def GT_REP_SPARSE_ON : Fld := ⟨8, 0, .rw, 0xC0⟩
def GT_COINC_MODE : Fld := ⟨31, 30, .rw, 0x3⟩
def GT_COINC_SP_WIN : Fld := ⟨27, 24, .rw, 0x4⟩
def GT_COINC_SP_N : Fld := ⟨21, 20, .rw, 0x0⟩
def GT_COINC_BG_HI : Fld := ⟨15, 8, .rw, 0x14⟩
def GT_COINC_BG_LO : Fld := ⟨7, 0, .rw, 0xC⟩
def GT_DEADLINE_DL_MAX : Fld := ⟨31, 16, .rw, 0x1F4⟩
def GT_STAT_POSTQ : Fld := ⟨21, 16, .ro, 0x0⟩
def GT_STAT_CNT_CLR : Fld := ⟨8, 8, .wo, 0x0⟩
def GT_STAT_TRIP_DROP : Fld := ⟨4, 4, .w1c, 0x0⟩
def GT_STAT_OVF : Fld := ⟨3, 3, .w1c, 0x0⟩
def GT_STAT_CONV : Fld := ⟨2, 2, .w1c, 0x0⟩
def GT_STAT_REFUSED : Fld := ⟨1, 1, .w1c, 0x0⟩
def GT_STAT_DEADLINE : Fld := ⟨0, 0, .w1c, 0x0⟩
def GT_CNT_A_OVF_CNT : Fld := ⟨31, 16, .ro, 0x0⟩
def GT_CNT_A_CONV_CNT : Fld := ⟨15, 0, .ro, 0x0⟩
def GT_CNT_B_DEADLINE_CNT : Fld := ⟨31, 16, .ro, 0x0⟩
def GT_CNT_B_REFUSED_CNT : Fld := ⟨15, 0, .ro, 0x0⟩
def GT_CNT_C_OUTSIDE : Fld := ⟨31, 16, .ro, 0x0⟩
def GT_CNT_C_GN_EXCL : Fld := ⟨15, 0, .ro, 0x0⟩
def GT_TICKETS_TICKETS : Fld := ⟨31, 0, .ro, 0x0⟩
def GT_MODEMAP_SPARSE : Fld := ⟨15, 0, .ro, 0x0⟩
def GT_NB_NB3 : Fld := ⟨29, 24, .rw, 0x3F⟩
def GT_NB_NB2 : Fld := ⟨21, 16, .rw, 0x3F⟩
def GT_NB_NB1 : Fld := ⟨13, 8, .rw, 0x3F⟩
def GT_NB_NB0 : Fld := ⟨5, 0, .rw, 0x3F⟩
def GT_BG_BG_RATE : Fld := ⟨31, 16, .ro, 0x0⟩
def GT_BG_BG_BIN : Fld := ⟨11, 0, .ro, 0x0⟩
def GT_OCC_REP : Fld := ⟨31, 31, .ro, 0x0⟩
def GT_OCC_COINC_ON : Fld := ⟨30, 30, .ro, 0x0⟩
def GT_OCC_PEAK_PREV : Fld := ⟨25, 16, .ro, 0x0⟩
def GT_OCC_PEAK_FRAME : Fld := ⟨9, 0, .ro, 0x0⟩
def GT_CH_CNT_HISTS : Fld := ⟨31, 16, .ro, 0x0⟩
def GT_CH_CNT_REJ : Fld := ⟨15, 0, .ro, 0x0⟩
def GT_BUF_GEN1 : Fld := ⟨15, 12, .ro, 0x0⟩
def GT_BUF_GEN0 : Fld := ⟨11, 8, .ro, 0x0⟩
def GT_BUF_B1 : Fld := ⟨3, 2, .ro, 0x0⟩
def GT_BUF_B0 : Fld := ⟨1, 0, .ro, 0x0⟩
def ENP_CTRL_ST_EN : Fld := ⟨31, 31, .rw, 0x1⟩
def ENP_CTRL_STEAL_EN : Fld := ⟨30, 30, .rw, 0x1⟩
def ENP_CTRL_HELP_EN : Fld := ⟨29, 29, .rw, 0x1⟩
def ENP_CTRL_URGENT : Fld := ⟨23, 16, .rw, 0x14⟩
def ENP_CTRL_STEAL_MAX : Fld := ⟨13, 8, .rw, 0x20⟩
def ENP_CTRL_STEAL_MIN : Fld := ⟨3, 0, .rw, 0x1⟩
def ENP_ST_ST_SLOT : Fld := ⟨15, 0, .rw, 0x3E8⟩
def ENP_STAT_CNT_CLR : Fld := ⟨8, 8, .wo, 0x0⟩
def ENP_STAT_LIGHT_DENSE : Fld := ⟨7, 7, .w1c, 0x0⟩
def ENP_STAT_KSWAP_ERR : Fld := ⟨6, 6, .w1c, 0x0⟩
def ENP_STAT_OUT_DROP : Fld := ⟨5, 5, .w1c, 0x0⟩
def ENP_STAT_ABORT : Fld := ⟨4, 4, .w1c, 0x0⟩
def ENP_STAT_STALE : Fld := ⟨3, 3, .w1c, 0x0⟩
def ENP_STAT_EXPIRED : Fld := ⟨2, 2, .w1c, 0x0⟩
def ENP_STAT_RET_WARN : Fld := ⟨1, 1, .w1c, 0x0⟩
def ENP_STAT_RETIRE : Fld := ⟨0, 0, .w1c, 0x0⟩
def ENP_KSWAP_REQ : Fld := ⟨31, 31, .w1s, 0x0⟩
def ENP_KSWAP_CANCEL : Fld := ⟨30, 30, .w1s, 0x0⟩
def ENP_KSWAP_STATE : Fld := ⟨29, 27, .ro, 0x0⟩
def ENP_KSWAP_BANK : Fld := ⟨26, 26, .ro, 0x0⟩
def ENP_KSWAP_ERR : Fld := ⟨25, 24, .ro, 0x0⟩
def ENP_KSWAP_SWAP_FRAME : Fld := ⟨15, 0, .ro, 0x0⟩
def ENP_KINFO_SET_NEW : Fld := ⟨31, 16, .ro, 0x0⟩
def ENP_KINFO_SET_ACT : Fld := ⟨15, 0, .ro, 0x0⟩
def ENP_KSRC_LO_ADDR : Fld := ⟨31, 0, .rw, 0x0⟩
def ENP_KSRC_HI_ADDR : Fld := ⟨7, 0, .rw, 0x0⟩
def ENP_KMAP_KMAP : Fld := ⟨31, 0, .rw, 0x0⟩
def ENP_RETIRED_RETIRED : Fld := ⟨31, 0, .ro, 0x0⟩
def CL_CTRL_REINIT : Fld := ⟨31, 31, .w1s, 0x0⟩
def CL_CTRL_QHI : Fld := ⟨25, 16, .rw, 0x300⟩
def CL_CTRL_RET_WARN : Fld := ⟨3, 0, .rw, 0xC⟩
def CL_Q_PEAK : Fld := ⟨26, 16, .ro, 0x0⟩
def CL_Q_OCC : Fld := ⟨10, 0, .ro, 0x0⟩
def CL_STAT_URGENT : Fld := ⟨31, 31, .ro, 0x0⟩
def CL_STAT_REINIT_BUSY : Fld := ⟨30, 30, .ro, 0x0⟩
def CL_STAT_TESTING : Fld := ⟨23, 20, .ro, 0x0⟩
def CL_STAT_IN_SVC : Fld := ⟨4, 0, .ro, 0xF⟩
def CL_CNT_A_TAKEN : Fld := ⟨31, 0, .ro, 0x0⟩
def CL_CNT_B_STOLEN_IN : Fld := ⟨31, 16, .ro, 0x0⟩
def CL_CNT_B_STOLEN_OUT : Fld := ⟨15, 0, .ro, 0x0⟩
def CL_CNT_C_EXPIRED : Fld := ⟨31, 16, .ro, 0x0⟩
def CL_CNT_C_STALE : Fld := ⟨15, 0, .ro, 0x0⟩
def CL_CNT_D_ST_PASS : Fld := ⟨31, 16, .ro, 0x0⟩
def CL_CNT_D_ST_FAIL : Fld := ⟨15, 8, .ro, 0x0⟩
def CL_CNT_D_ABORT : Fld := ⟨7, 0, .ro, 0x0⟩
def CL_LAT_LAT_MAX : Fld := ⟨31, 16, .ro, 0x0⟩
def CL_LAT_OUT_DROP : Fld := ⟨15, 0, .ro, 0x0⟩
def ENG_STAT_STATE : Fld := ⟨31, 29, .ro, 0x0⟩
def ENG_STAT_CAUSE : Fld := ⟨28, 26, .ro, 0x0⟩
def ENG_STAT_ECC_CE : Fld := ⟨23, 16, .ro, 0x0⟩
def ENG_STAT_LAST_PASS : Fld := ⟨15, 0, .ro, 0xFFFF⟩
def PS_CTRL_EXT : Fld := ⟨31, 31, .rwm, 0x0⟩
def PS_CTRL_FULL_EVERY : Fld := ⟨23, 16, .rw, 0x40⟩
def PS_CTRL_ANG_WAIT : Fld := ⟨15, 8, .rw, 0x32⟩
def PS_CTRL_SLICE_TO : Fld := ⟨7, 0, .rw, 0x14⟩
def PS_STAT_CNT_CLR : Fld := ⟨8, 8, .wo, 0x0⟩
def PS_STAT_SUM_OVW : Fld := ⟨6, 6, .w1c, 0x0⟩
def PS_STAT_SUM_MISS : Fld := ⟨5, 5, .w1c, 0x0⟩
def PS_STAT_LATE : Fld := ⟨4, 4, .w1c, 0x0⟩
def PS_STAT_TIMEOUT : Fld := ⟨3, 3, .w1c, 0x0⟩
def PS_STAT_ANG_OLD : Fld := ⟨2, 2, .w1c, 0x0⟩
def PS_STAT_ANG_STALE : Fld := ⟨1, 1, .w1c, 0x0⟩
def PS_CNT_A_TIMEOUT_CNT : Fld := ⟨31, 16, .ro, 0x0⟩
def PS_CNT_A_LATE_CNT : Fld := ⟨15, 0, .ro, 0x0⟩
def PS_CNT_B_ANG_STALE_CNT : Fld := ⟨31, 16, .ro, 0x0⟩
def PS_CNT_B_ANG_OLD_CNT : Fld := ⟨15, 0, .ro, 0x0⟩
def PS_CNT_C_SUM_MISS_CNT : Fld := ⟨31, 16, .ro, 0x0⟩
def PS_CNT_C_SUM_UNUSED : Fld := ⟨15, 0, .ro, 0x0⟩
def PS_CNT_D_SUM_OVW : Fld := ⟨31, 16, .ro, 0x0⟩
def PS_CNT_D_EXP_SKIP : Fld := ⟨15, 0, .ro, 0x0⟩
def PS_POINTS_POINTS : Fld := ⟨31, 0, .ro, 0x0⟩
def PS_SUM_SUM_SLOTS : Fld := ⟨31, 16, .rwm, 0x0⟩
def PS_SUM_SUM_AGE : Fld := ⟨7, 0, .rw, 0xA⟩
def PS_SUM_BASE_LO_ADDR : Fld := ⟨31, 0, .rwm, 0x0⟩
def PS_SUM_BASE_HI_ADDR : Fld := ⟨7, 0, .rwm, 0x0⟩
def SCN_CFG_EN : Fld := ⟨31, 31, .rwm, 0x0⟩
def SCN_CFG_AX_AZ : Fld := ⟨6, 4, .rwm, 0⟩
def SCN_CFG_AX_EL : Fld := ⟨2, 0, .rwm, 0⟩
def SCN_GAIN_GX : Fld := ⟨31, 16, .rwm, 0x2000⟩
def SCN_GAIN_GY : Fld := ⟨15, 0, .rwm, 0x2000⟩
def PS_EMIT_AZ0 : Fld := ⟨31, 16, .rw, 0x0⟩
def PS_EMIT_EL0 : Fld := ⟨15, 0, .rw, 0x0⟩
def PS_CHOFS_OFS : Fld := ⟨15, 0, .rw, 0x0⟩
def PS_CHDIR_DAZ : Fld := ⟨31, 16, .rw, 0x0⟩
def PS_CHDIR_DEL : Fld := ⟨15, 0, .rw, 0x0⟩
def PS_CHPAR_SUM_EN : Fld := ⟨31, 31, .rw, 0x0⟩
def PS_CHPAR_EXP_EN : Fld := ⟨30, 30, .rw, 0x0⟩
def PS_CHPAR_WALK_SEL : Fld := ⟨29, 28, .rw, 0x0⟩
def PS_CHPAR_TMPL_MASK : Fld := ⟨27, 24, .rw, 0x1⟩
def PS_CHPAR_PART_POS : Fld := ⟨20, 16, .rw, 0x0⟩
def PS_CHPAR_PART_CH : Fld := ⟨9, 0, .rw, 0x0⟩
def TT_CTRL_EN : Fld := ⟨31, 31, .rws, 0x1⟩
def TT_CTRL_VOX : Fld := ⟨23, 16, .rws, 0xA⟩
def TT_CTRL_RMAX : Fld := ⟨11, 0, .rws, 0xC8⟩
def TT_AGE_P_MAX : Fld := ⟨31, 24, .rws, 0x20⟩
def TT_AGE_AGE_MAX : Fld := ⟨23, 16, .rws, 0x10⟩
def TT_AGE_DECAY : Fld := ⟨15, 12, .rws, 0x1⟩
def TT_BASE_LO_ADDR : Fld := ⟨31, 0, .rwm, 0x0⟩
def TT_BASE_HI_SIZE : Fld := ⟨20, 16, .rwm, 0x11⟩
def TT_BASE_HI_ADDR : Fld := ⟨7, 0, .rwm, 0x1⟩
def TT_STAT_CLR_BUSY : Fld := ⟨31, 31, .ro, 0x0⟩
def TT_STAT_CLEAR : Fld := ⟨30, 30, .w1s, 0x0⟩
def TT_STAT_CNT_CLR : Fld := ⟨8, 8, .wo, 0x0⟩
def TT_STAT_OLD_FRAME : Fld := ⟨4, 4, .w1c, 0x0⟩
def TT_STAT_EGO_LOST : Fld := ⟨3, 3, .w1c, 0x0⟩
def TT_STAT_ECC_UE : Fld := ⟨2, 2, .w1c, 0x0⟩
def TT_STAT_EVICT_SOLID : Fld := ⟨1, 1, .w1c, 0x0⟩
def TT_STAT_FULL : Fld := ⟨0, 0, .w1c, 0x0⟩
def TT_OCC_VALID : Fld := ⟨17, 0, .ro, 0x0⟩
def TT_CNT_A_LOOKUPS : Fld := ⟨31, 0, .ro, 0x0⟩
def TT_CNT_B_EVICT : Fld := ⟨31, 16, .ro, 0x0⟩
def TT_CNT_B_EVICT_SOLID : Fld := ⟨15, 0, .ro, 0x0⟩
def TT_CNT_C_UE_BUCKETS : Fld := ⟨31, 16, .ro, 0x0⟩
def TT_CNT_C_OLD_FRAME : Fld := ⟨15, 0, .ro, 0x0⟩
def TT_CNT_D_EGO_LOST : Fld := ⟨31, 16, .ro, 0x0⟩
def TT_CNT_D_SWEEPS : Fld := ⟨15, 0, .ro, 0x0⟩
def EGO_DXY_DX : Fld := ⟨31, 16, .rw, 0x0⟩
def EGO_DXY_DY : Fld := ⟨15, 0, .rw, 0x0⟩
def EGO_DZP_DZ : Fld := ⟨31, 16, .rw, 0x0⟩
def EGO_DZP_DPSI : Fld := ⟨15, 0, .rw, 0x0⟩
def EGO_CTRL_COMMIT : Fld := ⟨31, 31, .w1s, 0x0⟩
def EGO_CTRL_PENDING : Fld := ⟨30, 30, .ro, 0x0⟩
def EGO_CTRL_HOLD : Fld := ⟨7, 0, .rw, 0x4⟩
def EGO_PSI_PSI : Fld := ⟨15, 0, .ro, 0x0⟩
def CLS_CFG_CLS_EN : Fld := ⟨31, 31, .rw, 0x1⟩
def CLS_CFG_P_SOLID : Fld := ⟨30, 24, .rw, 0x4⟩
def CLS_CFG_W_CLOUD : Fld := ⟨23, 16, .rw, 0xA⟩
def CLS_CFG_I_CLOUD : Fld := ⟨15, 8, .rw, 0x10⟩
def CLS_CNT_COUNT : Fld := ⟨31, 0, .ro, 0x0⟩
def BL_CFG_EN : Fld := ⟨31, 31, .rw, 0x0⟩
def BL_CFG_RED_MAX : Fld := ⟨30, 20, .rw, 0x400⟩
def BL_CFG_STEP : Fld := ⟨19, 16, .rw, 0x4⟩
def BL_CFG_BL_HI : Fld := ⟨15, 8, .rw, 0x28⟩
def BL_CFG_BL_LO : Fld := ⟨7, 0, .rw, 0x14⟩
def BL_STAT_AT_MAX : Fld := ⟨31, 31, .w1c, 0x0⟩
def BL_STAT_RED : Fld := ⟨26, 16, .ro, 0x0⟩
def BL_STAT_MEAN : Fld := ⟨15, 0, .ro, 0x0⟩
def CTL_CTRL_EN : Fld := ⟨31, 31, .rwm, 0x0⟩
def CTL_STAT_CNT_CLR : Fld := ⟨8, 8, .wo, 0x0⟩
def CTL_STAT_LOAD_WARN : Fld := ⟨7, 7, .w1c, 0x0⟩
def CTL_STAT_WPROT : Fld := ⟨6, 6, .w1c, 0x0⟩
def CTL_STAT_FB_LATE : Fld := ⟨5, 5, .w1c, 0x0⟩
def CTL_STAT_SENS_DIS : Fld := ⟨4, 4, .w1c, 0x0⟩
def CTL_STAT_SAT : Fld := ⟨3, 3, .w1c, 0x0⟩
def CTL_STAT_OVERRUN : Fld := ⟨2, 2, .w1c, 0x0⟩
def CTL_STAT_STALL : Fld := ⟨1, 1, .w1c, 0x0⟩
def CTL_LOAD_LOAD : Fld := ⟨15, 0, .ro, 0x0⟩
def SCN_CTRL_START : Fld := ⟨31, 31, .w1s, 0x0⟩
def SCN_CTRL_STOP : Fld := ⟨30, 30, .w1s, 0x0⟩
def SCN_CTRL_FAST_AX : Fld := ⟨29, 29, .rwm, 0x0⟩
def SCN_CTRL_SUP_SEL : Fld := ⟨23, 16, .rwm, 0xFF⟩
def SCN_CTRL_VNOM : Fld := ⟨15, 0, .rwm, 0x0⟩
def SCN_START_SWEEP : Fld := ⟨31, 16, .rwm, 0xA⟩
def SCN_START_A_RAMP : Fld := ⟨15, 8, .rwm, 0x4⟩
def SCN_START_START_TO : Fld := ⟨7, 0, .rwm, 0x32⟩
def SCN_PARK_PARK_MS : Fld := ⟨7, 0, .rwm, 0x14⟩
def SCN_STAT_STATE : Fld := ⟨31, 29, .ro, 0x0⟩
def SCN_STAT_CAUSE : Fld := ⟨28, 26, .ro, 0x0⟩
def SCN_STAT_MIR_EN : Fld := ⟨25, 25, .ro, 0x0⟩
def SCN_STAT_EMIT_OK : Fld := ⟨24, 24, .ro, 0x0⟩
def SCN_STAT_ENV : Fld := ⟨9, 0, .ro, 0x0⟩
def SCN_CNT_STALL_CNT : Fld := ⟨31, 16, .ro, 0x0⟩
def SCN_CNT_START_CNT : Fld := ⟨15, 0, .ro, 0x0⟩
def SCN_MARK_MARK_EN : Fld := ⟨31, 31, .rw, 0x0⟩
def SCN_MARK_MARK_OFS : Fld := ⟨15, 0, .rw, 0x0⟩
def AX_CFG_TYPE : Fld := ⟨31, 30, .rwm, 0x0⟩
def AX_CFG_FB_CH : Fld := ⟨29, 27, .rwm, 0⟩
def AX_CFG_CHK_CH : Fld := ⟨26, 24, .rwm, 0⟩
def AX_CFG_CHK_EN : Fld := ⟨23, 23, .rwm, 0x0⟩
def AX_CFG_ACC_SEL : Fld := ⟨22, 21, .rwm, 0⟩
def AX_CFG_CHK_LIM : Fld := ⟨19, 16, .rwm, 0x4⟩
def AX_CFG_PERIOD : Fld := ⟨15, 0, .rwm, 0x1388⟩
def AX_DRV_CMD : Fld := ⟨31, 28, .rwm, 0x3⟩
def AX_DRV_ADDR : Fld := ⟨27, 24, .rwm, 0x0⟩
def AX_DRV_FMT : Fld := ⟨23, 23, .rwm, 0x0⟩
def AX_DRV_DIV : Fld := ⟨20, 16, .rwm, 0x9⟩
def AX_DRV_PARK : Fld := ⟨15, 0, .rwm, 0x0⟩
def AX_SWAP_SWAP : Fld := ⟨31, 31, .w1s, 0x0⟩
def AX_SWAP_AT_FRAME : Fld := ⟨30, 30, .rw, 0x0⟩
def AX_SWAP_PEND : Fld := ⟨29, 29, .ro, 0x0⟩
def AX_SWAP_BANK : Fld := ⟨28, 28, .ro, 0x0⟩
def AX_SWAP_PRESET_OUT : Fld := ⟨27, 27, .ro, 0x0⟩
def AX_SWAP_SWAPS : Fld := ⟨15, 0, .ro, 0x0⟩
def AX_LIVE_Y : Fld := ⟨31, 16, .ro, 0x0⟩
def AX_LIVE_U : Fld := ⟨15, 0, .ro, 0x0⟩
def AX_RES_AMP : Fld := ⟨31, 16, .ro, 0x0⟩
def AX_RES_PH_ERR : Fld := ⟨15, 0, .ro, 0x0⟩
def AX_FREQ_FTW : Fld := ⟨31, 0, .ro, 0x0⟩
def AX_CNT_OVR_TOTAL : Fld := ⟨31, 16, .ro, 0x0⟩
def AX_CNT_SAT_CNT : Fld := ⟨15, 8, .ro, 0x0⟩
def AX_CNT_OVR_RUN : Fld := ⟨2, 0, .ro, 0x0⟩
def AX_DLY_FB_AGE : Fld := ⟨15, 0, .ro, 0x0⟩
def AX_FF_KS : Fld := ⟨31, 16, .ro, 0x4000⟩
def AX_FF_TRJ_AMP : Fld := ⟨15, 0, .ro, 0x0⟩
def AX_TRJ_LEN : Fld := ⟨27, 16, .rw, 0x1⟩
def AX_TRJ_BASE : Fld := ⟨10, 0, .rw, 0x0⟩
def EMG_CTRL_COMMIT : Fld := ⟨31, 31, .rws, 0x0⟩
def EMG_CTRL_NEAR : Fld := ⟨3, 0, .rw, 0xE⟩
def EMG_STAT_CAP_OK : Fld := ⟨31, 31, .ro, 0x0⟩
def EMG_STAT_CNT_CLR : Fld := ⟨8, 8, .wo, 0x0⟩
def EMG_STAT_NEAR_CAP : Fld := ⟨5, 5, .w1c, 0x0⟩
def EMG_STAT_MEAS_SKIP : Fld := ⟨4, 4, .w1c, 0x0⟩
def EMG_STAT_CAP_ERR : Fld := ⟨3, 3, .w1c, 0x0⟩
def EMG_STAT_STORE_OVER : Fld := ⟨2, 2, .w1c, 0x0⟩
def EMG_STAT_OVER_PULSE : Fld := ⟨1, 1, .w1c, 0x0⟩
def EMG_STAT_REFUSED : Fld := ⟨0, 0, .w1c, 0x0⟩
def EMG_E1_PRESET : Fld := ⟨31, 31, .rws, 0x1⟩
def EMG_E1_EFLOOR : Fld := ⟨30, 16, .rws, 0x0⟩
def EMG_E1_E1_MAX : Fld := ⟨15, 0, .rws, 0x0⟩
def EMG_MON_SEL_KIND : Fld := ⟨31, 30, .rw, 0x0⟩
def EMG_MON_SEL_WIN : Fld := ⟨29, 29, .rw, 0x0⟩
def EMG_MON_SEL_INDEX : Fld := ⟨6, 0, .rw, 0x0⟩
def EMG_MON_VAL_VALUE : Fld := ⟨31, 0, .ro, 0x0⟩
def EMG_EM100_CAP : Fld := ⟨31, 0, .rws, 0x0⟩
def EMG_EM10S_CAP : Fld := ⟨31, 0, .rws, 0x0⟩
def EMG_EXP_CRC_CRC : Fld := ⟨31, 0, .rws, 0x0⟩
def EMG_ACT_CRC_CRC : Fld := ⟨31, 0, .ro, 0x0⟩
def EMG_REF_FIRST : Fld := ⟨31, 16, .ro, 0x0⟩
def EMG_REF_SECOND : Fld := ⟨15, 0, .ro, 0x0⟩
def EMG_EN_EN : Fld := ⟨31, 0, .rws, 0x0⟩
def EM_OFS_OFS_X : Fld := ⟨31, 16, .rws, 0x0⟩
def EM_OFS_OFS_Y : Fld := ⟨15, 0, .rws, 0x0⟩
def SEC_X_LO : Fld := ⟨31, 16, .rws, 0xF000⟩
def SEC_X_STEP : Fld := ⟨15, 0, .rws, 0x0400⟩
def SEC_Y_LO : Fld := ⟨31, 16, .rws, 0xF800⟩
def SEC_Y_STEP : Fld := ⟨15, 0, .rws, 0x0200⟩
def SEC_SLEW_SLEW_X : Fld := ⟨31, 16, .rws, 0xFFFF⟩
def SEC_SLEW_SLEW_Y : Fld := ⟨15, 0, .rws, 0xFFFF⟩
def SEC_CFG_CH_X : Fld := ⟨29, 27, .rws, 0⟩
def SEC_CFG_CH_Y : Fld := ⟨26, 24, .rws, 0⟩
def SEC_CFG_AGE_MAX : Fld := ⟨15, 0, .rws, 0x14⟩
def SEC_C100_CAP : Fld := ⟨31, 0, .rws, 0x0⟩
def SEC_C10S_CAP : Fld := ⟨31, 0, .rws, 0x0⟩
def SEC_STAT_STALL_INH : Fld := ⟨31, 31, .ro, 0x0⟩
def SEC_STAT_GATE : Fld := ⟨30, 30, .ro, 0x0⟩
def SEC_STAT_FILL100 : Fld := ⟨23, 16, .ro, 0x0⟩
def SEC_STAT_STALL_STOPS : Fld := ⟨15, 0, .ro, 0x0⟩
def BANK_CFG_SCN : Fld := ⟨31, 31, .rws, 0x0⟩
def BANK_CFG_REF_MAX : Fld := ⟨25, 16, .rws, 0x0⟩
def BANK_CFG_ESTORE_MAX : Fld := ⟨15, 0, .rws, 0x0⟩
def BANK_CAL_KOPT : Fld := ⟨31, 16, .rws, 0x0⟩
def BANK_CAL_CRES : Fld := ⟨15, 0, .rws, 0x0⟩
def BANK_SNS_SNS_GAIN : Fld := ⟨31, 16, .rws, 0x100⟩
def BANK_SNS_POST : Fld := ⟨15, 8, .rws, 0x28⟩
def BANK_REF_REF_W : Fld := ⟨29, 20, .rw, 0x0⟩
def BANK_REF_REF_N : Fld := ⟨19, 10, .rw, 0x0⟩
def BANK_REF_REF_C : Fld := ⟨9, 0, .rw, 0x0⟩
def BANK_STAT_INH : Fld := ⟨31, 31, .ro, 0x0⟩
def BANK_STAT_CAUSE : Fld := ⟨30, 28, .ro, 0x0⟩
def BANK_STAT_RELEASE : Fld := ⟨27, 27, .rwm, 0x0⟩
def BANK_STAT_OUT : Fld := ⟨9, 0, .ro, 0x0⟩
def BANK_MEAS_E_LAST : Fld := ⟨31, 16, .ro, 0x0⟩
def BANK_MEAS_VNOW : Fld := ⟨13, 0, .ro, 0x0⟩
def BANK_CNT_MEAS_SKIP : Fld := ⟨31, 16, .ro, 0x0⟩
def BANK_CNT_UNMEAS : Fld := ⟨15, 0, .ro, 0x0⟩
def SAF_CTRL_COMMIT : Fld := ⟨31, 31, .rws, 0x0⟩
def SAF_CTRL_CLR_FAULT : Fld := ⟨30, 30, .w1s, 0x0⟩
def SAF_STAT_VARIANT : Fld := ⟨31, 31, .ro, 0x1⟩
def SAF_STAT_ACTIVE : Fld := ⟨30, 30, .ro, 0x0⟩
def SAF_STAT_CMT_BUSY : Fld := ⟨29, 29, .ro, 0x0⟩
def SAF_STAT_ERR : Fld := ⟨28, 25, .ro, 0x0⟩
def SAF_STAT_SEAL_A : Fld := ⟨24, 24, .ro, 0x0⟩
def SAF_STAT_SEAL_B : Fld := ⟨23, 23, .ro, 0x0⟩
def SAF_STAT_SET_BAD : Fld := ⟨22, 22, .ro, 0x0⟩
def SAF_STAT_CNT_CLR : Fld := ⟨9, 9, .wo, 0x0⟩
def SAF_STAT_SEAL_DISC : Fld := ⟨8, 8, .w1c, 0x0⟩
def SAF_STAT_CFG_ERR : Fld := ⟨7, 7, .w1c, 0x0⟩
def SAF_STAT_INVALID_A : Fld := ⟨6, 6, .w1c, 0x0⟩
def SAF_STAT_INVALID_B : Fld := ⟨5, 5, .w1c, 0x0⟩
def SAF_STAT_DEMAND : Fld := ⟨4, 4, .w1c, 0x0⟩
def SAF_ACT_CFG_ID : Fld := ⟨31, 16, .ro, 0x0⟩
def SAF_ACT_N_MS : Fld := ⟨15, 8, .ro, 0x0⟩
def SAF_ACT_PERS : Fld := ⟨7, 0, .ro, 0x0⟩
def SAF_OSSD_PAIR1 : Fld := ⟨15, 8, .ro, 0x0⟩
def SAF_OSSD_PAIR0 : Fld := ⟨7, 0, .ro, 0x0⟩
def SAF_FIELDS_SET : Fld := ⟨31, 28, .ro, 0x0⟩
def SAF_FIELDS_OCC_A : Fld := ⟨23, 20, .ro, 0xF⟩
def SAF_FIELDS_OCC_B : Fld := ⟨19, 16, .ro, 0xF⟩
def SAF_FIELDS_INTR_A : Fld := ⟨15, 12, .ro, 0x0⟩
def SAF_FIELDS_INTR_B : Fld := ⟨11, 8, .ro, 0x0⟩
def SAF_INPUTS_LIVE_A : Fld := ⟨23, 16, .ro, 0x0⟩
def SAF_INPUTS_LIVE_B : Fld := ⟨15, 8, .ro, 0x0⟩
def SAF_INPUTS_FUNC : Fld := ⟨7, 0, .ro, 0x0⟩
def SAF_INSTATE_STATE : Fld := ⟨15, 0, .ro, 0x0⟩
def SAF_FAULT_XC_FIELD : Fld := ⟨31, 26, .ro, 0x0⟩
def SAF_FAULT_SCN_OVR : Fld := ⟨10, 10, .ro, 0x0⟩
def SAF_FAULT_CHB_TEST : Fld := ⟨9, 9, .ro, 0x0⟩
def SAF_FAULT_XCOMP : Fld := ⟨8, 8, .ro, 0x0⟩
def SAF_FAULT_CROSS : Fld := ⟨7, 7, .ro, 0x0⟩
def SAF_FAULT_OSSD_RB : Fld := ⟨6, 6, .ro, 0x0⟩
def SAF_FAULT_SUPPLY : Fld := ⟨5, 5, .ro, 0x0⟩
def SAF_FAULT_CLOCK : Fld := ⟨4, 4, .ro, 0x0⟩
def SAF_FAULT_WDOG : Fld := ⟨3, 3, .ro, 0x0⟩
def SAF_FAULT_LOCKSTEP : Fld := ⟨2, 2, .ro, 0x0⟩
def SAF_FAULT_CFG_LOAD : Fld := ⟨1, 1, .ro, 0x0⟩
def SAF_CNT_A_DEMANDS : Fld := ⟨31, 16, .ro, 0x0⟩
def SAF_CNT_A_INVALID_A : Fld := ⟨15, 0, .ro, 0x0⟩
def SAF_CNT_B_INVALID_B : Fld := ⟨31, 16, .ro, 0x0⟩
def SAF_CNT_B_XC_MAX : Fld := ⟨15, 8, .ro, 0x0⟩
def SAF_CNT_B_DISC_CNT : Fld := ⟨7, 0, .ro, 0x0⟩
def SAF_EVAL_FRAME : Fld := ⟨31, 16, .ro, 0x0⟩
def SAF_EVAL_VALID_A : Fld := ⟨15, 15, .ro, 0x0⟩
def SAF_EVAL_VALID_B : Fld := ⟨14, 14, .ro, 0x0⟩
def SAF_EXP_CRC_CRC : Fld := ⟨31, 0, .rws, 0x0⟩
def SAF_ACT_CRC_CRC : Fld := ⟨31, 0, .ro, 0x0⟩
def HK_CTRL_RUN : Fld := ⟨31, 31, .rw, 0x0⟩
def HK_CTRL_VEXC_EN : Fld := ⟨30, 30, .rw, 0x0⟩
def HK_CTRL_RIP_CH : Fld := ⟨29, 28, .rw, 0x1⟩
def HK_STAT_RUNNING : Fld := ⟨31, 31, .ro, 0x0⟩
def HK_STAT_CUR : Fld := ⟨30, 25, .ro, 0x0⟩
def HK_STAT_CNT_CLR : Fld := ⟨8, 8, .wo, 0x0⟩
def HK_STAT_SRC_ERR : Fld := ⟨5, 5, .w1c, 0x0⟩
def HK_STAT_RIPFB : Fld := ⟨4, 4, .w1c, 0x0⟩
def HK_STAT_LIMIT : Fld := ⟨3, 3, .w1c, 0x0⟩
def HK_STAT_OPEN : Fld := ⟨2, 2, .w1c, 0x0⟩
def HK_STAT_CLAMP : Fld := ⟨1, 1, .w1c, 0x0⟩
def HK_STAT_OVR : Fld := ⟨0, 0, .w1c, 0x0⟩
def HK_ROUND_ROUND : Fld := ⟨31, 0, .ro, 0x0⟩
def HK_CNT_OVR_CNT : Fld := ⟨31, 24, .ro, 0x0⟩
def HK_CNT_CLAMP_CNT : Fld := ⟨23, 16, .ro, 0x0⟩
def HK_CNT_OPEN_CNT : Fld := ⟨15, 8, .ro, 0x0⟩
def HK_CNT_LIMIT_CNT : Fld := ⟨7, 0, .ro, 0x0⟩
def HK_RIP_LOCKED : Fld := ⟨31, 31, .ro, 0x0⟩
def HK_RIP_T_LAST : Fld := ⟨16, 0, .ro, 0x0⟩
def HKS_CFG_EN : Fld := ⟨31, 31, .rw, 0x0⟩
def HKS_CFG_AUTO : Fld := ⟨30, 30, .rw, 0x0⟩
def HKS_CFG_GAIN : Fld := ⟨29, 27, .rw, 0x0⟩
def HKS_CFG_OW_EN : Fld := ⟨26, 26, .rw, 0x0⟩
def HKS_CFG_EXC : Fld := ⟨25, 24, .rw, 0x0⟩
def HKS_CFG_EXP : Fld := ⟨23, 22, .rw, 0x0⟩
def HKS_CFG_IEXC : Fld := ⟨21, 15, .rw, 0x1⟩
def HKS_CFG_EVERY : Fld := ⟨14, 12, .rw, 0x0⟩
def HKS_CFG_SRC : Fld := ⟨6, 0, .rw, 0x0⟩
def HKS_TIME_RLOCK : Fld := ⟨31, 31, .rw, 0x0⟩
def HKS_TIME_T_INT : Fld := ⟨30, 24, .rw, 0x14⟩
def HKS_TIME_RIP_N : Fld := ⟨23, 20, .rw, 0x1⟩
def HKS_TIME_DELAY : Fld := ⟨15, 0, .rw, 0x32⟩
def HKS_LIM_LIM_HI : Fld := ⟨31, 16, .rw, 0x7FFF⟩
def HKS_LIM_LIM_LO : Fld := ⟨15, 0, .rw, 0x8000⟩
def HKS_RES_FLAGS : Fld := ⟨31, 24, .ro, 0x0⟩
def HKS_RES_CODE : Fld := ⟨23, 0, .ro, 0x0⟩
def HKS_INFO_ROUND : Fld := ⟨31, 24, .ro, 0x0⟩
def HKS_INFO_GAIN : Fld := ⟨23, 21, .ro, 0x0⟩
def HKS_INFO_T_USED : Fld := ⟨16, 0, .ro, 0x0⟩
def HKS_TS_LO_TS : Fld := ⟨31, 0, .ro, 0x0⟩
def HKS_TS_HI_TS : Fld := ⟨31, 0, .ro, 0x0⟩
def DEC_CTRL_SYNC : Fld := ⟨31, 31, .w1s, 0x0⟩
def DEC_CTRL_SYNC_MASK : Fld := ⟨7, 0, .rw, 0xFF⟩
def DEC_STAT_CNT_CLR : Fld := ⟨8, 8, .wo, 0x0⟩
def DEC_STAT_PART_ERR : Fld := ⟨3, 3, .w1c, 0x0⟩
def DEC_STAT_CLIP : Fld := ⟨2, 2, .w1c, 0x0⟩
def DEC_STAT_OVL : Fld := ⟨1, 1, .w1c, 0x0⟩
def DEC_HIST_BASE_LO_ADDR : Fld := ⟨31, 0, .rwm, 0x00CC0000⟩
def DEC_HIST_BASE_HI_ADDR : Fld := ⟨7, 0, .rwm, 0x01⟩
def DEC_CFG_EN : Fld := ⟨31, 31, .rw, 0x0⟩
def DEC_CFG_HB : Fld := ⟨30, 30, .rw, 0x0⟩
def DEC_CFG_K : Fld := ⟨29, 26, .rw, 0x5⟩
def DEC_CFG_SRC : Fld := ⟨25, 23, .rw, 0⟩
def DEC_CFG_FREEZE : Fld := ⟨22, 22, .rw, 0x0⟩
def DEC_CFG_DCB_SH : Fld := ⟨21, 18, .rw, 0x8⟩
def DEC_DLY_EXT_DLY : Fld := ⟨15, 0, .rw, 0x0⟩
def DEC_LIN_LIN_EN : Fld := ⟨31, 31, .rw, 0x0⟩
def DEC_LIN_PART : Fld := ⟨30, 28, .rw, 0⟩
def DEC_LIN_LSH : Fld := ⟨25, 24, .rw, 0x0⟩
def DEC_DET_WSRC : Fld := ⟨31, 31, .rw, 0x0⟩
def DEC_DET_AX : Fld := ⟨29, 28, .rw, 0x0⟩
def DEC_DET_WIN : Fld := ⟨27, 24, .rw, 0x8⟩
def DEC_OUT_VALUE : Fld := ⟨31, 16, .ro, 0x0⟩
def DEC_OUT_INVALID : Fld := ⟨15, 15, .ro, 0x1⟩
def DEC_OUT_CLIP : Fld := ⟨14, 14, .ro, 0x0⟩
def DEC_OUT_OVL : Fld := ⟨13, 13, .ro, 0x0⟩
def DEC_OUT_INV_LEFT : Fld := ⟨3, 0, .ro, 0x0⟩
def DEC_PK_MAX : Fld := ⟨31, 16, .ro, 0x0⟩
def DEC_PK_MIN : Fld := ⟨15, 0, .ro, 0x0⟩
def DEC_RMS_DC : Fld := ⟨31, 16, .ro, 0x0⟩
def DEC_RMS_RMS : Fld := ⟨15, 0, .ro, 0x0⟩
def DEC_ENV_INV : Fld := ⟨31, 31, .ro, 0x0⟩
def DEC_ENV_ENV : Fld := ⟨15, 0, .ro, 0x0⟩
def DEC_IDX_OUTPUTS : Fld := ⟨31, 16, .ro, 0x0⟩
def DEC_IDX_WIDX : Fld := ⟨10, 0, .ro, 0x0⟩
def DEC_CNT_INV_CNT : Fld := ⟨31, 16, .ro, 0x0⟩
def DEC_CNT_CLIP_CNT : Fld := ⟨15, 8, .ro, 0x0⟩
def DEC_CNT_OVL_CNT : Fld := ⟨7, 0, .ro, 0x0⟩
def DEC_C_HI : Fld := ⟨31, 16, .rw, 0x0⟩
def DEC_C_LO : Fld := ⟨15, 0, .rw, 0x0⟩
def THM_CTRL_RECAL : Fld := ⟨31, 31, .w1s, 0x0⟩
def THM_CTRL_HYST : Fld := ⟨3, 0, .rw, 0x3⟩
def THM_STAT_BAND : Fld := ⟨31, 29, .ro, 0x2⟩
def THM_STAT_THROTTLE : Fld := ⟨28, 25, .ro, 0x0⟩
def THM_STAT_HOLD : Fld := ⟨24, 24, .ro, 0x0⟩
def THM_STAT_GUARD : Fld := ⟨23, 23, .ro, 0x0⟩
def THM_STAT_HEAT_REQ : Fld := ⟨22, 22, .ro, 0x0⟩
def THM_STAT_CRIT : Fld := ⟨21, 21, .ro, 0x0⟩
def THM_STAT_CNT_CLR : Fld := ⟨8, 8, .wo, 0x0⟩
def THM_STAT_ATRIP : Fld := ⟨2, 2, .w1c, 0x0⟩
def THM_STAT_AUTOCAP : Fld := ⟨1, 1, .w1c, 0x0⟩
def THM_STAT_IGNORED : Fld := ⟨0, 0, .w1c, 0x0⟩
def THM_TCTL_T_CTL : Fld := ⟨31, 16, .ro, 0x190⟩
def THM_TCTL_HOTTEST : Fld := ⟨4, 0, .ro, 0x0⟩
def THM_IGN_IGN : Fld := ⟨27, 0, .ro, 0x0⟩
def THM_CNT_BAND_CHG : Fld := ⟨31, 16, .ro, 0x0⟩
def THM_CNT_IGN_CNT : Fld := ⟨15, 8, .ro, 0x0⟩
def THM_CNT_AUTO_CNT : Fld := ⟨7, 0, .ro, 0x0⟩
def THM_SENS_TEMP : Fld := ⟨31, 16, .ro, 0x0⟩
def THM_SENS_TRIM : Fld := ⟨15, 8, .ro, 0x0⟩
def THM_SENS_IGN : Fld := ⟨7, 7, .ro, 0x0⟩
def THM_SENS_REASON : Fld := ⟨6, 5, .ro, 0x0⟩
def MEM_RCFG_SCRUB_EN : Fld := ⟨31, 31, .rw, 0⟩
def MEM_RCFG_PASS : Fld := ⟨15, 0, .rw, 0x64⟩
def MEM_RSTAT_SCRUBBING : Fld := ⟨31, 31, .ro, 0x0⟩
def MEM_RSTAT_PASSES : Fld := ⟨23, 16, .ro, 0x0⟩
def MEM_RSTAT_CNT_CLR : Fld := ⟨8, 8, .wo, 0x0⟩
def MEM_RSTAT_SCRUB_LATE : Fld := ⟨2, 2, .w1c, 0x0⟩
def MEM_RSTAT_UE : Fld := ⟨1, 1, .w1c, 0x0⟩
def MEM_RSTAT_CE : Fld := ⟨0, 0, .w1c, 0x0⟩
def MEM_RCNT_CE_CNT : Fld := ⟨31, 16, .ro, 0x0⟩
def MEM_RCNT_UE_CNT : Fld := ⟨15, 0, .ro, 0x0⟩
def MEM_RADDR_UE_ADDR : Fld := ⟨23, 0, .ro, 0x0⟩
def CM_TQ_BASE_OFS : Fld := ⟨23, 0, .rwm, 0xC80000⟩
def CM_SPILL_BASE_OFS : Fld := ⟨23, 0, .rwm, 0x600000⟩
def CM_SPILL_LEN_LEN : Fld := ⟨23, 0, .rwm, 0x680000⟩
def CM_GAP_BASE_OFS : Fld := ⟨23, 0, .rwm, 0xD80000⟩
def CM_GAP_LEN_LEN : Fld := ⟨23, 0, .rwm, 0x40000⟩
def CM_CHECK_COMMIT : Fld := ⟨31, 31, .rwm, 0x0⟩
def CM_CHECK_OK : Fld := ⟨30, 30, .ro, 0x1⟩
def CM_CHECK_ERR : Fld := ⟨26, 24, .ro, 0x0⟩
def CM_CHECK_REG_A : Fld := ⟨22, 20, .ro, 0x0⟩
def CM_CHECK_REG_B : Fld := ⟨18, 16, .ro, 0x0⟩
def DRC_CTRL_INIT : Fld := ⟨31, 31, .w1s, 0x0⟩
def DRC_CTRL_TRAIN : Fld := ⟨30, 30, .rw, 0x0⟩
def DRC_CTRL_PAR_EN : Fld := ⟨29, 29, .rw, 0x1⟩
def DRC_CTRL_ECC_WB : Fld := ⟨28, 28, .rw, 0x1⟩
def DRC_CTRL_TSRC : Fld := ⟨27, 26, .rw, 0x2⟩
def DRC_CTRL_HK_ENTRY : Fld := ⟨25, 20, .rw, 0x0⟩
def DRC_CTRL_HOT_CODE : Fld := ⟨15, 0, .rw, 0x7FFF⟩
def DRC_STAT_STATE : Fld := ⟨31, 28, .ro, 0x0⟩
def DRC_STAT_HOT : Fld := ⟨27, 27, .ro, 0x0⟩
def DRC_STAT_DRAM_HOT : Fld := ⟨26, 26, .ro, 0x0⟩
def DRC_STAT_LANE_ERR : Fld := ⟨25, 17, .ro, 0x0⟩
def DRC_STAT_CNT_CLR : Fld := ⟨8, 8, .wo, 0x0⟩
def DRC_STAT_TEMP_LOST : Fld := ⟨7, 7, .w1c, 0x0⟩
def DRC_STAT_FORCED : Fld := ⟨6, 6, .w1c, 0x0⟩
def DRC_STAT_ALERT_STUCK : Fld := ⟨5, 5, .w1c, 0x0⟩
def DRC_STAT_PAR_UE : Fld := ⟨4, 4, .w1c, 0x0⟩
def DRC_STAT_PARITY : Fld := ⟨3, 3, .w1c, 0x0⟩
def DRC_STAT_UE : Fld := ⟨2, 2, .w1c, 0x0⟩
def DRC_STAT_CE : Fld := ⟨1, 1, .w1c, 0x0⟩
def DRC_STAT_INIT_ERR : Fld := ⟨0, 0, .w1c, 0x0⟩
def DRC_GEOM_PRESENT : Fld := ⟨31, 31, .rw, 0x0⟩
def DRC_GEOM_DENS : Fld := ⟨29, 28, .rw, 0x1⟩
def DRC_GEOM_RANKS : Fld := ⟨27, 27, .rw, 0x0⟩
def DRC_GEOM_CAP : Fld := ⟨7, 0, .ro, 0x0⟩
def DRC_TIM0_CL : Fld := ⟨31, 26, .rw, 0x12⟩
def DRC_TIM0_CWL : Fld := ⟨25, 21, .rw, 0xE⟩
def DRC_TIM0_TRCD : Fld := ⟨20, 15, .rw, 0x12⟩
def DRC_TIM0_TRP : Fld := ⟨14, 9, .rw, 0x12⟩
def DRC_TIM0_TRC : Fld := ⟨8, 0, .rw, 0x3A⟩
def DRC_TIM1_TRAS : Fld := ⟨31, 26, .rw, 0x28⟩
def DRC_TIM1_TRRD_S : Fld := ⟨25, 22, .rw, 0x4⟩
def DRC_TIM1_TRRD_L : Fld := ⟨21, 18, .rw, 0x7⟩
def DRC_TIM1_TFAW : Fld := ⟨17, 12, .rw, 0x1B⟩
def DRC_TIM1_TWR : Fld := ⟨11, 7, .rw, 0x14⟩
def DRC_TIM1_TWTR_S : Fld := ⟨6, 4, .rw, 0x4⟩
def DRC_TIM1_TWTR_L : Fld := ⟨3, 0, .rw, 0xA⟩
def DRC_TIM2_TRTP : Fld := ⟨31, 28, .rw, 0xA⟩
def DRC_TIM2_TCCD_L : Fld := ⟨27, 24, .rw, 0x7⟩
def DRC_TIM2_TXP : Fld := ⟨23, 20, .rw, 0x8⟩
def DRC_TIM2_TRFC : Fld := ⟨19, 10, .rw, 0x1B6⟩
def DRC_REF_TREFI : Fld := ⟨31, 16, .rw, 0x2616⟩
def DRC_REF_OWED : Fld := ⟨15, 12, .ro, 0x0⟩
def DRC_REF_PULLED : Fld := ⟨11, 8, .ro, 0x0⟩
def DRC_REF_PULL_MAX : Fld := ⟨7, 4, .rw, 0x4⟩
def DRC_TEMP_VALID : Fld := ⟨31, 31, .ro, 0x0⟩
def DRC_TEMP_HOT_MPR : Fld := ⟨30, 30, .ro, 0x0⟩
def DRC_TEMP_HOT_HK : Fld := ⟨29, 29, .ro, 0x0⟩
def DRC_TEMP_AGE : Fld := ⟨15, 0, .ro, 0xFFFF⟩
def DRC_PD_PD_EN : Fld := ⟨31, 31, .rw, 0x1⟩
def DRC_PD_PD_IDLE : Fld := ⟨15, 0, .rw, 0x100⟩
def DRC_ERR_LO_ADDR : Fld := ⟨31, 0, .ro, 0x0⟩
def DRC_ERR_HI_KIND : Fld := ⟨31, 31, .ro, 0x0⟩
def DRC_ERR_HI_WRITE : Fld := ⟨30, 30, .ro, 0x0⟩
def DRC_ERR_HI_ADDR : Fld := ⟨7, 0, .ro, 0x0⟩
def DRC_CNT_A_CE_CNT : Fld := ⟨31, 16, .ro, 0x0⟩
def DRC_CNT_A_UE_CNT : Fld := ⟨15, 0, .ro, 0x0⟩
def DRC_CNT_B_REPLAY_CNT : Fld := ⟨31, 16, .ro, 0x0⟩
def DRC_CNT_B_PAR_UE_CNT : Fld := ⟨15, 8, .ro, 0x0⟩
def DRC_CNT_B_FORCED_CNT : Fld := ⟨7, 0, .ro, 0x0⟩
def DRC_SCRUB_EN : Fld := ⟨31, 31, .rw, 0x0⟩
def DRC_SCRUB_PASS_H : Fld := ⟨15, 0, .rw, 0x18⟩
def DRC_PORT_RT : Fld := ⟨31, 31, .ro, 0⟩
def DRC_PORT_LAT_TGT : Fld := ⟨15, 0, .rw, 0⟩
def DRC_PLAT_LAT_MAX : Fld := ⟨31, 16, .ro, 0x0⟩
def DRC_PLAT_CRIT_CNT : Fld := ⟨15, 0, .ro, 0x0⟩
def DRC_MR_VALUE : Fld := ⟨17, 0, .rw, 0x0⟩
def DLY_W_WDQS : Fld := ⟨25, 16, .rw, 0x0⟩
def DLY_W_WDQ : Fld := ⟨9, 0, .rw, 0x0⟩
def DLY_R_RDQS : Fld := ⟨25, 16, .rw, 0x0⟩
def DLY_R_GATE : Fld := ⟨12, 0, .rw, 0x0⟩
def DLY_V_HVREF : Fld := ⟨6, 0, .rw, 0x28⟩
def DLY_CA_CA : Fld := ⟨9, 0, .rw, 0x0⟩
def DRC_TEST_GO : Fld := ⟨31, 31, .w1s, 0x0⟩
def DRC_TEST_BUSY : Fld := ⟨30, 30, .ro, 0x0⟩
def DRC_TEST_RANK : Fld := ⟨29, 29, .rw, 0x0⟩
def DRC_TEST_PASS : Fld := ⟨8, 0, .ro, 0x0⟩
def SLQ_CTRL_SD_EN : Fld := ⟨31, 31, .rwm, 0x0⟩
def SLQ_CTRL_POOL_RSV : Fld := ⟨27, 20, .rwm, 0x40⟩
def SLQ_CTRL_SD_SEGS : Fld := ⟨19, 0, .rwm, 0x0⟩
def SLQ_POOL_C_FREE : Fld := ⟨15, 0, .ro, 0x1A00⟩
def SLQ_POOL_S_FREE : Fld := ⟨19, 0, .ro, 0x0⟩
def SLQ_STAT_CNT_CLR : Fld := ⟨8, 8, .wo, 0x0⟩
def SLQ_STAT_POOL_EMPTY : Fld := ⟨3, 3, .w1c, 0x0⟩
def SLQ_STAT_MARK_ERR : Fld := ⟨2, 2, .w1c, 0x0⟩
def SLQ_STAT_SPILL_UE : Fld := ⟨1, 1, .w1c, 0x0⟩
def SLQ_STAT_PTR_ERR : Fld := ⟨0, 0, .w1c, 0x0⟩
def SLQ_GRP_REINIT_BUSY : Fld := ⟨31, 16, .ro, 0x0⟩
def SLQ_GRP_REINIT : Fld := ⟨15, 0, .w1s, 0x0⟩
def SLQ_SD_BASE_LO_ADDR : Fld := ⟨31, 0, .rwm, 0x0⟩
def SLQ_SD_BASE_HI_ADDR : Fld := ⟨7, 0, .rwm, 0x0⟩
def SLQ_ROUTE_QUEUE : Fld := ⟨7, 0, .rw, 0⟩
def SLQ_CFG_EN : Fld := ⟨31, 31, .rwm, 0⟩
def SLQ_CFG_SRC : Fld := ⟨30, 30, .rwm, 0x0⟩
def SLQ_CFG_SINK : Fld := ⟨29, 28, .rwm, 0x0⟩
def SLQ_CFG_SD_ONLY : Fld := ⟨27, 27, .rwm, 0x0⟩
def SLQ_CFG_SEG_MAX : Fld := ⟨15, 0, .rwm, 0x100⟩
def SLQ_QSTAT_CREDIT : Fld := ⟨31, 31, .ro, 0x1⟩
def SLQ_QSTAT_MARKS : Fld := ⟨30, 25, .ro, 0x0⟩
def SLQ_QSTAT_CAUSE : Fld := ⟨24, 21, .ro, 0x0⟩
def SLQ_QSTAT_FULL : Fld := ⟨2, 2, .w1c, 0x0⟩
def SLQ_QSTAT_RESET : Fld := ⟨1, 1, .w1c, 0x0⟩
def SLQ_LEVEL_SEGS : Fld := ⟨31, 16, .ro, 0x0⟩
def SLQ_LEVEL_MARKED : Fld := ⟨15, 0, .ro, 0x0⟩
def SLQ_CNT_RESETS : Fld := ⟨31, 16, .ro, 0x0⟩
def SLQ_CNT_FULL_CNT : Fld := ⟨15, 8, .ro, 0x0⟩
def SLQ_CNT_HDR_LOST : Fld := ⟨7, 0, .ro, 0x0⟩
def SLQ_LOST_LOST : Fld := ⟨31, 0, .ro, 0x0⟩
def DMA_CFG_EN : Fld := ⟨31, 31, .rw, 0x0⟩
def DMA_CFG_RESTART : Fld := ⟨30, 30, .w1s, 0x0⟩
def DMA_CFG_SKIP : Fld := ⟨29, 29, .w1s, 0x0⟩
def DMA_CFG_REINIT : Fld := ⟨28, 28, .w1s, 0x0⟩
def DMA_CFG_PRIO : Fld := ⟨27, 26, .rw, 0x1⟩
def DMA_CFG_RING_N : Fld := ⟨12, 0, .rw, 0x1⟩
def DMA_RING_LO_ADDR : Fld := ⟨31, 5, .rw, 0x0⟩
def DMA_RING_HI_ADDR : Fld := ⟨7, 0, .rw, 0x0⟩
def DMA_TAIL_TAIL : Fld := ⟨11, 0, .rw, 0x0⟩
def DMA_HEAD_STATE : Fld := ⟨31, 29, .ro, 0x0⟩
def DMA_HEAD_HEAD : Fld := ⟨11, 0, .ro, 0x0⟩
def DMA_COUNT_COUNT : Fld := ⟨31, 0, .ro, 0x0⟩
def DMA_CRC_CRC : Fld := ⟨31, 0, .ro, 0x0⟩
def DMA_STAT_STATUS : Fld := ⟨31, 24, .ro, 0x0⟩
def DMA_STAT_CNT_CLR : Fld := ⟨8, 8, .wo, 0x0⟩
def DMA_STAT_STOPPED : Fld := ⟨3, 3, .ro, 0x0⟩
def DMA_STAT_TAIL_ERR : Fld := ⟨2, 2, .w1c, 0x0⟩
def DMA_STAT_ERR : Fld := ⟨1, 1, .w1c, 0x0⟩
def DMA_STAT_DONE : Fld := ⟨0, 0, .w1c, 0x0⟩
def DMA_CNT_DESC_DONE : Fld := ⟨31, 16, .ro, 0x0⟩
def DMA_CNT_ERRORS : Fld := ⟨15, 0, .ro, 0x0⟩
def DMA_ERR_LO_ADDR : Fld := ⟨31, 0, .ro, 0x0⟩
def DMA_ERR_HI_ADDR : Fld := ⟨31, 0, .ro, 0x0⟩
def LN_CTRL_EN : Fld := ⟨31, 31, .rw, 0x0⟩
def LN_CTRL_PRBS_EN : Fld := ⟨30, 30, .rw, 0x0⟩
def LN_CTRL_PRBS_SEL : Fld := ⟨29, 28, .rw, 0x0⟩
def LN_CTRL_LP_REQ : Fld := ⟨27, 26, .rw, 0x0⟩
def LN_CTRL_REINIT : Fld := ⟨25, 25, .w1s, 0x0⟩
def LN_STAT_STATE : Fld := ⟨31, 28, .ro, 0x0⟩
def LN_STAT_LANES : Fld := ⟨27, 24, .ro, 0x0⟩
def LN_STAT_CNT_CLR : Fld := ⟨8, 8, .wo, 0x0⟩
def LN_STAT_LP_DENIED : Fld := ⟨7, 7, .w1c, 0x0⟩
def LN_STAT_PARAM_ERR : Fld := ⟨6, 6, .w1c, 0x0⟩
def LN_STAT_REPLAY_FAIL : Fld := ⟨5, 5, .w1c, 0x0⟩
def LN_STAT_CRC_ERR : Fld := ⟨4, 4, .w1c, 0x0⟩
def LN_STAT_TRAIN_TO : Fld := ⟨3, 3, .w1c, 0x0⟩
def LN_STAT_DOWN : Fld := ⟨2, 2, .w1c, 0x0⟩
def LN_STAT_ABSENT : Fld := ⟨1, 1, .w1c, 0x0⟩
def LN_STAT_FROZEN : Fld := ⟨0, 0, .w1c, 0x0⟩
def LN_CFG_REPLAY_TO : Fld := ⟨31, 24, .rw, 0x14⟩
def LN_CFG_REPLAY_MAX : Fld := ⟨23, 20, .rw, 0x4⟩
def LN_CFG_ACK_DLY : Fld := ⟨15, 8, .rw, 0xA⟩
def LN_CNT_A_CRC_CNT : Fld := ⟨31, 16, .ro, 0x0⟩
def LN_CNT_A_REPLAY_CNT : Fld := ⟨15, 0, .ro, 0x0⟩
def LN_CNT_B_RETRAINS : Fld := ⟨31, 24, .ro, 0x0⟩
def LN_CNT_B_DOWN_CNT : Fld := ⟨23, 16, .ro, 0x0⟩
def LN_CNT_B_FRZ_CNT : Fld := ⟨15, 0, .ro, 0x0⟩
def LN_TX_TAP_ERR : Fld := ⟨31, 31, .w1c, 0x0⟩
def LN_TX_C_POST : Fld := ⟨20, 16, .rw, 0x8⟩
def LN_TX_C_MAIN : Fld := ⟨13, 8, .rw, 0x30⟩
def LN_TX_C_PRE : Fld := ⟨3, 0, .rw, 0x0⟩
def LN_RX_FROZEN : Fld := ⟨31, 31, .ro, 0x0⟩
def LN_RX_LOCKED : Fld := ⟨30, 30, .ro, 0x0⟩
def LN_RX_SLIPS : Fld := ⟨15, 8, .ro, 0x0⟩
def LN_RX_PHASE : Fld := ⟨7, 0, .ro, 0x0⟩
def LN_PRBS_PLOCK : Fld := ⟨31, 31, .ro, 0x0⟩
def LN_PRBS_ERRORS : Fld := ⟨30, 0, .ro, 0x0⟩
def HWIN1_BASE_LO_ADDR : Fld := ⟨31, 12, .rw, 0x0⟩
def HWIN1_BASE_HI_ADDR : Fld := ⟨7, 0, .rw, 0x10⟩
def RING_CFG_RING_EN : Fld := ⟨31, 31, .rwm, 0x0⟩
def RING_CFG_REFORM : Fld := ⟨30, 30, .w1s, 0x0⟩
def RING_CFG_RING_ID : Fld := ⟨29, 19, .rwm, 0x0⟩
def RING_CFG_CNT_CLR : Fld := ⟨18, 18, .wo, 0x0⟩
def RING_CFG_RING_FSRC : Fld := ⟨17, 16, .rwm, 0x0⟩
def RING_CFG_FS_LEAD : Fld := ⟨15, 0, .rw, 0x30D4⟩
def RING_STAT_RSTATE : Fld := ⟨31, 29, .ro, 0x0⟩
def RING_STAT_MASTER : Fld := ⟨28, 28, .ro, 0⟩
def RING_STAT_NODE_VALID : Fld := ⟨27, 27, .ro, 0x0⟩
def RING_STAT_ALIGNED : Fld := ⟨26, 26, .ro, 0x0⟩
def RING_STAT_REF : Fld := ⟨25, 24, .ro, 0x0⟩
def RING_STAT_ERR : Fld := ⟨23, 22, .ro, 0x0⟩
def RING_STAT_SIZE : Fld := ⟨21, 16, .ro, 0x0⟩
def RING_STAT_NODE_ID : Fld := ⟨15, 0, .ro, 0x0⟩
def RING_RTT_RTT : Fld := ⟨31, 0, .ro, 0x0⟩
def RING_ALIGN_THETA : Fld := ⟨31, 16, .ro, 0x0⟩
def RING_ALIGN_DELAY : Fld := ⟨15, 0, .ro, 0x0⟩
def RING_ASYM_ASYM_U : Fld := ⟨31, 16, .rwm, 0x0⟩
def RING_ASYM_ASYM_D : Fld := ⟨15, 0, .rwm, 0x0⟩
def RING_CNT_ALIGN_LOST : Fld := ⟨31, 24, .ro, 0x0⟩
def RING_CNT_WRAPS : Fld := ⟨23, 16, .ro, 0x0⟩
def RING_CNT_EXPORT_DROP : Fld := ⟨15, 0, .ro, 0x0⟩
def RING_CNT_B_LATE_BCAST : Fld := ⟨31, 16, .ro, 0x0⟩
def RING_CNT_B_VC2_DISCARD : Fld := ⟨15, 0, .ro, 0x0⟩
def RING_MAP_PRESENT : Fld := ⟨31, 0, .ro, 0x0⟩
def EVT_CTRL_CNT_CLR : Fld := ⟨31, 31, .wo, 0x0⟩
def EVT_CTRL_COAL : Fld := ⟨15, 8, .rw, 0xA⟩
def EVT_STAT_NOTIFY_OVF : Fld := ⟨31, 31, .w1c, 0x0⟩
def EVT_STAT_EMCY_OVF : Fld := ⟨30, 30, .w1c, 0x0⟩
def EVT_STAT_LAST : Fld := ⟨9, 0, .ro, 0x0⟩
def EVT_REPUB_UNIT : Fld := ⟨7, 0, .wo, 0x0⟩
def EVT_IRQ_LEVEL : Fld := ⟨31, 31, .ro, 0x0⟩
def EVT_IRQ_FIRST : Fld := ⟨9, 0, .ro, 0x3FF⟩
def EV_FLAG_FLAG : Fld := ⟨31, 0, .w1c, 0x0⟩
def EV_ROUTE_COUNT : Fld := ⟨31, 16, .ro, 0x0⟩
def EV_ROUTE_CNT_CLR : Fld := ⟨15, 15, .wo, 0x0⟩
def EV_ROUTE_ETH : Fld := ⟨4, 4, .rw, 0x0⟩
def EV_ROUTE_HOST : Fld := ⟨3, 3, .rw, 0x0⟩
def EV_ROUTE_EMCY : Fld := ⟨2, 2, .rw, 0x0⟩
def EV_ROUTE_IRQ1 : Fld := ⟨1, 1, .rw, 0x0⟩
def EV_ROUTE_IRQ0 : Fld := ⟨0, 0, .rw, 0x0⟩
def UNIT_STATE_GEN : Fld := ⟨31, 16, .ro, 0x0⟩
def UNIT_STATE_STATE : Fld := ⟨15, 0, .ro, 0x0⟩
def CAN_CFG_EN : Fld := ⟨31, 31, .rwm, 0⟩
def CAN_CFG_FD : Fld := ⟨30, 30, .rwm, 0x1⟩
def CAN_CFG_REDUNDANT : Fld := ⟨29, 29, .rwm, 0x0⟩
def CAN_CFG_NBR : Fld := ⟨28, 27, .rwm, 0x2⟩
def CAN_CFG_DBR : Fld := ⟨26, 25, .rwm, 0x0⟩
def CAN_CFG_NODE : Fld := ⟨6, 0, .rwm, 0x1⟩
def CAN_STAT_BUS : Fld := ⟨31, 30, .ro, 0x0⟩
def CAN_STAT_NMT : Fld := ⟨29, 28, .ro, 0x3⟩
def CAN_STAT_TEC : Fld := ⟨27, 20, .ro, 0x0⟩
def CAN_STAT_REC : Fld := ⟨19, 12, .ro, 0x0⟩
def CAN_STAT_CNT_CLR : Fld := ⟨8, 8, .wo, 0x0⟩
def CAN_STAT_HB_LOST : Fld := ⟨4, 4, .w1c, 0x0⟩
def CAN_STAT_TX_TO : Fld := ⟨3, 3, .w1c, 0x0⟩
def CAN_STAT_RX_OVR : Fld := ⟨2, 2, .w1c, 0x0⟩
def CAN_STAT_ERR_PASSIVE : Fld := ⟨1, 1, .w1c, 0x0⟩
def CAN_STAT_BUS_OFF : Fld := ⟨0, 0, .w1c, 0x0⟩
def CAN_CNT_RX_FRAMES : Fld := ⟨31, 16, .ro, 0x0⟩
def CAN_CNT_BUS_OFFS : Fld := ⟨15, 8, .ro, 0x0⟩
def CAN_CNT_RX_OVR : Fld := ⟨7, 0, .ro, 0x0⟩
def ETH_CFG_EN : Fld := ⟨31, 31, .rwm, 0x0⟩
def ETH_CFG_MODE : Fld := ⟨30, 30, .rwm, 0x0⟩
def ETH_CFG_AN_EN : Fld := ⟨29, 29, .rwm, 0x1⟩
def ETH_CFG_PTP_EN : Fld := ⟨28, 28, .rw, 0x1⟩
def ETH_CFG_MGMT_EN : Fld := ⟨27, 27, .rw, 0x1⟩
def ETH_CFG_PTP_SEL : Fld := ⟨26, 26, .rwm, 0x0⟩
def ETH_STAT_LINK : Fld := ⟨31, 31, .ro, 0x0⟩
def ETH_STAT_AN_DONE : Fld := ⟨30, 30, .ro, 0x0⟩
def ETH_STAT_CNT_CLR : Fld := ⟨8, 8, .wo, 0x0⟩
def ETH_STAT_RX_DROP : Fld := ⟨3, 3, .w1c, 0x0⟩
def ETH_STAT_LINK_DOWN : Fld := ⟨2, 2, .w1c, 0x0⟩
def ETH_STAT_LINK_UP : Fld := ⟨1, 1, .w1c, 0x0⟩
def ETH_STAT_PTP_FAULT : Fld := ⟨0, 0, .w1c, 0x0⟩
def ETH_CNT_RX_FRAMES : Fld := ⟨31, 16, .ro, 0x0⟩
def ETH_CNT_RX_DROP : Fld := ⟨15, 8, .ro, 0x0⟩
def ETH_CNT_CRC_ERR : Fld := ⟨7, 0, .ro, 0x0⟩
def ETH_MAC_LO_MAC : Fld := ⟨31, 0, .rwm, 0⟩
def ETH_MAC_HI_MAC : Fld := ⟨15, 0, .rwm, 0⟩
def ETH_IP_IP : Fld := ⟨31, 0, .rwm, 0x0⟩
def ETH_PEER_IP_IP : Fld := ⟨31, 0, .rw, 0x0⟩
def ETH_UDP_MGMT_PORT : Fld := ⟨31, 16, .rwm, 0xB860⟩
def ETH_UDP_PEER_PORT : Fld := ⟨15, 0, .rw, 0xB861⟩
def ETH_TS_CORR_RX_CORR : Fld := ⟨31, 16, .rw, 0x0⟩
def ETH_TS_CORR_TX_CORR : Fld := ⟨15, 0, .rw, 0x0⟩
def SECU_STAT_STAGE : Fld := ⟨31, 30, .ro, 0x0⟩
def SECU_STAT_BANK : Fld := ⟨29, 29, .ro, 0x0⟩
def SECU_STAT_TRIAL : Fld := ⟨28, 28, .ro, 0x0⟩
def SECU_STAT_DBG : Fld := ⟨27, 26, .ro, 0x0⟩
def SECU_STAT_OWNER : Fld := ⟨25, 23, .ro, 0x0⟩
def SECU_STAT_OPK : Fld := ⟨22, 22, .ro, 0x0⟩
def SECU_STAT_OPCERT : Fld := ⟨21, 21, .ro, 0x0⟩
def SECU_STAT_CNT_CLR : Fld := ⟨8, 8, .wo, 0x0⟩
def SECU_STAT_BOARD_BAD : Fld := ⟨2, 2, .w1c, 0x0⟩
def SECU_STAT_REJECT : Fld := ⟨1, 1, .w1c, 0x0⟩
def SECU_STAT_FALLBACK : Fld := ⟨0, 0, .w1c, 0x0⟩
def SEC_OTP_ARC : Fld := ⟨31, 26, .ro, 0⟩
def SEC_OTP_SVN : Fld := ⟨25, 20, .ro, 0x0⟩
def SEC_OTP_ROOT_OK : Fld := ⟨19, 19, .ro, 0x1⟩
def SEC_CMD_GO : Fld := ⟨31, 31, .w1s, 0x0⟩
def SEC_CMD_CMD : Fld := ⟨3, 0, .rw, 0x0⟩
def SEC_CMD_STAT_BUSY : Fld := ⟨31, 31, .ro, 0x0⟩
def SEC_CMD_STAT_ERR : Fld := ⟨3, 0, .ro, 0x0⟩
def SEC_LEN_LEN : Fld := ⟨31, 0, .rw, 0x0⟩
def SEC_CNT_REJECTS : Fld := ⟨31, 16, .ro, 0x0⟩
def SEC_CNT_FALLBACKS : Fld := ⟨15, 8, .ro, 0x0⟩
def SEC_CNT_DBG_DENIED : Fld := ⟨7, 0, .ro, 0x0⟩
def SEC_ARG_LO_ADDR : Fld := ⟨31, 0, .rw, 0x0⟩
def SEC_ARG_HI_ADDR : Fld := ⟨7, 0, .rw, 0x0⟩
def SYS_MODE_MODE : Fld := ⟨31, 29, .ro, 0x1⟩
def SYS_MODE_BUSY : Fld := ⟨28, 28, .ro, 0x0⟩
def SYS_MODE_REASON : Fld := ⟨27, 24, .ro, 0x0⟩
def SYS_MODE_REFUSED : Fld := ⟨8, 8, .w1c, 0x0⟩
def SYS_MODE_REQ : Fld := ⟨2, 0, .rw, 0x1⟩
def SYS_CFG_AUTO : Fld := ⟨31, 31, .rwm, 0x0⟩
def SYS_CFG_SCN_AUTO : Fld := ⟨30, 29, .rwm, 0x0⟩
def SYS_CFG_WDT_MS : Fld := ⟨15, 0, .rwm, 0x64⟩
def SYS_RESET_KEY : Fld := ⟨15, 0, .wo, 0x0⟩
def SYS_CAUSE_CAUSE : Fld := ⟨31, 28, .ro, 0x0⟩
def SYS_CAUSE_FROM : Fld := ⟨27, 25, .ro, 0x0⟩
def SYS_CAUSE_WARM_CNT : Fld := ⟨15, 0, .ro, 0x0⟩
def SYS_REINIT_GO : Fld := ⟨31, 31, .w1s, 0x0⟩
def SYS_REINIT_BUSY : Fld := ⟨30, 30, .ro, 0x0⟩
def SYS_REINIT_REFUSED : Fld := ⟨29, 29, .w1c, 0x0⟩
def SYS_REINIT_KIND : Fld := ⟨26, 24, .rw, 0x0⟩
def SYS_REINIT_INDEX : Fld := ⟨5, 0, .rw, 0x0⟩
def SYS_DECERR_LO_ADDR : Fld := ⟨31, 0, .ro, 0x0⟩
def SYS_DECERR_HI_WRITE : Fld := ⟨16, 16, .ro, 0x0⟩
def SYS_DECERR_HI_ADDR : Fld := ⟨7, 0, .ro, 0x0⟩
def SYS_CNT_DECERR_CNT : Fld := ⟨31, 16, .ro, 0x0⟩
def SYS_CNT_REFUSE_CNT : Fld := ⟨15, 8, .ro, 0x0⟩
def SYS_CNT_CNT_CLR : Fld := ⟨0, 0, .wo, 0x0⟩
def SYS_WDT_KICK : Fld := ⟨31, 31, .w1s, 0x0⟩
def SYS_WDT_LEFT : Fld := ⟨15, 0, .ro, 0x64⟩
def CLK_STAT_LOCKED : Fld := ⟨31, 31, .ro, 0x1⟩
def CLK_STAT_HOLDOVER : Fld := ⟨30, 30, .ro, 0x0⟩
def CLK_STAT_REFCLK_OK : Fld := ⟨29, 29, .ro, 0x1⟩
def CLK_STAT_FWD_U_OK : Fld := ⟨28, 28, .ro, 0x0⟩
def CLK_STAT_FWD_D_OK : Fld := ⟨27, 27, .ro, 0x0⟩
def CLK_STAT_SRC : Fld := ⟨26, 25, .ro, 0x0⟩
def CLK_STAT_CNT_CLR : Fld := ⟨8, 8, .wo, 0x0⟩
def CLK_STAT_REF_LOST : Fld := ⟨1, 1, .w1c, 0x0⟩
def CLK_STAT_LOCK_LOST : Fld := ⟨0, 0, .w1c, 0x0⟩
def CLK_CNT_HOLD_CNT : Fld := ⟨31, 16, .ro, 0x0⟩
def CLK_CNT_LOCK_CNT : Fld := ⟨15, 8, .ro, 0x0⟩
def CLK_OFS_OFS : Fld := ⟨31, 0, .ro, 0x0⟩
def CLK_GATE0_GATE_CL : Fld := ⟨31, 16, .rwm, 0x0⟩
def CLK_GATE0_GATE_TG : Fld := ⟨15, 0, .rwm, 0x0⟩
def CLK_ACT0_RUN : Fld := ⟨31, 0, .ro, 0xFFFFFFFF⟩
def CLK_ACT1_RUN : Fld := ⟨27, 0, .ro, 0xFFFFFFF⟩

end F

/-! ### Registers as lists of their fields -/
namespace D

def FE_CFG : List Fld :=
  [F.FE_CFG_EN, F.FE_CFG_GAIN, F.FE_CFG_HYST, F.FE_CFG_TH_HIGH, F.FE_CFG_TH_LOW]
def FE_ACT : List Fld :=
  [F.FE_ACT_EN, F.FE_ACT_GAIN, F.FE_ACT_HYST, F.FE_ACT_PEND, F.FE_ACT_TH_HIGH, F.FE_ACT_TH_LOW]
def FE_MODE : List Fld :=
  [F.FE_MODE_POL, F.FE_MODE_DCR_BW, F.FE_MODE_DCR_HOLD]
def FE_TEST : List Fld :=
  [F.FE_TEST_TEST_EN, F.FE_TEST_PAIR, F.FE_TEST_EVERY, F.FE_TEST_WIDTH, F.FE_TEST_AMP]
def FE_TEST_TIME : List Fld :=
  [F.FE_TEST_TIME_DELAY]
def FE_STAT : List Fld :=
  [F.FE_STAT_STATE, F.FE_STAT_DCR_LIM, F.FE_STAT_CLAMP_NOW, F.FE_STAT_CNT_CLR, F.FE_STAT_TMISS, F.FE_STAT_TH_ORDER, F.FE_STAT_OVL, F.FE_STAT_SKIP, F.FE_STAT_SAT]
def FE_BASELINE : List Fld :=
  [F.FE_BASELINE_GAIN, F.FE_BASELINE_CURRENT]
def FE_CNT_A : List Fld :=
  [F.FE_CNT_A_TEST_HIT, F.FE_CNT_A_TEST_MISS]
def FE_CNT_B : List Fld :=
  [F.FE_CNT_B_CLAMP_SHOTS, F.FE_CNT_B_REC_DROP]
def FE_TRIM : List Fld :=
  [F.FE_TRIM_TRIM_OK, F.FE_TRIM_OFS_HIGH, F.FE_TRIM_OFS_LOW]
def FE_TILE_CTRL : List Fld :=
  [F.FE_TILE_CTRL_AUTOTRIM, F.FE_TILE_CTRL_MISS_LIM, F.FE_TILE_CTRL_TOL, F.FE_TILE_CTRL_FE_FAULT_MASK]
def FE_TILE_SUM : List Fld :=
  [F.FE_TILE_SUM_FAULT_CH]
def BIAS_REF : List Fld :=
  [F.BIAS_REF_CODE]
def BIAS_LIM : List Fld :=
  [F.BIAS_LIM_MAX, F.BIAS_LIM_SLEW]
def BIAS_MON : List Fld :=
  [F.BIAS_MON_ACTION, F.BIAS_MON_HI, F.BIAS_MON_LO]
def BIAS_STAT : List Fld :=
  [F.BIAS_STAT_MOVE, F.BIAS_STAT_WIN_HI, F.BIAS_STAT_WIN_LO, F.BIAS_STAT_CLIP, F.BIAS_STAT_MON, F.BIAS_STAT_OUT]
def TDC_CTRL : List Fld :=
  [F.TDC_CTRL_CAL_MODE, F.TDC_CTRL_ROLL_EN, F.TDC_CTRL_FILL_ALL, F.TDC_CTRL_STALE_DT, F.TDC_CTRL_FILL_MS, F.TDC_CTRL_MIN_HITS]
def TDC_CLK : List Fld :=
  [F.TDC_CLK_CUR_MODE, F.TDC_CLK_PEND, F.TDC_CLK_RELOCK, F.TDC_CLK_FORCE, F.TDC_CLK_REQ_MODE]
def TDC_CAL_GAP : List Fld :=
  [F.TDC_CAL_GAP_GAP_WARM, F.TDC_CAL_GAP_GAP_NORMAL, F.TDC_CAL_GAP_GAP_COLD]
def TDC_CAL_STAT : List Fld :=
  [F.TDC_CAL_STAT_FILLING, F.TDC_CAL_STAT_FILL_UNIT, F.TDC_CAL_STAT_ROUNDS, F.TDC_CAL_STAT_CNT_CLR, F.TDC_CAL_STAT_REPLICA, F.TDC_CAL_STAT_XMODE, F.TDC_CAL_STAT_STALE, F.TDC_CAL_STAT_STARVED, F.TDC_CAL_STAT_DISCARD, F.TDC_CAL_STAT_DLL_UNLOCK]
def TDC_CD_MAP : List Fld :=
  [F.TDC_CD_MAP_UNITS]
def TDC_CNT : List Fld :=
  [F.TDC_CNT_UNLOCK_CNT, F.TDC_CNT_REPLICA_CNT, F.TDC_CNT_STARVE_CNT]
def TB_LO : List Fld :=
  [F.TB_LO_VALUE]
def TB_HI : List Fld :=
  [F.TB_HI_VALUE]
def TB_LOAD_LO : List Fld :=
  [F.TB_LOAD_LO_VALUE]
def TB_LOAD_HI : List Fld :=
  [F.TB_LOAD_HI_VALUE]
def TB_CTRL : List Fld :=
  [F.TB_CTRL_LOAD_LOW, F.TB_CTRL_DENIED, F.TB_CTRL_LOAD_PPS, F.TB_CTRL_LOAD_NOW]
def TDC_FAULT : List Fld :=
  [F.TDC_FAULT_UNLOCK_UNIT, F.TDC_FAULT_STARVE_UNIT]
def TAB_SEL : List Fld :=
  [F.TAB_SEL_UNIT, F.TAB_SEL_INTERP, F.TAB_SEL_ENTRY]
def TAB_DATA : List Fld :=
  [F.TAB_DATA_VALID, F.TAB_DATA_MODE, F.TAB_DATA_SRC, F.TAB_DATA_POS]
def TAB_INFO : List Fld :=
  [F.TAB_INFO_VALID, F.TAB_INFO_MODE, F.TAB_INFO_TEMP, F.TAB_INFO_AGE]
def AUX_CFG : List Fld :=
  [F.AUX_CFG_EN, F.AUX_CFG_EDGE, F.AUX_CFG_MODE, F.AUX_CFG_PRESC, F.AUX_CFG_AVG, F.AUX_CFG_TIMEOUT]
def AUX_STAT : List Fld :=
  [F.AUX_STAT_VALID, F.AUX_STAT_GATE, F.AUX_STAT_FILL, F.AUX_STAT_CNT_CLR, F.AUX_STAT_LOST, F.AUX_STAT_TIMEOUT]
def AUX_TS_F : List Fld :=
  [F.AUX_TS_F_EMPTY, F.AUX_TS_F_FINE]
def AUX_TS_LO : List Fld :=
  [F.AUX_TS_LO_TICK]
def AUX_TS_HI : List Fld :=
  [F.AUX_TS_HI_TICK]
def AUX_PER_INT : List Fld :=
  [F.AUX_PER_INT_PER_INT]
def AUX_PER_FRAC : List Fld :=
  [F.AUX_PER_FRAC_PER_FRAC]
def AUX_CNT : List Fld :=
  [F.AUX_CNT_LOST, F.AUX_CNT_EDGES]
def GATE_CFG : List Fld :=
  [F.GATE_CFG_POL, F.GATE_CFG_STATE, F.GATE_CFG_FILT]
def SHT_CTRL : List Fld :=
  [F.SHT_CTRL_CODE_MODE, F.SHT_CTRL_FRAME_SRC, F.SHT_CTRL_CAL_RUN, F.SHT_CTRL_PW, F.SHT_CTRL_THROTTLE]
def SHT_TAB_BASE : List Fld :=
  [F.SHT_TAB_BASE_OFS]
def SHT_VAL : List Fld :=
  [F.SHT_VAL_BUSY, F.SHT_VAL_OK, F.SHT_VAL_PENDING, F.SHT_VAL_ERR, F.SHT_VAL_ERR_ROW]
def SHT_FRAME_LEN : List Fld :=
  [F.SHT_FRAME_LEN_FRAME_LEN]
def SHT_FB : List Fld :=
  [F.SHT_FB_FB_POLICY, F.SHT_FB_FB_LIM, F.SHT_FB_FB_TOL, F.SHT_FB_FB_NOM, F.SHT_FB_FB_MAX, F.SHT_FB_FB_MIN]
def SHT_HOLD : List Fld :=
  [F.SHT_HOLD_MAX_DEFER, F.SHT_HOLD_EMIT_HOLD]
def SHT_STAT : List Fld :=
  [F.SHT_STAT_DENIED, F.SHT_STAT_CNT_CLR, F.SHT_STAT_GAP_LOST, F.SHT_STAT_WPROT, F.SHT_STAT_EARLY_MARK, F.SHT_STAT_FRAME_CUT, F.SHT_STAT_ROW_CRC, F.SHT_STAT_LATE, F.SHT_STAT_CONGEST, F.SHT_STAT_BAD_FB, F.SHT_STAT_NO_FB, F.SHT_STAT_MARK_LOST]
def SHT_BANK : List Fld :=
  [F.SHT_BANK_RESUME, F.SHT_BANK_HALTED]
def SHT_FRAME_NO : List Fld :=
  [F.SHT_FRAME_NO_FRAME_NO]
def SHT_NODE : List Fld :=
  [F.SHT_NODE_NODE_ID]
def SHT_SEQ_LO : List Fld :=
  [F.SHT_SEQ_LO_SEQ_LO]
def SHT_SEQ_HI : List Fld :=
  [F.SHT_SEQ_HI_SEQ_HI]
def SHT_CNT_A : List Fld :=
  [F.SHT_CNT_A_DEFER_CNT, F.SHT_CNT_A_EARLY_CNT, F.SHT_CNT_A_LATE_CNT]
def SHT_CNT_B : List Fld :=
  [F.SHT_CNT_B_NO_FB, F.SHT_CNT_B_BAD_FB, F.SHT_CNT_B_STRAY]
def SEED_CHK : List Fld :=
  [F.SEED_CHK_CHK]
def SHT_ACT : List Fld :=
  [F.SHT_ACT_LAST, F.SHT_ACT_FIRST]
def SHT_NEXT : List Fld :=
  [F.SHT_NEXT_COMMIT, F.SHT_NEXT_LAST, F.SHT_NEXT_FIRST]
def SEED : List Fld :=
  [F.SEED_SEED]
def GAP_CNT : List Fld :=
  [F.GAP_CNT_COUNT]
def CAP_CTRL : List Fld :=
  [F.CAP_CTRL_ARM, F.CAP_CTRL_DISARM, F.CAP_CTRL_FIRE, F.CAP_CTRL_RELEASE, F.CAP_CTRL_REPEAT, F.CAP_CTRL_TRIG, F.CAP_CTRL_FB, F.CAP_CTRL_TILE, F.CAP_CTRL_MASK]
def CAP_STAT : List Fld :=
  [F.CAP_STAT_STATE, F.CAP_STAT_PARTIAL, F.CAP_STAT_CAP_EV]
def CAP_LEN : List Fld :=
  [F.CAP_LEN_LEN]
def CAP_WIN : List Fld :=
  [F.CAP_WIN_PRE, F.CAP_WIN_POST]
def CAP_BASE_LO : List Fld :=
  [F.CAP_BASE_LO_BASE]
def CAP_BASE_HI : List Fld :=
  [F.CAP_BASE_HI_BASE]
def CAP_TICK_LO : List Fld :=
  [F.CAP_TICK_LO_VALUE]
def CAP_TICK_HI : List Fld :=
  [F.CAP_TICK_HI_VALUE]
def CAP_FIRST_LO : List Fld :=
  [F.CAP_FIRST_LO_VALUE]
def CAP_FIRST_HI : List Fld :=
  [F.CAP_FIRST_HI_VALUE]
def GT_CTRL : List Fld :=
  [F.GT_CTRL_REP_MODE, F.GT_CTRL_GN_KEEP, F.GT_CTRL_PAIR_REQ, F.GT_CTRL_PAIR_TOL, F.GT_CTRL_BG_AVG]
def GT_REP : List Fld :=
  [F.GT_REP_DENSE_ON, F.GT_REP_SPARSE_ON]
def GT_COINC : List Fld :=
  [F.GT_COINC_MODE, F.GT_COINC_SP_WIN, F.GT_COINC_SP_N, F.GT_COINC_BG_HI, F.GT_COINC_BG_LO]
def GT_DEADLINE : List Fld :=
  [F.GT_DEADLINE_DL_MAX]
def GT_STAT : List Fld :=
  [F.GT_STAT_POSTQ, F.GT_STAT_CNT_CLR, F.GT_STAT_TRIP_DROP, F.GT_STAT_OVF, F.GT_STAT_CONV, F.GT_STAT_REFUSED, F.GT_STAT_DEADLINE]
def GT_CNT_A : List Fld :=
  [F.GT_CNT_A_OVF_CNT, F.GT_CNT_A_CONV_CNT]
def GT_CNT_B : List Fld :=
  [F.GT_CNT_B_DEADLINE_CNT, F.GT_CNT_B_REFUSED_CNT]
def GT_CNT_C : List Fld :=
  [F.GT_CNT_C_OUTSIDE, F.GT_CNT_C_GN_EXCL]
def GT_TICKETS : List Fld :=
  [F.GT_TICKETS_TICKETS]
def GT_MODEMAP : List Fld :=
  [F.GT_MODEMAP_SPARSE]
def GT_NB : List Fld :=
  [F.GT_NB_NB3, F.GT_NB_NB2, F.GT_NB_NB1, F.GT_NB_NB0]
def GT_BG : List Fld :=
  [F.GT_BG_BG_RATE, F.GT_BG_BG_BIN]
def GT_OCC : List Fld :=
  [F.GT_OCC_REP, F.GT_OCC_COINC_ON, F.GT_OCC_PEAK_PREV, F.GT_OCC_PEAK_FRAME]
def GT_CH_CNT : List Fld :=
  [F.GT_CH_CNT_HISTS, F.GT_CH_CNT_REJ]
def GT_BUF : List Fld :=
  [F.GT_BUF_GEN1, F.GT_BUF_GEN0, F.GT_BUF_B1, F.GT_BUF_B0]
def ENP_CTRL : List Fld :=
  [F.ENP_CTRL_ST_EN, F.ENP_CTRL_STEAL_EN, F.ENP_CTRL_HELP_EN, F.ENP_CTRL_URGENT, F.ENP_CTRL_STEAL_MAX, F.ENP_CTRL_STEAL_MIN]
def ENP_ST : List Fld :=
  [F.ENP_ST_ST_SLOT]
def ENP_STAT : List Fld :=
  [F.ENP_STAT_CNT_CLR, F.ENP_STAT_LIGHT_DENSE, F.ENP_STAT_KSWAP_ERR, F.ENP_STAT_OUT_DROP, F.ENP_STAT_ABORT, F.ENP_STAT_STALE, F.ENP_STAT_EXPIRED, F.ENP_STAT_RET_WARN, F.ENP_STAT_RETIRE]
def ENP_KSWAP : List Fld :=
  [F.ENP_KSWAP_REQ, F.ENP_KSWAP_CANCEL, F.ENP_KSWAP_STATE, F.ENP_KSWAP_BANK, F.ENP_KSWAP_ERR, F.ENP_KSWAP_SWAP_FRAME]
def ENP_KINFO : List Fld :=
  [F.ENP_KINFO_SET_NEW, F.ENP_KINFO_SET_ACT]
def ENP_KSRC_LO : List Fld :=
  [F.ENP_KSRC_LO_ADDR]
def ENP_KSRC_HI : List Fld :=
  [F.ENP_KSRC_HI_ADDR]
def ENP_KMAP : List Fld :=
  [F.ENP_KMAP_KMAP]
def ENP_RETIRED : List Fld :=
  [F.ENP_RETIRED_RETIRED]
def CL_CTRL : List Fld :=
  [F.CL_CTRL_REINIT, F.CL_CTRL_QHI, F.CL_CTRL_RET_WARN]
def CL_Q : List Fld :=
  [F.CL_Q_PEAK, F.CL_Q_OCC]
def CL_STAT : List Fld :=
  [F.CL_STAT_URGENT, F.CL_STAT_REINIT_BUSY, F.CL_STAT_TESTING, F.CL_STAT_IN_SVC]
def CL_CNT_A : List Fld :=
  [F.CL_CNT_A_TAKEN]
def CL_CNT_B : List Fld :=
  [F.CL_CNT_B_STOLEN_IN, F.CL_CNT_B_STOLEN_OUT]
def CL_CNT_C : List Fld :=
  [F.CL_CNT_C_EXPIRED, F.CL_CNT_C_STALE]
def CL_CNT_D : List Fld :=
  [F.CL_CNT_D_ST_PASS, F.CL_CNT_D_ST_FAIL, F.CL_CNT_D_ABORT]
def CL_LAT : List Fld :=
  [F.CL_LAT_LAT_MAX, F.CL_LAT_OUT_DROP]
def ENG_STAT : List Fld :=
  [F.ENG_STAT_STATE, F.ENG_STAT_CAUSE, F.ENG_STAT_ECC_CE, F.ENG_STAT_LAST_PASS]
def PS_CTRL : List Fld :=
  [F.PS_CTRL_EXT, F.PS_CTRL_FULL_EVERY, F.PS_CTRL_ANG_WAIT, F.PS_CTRL_SLICE_TO]
def PS_STAT : List Fld :=
  [F.PS_STAT_CNT_CLR, F.PS_STAT_SUM_OVW, F.PS_STAT_SUM_MISS, F.PS_STAT_LATE, F.PS_STAT_TIMEOUT, F.PS_STAT_ANG_OLD, F.PS_STAT_ANG_STALE]
def PS_CNT_A : List Fld :=
  [F.PS_CNT_A_TIMEOUT_CNT, F.PS_CNT_A_LATE_CNT]
def PS_CNT_B : List Fld :=
  [F.PS_CNT_B_ANG_STALE_CNT, F.PS_CNT_B_ANG_OLD_CNT]
def PS_CNT_C : List Fld :=
  [F.PS_CNT_C_SUM_MISS_CNT, F.PS_CNT_C_SUM_UNUSED]
def PS_CNT_D : List Fld :=
  [F.PS_CNT_D_SUM_OVW, F.PS_CNT_D_EXP_SKIP]
def PS_POINTS : List Fld :=
  [F.PS_POINTS_POINTS]
def PS_SUM : List Fld :=
  [F.PS_SUM_SUM_SLOTS, F.PS_SUM_SUM_AGE]
def PS_SUM_BASE_LO : List Fld :=
  [F.PS_SUM_BASE_LO_ADDR]
def PS_SUM_BASE_HI : List Fld :=
  [F.PS_SUM_BASE_HI_ADDR]
def SCN_CFG (s : Nat) : List Fld :=
  [F.SCN_CFG_EN, { F.SCN_CFG_AX_AZ with rst := if s = 0 then 0 else 2 }, { F.SCN_CFG_AX_EL with rst := if s = 0 then 1 else 3 }]
def SCN_GAIN : List Fld :=
  [F.SCN_GAIN_GX, F.SCN_GAIN_GY]
def PS_EMIT : List Fld :=
  [F.PS_EMIT_AZ0, F.PS_EMIT_EL0]
def PS_CHOFS : List Fld :=
  [F.PS_CHOFS_OFS]
def PS_CHDIR : List Fld :=
  [F.PS_CHDIR_DAZ, F.PS_CHDIR_DEL]
def PS_CHPAR : List Fld :=
  [F.PS_CHPAR_SUM_EN, F.PS_CHPAR_EXP_EN, F.PS_CHPAR_WALK_SEL, F.PS_CHPAR_TMPL_MASK, F.PS_CHPAR_PART_POS, F.PS_CHPAR_PART_CH]
def TT_CTRL : List Fld :=
  [F.TT_CTRL_EN, F.TT_CTRL_VOX, F.TT_CTRL_RMAX]
def TT_AGE : List Fld :=
  [F.TT_AGE_P_MAX, F.TT_AGE_AGE_MAX, F.TT_AGE_DECAY]
def TT_BASE_LO : List Fld :=
  [F.TT_BASE_LO_ADDR]
def TT_BASE_HI : List Fld :=
  [F.TT_BASE_HI_SIZE, F.TT_BASE_HI_ADDR]
def TT_STAT : List Fld :=
  [F.TT_STAT_CLR_BUSY, F.TT_STAT_CLEAR, F.TT_STAT_CNT_CLR, F.TT_STAT_OLD_FRAME, F.TT_STAT_EGO_LOST, F.TT_STAT_ECC_UE, F.TT_STAT_EVICT_SOLID, F.TT_STAT_FULL]
def TT_OCC : List Fld :=
  [F.TT_OCC_VALID]
def TT_CNT_A : List Fld :=
  [F.TT_CNT_A_LOOKUPS]
def TT_CNT_B : List Fld :=
  [F.TT_CNT_B_EVICT, F.TT_CNT_B_EVICT_SOLID]
def TT_CNT_C : List Fld :=
  [F.TT_CNT_C_UE_BUCKETS, F.TT_CNT_C_OLD_FRAME]
def TT_CNT_D : List Fld :=
  [F.TT_CNT_D_EGO_LOST, F.TT_CNT_D_SWEEPS]
def EGO_DXY : List Fld :=
  [F.EGO_DXY_DX, F.EGO_DXY_DY]
def EGO_DZP : List Fld :=
  [F.EGO_DZP_DZ, F.EGO_DZP_DPSI]
def EGO_CTRL : List Fld :=
  [F.EGO_CTRL_COMMIT, F.EGO_CTRL_PENDING, F.EGO_CTRL_HOLD]
def EGO_PSI : List Fld :=
  [F.EGO_PSI_PSI]
def CLS_CFG : List Fld :=
  [F.CLS_CFG_CLS_EN, F.CLS_CFG_P_SOLID, F.CLS_CFG_W_CLOUD, F.CLS_CFG_I_CLOUD]
def CLS_CNT : List Fld :=
  [F.CLS_CNT_COUNT]
def BL_CFG : List Fld :=
  [F.BL_CFG_EN, F.BL_CFG_RED_MAX, F.BL_CFG_STEP, F.BL_CFG_BL_HI, F.BL_CFG_BL_LO]
def BL_STAT : List Fld :=
  [F.BL_STAT_AT_MAX, F.BL_STAT_RED, F.BL_STAT_MEAN]
def CTL_CTRL : List Fld :=
  [F.CTL_CTRL_EN]
def CTL_STAT : List Fld :=
  [F.CTL_STAT_CNT_CLR, F.CTL_STAT_LOAD_WARN, F.CTL_STAT_WPROT, F.CTL_STAT_FB_LATE, F.CTL_STAT_SENS_DIS, F.CTL_STAT_SAT, F.CTL_STAT_OVERRUN, F.CTL_STAT_STALL]
def CTL_LOAD : List Fld :=
  [F.CTL_LOAD_LOAD]
def SCN_CTRL : List Fld :=
  [F.SCN_CTRL_START, F.SCN_CTRL_STOP, F.SCN_CTRL_FAST_AX, F.SCN_CTRL_SUP_SEL, F.SCN_CTRL_VNOM]
def SCN_START : List Fld :=
  [F.SCN_START_SWEEP, F.SCN_START_A_RAMP, F.SCN_START_START_TO]
def SCN_PARK : List Fld :=
  [F.SCN_PARK_PARK_MS]
def SCN_STAT : List Fld :=
  [F.SCN_STAT_STATE, F.SCN_STAT_CAUSE, F.SCN_STAT_MIR_EN, F.SCN_STAT_EMIT_OK, F.SCN_STAT_ENV]
def SCN_CNT : List Fld :=
  [F.SCN_CNT_STALL_CNT, F.SCN_CNT_START_CNT]
def SCN_MARK : List Fld :=
  [F.SCN_MARK_MARK_EN, F.SCN_MARK_MARK_OFS]
def AX_CFG (a : Nat) : List Fld :=
  [F.AX_CFG_TYPE, { F.AX_CFG_FB_CH with rst := a }, { F.AX_CFG_CHK_CH with rst := a + 4 }, F.AX_CFG_CHK_EN, { F.AX_CFG_ACC_SEL with rst := a }, F.AX_CFG_CHK_LIM, F.AX_CFG_PERIOD]
def AX_DRV : List Fld :=
  [F.AX_DRV_CMD, F.AX_DRV_ADDR, F.AX_DRV_FMT, F.AX_DRV_DIV, F.AX_DRV_PARK]
def AX_SWAP : List Fld :=
  [F.AX_SWAP_SWAP, F.AX_SWAP_AT_FRAME, F.AX_SWAP_PEND, F.AX_SWAP_BANK, F.AX_SWAP_PRESET_OUT, F.AX_SWAP_SWAPS]
def AX_LIVE : List Fld :=
  [F.AX_LIVE_Y, F.AX_LIVE_U]
def AX_RES : List Fld :=
  [F.AX_RES_AMP, F.AX_RES_PH_ERR]
def AX_FREQ : List Fld :=
  [F.AX_FREQ_FTW]
def AX_CNT : List Fld :=
  [F.AX_CNT_OVR_TOTAL, F.AX_CNT_SAT_CNT, F.AX_CNT_OVR_RUN]
def AX_DLY : List Fld :=
  [F.AX_DLY_FB_AGE]
def AX_FF : List Fld :=
  [F.AX_FF_KS, F.AX_FF_TRJ_AMP]
def AX_TRJ : List Fld :=
  [F.AX_TRJ_LEN, F.AX_TRJ_BASE]
def EMG_CTRL : List Fld :=
  [F.EMG_CTRL_COMMIT, F.EMG_CTRL_NEAR]
def EMG_STAT : List Fld :=
  [F.EMG_STAT_CAP_OK, F.EMG_STAT_CNT_CLR, F.EMG_STAT_NEAR_CAP, F.EMG_STAT_MEAS_SKIP, F.EMG_STAT_CAP_ERR, F.EMG_STAT_STORE_OVER, F.EMG_STAT_OVER_PULSE, F.EMG_STAT_REFUSED]
def EMG_E1 : List Fld :=
  [F.EMG_E1_PRESET, F.EMG_E1_EFLOOR, F.EMG_E1_E1_MAX]
def EMG_MON_SEL : List Fld :=
  [F.EMG_MON_SEL_KIND, F.EMG_MON_SEL_WIN, F.EMG_MON_SEL_INDEX]
def EMG_MON_VAL : List Fld :=
  [F.EMG_MON_VAL_VALUE]
def EMG_EM100 : List Fld :=
  [F.EMG_EM100_CAP]
def EMG_EM10S : List Fld :=
  [F.EMG_EM10S_CAP]
def EMG_EXP_CRC : List Fld :=
  [F.EMG_EXP_CRC_CRC]
def EMG_ACT_CRC : List Fld :=
  [F.EMG_ACT_CRC_CRC]
def EMG_REF : List Fld :=
  [F.EMG_REF_FIRST, F.EMG_REF_SECOND]
def EMG_EN : List Fld :=
  [F.EMG_EN_EN]
def EM_OFS : List Fld :=
  [F.EM_OFS_OFS_X, F.EM_OFS_OFS_Y]
def SEC_X : List Fld :=
  [F.SEC_X_LO, F.SEC_X_STEP]
def SEC_Y : List Fld :=
  [F.SEC_Y_LO, F.SEC_Y_STEP]
def SEC_SLEW : List Fld :=
  [F.SEC_SLEW_SLEW_X, F.SEC_SLEW_SLEW_Y]
def SEC_CFG (s : Nat) : List Fld :=
  [{ F.SEC_CFG_CH_X with rst := if s = 0 then 0 else 2 }, { F.SEC_CFG_CH_Y with rst := if s = 0 then 1 else 3 }, F.SEC_CFG_AGE_MAX]
def SEC_C100 : List Fld :=
  [F.SEC_C100_CAP]
def SEC_C10S : List Fld :=
  [F.SEC_C10S_CAP]
def SEC_STAT : List Fld :=
  [F.SEC_STAT_STALL_INH, F.SEC_STAT_GATE, F.SEC_STAT_FILL100, F.SEC_STAT_STALL_STOPS]
def BANK_CFG : List Fld :=
  [F.BANK_CFG_SCN, F.BANK_CFG_REF_MAX, F.BANK_CFG_ESTORE_MAX]
def BANK_CAL : List Fld :=
  [F.BANK_CAL_KOPT, F.BANK_CAL_CRES]
def BANK_SNS : List Fld :=
  [F.BANK_SNS_SNS_GAIN, F.BANK_SNS_POST]
def BANK_REF : List Fld :=
  [F.BANK_REF_REF_W, F.BANK_REF_REF_N, F.BANK_REF_REF_C]
def BANK_STAT : List Fld :=
  [F.BANK_STAT_INH, F.BANK_STAT_CAUSE, F.BANK_STAT_RELEASE, F.BANK_STAT_OUT]
def BANK_MEAS : List Fld :=
  [F.BANK_MEAS_E_LAST, F.BANK_MEAS_VNOW]
def BANK_CNT : List Fld :=
  [F.BANK_CNT_MEAS_SKIP, F.BANK_CNT_UNMEAS]
def SAF_CTRL : List Fld :=
  [F.SAF_CTRL_COMMIT, F.SAF_CTRL_CLR_FAULT]
def SAF_STAT : List Fld :=
  [F.SAF_STAT_VARIANT, F.SAF_STAT_ACTIVE, F.SAF_STAT_CMT_BUSY, F.SAF_STAT_ERR, F.SAF_STAT_SEAL_A, F.SAF_STAT_SEAL_B, F.SAF_STAT_SET_BAD, F.SAF_STAT_CNT_CLR, F.SAF_STAT_SEAL_DISC, F.SAF_STAT_CFG_ERR, F.SAF_STAT_INVALID_A, F.SAF_STAT_INVALID_B, F.SAF_STAT_DEMAND]
def SAF_ACT : List Fld :=
  [F.SAF_ACT_CFG_ID, F.SAF_ACT_N_MS, F.SAF_ACT_PERS]
def SAF_OSSD : List Fld :=
  [F.SAF_OSSD_PAIR1, F.SAF_OSSD_PAIR0]
def SAF_FIELDS : List Fld :=
  [F.SAF_FIELDS_SET, F.SAF_FIELDS_OCC_A, F.SAF_FIELDS_OCC_B, F.SAF_FIELDS_INTR_A, F.SAF_FIELDS_INTR_B]
def SAF_INPUTS : List Fld :=
  [F.SAF_INPUTS_LIVE_A, F.SAF_INPUTS_LIVE_B, F.SAF_INPUTS_FUNC]
def SAF_INSTATE : List Fld :=
  [F.SAF_INSTATE_STATE]
def SAF_FAULT : List Fld :=
  [F.SAF_FAULT_XC_FIELD, F.SAF_FAULT_SCN_OVR, F.SAF_FAULT_CHB_TEST, F.SAF_FAULT_XCOMP, F.SAF_FAULT_CROSS, F.SAF_FAULT_OSSD_RB, F.SAF_FAULT_SUPPLY, F.SAF_FAULT_CLOCK, F.SAF_FAULT_WDOG, F.SAF_FAULT_LOCKSTEP, F.SAF_FAULT_CFG_LOAD]
def SAF_CNT_A : List Fld :=
  [F.SAF_CNT_A_DEMANDS, F.SAF_CNT_A_INVALID_A]
def SAF_CNT_B : List Fld :=
  [F.SAF_CNT_B_INVALID_B, F.SAF_CNT_B_XC_MAX, F.SAF_CNT_B_DISC_CNT]
def SAF_EVAL : List Fld :=
  [F.SAF_EVAL_FRAME, F.SAF_EVAL_VALID_A, F.SAF_EVAL_VALID_B]
def SAF_EXP_CRC : List Fld :=
  [F.SAF_EXP_CRC_CRC]
def SAF_ACT_CRC : List Fld :=
  [F.SAF_ACT_CRC_CRC]
def HK_CTRL : List Fld :=
  [F.HK_CTRL_RUN, F.HK_CTRL_VEXC_EN, F.HK_CTRL_RIP_CH]
def HK_STAT : List Fld :=
  [F.HK_STAT_RUNNING, F.HK_STAT_CUR, F.HK_STAT_CNT_CLR, F.HK_STAT_SRC_ERR, F.HK_STAT_RIPFB, F.HK_STAT_LIMIT, F.HK_STAT_OPEN, F.HK_STAT_CLAMP, F.HK_STAT_OVR]
def HK_ROUND : List Fld :=
  [F.HK_ROUND_ROUND]
def HK_CNT : List Fld :=
  [F.HK_CNT_OVR_CNT, F.HK_CNT_CLAMP_CNT, F.HK_CNT_OPEN_CNT, F.HK_CNT_LIMIT_CNT]
def HK_RIP : List Fld :=
  [F.HK_RIP_LOCKED, F.HK_RIP_T_LAST]
def HKS_CFG : List Fld :=
  [F.HKS_CFG_EN, F.HKS_CFG_AUTO, F.HKS_CFG_GAIN, F.HKS_CFG_OW_EN, F.HKS_CFG_EXC, F.HKS_CFG_EXP, F.HKS_CFG_IEXC, F.HKS_CFG_EVERY, F.HKS_CFG_SRC]
def HKS_TIME : List Fld :=
  [F.HKS_TIME_RLOCK, F.HKS_TIME_T_INT, F.HKS_TIME_RIP_N, F.HKS_TIME_DELAY]
def HKS_LIM : List Fld :=
  [F.HKS_LIM_LIM_HI, F.HKS_LIM_LIM_LO]
def HKS_RES : List Fld :=
  [F.HKS_RES_FLAGS, F.HKS_RES_CODE]
def HKS_INFO : List Fld :=
  [F.HKS_INFO_ROUND, F.HKS_INFO_GAIN, F.HKS_INFO_T_USED]
def HKS_TS_LO : List Fld :=
  [F.HKS_TS_LO_TS]
def HKS_TS_HI : List Fld :=
  [F.HKS_TS_HI_TS]
def DEC_CTRL : List Fld :=
  [F.DEC_CTRL_SYNC, F.DEC_CTRL_SYNC_MASK]
def DEC_STAT : List Fld :=
  [F.DEC_STAT_CNT_CLR, F.DEC_STAT_PART_ERR, F.DEC_STAT_CLIP, F.DEC_STAT_OVL]
def DEC_HIST_BASE_LO : List Fld :=
  [F.DEC_HIST_BASE_LO_ADDR]
def DEC_HIST_BASE_HI : List Fld :=
  [F.DEC_HIST_BASE_HI_ADDR]
def DEC_CFG (c : Nat) : List Fld :=
  [F.DEC_CFG_EN, F.DEC_CFG_HB, F.DEC_CFG_K, { F.DEC_CFG_SRC with rst := c }, F.DEC_CFG_FREEZE, F.DEC_CFG_DCB_SH]
def DEC_DLY : List Fld :=
  [F.DEC_DLY_EXT_DLY]
def DEC_LIN (c : Nat) : List Fld :=
  [F.DEC_LIN_LIN_EN, { F.DEC_LIN_PART with rst := c }, F.DEC_LIN_LSH]
def DEC_DET : List Fld :=
  [F.DEC_DET_WSRC, F.DEC_DET_AX, F.DEC_DET_WIN]
def DEC_OUT : List Fld :=
  [F.DEC_OUT_VALUE, F.DEC_OUT_INVALID, F.DEC_OUT_CLIP, F.DEC_OUT_OVL, F.DEC_OUT_INV_LEFT]
def DEC_PK : List Fld :=
  [F.DEC_PK_MAX, F.DEC_PK_MIN]
def DEC_RMS : List Fld :=
  [F.DEC_RMS_DC, F.DEC_RMS_RMS]
def DEC_ENV : List Fld :=
  [F.DEC_ENV_INV, F.DEC_ENV_ENV]
def DEC_IDX : List Fld :=
  [F.DEC_IDX_OUTPUTS, F.DEC_IDX_WIDX]
def DEC_CNT : List Fld :=
  [F.DEC_CNT_INV_CNT, F.DEC_CNT_CLIP_CNT, F.DEC_CNT_OVL_CNT]
def DEC_C : List Fld :=
  [F.DEC_C_HI, F.DEC_C_LO]
def THM_CTRL : List Fld :=
  [F.THM_CTRL_RECAL, F.THM_CTRL_HYST]
def THM_STAT : List Fld :=
  [F.THM_STAT_BAND, F.THM_STAT_THROTTLE, F.THM_STAT_HOLD, F.THM_STAT_GUARD, F.THM_STAT_HEAT_REQ, F.THM_STAT_CRIT, F.THM_STAT_CNT_CLR, F.THM_STAT_ATRIP, F.THM_STAT_AUTOCAP, F.THM_STAT_IGNORED]
def THM_TCTL : List Fld :=
  [F.THM_TCTL_T_CTL, F.THM_TCTL_HOTTEST]
def THM_IGN : List Fld :=
  [F.THM_IGN_IGN]
def THM_CNT : List Fld :=
  [F.THM_CNT_BAND_CHG, F.THM_CNT_IGN_CNT, F.THM_CNT_AUTO_CNT]
def THM_SENS : List Fld :=
  [F.THM_SENS_TEMP, F.THM_SENS_TRIM, F.THM_SENS_IGN, F.THM_SENS_REASON]
def MEM_RCFG (r : Nat) : List Fld :=
  [(if r = 1 then { F.MEM_RCFG_SCRUB_EN with acc := .ro } else { F.MEM_RCFG_SCRUB_EN with rst := 1 }), F.MEM_RCFG_PASS]
def MEM_RSTAT : List Fld :=
  [F.MEM_RSTAT_SCRUBBING, F.MEM_RSTAT_PASSES, F.MEM_RSTAT_CNT_CLR, F.MEM_RSTAT_SCRUB_LATE, F.MEM_RSTAT_UE, F.MEM_RSTAT_CE]
def MEM_RCNT : List Fld :=
  [F.MEM_RCNT_CE_CNT, F.MEM_RCNT_UE_CNT]
def MEM_RADDR : List Fld :=
  [F.MEM_RADDR_UE_ADDR]
def CM_TQ_BASE : List Fld :=
  [F.CM_TQ_BASE_OFS]
def CM_SPILL_BASE : List Fld :=
  [F.CM_SPILL_BASE_OFS]
def CM_SPILL_LEN : List Fld :=
  [F.CM_SPILL_LEN_LEN]
def CM_GAP_BASE : List Fld :=
  [F.CM_GAP_BASE_OFS]
def CM_GAP_LEN : List Fld :=
  [F.CM_GAP_LEN_LEN]
def CM_CHECK : List Fld :=
  [F.CM_CHECK_COMMIT, F.CM_CHECK_OK, F.CM_CHECK_ERR, F.CM_CHECK_REG_A, F.CM_CHECK_REG_B]
def DRC_CTRL : List Fld :=
  [F.DRC_CTRL_INIT, F.DRC_CTRL_TRAIN, F.DRC_CTRL_PAR_EN, F.DRC_CTRL_ECC_WB, F.DRC_CTRL_TSRC, F.DRC_CTRL_HK_ENTRY, F.DRC_CTRL_HOT_CODE]
def DRC_STAT : List Fld :=
  [F.DRC_STAT_STATE, F.DRC_STAT_HOT, F.DRC_STAT_DRAM_HOT, F.DRC_STAT_LANE_ERR, F.DRC_STAT_CNT_CLR, F.DRC_STAT_TEMP_LOST, F.DRC_STAT_FORCED, F.DRC_STAT_ALERT_STUCK, F.DRC_STAT_PAR_UE, F.DRC_STAT_PARITY, F.DRC_STAT_UE, F.DRC_STAT_CE, F.DRC_STAT_INIT_ERR]
def DRC_GEOM : List Fld :=
  [F.DRC_GEOM_PRESENT, F.DRC_GEOM_DENS, F.DRC_GEOM_RANKS, F.DRC_GEOM_CAP]
def DRC_TIM0 : List Fld :=
  [F.DRC_TIM0_CL, F.DRC_TIM0_CWL, F.DRC_TIM0_TRCD, F.DRC_TIM0_TRP, F.DRC_TIM0_TRC]
def DRC_TIM1 : List Fld :=
  [F.DRC_TIM1_TRAS, F.DRC_TIM1_TRRD_S, F.DRC_TIM1_TRRD_L, F.DRC_TIM1_TFAW, F.DRC_TIM1_TWR, F.DRC_TIM1_TWTR_S, F.DRC_TIM1_TWTR_L]
def DRC_TIM2 : List Fld :=
  [F.DRC_TIM2_TRTP, F.DRC_TIM2_TCCD_L, F.DRC_TIM2_TXP, F.DRC_TIM2_TRFC]
def DRC_REF : List Fld :=
  [F.DRC_REF_TREFI, F.DRC_REF_OWED, F.DRC_REF_PULLED, F.DRC_REF_PULL_MAX]
def DRC_TEMP : List Fld :=
  [F.DRC_TEMP_VALID, F.DRC_TEMP_HOT_MPR, F.DRC_TEMP_HOT_HK, F.DRC_TEMP_AGE]
def DRC_PD : List Fld :=
  [F.DRC_PD_PD_EN, F.DRC_PD_PD_IDLE]
def DRC_ERR_LO : List Fld :=
  [F.DRC_ERR_LO_ADDR]
def DRC_ERR_HI : List Fld :=
  [F.DRC_ERR_HI_KIND, F.DRC_ERR_HI_WRITE, F.DRC_ERR_HI_ADDR]
def DRC_CNT_A : List Fld :=
  [F.DRC_CNT_A_CE_CNT, F.DRC_CNT_A_UE_CNT]
def DRC_CNT_B : List Fld :=
  [F.DRC_CNT_B_REPLAY_CNT, F.DRC_CNT_B_PAR_UE_CNT, F.DRC_CNT_B_FORCED_CNT]
def DRC_SCRUB : List Fld :=
  [F.DRC_SCRUB_EN, F.DRC_SCRUB_PASS_H]
def DRC_PORT (p : Nat) : List Fld :=
  [{ F.DRC_PORT_RT with rst := if p < 2 then 1 else 0 }, { F.DRC_PORT_LAT_TGT with rst := if p < 2 then 200 else if p = 2 then 1000 else if p = 3 then 500 else if p = 4 then 300 else 2000 }]
def DRC_PLAT : List Fld :=
  [F.DRC_PLAT_LAT_MAX, F.DRC_PLAT_CRIT_CNT]
def DRC_MR : List Fld :=
  [F.DRC_MR_VALUE]
def DLY_W : List Fld :=
  [F.DLY_W_WDQS, F.DLY_W_WDQ]
def DLY_R : List Fld :=
  [F.DLY_R_RDQS, F.DLY_R_GATE]
def DLY_V : List Fld :=
  [F.DLY_V_HVREF]
def DLY_CA : List Fld :=
  [F.DLY_CA_CA]
def DRC_TEST : List Fld :=
  [F.DRC_TEST_GO, F.DRC_TEST_BUSY, F.DRC_TEST_RANK, F.DRC_TEST_PASS]
def SLQ_CTRL : List Fld :=
  [F.SLQ_CTRL_SD_EN, F.SLQ_CTRL_POOL_RSV, F.SLQ_CTRL_SD_SEGS]
def SLQ_POOL_C : List Fld :=
  [F.SLQ_POOL_C_FREE]
def SLQ_POOL_S : List Fld :=
  [F.SLQ_POOL_S_FREE]
def SLQ_STAT : List Fld :=
  [F.SLQ_STAT_CNT_CLR, F.SLQ_STAT_POOL_EMPTY, F.SLQ_STAT_MARK_ERR, F.SLQ_STAT_SPILL_UE, F.SLQ_STAT_PTR_ERR]
def SLQ_GRP : List Fld :=
  [F.SLQ_GRP_REINIT_BUSY, F.SLQ_GRP_REINIT]
def SLQ_SD_BASE_LO : List Fld :=
  [F.SLQ_SD_BASE_LO_ADDR]
def SLQ_SD_BASE_HI : List Fld :=
  [F.SLQ_SD_BASE_HI_ADDR]
def SLQ_ROUTE (t : Nat) : List Fld :=
  [{ F.SLQ_ROUTE_QUEUE with rst := t }]
def SLQ_CFG (q : Nat) : List Fld :=
  [{ F.SLQ_CFG_EN with rst := if q < 64 then 1 else 0 }, F.SLQ_CFG_SRC, F.SLQ_CFG_SINK, F.SLQ_CFG_SD_ONLY, F.SLQ_CFG_SEG_MAX]
def SLQ_QSTAT : List Fld :=
  [F.SLQ_QSTAT_CREDIT, F.SLQ_QSTAT_MARKS, F.SLQ_QSTAT_CAUSE, F.SLQ_QSTAT_FULL, F.SLQ_QSTAT_RESET]
def SLQ_LEVEL : List Fld :=
  [F.SLQ_LEVEL_SEGS, F.SLQ_LEVEL_MARKED]
def SLQ_CNT : List Fld :=
  [F.SLQ_CNT_RESETS, F.SLQ_CNT_FULL_CNT, F.SLQ_CNT_HDR_LOST]
def SLQ_LOST : List Fld :=
  [F.SLQ_LOST_LOST]
def DMA_CFG : List Fld :=
  [F.DMA_CFG_EN, F.DMA_CFG_RESTART, F.DMA_CFG_SKIP, F.DMA_CFG_REINIT, F.DMA_CFG_PRIO, F.DMA_CFG_RING_N]
def DMA_RING_LO : List Fld :=
  [F.DMA_RING_LO_ADDR]
def DMA_RING_HI : List Fld :=
  [F.DMA_RING_HI_ADDR]
def DMA_TAIL : List Fld :=
  [F.DMA_TAIL_TAIL]
def DMA_HEAD : List Fld :=
  [F.DMA_HEAD_STATE, F.DMA_HEAD_HEAD]
def DMA_COUNT : List Fld :=
  [F.DMA_COUNT_COUNT]
def DMA_CRC : List Fld :=
  [F.DMA_CRC_CRC]
def DMA_STAT : List Fld :=
  [F.DMA_STAT_STATUS, F.DMA_STAT_CNT_CLR, F.DMA_STAT_STOPPED, F.DMA_STAT_TAIL_ERR, F.DMA_STAT_ERR, F.DMA_STAT_DONE]
def DMA_CNT : List Fld :=
  [F.DMA_CNT_DESC_DONE, F.DMA_CNT_ERRORS]
def DMA_ERR_LO : List Fld :=
  [F.DMA_ERR_LO_ADDR]
def DMA_ERR_HI : List Fld :=
  [F.DMA_ERR_HI_ADDR]
def LN_CTRL : List Fld :=
  [F.LN_CTRL_EN, F.LN_CTRL_PRBS_EN, F.LN_CTRL_PRBS_SEL, F.LN_CTRL_LP_REQ, F.LN_CTRL_REINIT]
def LN_STAT : List Fld :=
  [F.LN_STAT_STATE, F.LN_STAT_LANES, F.LN_STAT_CNT_CLR, F.LN_STAT_LP_DENIED, F.LN_STAT_PARAM_ERR, F.LN_STAT_REPLAY_FAIL, F.LN_STAT_CRC_ERR, F.LN_STAT_TRAIN_TO, F.LN_STAT_DOWN, F.LN_STAT_ABSENT, F.LN_STAT_FROZEN]
def LN_CFG : List Fld :=
  [F.LN_CFG_REPLAY_TO, F.LN_CFG_REPLAY_MAX, F.LN_CFG_ACK_DLY]
def LN_CNT_A : List Fld :=
  [F.LN_CNT_A_CRC_CNT, F.LN_CNT_A_REPLAY_CNT]
def LN_CNT_B : List Fld :=
  [F.LN_CNT_B_RETRAINS, F.LN_CNT_B_DOWN_CNT, F.LN_CNT_B_FRZ_CNT]
def LN_TX : List Fld :=
  [F.LN_TX_TAP_ERR, F.LN_TX_C_POST, F.LN_TX_C_MAIN, F.LN_TX_C_PRE]
def LN_RX : List Fld :=
  [F.LN_RX_FROZEN, F.LN_RX_LOCKED, F.LN_RX_SLIPS, F.LN_RX_PHASE]
def LN_PRBS : List Fld :=
  [F.LN_PRBS_PLOCK, F.LN_PRBS_ERRORS]
def HWIN1_BASE_LO : List Fld :=
  [F.HWIN1_BASE_LO_ADDR]
def HWIN1_BASE_HI : List Fld :=
  [F.HWIN1_BASE_HI_ADDR]
def RING_CFG : List Fld :=
  [F.RING_CFG_RING_EN, F.RING_CFG_REFORM, F.RING_CFG_RING_ID, F.RING_CFG_CNT_CLR, F.RING_CFG_RING_FSRC, F.RING_CFG_FS_LEAD]
def RING_STAT : List Fld :=
  [F.RING_STAT_RSTATE, F.RING_STAT_MASTER, F.RING_STAT_NODE_VALID, F.RING_STAT_ALIGNED, F.RING_STAT_REF, F.RING_STAT_ERR, F.RING_STAT_SIZE, F.RING_STAT_NODE_ID]
def RING_RTT : List Fld :=
  [F.RING_RTT_RTT]
def RING_ALIGN : List Fld :=
  [F.RING_ALIGN_THETA, F.RING_ALIGN_DELAY]
def RING_ASYM : List Fld :=
  [F.RING_ASYM_ASYM_U, F.RING_ASYM_ASYM_D]
def RING_CNT : List Fld :=
  [F.RING_CNT_ALIGN_LOST, F.RING_CNT_WRAPS, F.RING_CNT_EXPORT_DROP]
def RING_CNT_B : List Fld :=
  [F.RING_CNT_B_LATE_BCAST, F.RING_CNT_B_VC2_DISCARD]
def RING_MAP : List Fld :=
  [F.RING_MAP_PRESENT]
def EVT_CTRL : List Fld :=
  [F.EVT_CTRL_CNT_CLR, F.EVT_CTRL_COAL]
def EVT_STAT : List Fld :=
  [F.EVT_STAT_NOTIFY_OVF, F.EVT_STAT_EMCY_OVF, F.EVT_STAT_LAST]
def EVT_REPUB : List Fld :=
  [F.EVT_REPUB_UNIT]
def EVT_IRQ : List Fld :=
  [F.EVT_IRQ_LEVEL, F.EVT_IRQ_FIRST]
def EV_FLAG : List Fld :=
  [F.EV_FLAG_FLAG]
def EV_ROUTE : List Fld :=
  [F.EV_ROUTE_COUNT, F.EV_ROUTE_CNT_CLR, F.EV_ROUTE_ETH, F.EV_ROUTE_HOST, F.EV_ROUTE_EMCY, F.EV_ROUTE_IRQ1, F.EV_ROUTE_IRQ0]
def UNIT_STATE : List Fld :=
  [F.UNIT_STATE_GEN, F.UNIT_STATE_STATE]
def CAN_CFG (c : Nat) : List Fld :=
  [{ F.CAN_CFG_EN with rst := if c = 0 then 1 else 0 }, F.CAN_CFG_FD] ++ (if c = 1 then [F.CAN_CFG_REDUNDANT] else []) ++ [F.CAN_CFG_NBR, F.CAN_CFG_DBR, F.CAN_CFG_NODE]
def CAN_STAT : List Fld :=
  [F.CAN_STAT_BUS, F.CAN_STAT_NMT, F.CAN_STAT_TEC, F.CAN_STAT_REC, F.CAN_STAT_CNT_CLR, F.CAN_STAT_HB_LOST, F.CAN_STAT_TX_TO, F.CAN_STAT_RX_OVR, F.CAN_STAT_ERR_PASSIVE, F.CAN_STAT_BUS_OFF]
def CAN_CNT : List Fld :=
  [F.CAN_CNT_RX_FRAMES, F.CAN_CNT_BUS_OFFS, F.CAN_CNT_RX_OVR]
def ETH_CFG (k : Nat) : List Fld :=
  [F.ETH_CFG_EN, F.ETH_CFG_MODE, F.ETH_CFG_AN_EN, F.ETH_CFG_PTP_EN, F.ETH_CFG_MGMT_EN] ++ (if k = 0 then [F.ETH_CFG_PTP_SEL] else [])
def ETH_STAT : List Fld :=
  [F.ETH_STAT_LINK, F.ETH_STAT_AN_DONE, F.ETH_STAT_CNT_CLR, F.ETH_STAT_RX_DROP, F.ETH_STAT_LINK_DOWN, F.ETH_STAT_LINK_UP, F.ETH_STAT_PTP_FAULT]
def ETH_CNT : List Fld :=
  [F.ETH_CNT_RX_FRAMES, F.ETH_CNT_RX_DROP, F.ETH_CNT_CRC_ERR]
def ETH_MAC_LO : List Fld :=
  [F.ETH_MAC_LO_MAC]
def ETH_MAC_HI : List Fld :=
  [F.ETH_MAC_HI_MAC]
def ETH_IP : List Fld :=
  [F.ETH_IP_IP]
def ETH_PEER_IP : List Fld :=
  [F.ETH_PEER_IP_IP]
def ETH_UDP : List Fld :=
  [F.ETH_UDP_MGMT_PORT, F.ETH_UDP_PEER_PORT]
def ETH_TS_CORR : List Fld :=
  [F.ETH_TS_CORR_RX_CORR, F.ETH_TS_CORR_TX_CORR]
def SECU_STAT : List Fld :=
  [F.SECU_STAT_STAGE, F.SECU_STAT_BANK, F.SECU_STAT_TRIAL, F.SECU_STAT_DBG, F.SECU_STAT_OWNER, F.SECU_STAT_OPK, F.SECU_STAT_OPCERT, F.SECU_STAT_CNT_CLR, F.SECU_STAT_BOARD_BAD, F.SECU_STAT_REJECT, F.SECU_STAT_FALLBACK]
def SEC_OTP : List Fld :=
  [F.SEC_OTP_ARC, F.SEC_OTP_SVN, F.SEC_OTP_ROOT_OK]
def SEC_CMD : List Fld :=
  [F.SEC_CMD_GO, F.SEC_CMD_CMD]
def SEC_CMD_STAT : List Fld :=
  [F.SEC_CMD_STAT_BUSY, F.SEC_CMD_STAT_ERR]
def SEC_LEN : List Fld :=
  [F.SEC_LEN_LEN]
def SEC_CNT : List Fld :=
  [F.SEC_CNT_REJECTS, F.SEC_CNT_FALLBACKS, F.SEC_CNT_DBG_DENIED]
def SEC_ARG_LO : List Fld :=
  [F.SEC_ARG_LO_ADDR]
def SEC_ARG_HI : List Fld :=
  [F.SEC_ARG_HI_ADDR]
def SYS_MODE : List Fld :=
  [F.SYS_MODE_MODE, F.SYS_MODE_BUSY, F.SYS_MODE_REASON, F.SYS_MODE_REFUSED, F.SYS_MODE_REQ]
def SYS_CFG : List Fld :=
  [F.SYS_CFG_AUTO, F.SYS_CFG_SCN_AUTO, F.SYS_CFG_WDT_MS]
def SYS_RESET : List Fld :=
  [F.SYS_RESET_KEY]
def SYS_CAUSE : List Fld :=
  [F.SYS_CAUSE_CAUSE, F.SYS_CAUSE_FROM, F.SYS_CAUSE_WARM_CNT]
def SYS_REINIT : List Fld :=
  [F.SYS_REINIT_GO, F.SYS_REINIT_BUSY, F.SYS_REINIT_REFUSED, F.SYS_REINIT_KIND, F.SYS_REINIT_INDEX]
def SYS_DECERR_LO : List Fld :=
  [F.SYS_DECERR_LO_ADDR]
def SYS_DECERR_HI : List Fld :=
  [F.SYS_DECERR_HI_WRITE, F.SYS_DECERR_HI_ADDR]
def SYS_CNT : List Fld :=
  [F.SYS_CNT_DECERR_CNT, F.SYS_CNT_REFUSE_CNT, F.SYS_CNT_CNT_CLR]
def SYS_WDT : List Fld :=
  [F.SYS_WDT_KICK, F.SYS_WDT_LEFT]
def CLK_STAT : List Fld :=
  [F.CLK_STAT_LOCKED, F.CLK_STAT_HOLDOVER, F.CLK_STAT_REFCLK_OK, F.CLK_STAT_FWD_U_OK, F.CLK_STAT_FWD_D_OK, F.CLK_STAT_SRC, F.CLK_STAT_CNT_CLR, F.CLK_STAT_REF_LOST, F.CLK_STAT_LOCK_LOST]
def CLK_CNT : List Fld :=
  [F.CLK_CNT_HOLD_CNT, F.CLK_CNT_LOCK_CNT]
def CLK_OFS : List Fld :=
  [F.CLK_OFS_OFS]
def CLK_GATE0 : List Fld :=
  [F.CLK_GATE0_GATE_CL, F.CLK_GATE0_GATE_TG]
def CLK_ACT0 : List Fld :=
  [F.CLK_ACT0_RUN]
def CLK_ACT1 : List Fld :=
  [F.CLK_ACT1_RUN]

end D

/-- Registers of block TILE by offset. -/
def descTILE (o : Nat) : Option (List Fld) :=
  match o with
  | 0x0 => some (D.GT_CTRL)
  | 0x4 => some (D.GT_REP)
  | 0x8 => some (D.GT_COINC)
  | 0xC => some (D.GT_DEADLINE)
  | 0x10 => some (D.GT_STAT)
  | 0x14 => some (D.GT_CNT_A)
  | 0x18 => some (D.GT_CNT_B)
  | 0x1C => some (D.GT_CNT_C)
  | 0x20 => some (D.GT_TICKETS)
  | 0x24 => some (D.GT_MODEMAP)
  | 0x800 => some (D.FE_TILE_CTRL)
  | 0x804 => some (D.FE_TILE_SUM)
  | o =>
    if 0x1000 ≤ o ∧ o < 0x1400 then (match (o - 0x1000) % 0x40 with | 0x0 => some (D.FE_CFG) | 0x4 => some (D.FE_ACT) | 0x8 => some (D.FE_MODE) | 0xC => some (D.FE_TEST) | 0x10 => some (D.FE_TEST_TIME) | 0x14 => some (D.FE_STAT) | 0x18 => some (D.FE_BASELINE) | 0x1C => some (D.FE_CNT_A) | 0x20 => some (D.FE_CNT_B) | 0x24 => some (D.FE_TRIM) | _ => none)
    else if 0x1400 ≤ o ∧ o < 0x1800 then (match (o - 0x1400) % 0x40 with | 0x0 => some (D.GT_NB) | 0x4 => some (D.GT_BG) | 0x8 => some (D.GT_OCC) | 0xC => some (D.GT_CH_CNT) | 0x10 => some (D.GT_BUF) | _ => none)
    else none

/-- Registers of block HKC by offset. -/
def descHKC (o : Nat) : Option (List Fld) :=
  match o with
  | 0x0 => some (D.HK_CTRL)
  | 0x4 => some (D.HK_STAT)
  | 0x8 => some (D.HK_ROUND)
  | 0xC => some (D.HK_CNT)
  | 0x10 => some (D.HK_RIP)
  | o =>
    if 0x1000 ≤ o ∧ o < 0x1400 then (match (o - 0x1000) % 0x10 with | 0x0 => some (D.HKS_CFG) | 0x4 => some (D.HKS_TIME) | 0x8 => some (D.HKS_LIM) | _ => none)
    else if 0x2000 ≤ o ∧ o < 0x2400 then (match (o - 0x2000) % 0x10 with | 0x0 => some (D.HKS_RES) | 0x4 => some (D.HKS_TS_LO) | 0x8 => some (D.HKS_TS_HI) | 0xC => some (D.HKS_INFO) | _ => none)
    else if 0xC000 ≤ o ∧ o < 0xC100 then (match (o - 0xC000) % 0x10 with | 0x0 => some (D.BIAS_REF) | 0x4 => some (D.BIAS_LIM) | 0x8 => some (D.BIAS_MON) | 0xC => some (D.BIAS_STAT) | _ => none)
    else none

/-- Registers of block TDC by offset. -/
def descTDC (o : Nat) : Option (List Fld) :=
  match o with
  | 0x0 => some (D.TDC_CTRL)
  | 0x4 => some (D.TDC_CLK)
  | 0x8 => some (D.TDC_CAL_GAP)
  | 0xC => some (D.TDC_CAL_STAT)
  | 0x1C => some (D.TDC_CNT)
  | 0x20 => some (D.TB_LO)
  | 0x24 => some (D.TB_HI)
  | 0x28 => some (D.TB_LOAD_LO)
  | 0x2C => some (D.TB_LOAD_HI)
  | 0x30 => some (D.TB_CTRL)
  | 0x34 => some (D.TDC_FAULT)
  | 0x40 => some (D.TAB_SEL)
  | 0x44 => some (D.TAB_DATA)
  | 0x48 => some (D.TAB_INFO)
  | 0x200 => some (D.GATE_CFG)
  | o =>
    if 0x10 ≤ o ∧ o < 0x1C ∧ o % 4 = 0 then some (D.TDC_CD_MAP)
    else if 0x100 ≤ o ∧ o < 0x1C0 then (match (o - 0x100) % 0x20 with | 0x0 => some (D.AUX_CFG) | 0x4 => some (D.AUX_STAT) | 0x8 => some (D.AUX_TS_F) | 0xC => some (D.AUX_TS_LO) | 0x10 => some (D.AUX_TS_HI) | 0x14 => some (D.AUX_PER_INT) | 0x18 => some (D.AUX_PER_FRAC) | 0x1C => some (D.AUX_CNT) | _ => none)
    else none

/-- Registers of block SHT by offset. -/
def descSHT (o : Nat) : Option (List Fld) :=
  match o with
  | 0x0 => some (D.SHT_CTRL)
  | 0x4 => some (D.SHT_TAB_BASE)
  | 0x8 => some (D.SHT_ACT)
  | 0xC => some (D.SHT_NEXT)
  | 0x10 => some (D.SHT_VAL)
  | 0x14 => some (D.SHT_FRAME_LEN)
  | 0x18 => some (D.SHT_FB)
  | 0x1C => some (D.SHT_HOLD)
  | 0x20 => some (D.SHT_STAT)
  | 0x24 => some (D.SHT_BANK)
  | 0x28 => some (D.SHT_FRAME_NO)
  | 0x2C => some (D.SHT_NODE)
  | 0x30 => some (D.SHT_SEQ_LO)
  | 0x34 => some (D.SHT_SEQ_HI)
  | 0x38 => some (D.SHT_CNT_A)
  | 0x3C => some (D.SHT_CNT_B)
  | 0x50 => some (D.SEED_CHK)
  | 0x200 => some (D.CAP_CTRL)
  | 0x204 => some (D.CAP_STAT)
  | 0x208 => some (D.CAP_BASE_LO)
  | 0x20C => some (D.CAP_BASE_HI)
  | 0x210 => some (D.CAP_LEN)
  | 0x214 => some (D.CAP_WIN)
  | 0x218 => some (D.CAP_TICK_LO)
  | 0x21C => some (D.CAP_TICK_HI)
  | 0x220 => some (D.CAP_FIRST_LO)
  | 0x224 => some (D.CAP_FIRST_HI)
  | o =>
    if 0x40 ≤ o ∧ o < 0x50 ∧ o % 4 = 0 then some (D.SEED)
    else if 0x104 ≤ o ∧ o < 0x14C ∧ o % 4 = 0 then some (D.GAP_CNT)
    else none

/-- Registers of block ENP by offset. -/
def descENP (o : Nat) : Option (List Fld) :=
  match o with
  | 0x0 => some (D.ENP_CTRL)
  | 0x4 => some (D.ENP_ST)
  | 0x8 => some (D.ENP_STAT)
  | 0xC => some (D.ENP_KSWAP)
  | 0x10 => some (D.ENP_KSRC_LO)
  | 0x14 => some (D.ENP_KSRC_HI)
  | 0x18 => some (D.ENP_KINFO)
  | o =>
    if 0x20 ≤ o ∧ o < 0x30 ∧ o % 4 = 0 then some (D.ENP_KMAP)
    else if 0x40 ≤ o ∧ o < 0x60 ∧ o % 4 = 0 then some (D.ENP_RETIRED)
    else if 0x100 ≤ o ∧ o < 0x300 then (match (o - 0x100) % 0x20 with | 0x0 => some (D.CL_CTRL) | 0x4 => some (D.CL_Q) | 0x8 => some (D.CL_STAT) | 0xC => some (D.CL_CNT_A) | 0x10 => some (D.CL_CNT_B) | 0x14 => some (D.CL_CNT_C) | 0x18 => some (D.CL_CNT_D) | 0x1C => some (D.CL_LAT) | _ => none)
    else if 0x1000 ≤ o ∧ o < 0x1400 ∧ o % 4 = 0 then some (D.ENG_STAT)
    else none

/-- Registers of block TIL by offset. -/
def descTIL (o : Nat) : Option (List Fld) :=
  match o with
  | 0x0 => some (D.TT_CTRL)
  | 0x4 => some (D.TT_AGE)
  | 0x8 => some (D.TT_BASE_LO)
  | 0xC => some (D.TT_BASE_HI)
  | 0x10 => some (D.TT_STAT)
  | 0x14 => some (D.TT_OCC)
  | 0x18 => some (D.TT_CNT_A)
  | 0x1C => some (D.TT_CNT_B)
  | 0x20 => some (D.TT_CNT_C)
  | 0x24 => some (D.TT_CNT_D)
  | 0x40 => some (D.EGO_DXY)
  | 0x44 => some (D.EGO_DZP)
  | 0x48 => some (D.EGO_CTRL)
  | 0x4C => some (D.EGO_PSI)
  | 0x80 => some (D.CLS_CFG)
  | 0x2000 => some (D.PS_CTRL)
  | 0x2004 => some (D.PS_STAT)
  | 0x2008 => some (D.PS_CNT_A)
  | 0x200C => some (D.PS_CNT_B)
  | 0x2010 => some (D.PS_CNT_C)
  | 0x2014 => some (D.PS_CNT_D)
  | 0x2018 => some (D.PS_POINTS)
  | 0x201C => some (D.PS_SUM)
  | 0x2020 => some (D.PS_SUM_BASE_LO)
  | 0x2024 => some (D.PS_SUM_BASE_HI)
  | o =>
    if 0x90 ≤ o ∧ o < 0xA0 ∧ o % 4 = 0 then some (D.CLS_CNT)
    else if 0x1000 ≤ o ∧ o < 0x1100 then (match (o - 0x1000) % 0x10 with | 0x0 => some (D.BL_CFG) | 0x4 => some (D.BL_STAT) | _ => none)
    else if 0x2040 ≤ o ∧ o < 0x2060 then (match (o - 0x2040) % 0x10 with | 0x0 => some (D.SCN_CFG ((o - 0x2040) / 0x10)) | 0x4 => some (D.SCN_GAIN) | _ => none)
    else if 0x2400 ≤ o ∧ o < 0x2600 ∧ o % 4 = 0 then some (D.PS_EMIT)
    else if 0x3000 ≤ o ∧ o < 0x5000 then (match (o - 0x3000) % 0x8 with | 0x0 => some (D.PS_CHOFS) | 0x4 => some (D.PS_CHDIR) | _ => none)
    else if 0x5000 ≤ o ∧ o < 0x6000 ∧ o % 4 = 0 then some (D.PS_CHPAR)
    else none

/-- Registers of block CTL by offset. -/
def descCTL (o : Nat) : Option (List Fld) :=
  match o with
  | 0x0 => some (D.CTL_CTRL)
  | 0x4 => some (D.CTL_STAT)
  | 0x8 => some (D.CTL_LOAD)
  | o =>
    if 0x40 ≤ o ∧ o < 0x80 then (match (o - 0x40) % 0x20 with | 0x0 => some (D.SCN_CTRL) | 0x4 => some (D.SCN_START) | 0x8 => some (D.SCN_PARK) | 0xC => some (D.SCN_STAT) | 0x10 => some (D.SCN_CNT) | 0x14 => some (D.SCN_MARK) | _ => none)
    else if 0x100 ≤ o ∧ o < 0x200 then (match (o - 0x100) % 0x40 with | 0x0 => some (D.AX_CFG ((o - 0x100) / 0x40)) | 0x4 => some (D.AX_DRV) | 0x8 => some (D.AX_SWAP) | 0xC => some (D.AX_LIVE) | 0x10 => some (D.AX_RES) | 0x14 => some (D.AX_FREQ) | 0x18 => some (D.AX_CNT) | 0x1C => some (D.AX_DLY) | 0x20 => some (D.AX_FF) | 0x24 => some (D.AX_TRJ) | _ => none)
    else none

/-- Registers of block EMG by offset. -/
def descEMG (o : Nat) : Option (List Fld) :=
  match o with
  | 0x0 => some (D.EMG_CTRL)
  | 0x4 => some (D.EMG_STAT)
  | 0x8 => some (D.EMG_E1)
  | 0xC => some (D.EMG_EM100)
  | 0x10 => some (D.EMG_EM10S)
  | 0x14 => some (D.EMG_EXP_CRC)
  | 0x18 => some (D.EMG_ACT_CRC)
  | 0x1C => some (D.EMG_MON_SEL)
  | 0x20 => some (D.EMG_MON_VAL)
  | o =>
    if 0x24 ≤ o ∧ o < 0x38 ∧ o % 4 = 0 then some (D.EMG_REF)
    else if 0x40 ≤ o ∧ o < 0x50 ∧ o % 4 = 0 then some (D.EMG_EN)
    else if 0x80 ≤ o ∧ o < 0xC0 then (match (o - 0x80) % 0x20 with | 0x0 => some (D.SEC_X) | 0x4 => some (D.SEC_Y) | 0x8 => some (D.SEC_SLEW) | 0xC => some (D.SEC_CFG ((o - 0x80) / 0x20)) | 0x10 => some (D.SEC_C100) | 0x14 => some (D.SEC_C10S) | 0x18 => some (D.SEC_STAT) | _ => none)
    else if 0x100 ≤ o ∧ o < 0x300 then (match (o - 0x100) % 0x20 with | 0x0 => some (D.BANK_CFG) | 0x4 => some (D.BANK_CAL) | 0x8 => some (D.BANK_SNS) | 0xC => some (D.BANK_REF) | 0x10 => some (D.BANK_STAT) | 0x14 => some (D.BANK_MEAS) | 0x18 => some (D.BANK_CNT) | _ => none)
    else if 0x400 ≤ o ∧ o < 0x600 ∧ o % 4 = 0 then some (D.EM_OFS)
    else none

/-- Registers of block SAF by offset. -/
def descSAF (o : Nat) : Option (List Fld) :=
  match o with
  | 0x0 => some (D.SAF_CTRL)
  | 0x4 => some (D.SAF_STAT)
  | 0x8 => some (D.SAF_EXP_CRC)
  | 0xC => some (D.SAF_ACT_CRC)
  | 0x10 => some (D.SAF_ACT)
  | 0x14 => some (D.SAF_OSSD)
  | 0x18 => some (D.SAF_FIELDS)
  | 0x1C => some (D.SAF_INPUTS)
  | 0x20 => some (D.SAF_INSTATE)
  | 0x24 => some (D.SAF_FAULT)
  | 0x28 => some (D.SAF_CNT_A)
  | 0x2C => some (D.SAF_CNT_B)
  | 0x30 => some (D.SAF_EVAL)
  | _ => none

/-- Registers of block DEC by offset. -/
def descDEC (o : Nat) : Option (List Fld) :=
  match o with
  | 0x0 => some (D.DEC_CTRL)
  | 0x8 => some (D.DEC_STAT)
  | 0x10 => some (D.DEC_HIST_BASE_LO)
  | 0x14 => some (D.DEC_HIST_BASE_HI)
  | o =>
    if 0x100 ≤ o ∧ o < 0x300 then (match (o - 0x100) % 0x40 with | 0x0 => some (D.DEC_CFG ((o - 0x100) / 0x40)) | 0x4 => some (D.DEC_DLY) | 0x8 => some (D.DEC_LIN ((o - 0x100) / 0x40)) | 0x20 => some (D.DEC_DET) | 0x24 => some (D.DEC_OUT) | 0x28 => some (D.DEC_PK) | 0x2C => some (D.DEC_RMS) | 0x30 => some (D.DEC_ENV) | 0x34 => some (D.DEC_IDX) | 0x38 => some (D.DEC_CNT) | 0xC => some D.DEC_C | 0x10 => some D.DEC_C | 0x14 => some D.DEC_C | 0x18 => some D.DEC_C | 0x1C => some D.DEC_C | _ => none)
    else none

/-- Registers of block THM by offset. -/
def descTHM (o : Nat) : Option (List Fld) :=
  match o with
  | 0x0 => some (D.THM_CTRL)
  | 0x4 => some (D.THM_STAT)
  | 0x8 => some (D.THM_TCTL)
  | 0xC => some (D.THM_IGN)
  | 0x10 => some (D.THM_CNT)
  | o =>
    if 0x100 ≤ o ∧ o < 0x170 ∧ o % 4 = 0 then some (D.THM_SENS)
    else none

/-- Registers of block DRC by offset. -/
def descDRC (o : Nat) : Option (List Fld) :=
  match o with
  | 0x0 => some (D.DRC_CTRL)
  | 0x4 => some (D.DRC_STAT)
  | 0x8 => some (D.DRC_GEOM)
  | 0xC => some (D.DRC_TIM0)
  | 0x10 => some (D.DRC_TIM1)
  | 0x14 => some (D.DRC_TIM2)
  | 0x18 => some (D.DRC_REF)
  | 0x1C => some (D.DRC_TEMP)
  | 0x20 => some (D.DRC_PD)
  | 0x24 => some (D.DRC_ERR_LO)
  | 0x28 => some (D.DRC_ERR_HI)
  | 0x2C => some (D.DRC_CNT_A)
  | 0x30 => some (D.DRC_CNT_B)
  | 0x34 => some (D.DRC_SCRUB)
  | 0x300 => some (D.DLY_CA)
  | 0x310 => some (D.DRC_TEST)
  | 0x8080 => some (D.CM_TQ_BASE)
  | 0x8084 => some (D.CM_SPILL_BASE)
  | 0x8088 => some (D.CM_SPILL_LEN)
  | 0x808C => some (D.CM_GAP_BASE)
  | 0x8090 => some (D.CM_GAP_LEN)
  | 0x8094 => some (D.CM_CHECK)
  | o =>
    if 0x40 ≤ o ∧ o < 0x58 ∧ o % 4 = 0 then some (D.DRC_PORT ((o - 0x40) / 4))
    else if 0x60 ≤ o ∧ o < 0x78 ∧ o % 4 = 0 then some (D.DRC_PLAT)
    else if 0x80 ≤ o ∧ o < 0x9C ∧ o % 4 = 0 then some (D.DRC_MR)
    else if (0x100 ≤ o ∧ o < 0x100 + 0x90 ∨ 0x200 ≤ o ∧ o < 0x200 + 0x90) ∧ o % 0x10 = 0x0 then some D.DLY_W
    else if (0x100 ≤ o ∧ o < 0x100 + 0x90 ∨ 0x200 ≤ o ∧ o < 0x200 + 0x90) ∧ o % 0x10 = 0x4 then some D.DLY_R
    else if (0x100 ≤ o ∧ o < 0x100 + 0x90 ∨ 0x200 ≤ o ∧ o < 0x200 + 0x90) ∧ o % 0x10 = 0x8 then some D.DLY_V
    else if 0x8010 ≤ o ∧ o < 0x8050 then (match (o - 0x8010) % 0x10 with | 0x0 => some (D.MEM_RCFG ((o - 0x8010) / 0x10)) | 0x4 => some (D.MEM_RSTAT) | 0x8 => some (D.MEM_RCNT) | 0xC => some (D.MEM_RADDR) | _ => none)
    else none

/-- Registers of block SLQ by offset. -/
def descSLQ (o : Nat) : Option (List Fld) :=
  match o with
  | 0x0 => some (D.SLQ_CTRL)
  | 0x4 => some (D.SLQ_SD_BASE_LO)
  | 0x8 => some (D.SLQ_SD_BASE_HI)
  | 0xC => some (D.SLQ_POOL_C)
  | 0x10 => some (D.SLQ_POOL_S)
  | 0x14 => some (D.SLQ_STAT)
  | 0x18 => some (D.SLQ_GRP)
  | o =>
    if 0x40 ≤ o ∧ o < 0x140 ∧ o % 4 = 0 then some (D.SLQ_ROUTE ((o - 0x40) / 4))
    else if 0x1000 ≤ o ∧ o < 0x3000 then (match (o - 0x1000) % 0x20 with | 0x0 => some (D.SLQ_CFG ((o - 0x1000) / 0x20)) | 0x4 => some (D.SLQ_QSTAT) | 0x8 => some (D.SLQ_LEVEL) | 0xC => some (D.SLQ_CNT) | 0x10 => some (D.SLQ_LOST) | _ => none)
    else none

/-- Registers of block DMA by offset. -/
def descDMA (o : Nat) : Option (List Fld) :=
    if 0x100 ≤ o ∧ o < 0x500 then (match (o - 0x100) % 0x40 with | 0x0 => some (D.DMA_CFG) | 0x4 => some (D.DMA_RING_LO) | 0x8 => some (D.DMA_RING_HI) | 0xC => some (D.DMA_TAIL) | 0x10 => some (D.DMA_HEAD) | 0x14 => some (D.DMA_COUNT) | 0x18 => some (D.DMA_CRC) | 0x1C => some (D.DMA_STAT) | 0x20 => some (D.DMA_ERR_LO) | 0x24 => some (D.DMA_ERR_HI) | 0x28 => some (D.DMA_CNT) | _ => none)
    else none

/-- Registers of block LN by offset. -/
def descLN (p : Nat) (o : Nat) : Option (List Fld) :=
  match o with
  | 0x0 => some (D.LN_CTRL)
  | 0x4 => some (D.LN_STAT)
  | 0x8 => some (D.LN_CFG)
  | 0xC => some (D.LN_CNT_A)
  | 0x10 => some (D.LN_CNT_B)
  | 0x100 => if p = 0 then some (D.HWIN1_BASE_LO) else none
  | 0x104 => if p = 0 then some (D.HWIN1_BASE_HI) else none
  | o =>
    if 0x20 ≤ o ∧ o < 0x40 ∧ o % 4 = 0 ∧ (p = 0 ∨ (o % 0x20) / 4 < 4) then some (D.LN_TX)
    else if 0x40 ≤ o ∧ o < 0x60 ∧ o % 4 = 0 ∧ (p = 0 ∨ (o % 0x20) / 4 < 4) then some (D.LN_RX)
    else if 0x60 ≤ o ∧ o < 0x80 ∧ o % 4 = 0 ∧ (p = 0 ∨ (o % 0x20) / 4 < 4) then some (D.LN_PRBS)
    else none

/-- Registers of block LNU by offset. -/
def descLNU (o : Nat) : Option (List Fld) :=
  match o with
  | 0x1000 => some (D.RING_CFG)
  | 0x1004 => some (D.RING_STAT)
  | 0x1008 => some (D.RING_RTT)
  | 0x100C => some (D.RING_ALIGN)
  | 0x1010 => some (D.RING_ASYM)
  | 0x1014 => some (D.RING_CNT)
  | 0x1018 => some (D.RING_CNT_B)
  | 0x101C => some (D.RING_MAP)
  | _ => none

/-- The numbers that R419 gives to units. -/
def unitNumber (u : Nat) : Bool :=
  decide (u < 0x54 ∨ (0x60 ≤ u ∧ u < 0x84) ∨ (0x90 ≤ u ∧ u < 0x96) ∨ (0xA0 ≤ u ∧ u < 0xA9))

/-- Registers of block EVT by offset. -/
def descEVT (o : Nat) : Option (List Fld) :=
  match o with
  | 0x0 => some (D.EVT_CTRL)
  | 0x4 => some (D.EVT_STAT)
  | 0x10 => some (D.EVT_REPUB)
  | o =>
    if 0x8 ≤ o ∧ o < 0x10 ∧ o % 4 = 0 then some (D.EVT_IRQ)
    else if 0x100 ≤ o ∧ o < 0x150 ∧ o % 4 = 0 then some (D.EV_FLAG)
    else if 0x1000 ≤ o ∧ o < 0x1A00 ∧ o % 4 = 0 then some (D.EV_ROUTE)
    else if 0x2000 ≤ o ∧ o % 4 = 0 ∧ unitNumber ((o - 0x2000) / 4) then some (D.UNIT_STATE)
    else none

/-- Registers of block CAN by offset. -/
def descCAN (o : Nat) : Option (List Fld) :=
    if 0x0 ≤ o ∧ o < 0x80 then (match (o - 0x0) % 0x40 with | 0x0 => some (D.CAN_CFG ((o - 0x0) / 0x40)) | 0x4 => some (D.CAN_STAT) | 0x8 => some (D.CAN_CNT) | _ => none)
    else none

/-- Registers of block ETH by offset. -/
def descETH (o : Nat) : Option (List Fld) :=
    if 0x0 ≤ o ∧ o < 0x200 then (match (o - 0x0) % 0x100 with | 0x0 => some (D.ETH_CFG ((o - 0x0) / 0x100)) | 0x4 => some (D.ETH_STAT) | 0x8 => some (D.ETH_CNT) | 0xC => some (D.ETH_MAC_LO) | 0x10 => some (D.ETH_MAC_HI) | 0x14 => some (D.ETH_IP) | 0x18 => some (D.ETH_PEER_IP) | 0x1C => some (D.ETH_UDP) | 0x20 => some (D.ETH_TS_CORR) | _ => none)
    else none

/-- Registers of block SEC by offset. -/
def descSEC (o : Nat) : Option (List Fld) :=
  match o with
  | 0x0 => some (D.SECU_STAT)
  | 0x4 => some (D.SEC_OTP)
  | 0x8 => some (D.SEC_CMD)
  | 0xC => some (D.SEC_CMD_STAT)
  | 0x10 => some (D.SEC_ARG_LO)
  | 0x14 => some (D.SEC_ARG_HI)
  | 0x18 => some (D.SEC_LEN)
  | 0x1C => some (D.SEC_CNT)
  | _ => none

/-- Registers of block SYS by offset. -/
def descSYS (o : Nat) : Option (List Fld) :=
  match o with
  | 0x0 => some (D.SYS_MODE)
  | 0x4 => some (D.SYS_CFG)
  | 0x8 => some (D.SYS_RESET)
  | 0xC => some (D.SYS_CAUSE)
  | 0x10 => some (D.SYS_REINIT)
  | 0x14 => some (D.SYS_DECERR_LO)
  | 0x18 => some (D.SYS_DECERR_HI)
  | 0x1C => some (D.SYS_CNT)
  | 0x20 => some (D.SYS_WDT)
  | _ => none

/-- Registers of block CLK by offset. -/
def descCLK (o : Nat) : Option (List Fld) :=
  match o with
  | 0x0 => some (D.CLK_STAT)
  | 0x4 => some (D.CLK_CNT)
  | 0x8 => some (D.CLK_OFS)
  | 0x10 => some (D.CLK_GATE0)
  | 0x14 => some (D.CLK_ACT0)
  | 0x18 => some (D.CLK_ACT1)
  | _ => none

/-- The fields of the register at a 40-bit address; `none` where no register stands (R28). -/
def regDesc (a : Nat) : Option (List Fld) :=
  if a < 0x0800000000 ∨ 0x0801000000 ≤ a then none
  else
    let b := (a - 0x0800000000) / 0x10000
    let o := a % 0x10000
    if 0x20 ≤ b ∧ b < 0x60 then descTILE o
    else match b with
    | 0x4 => descHKC o
    | 0x9 => descTDC o
    | 0x8 => descSHT o
    | 0xA => descENP o
    | 0xB => descTIL o
    | 0x6 => descCTL o
    | 0x7 => descEMG o
    | 0xC => descSAF o
    | 0x5 => descDEC o
    | 0x3 => descTHM o
    | 0xF => descDRC o
    | 0xE => descSLQ o
    | 0xD => descDMA o
    | 0x2 => descEVT o
    | 0x13 => descCAN o
    | 0x14 => descETH o
    | 0x15 => descSEC o
    | 0x0 => descSYS o
    | 0x1 => descCLK o
    | 0x10 => descLN 0 o
    | 0x11 => if o < 0x1000 then descLN 1 o else descLNU o
    | 0x12 => descLN 2 o
    | _ => none

/-- Word that the Reset column gives a register with these fields. -/
def resetOfFields (fs : List Fld) : BitVec 32 :=
  fs.foldl (fun w f => w ||| (BitVec.ofNat 32 f.rst <<< f.lo)) 0

/-- Reset value of the register at an address; 0 where no register stands. -/
def regReset (a : Nat) : BitVec 32 :=
  match regDesc a with
  | some fs => resetOfFields fs
  | none => 0

end Sys2Proof.Machine
end

