-- ==== Sys2Proof/Machine/State.lean ====
section
/-! DEFINITION. The state of the device as plain data. Every register of spec/ stands in `State.regs`
under its 40-bit address (Machine/RegMap.lean names them all); the structures below hold what the spec
gives the machine beside its registers: queues, buffers, timers, windows in flight, link state. A table
`List (Nat × α)` lists the indices whose value differs from the unlisted value that its `init` names. -/

namespace Sys2Proof.Machine

/-- Reasons for which the machine stops. -/
inductive Fault where
  /-- RESET_N held low for more than 0.2 µs and less than 1 µs (POWER_ON_RESET): R492 leaves the response
  undefined. Safe: the model stops. -/
  | resetPulseUndefined
  deriving DecidableEq, Repr

/-- Commands without a meaning. -/
inductive Refusal where
  /-- The command has no meaning yet (Machine/Dispatch.lean). Safe. -/
  | notModelled (mnemonic : String)
  deriving DecidableEq, Repr

/-! ### What leaves the device -/

/-- An item that the device has sent, or a level it has driven for others to see, oldest first in
`State.tx`. -/
inductive TxItem where
  /-- A CAN frame: controller, identifier, data. -/
  | can (ctl : Nat) (id : Nat) (data : List Byte)
  /-- A frame of a lane port (0 H, 1 U, 2 D), and its bytes on the lanes (R382). -/
  | lane (port : Nat) (f : LaneFrame) (wire : List Byte)
  /-- A frame that a device in PASS regenerates through a cascade port (R394). -/
  | pass (port : Nat) (f : LaneFrame)
  /-- PRBS on every data lane of a port: the exponents a and b of x^a + x^b + 1 (R381). -/
  | prbs (port a b : Nat)
  /-- A row of MARK blocks on every lane of a port. -/
  | mark (port : Nat)
  /-- A UDP datagram: SGMII port, destination address, destination and source port, body. -/
  | udp (port ip dport sport : Nat) (body : List Byte)
  /-- Another Ethernet frame: SGMII port, kind, body. -/
  | eth (port kind : Nat) (body : List Byte)
  /-- A word to a mirror drive: axis, word. -/
  | drive (axis word : Nat)
  deriving DecidableEq, Repr

/-! ### Events (17_dictionary.md) -/

/-- An EMCY message waiting for the inhibit time (R428). -/
structure Emcy where
  code : Nat
  errReg : Nat
  event : Nat
  count : Nat
  deriving DecidableEq, Repr

/-- A notice (R429): entries (event, tick, count) and the tick at which its gathering ends. -/
structure Notice where
  entries : List (Nat × Nat × Nat)
  due : Nat
  deriving DecidableEq, Repr

structure EvtState where
  /-- IRQ_N[k] released for a new raise until this tick (R427). -/
  irqRel : List (Nat × Nat)
  emcy : List Emcy
  /-- Error history of object 0x1003, newest first: event number in bits 31:16, EMCY code below. -/
  hist : List Nat
  /-- Tick before which no further EMCY is sent (0x1015). -/
  emcyAt : Nat
  hostNotes : List Notice
  ethNotes : List Notice
  deriving DecidableEq, Repr

/-- Instructions of the test access port (R452, R453). -/
inductive TapInst where
  | bypass | idcode | samplePreload | dbgChal | dbgToken | extest | extestPulse | extestTrain | coreDebug
  deriving DecidableEq, Repr

/-- The boot flash's read modes (R492). -/
inductive FlashMode where
  | quad114 | octal118 | octal888
  deriving DecidableEq, Repr

/-- Pins that no register shows; BIASREF, RESREF and MIR_EN stand in BIAS_STAT.OUT, BANK_STAT.OUT and SCN_STAT.MIR_EN. -/
structure Pins where
  /-- EMIT_TRIG outputs that are high: emitter and the tick at which the pulse ends. -/
  emitTrig : List (Nat × Nat)
  /-- BYP_HOLD is driven high (R394). -/
  bypHold : Bool
  /-- HEAT_REQ is driven (R316). -/
  heatReq : Bool
  /-- Level of the MASTER_SEL strap (R388, log 2). -/
  masterSel : Bool
  /-- Levels of the STRAP_FL straps (R492, log 2). -/
  strapFl : BitVec 2
  /-- Levels of the seal inputs: true reads open (R268). -/
  sealA : Bool
  sealB : Bool
  /-- Instruction of the test access port (R452). -/
  tap : TapInst
  /-- Levels of DDR_RESET_N and of DDR_CKE outside power-down (R336). -/
  ddrResetN : Bool
  ddrCke : Bool
  deriving DecidableEq, Repr

/-! ### Front end (02_return_inputs.md) -/


/-- A pulse record (R108). `time`, `tot` and `hrise` are the values of the fields TIME, TOT, HRISE. -/
structure PulseRec where
  idx : Nat
  gainNew : Bool
  sat : Bool
  test : Bool
  biasMove : Bool
  fbSubst : Bool
  ovf : Bool
  hx : Bool
  hrise : Nat
  tot : Nat
  time : Nat
  deriving DecidableEq, Repr

/-- What a shot's arm message tells the listening tiles (R101). -/
structure ArmMsg where
  seq : Nat
  row : Nat
  idx : Nat
  depth : Nat
  frame : Nat
  fire : Nat
  code : Nat
  binw : Nat
  winOfs : Nat
  gate : Nat
  trip2 : Bool
  /-- With TRIP2: commanded fire tick, code and measured fire offset of the row's previous shot. -/
  prev : Option (Nat × Nat × Option Nat)
  safety : Bool
  emitter : Nat
  scanner : Nat
  /-- The shot was withheld (R98): its arm point counts, its windows do not open. -/
  withheld : Bool
  listen : List (Fin 64 × Nat)
  deriving DecidableEq, Repr

/-- One shot on one channel: its listening window and its records (log 20). -/
structure Win where
  msg : ArmMsg
  /-- The window has opened or will open; false once closed. -/
  pending : Bool
  gainNew : Bool
  inject : Bool
  /-- Injection settings in force for this shot: DELAY, WIDTH, PAIR (R49). -/
  inj : Nat × Nat × Bool
  /-- Pulses that the test source injects on this shot: start tick, width in ticks, amplitude in nA (R49). -/
  pulses : List (Nat × Nat × Nat)
  recs : List PulseRec
  /-- Low falling edge of the last record, in 6.25 ps on the timebase (R38). -/
  lastFall : Option Nat
  /-- Low rising edge from which the last record spans, in 6.25 ps on the timebase (R38). -/
  lastRise : Nat
  /-- Pulses dropped under R39. -/
  dropped : Nat
  clamped : Bool
  /-- Measured fire offset, once delivered (R99, R100), and its FB_SUBST mark. -/
  ofs : Option Nat
  subst : Bool
  /-- A gap record covers the shot. -/
  gap : Bool
  /-- The records have been paired and accumulated (R110). -/
  decided : Bool
  /-- It was dropped before it opened: it never opens (R79, R112). -/
  never : Bool
  deriving DecidableEq, Repr

/-- Front-end state of one return channel, beside its registers. -/
structure FeChan where
  /-- GAIN_NEW mark waiting for the next shot whose window opens (R46). -/
  gainNew : Bool
  /-- Instant of the first change staged since the last latch (R44). -/
  stagedAt : Option Nat
  /-- The tile has stopped arming the channel (R44). -/
  settle : Bool
  /-- A return to ACTIVE waits for the next arm point (R48). -/
  exitPend : Bool
  /-- An arm point in OVERLOAD or GATED has turned the comparators off (R48). -/
  cmpOff : Bool
  /-- Arm points so far: the shot count of R49. -/
  shotCnt : Nat
  /-- Consecutive test misses (R51). -/
  missRun : Nat
  /-- Tile cycle of the latest write of FE_CFG, and the set staged before that cycle (R43). -/
  cfgWrote : Option (Nat × Word)
  /-- Arm point since which DCR_HOLD freezes the restoration loop, and the frozen correction once an average over it
  alone has been formed, with whether it is at capacity (R37). -/
  heldFrom : Nat
  heldVal : Option (Nat × Bool)
  /-- The latest run of windows without a gap between them: when it opened, when it closes (R71). -/
  busyFrom : Nat
  busyTo : Nat
  /-- End of the pulse that engages the clamp at present (R47, R56). -/
  clampEnd : Option Nat
  /-- Value of FE_CFG that the firmware writes again at the end of a re-initialisation (R468). -/
  rewrite : Option Word
  /-- Shots of the channel whose records are not settled, oldest first. -/
  wins : List Win
  deriving DecidableEq, Repr

/-- A channel as reset leaves it. -/
def FeChan.init : FeChan := ⟨false, none, false, false, false, 0, 0, none, 0, none, 0, 0, none, none, []⟩

/-- Bias group g (R54, R55): runs of monitor samples outside the limits, gating and its hold-off. -/
structure BiasGrp where
  hiRun : Nat
  loRun : Nat
  gating : Bool
  /-- End of the 10.0 ms hold-off of ACTION 01, once the violation has ended. -/
  holdEnd : Option Nat
  /-- ACTION 10 or 11 drives the output to 0 V until both WIN flags are cleared. -/
  zeroed : Bool
  deriving DecidableEq, Repr

def BiasGrp.init : BiasGrp := ⟨0, 0, false, none, false⟩

structure FeState where
  chan : List (Nat × FeChan)
  bias : List (Nat × BiasGrp)
  deriving DecidableEq, Repr

/-! ### TDC fabric (03_time_measurement.md) -/

/-- A code-density table of one interpolator (R72, R75). -/
structure CalTab where
  pos : List Nat
  lowPower : Bool
  /-- Tag temperature in 1/192 °C (a mean of up to four sensors of 1/16 °C). -/
  temp : Int
  valid : Bool
  stale : Bool
  /-- Running time at which the table was formed, for AGE. -/
  made : Nat
  deriving DecidableEq, Repr

def CalTab.none : CalTab := ⟨[], false, 0, false, false, 0⟩

/-- States of the coarse-clock change (R77). -/
inductive ClkState where
  | stable | waitFill | waitFrame | relock
  deriving DecidableEq, Repr

/-- One auxiliary channel (R80 to R82). Times are in 1/128 tick. -/
structure AuxChan where
  fifo : List (Nat × Nat)
  latest : Nat × Nat
  /-- Selected edges since the last counted one. -/
  presc : Nat
  /-- Times of counted edges, newest first, at most 1,025. -/
  times : List Nat
  /-- Last counted edge, or the enabling; none once the timeout has been reported. -/
  lastEdge : Option Nat
  deriving DecidableEq, Repr

def AuxChan.init : AuxChan := ⟨[], (0, 0), 0, [], none⟩

structure TdcState where
  /-- Count latched by the last TB_LO read (R67). -/
  latch : Nat
  /-- Active tables by 32 × unit + interpolator. -/
  tabs : List (Nat × CalTab)
  /-- Accepted tables that wait for their activation point (R74). -/
  newTabs : List (Nat × CalTab)
  /-- CAL_MODE as each interpolator last latched it (R70), by 32 × unit + interpolator. -/
  calOn : List (Nat × Bool)
  /-- Units whose DLL is unlocked (R79), in the order in which they lost their lock. -/
  unlocked : List Nat
  clk : ClkState
  relockAt : Nat
  /-- Frame start postponed while the DLLs relock (R78). -/
  frameHeld : Bool
  /-- Rolling fill: start tick and clock mode of the fill in progress. -/
  fillAt : Nat
  fillMode : Bool
  /-- Units whose part of a FILL_ALL has ended. -/
  allDone : List Nat
  filling : Bool
  nextUnit : Nat
  lastFillEnd : Nat
  /-- Interpolators whose last fill was rejected (starved), by 32 × unit + interpolator. -/
  starved : List Nat
  /-- Tick of each unit's last matching replica comparison (R66). -/
  lastMatch : List (Nat × Nat)
  aux : List (Nat × AuxChan)
  /-- GATE_IN: raw level, change waiting for qualification, filtered level, transitions of the
  filtered gate newest first (R83). Times are in 1/128 tick. -/
  gateRaw : Bool
  gatePend : Option (Nat × Bool)
  gateFilt : Bool
  gateTrans : List (Nat × Bool)
  deriving DecidableEq, Repr

/-! ### Shot scheduler (04_shot_scheduling.md) -/

/-- A schedule row as fetched (R89). -/
structure Row where
  num : Nat
  valid : Bool
  trip2 : Bool
  gate : Nat
  emitter : Nat
  start : Nat
  depth : Nat
  period : Nat
  binw : Nat
  winOfs : Nat
  codeMask : Nat
  jspan : Nat
  listen : List (Fin 64 × Nat)
  /-- LISTEN entry number of each entry in use. -/
  places : List Nat
  safety : Bool
  scanner : Nat
  sliceId : Nat
  deriving DecidableEq, Repr

/-- The previous shot of a row (R101): fire tick, code, SEQ and, once measured or substituted, its fire offset. -/
structure PrevShot where
  fire : Nat
  code : Nat
  seq : Nat
  ofs : Option Nat
  deriving DecidableEq, Repr

/-- A row slot (R94): the row, its frame, the first SEQ of its shots and the next shot to arm (log 25). -/
structure Slot where
  row : Row
  frame : Nat
  frameTick : Nat
  seq0 : Nat
  next : Nat
  /-- The row's previous shot: the last that reached its arm instant, a withheld one (which has no offset) included.
  DESIGN CHOICE (log 132). -/
  prev : Option PrevShot
  /-- Reference fire times of the row so far in 1/128 tick: latest, and the one before (R171). -/
  refs : Option Nat × Option Nat
  /-- Shots of the row resolved or never to be fired. -/
  resolved : Nat
  deriving DecidableEq, Repr

/-- An armed shot, until its energy is settled. -/
structure Shot where
  msg : ArmMsg
  bank : Fin 16
  fired : Bool
  second : Bool
  /-- Event times of feedback edges (R62), first first, with their COARSE_OVF mark removed. -/
  edges : List Nat
  /-- The feedback wait has ended. -/
  waited : Bool
  /-- Instant of the second accepted feedback edge, in 1/128 tick. -/
  fbTick : Option Nat
  /-- Feedback accepted (true), or NO_FB / BAD_FB (false); none while waiting. -/
  ok : Option Bool
  ofs : Option Nat
  vpre : Option Nat
  vpost : Option Nat
  /-- V_pre or V_post cannot be measured (R234, third case). -/
  skip : Bool
  /-- Calibration unit 64 was unlocked while it waited for its feedback pair (R79). -/
  fbLost : Bool
  settled : Bool
  deriving DecidableEq, Repr

/-- A gap record waiting for its slice (R102). -/
structure GapRec where
  reason : Nat
  tile : Nat
  mask : Nat
  row : Nat
  first : Nat
  seq : Nat
  len : Nat
  lostBefore : Bool
  frame : Nat
  /-- Tile cycle in which it was reported. -/
  cycle : Nat
  /-- Its 16-byte place in the gap record area (R31). -/
  slot : Nat
  deriving DecidableEq, Repr

structure ShtState where
  seq : Nat
  /-- The domain seed, SEED0 first (R96); not readable. -/
  seed : List (Nat × Word)
  /-- Firing began: reference instant of R92. -/
  refTick : Nat
  /-- Tick of the last frame start; none before the first frame. -/
  frameTick : Option Nat
  markLost : Bool
  /-- Frame marks of scanner 0 that are scheduled, by instant, oldest first (R209). -/
  marks : List Nat
  /-- Next row of the active range to fetch; none when the range is exhausted. -/
  nextRow : Option Nat
  slots : List (Nat × Slot)
  shots : List Shot
  armMsgs : List ArmMsg
  gaps : List GapRec
  /-- Tiles whose next stored gap record carries LOST_BEFORE. -/
  lostTiles : List Nat
  lastEmit : List (Nat × Nat)
  lastBank : List (Nat × Nat)
  fails : List (Nat × Nat)
  pendRange : Option (Nat × Nat)
  /-- Range frozen by COMMIT until BUSY clears (R91). -/
  frozen : Option (Nat × Nat)
  commitAt : Nat
  /-- Rows whose last shot was dropped before its arm instant: row, frame, and when that shot's window would have closed
  (R119). -/
  unarmed : List (Nat × Nat × Nat)
  /-- The latest run of feedback waits of a bank without a gap between them: when it began, when it ends (R71, R99). -/
  fbBusy : List (Nat × Nat × Nat)
  /-- Diagnostic capture (R105): smallest fire tick seen, SETTLE deadline, write offset, ticks of
  the kept entries, the last written first. -/
  capT : Nat
  capEnd : Nat
  capOfs : Nat
  capTicks : List Nat
  /-- The latest tick of the entries that have been overwritten. -/
  capLost : Option Nat
  deriving DecidableEq, Repr

/-! ### Grain tiles (05_grain_tiles.md) -/

/-- States of a histogram buffer (R120). -/
inductive BufState where
  | free | filling | posted | held | clearing
  deriving DecidableEq, Repr

/-- An accepted pair (R110, R111). `rel` is its time from bin 0 in 6.25 ps. -/
structure Pair where
  rel : Int
  tot : Nat
  hrise : Nat
  hx : Bool
  sat : Bool
  biasMove : Bool
  subst : Bool
  shot : Nat
  trip : Bool
  deriving DecidableEq, Repr

/-- The row facts a histogram keeps. -/
structure HistRow where
  row : Nat
  frame : Nat
  seq0 : Nat
  depth : Nat
  binw : Nat
  winOfs : Nat
  trip2 : Bool
  deriving DecidableEq, Repr

/-- The settings of a histogram, latched at its first arm point (R113, R125): GT_CTRL, GT_COINC, GT_DEADLINE, GT_NB, and
the adaptive state. -/
structure HistSet where
  ctrl : Word
  coinc : Word
  deadline : Word
  nb : Word
  adapt : Bool
  deriving DecidableEq, Repr

/-- One of a channel's two buffers with the histogram in it. -/
structure Hist where
  st : BufState
  hr : HistRow
  set : HistSet
  /-- A tile update met an uncorrectable word: the histogram is lost (R326). -/
  lost : Bool
  sparse : Bool
  conv : Bool
  /-- Conversion in progress (R118): pairs that wait. -/
  converting : Bool
  waiting : List Pair
  unpaired : Nat
  shots : Nat
  pairs : Nat
  totSum : Nat
  totN : Nat
  full : Nat
  sat : Bool
  biasMove : Bool
  subst : Bool
  tripLost : Bool
  /-- Deadline tick once POSTED (R122). -/
  deadline : Nat
  /-- The ticket stands in its cluster queue, not in the tile's post buffer. -/
  queued : Bool
  /-- CLEARING started at. -/
  clearAt : Nat
  /-- The next histogram, assigned while the buffer still clears. -/
  nextRow : Option (HistRow × HistSet)
  /-- Latest close of a window of the row's shots with an arm point. -/
  lastClose : Nat
  deriving DecidableEq, Repr

def HistRow.init : HistRow := ⟨0, 0, 0, 1, 0, 0, false⟩
def HistSet.init : HistSet := ⟨0x54400000#32, 0xC400140C#32, 0x01F40000#32, 0x3F3F3F3F#32, false⟩
def Hist.init : Hist :=
  ⟨.free, .init, .init, false, false, false, false, [], 0, 0, 0, 0, 0, 0, false, false, false, false, 0, false, 0, none, 0⟩

/-- A ticket (R122) with the pool's stolen mark and its entry tick. -/
structure Ticket where
  tile : Nat
  ch : Nat
  buf : Nat
  sparse : Bool
  trip2 : Bool
  tripLost : Bool
  gen : Nat
  row : Nat
  frame : Nat
  shots : Nat
  sat : Bool
  biasMove : Bool
  subst : Bool
  conv : Bool
  totMean : Nat
  full : Nat
  bgBin : Nat
  deadline : Nat
  stolen : Bool
  entry : Nat
  /-- Its place in the cluster's ticket queue memory (R31). -/
  slot : Nat
  deriving DecidableEq, Repr

/-- One channel of a tile: its two buffers, the buffer the next histogram takes, the background rate in 1/256 kHz. -/
structure GtChan where
  b0 : Hist
  b1 : Hist
  nextBuf : Nat
  bgRate : Nat
  /-- A histogram of the channel filled in this frame (R117). -/
  hadHist : Bool
  /-- A histogram of the channel closed in this frame (R186). -/
  closed : Bool
  /-- Row and frame of the histogram assigned last. -/
  last : Option (Nat × Nat)
  deriving DecidableEq, Repr

def GtChan.init : GtChan :=
  ⟨Hist.init, Hist.init, 0, 0, false, false, none⟩

structure GtState where
  chan : List (Nat × GtChan)
  /-- Post buffer of each tile, at most 32 tickets. -/
  post : List (Nat × List Ticket)
  /-- REP_MODE in force in the present frame, by tile. -/
  repMode : List (Nat × Nat)
  deriving DecidableEq, Repr

/-! ### Energy governor (10_emission_governor.md) -/

/-- An accumulator pair (R236): energies in nJ by absolute 1 ms and 100 ms bin number. -/
structure Acc where
  ms : List (Nat × Nat)
  ds : List (Nat × Nat)
  deriving DecidableEq, Repr

def Acc.init : Acc := ⟨[], []⟩

/-- A reservation of E1_MAX (R232) in the bins current at its grant. `sectors` lists
64 × scanner + sector. -/
structure Resv where
  seq : Nat
  fire : Nat
  emitter : Nat
  sectors : List Nat
  msBin : Nat
  dsBin : Nat
  amount : Nat
  deriving DecidableEq, Repr

structure EmgState where
  /-- The active sealed set (R242), by register address; unlisted words are reset values. -/
  act : List (Nat × Word)
  emit : List (Nat × Acc)
  sect : List (Nat × Acc)
  /-- Current 1 ms and 100 ms bin numbers. -/
  msBin : Nat
  dsBin : Nat
  resv : List Resv
  /-- Runs of measured shots below EFLOOR, and of samples above ESTORE_MAX, by bank (R235). -/
  senseRun : List (Nat × Nat)
  storeRun : List (Nat × Nat)
  /-- The latest resolved shots of each bank: fire tick, and V_post instant in 1/128 tick, 0 where the shot has none (R234). -/
  lastPost : List (Nat × List (Nat × Nat))
  /-- First tile cycle in which the inhibit of a bank refuses permits (R235). -/
  inhFrom : List (Nat × Nat)
  /-- Tile cycle in which the governor last worked, and the latest of R240's kinds of work done in it: 2 settlement, 3 inhibit,
  4 permit, 5 commit. -/
  turn : Nat × Nat
  /-- The preset of R237 has been decided since power-on. -/
  presetDone : Bool
  /-- Instants at which a stall declaration reached the governor, by scanner, until the gate. -/
  stallAt : List (Nat × Nat)
  /-- Band that RESREF follows while frames are running (R241). -/
  band : Nat
  deriving DecidableEq, Repr

/-! ### Point stage (07_echo_extraction.md) -/

/-- An echo from the kernel (R159 to R166) that waits for its angle. `time` is the corrected time T in
6.25 ps. -/
structure Echo where
  ch : Nat
  row : Nat
  frame : Nat
  time : Int
  trip : Bool
  intensity : Nat
  width : Nat
  sat : Bool
  biasMove : Bool
  subst : Bool
  summed : Bool
  pileup : Bool
  walkEst : Bool
  ecount : Nat
  eidx : Nat
  bg : Nat
  walk : Int
  sumMiss : Bool
  more : Bool
  tmpl : Nat
  shots : Nat
  snr : Nat
  tot : Nat
  /-- Tick at which the kernel completed. -/
  doneAt : Nat
  /-- Cluster whose credit it holds (R140). -/
  cl : Fin 16
  /-- PS_CHOFS as supplied at the take (R156). -/
  chofs : Word
  /-- It came from LIGHT. -/
  light : Bool
  deriving DecidableEq, Repr

/-- An open slice (R179). -/
structure Slice where
  row : Row
  frame : Nat
  frameTick : Nat
  queue : Fin 256
  /-- Its header has a place in the queue (R352). -/
  stored : Bool
  ext : Bool
  /-- Place of its pending header in the gap record and header area (R31). -/
  place : Nat
  /-- The row has resolved: its reference fire time and the one before, in 1/128 tick (R171). -/
  ref : Option (Option Nat × Option Nat)
  /-- Listening channels whose kernel run has completed. -/
  compl : List Nat
  /-- Shots covered by gap records, as a bit set, by channel. -/
  cover : List (Nat × Nat)
  points : Nat
  deriving DecidableEq, Repr

/-- A summation slot (R168): landed at, and its order of landing. -/
structure SumSlot where
  landed : Nat
  order : Nat
  deriving DecidableEq, Repr

structure PsState where
  slices : List Slice
  echoes : List Echo
  /-- PS_EMIT, PS_CHOFS, PS_CHDIR and PS_CHPAR as of the last frame start (R183). -/
  frameRegs : List (Nat × Word)
  /-- Occupied summation slots by number. -/
  slots : List (Nat × SumSlot)
  slotOrder : Nat
  /-- Unit words as of the previous frame header (R182). -/
  lastWords : List (Nat × Word)
  /-- The next frame header lists every unit. -/
  fullNext : Bool
  /-- Start tick of each frame, by frame number, over the last 65,536 (R168, R169). -/
  frameTicks : List (Nat × Nat)
  /-- Slices of SAFETY rows that closed before all their points were formed: the points still reach channel A (R182). -/
  shut : List Slice
  deriving DecidableEq, Repr

/-! ### Safety island (11_safety.md) -/

/-- A point of a SAFETY row as channel A receives it (R252). -/
structure PtA where
  range : Nat
  az : Nat
  el : Nat
  persist : Nat
  cls : Nat
  deriving DecidableEq, Repr

/-- A frame as the island sees it (R251). -/
structure SafFrame where
  no : Nat
  start : Nat
  /-- Start of the following frame. -/
  next : Option Nat
  badA : Bool
  badB : Bool
  pts : List PtA
  deriving DecidableEq, Repr

/-- A shot of a SAFETY row as channel B sees it (R254, R255). -/
structure BShot where
  seq : Nat
  frame : Nat
  row : Nat
  emitter : Nat
  fire : Nat
  code : Nat
  listen : List (Fin 64 × Nat)
  /-- Channels whose window was armed for it. -/
  armed : List Nat
  recs : List (Nat × PulseRec)
  /-- Fired with its feedback accepted or substituted. -/
  ok : Bool
  ofs : Nat
  deriving DecidableEq, Repr

/-- A fetched row with SAFETY = 1. -/
structure SafRow where
  frame : Nat
  row : Nat
  emitter : Nat
  listen : List (Fin 64 × Nat)
  deriving DecidableEq, Repr

/-- A dual-channel input (R266, R267): per channel the last sampled level, the tick since which it has
held and the filtered level; the instant the discrepancy timer started. -/
structure SafInput where
  rawA : Bool
  rawB : Bool
  sinceA : Nat
  sinceB : Nat
  lvA : Bool
  lvB : Bool
  discAt : Option Nat
  deriving DecidableEq, Repr

def SafInput.init : SafInput := ⟨false, false, 0, 0, false, false, none⟩

/-- A pair (R262, R263). -/
structure SafPair where
  /-- Every condition but the restart has held since. -/
  okSince : Option Nat
  /-- A restart pulse that began while the other conditions held became ACTIVE at. -/
  pulseAt : Option Nat
  /-- The supervisor permits the pair. -/
  on : Bool
  deriving DecidableEq, Repr

def SafPair.init : SafPair := ⟨none, none, false⟩

/-- An OSSD output: 0 A[0], 1 A[1], 2 B[0], 3 B[1]. -/
structure Ossd where
  on : Bool
  /-- Tick of the last change of `on`, or of an off demand within a pulse. -/
  since : Nat
  /-- Start of the running test pulse. -/
  pulse : Option Nat
  /-- End of the last test pulse whose return to high is not yet checked. -/
  ended : Option Nat
  /-- An off demand fell within the pulse (R265). -/
  demand : Bool
  /-- Level of the readback input. -/
  rb : Bool
  deriving DecidableEq, Repr

def Ossd.init : Ossd := ⟨false, 0, none, none, false, false⟩

structure SafState where
  frames : List SafFrame
  bshots : List BShot
  /-- Active configuration image, by byte offset (R278). -/
  cfg : List (Nat × Byte)
  /-- Occupancy of field 4 × set + field in channels A and B; unlisted: OCCUPIED (R260). -/
  occA : List (Nat × Bool)
  occB : List (Nat × Bool)
  /-- Consecutive frames that speak against the present occupancy. -/
  runA : List (Nat × Nat)
  runB : List (Nat × Nat)
  /-- Consecutive frames of disagreement (R261). -/
  xcRun : List (Nat × Nat)
  /-- Channel B's run and last position by return channel (R257). -/
  bRun : List (Nat × Nat)
  bPos : List (Nat × Nat)
  inputs : List (Nat × SafInput)
  pairs : List (Nat × SafPair)
  outs : List (Nat × Ossd)
  /-- Where the 20 ms cycle of the test pulses begins: a tick within 20 ms, once a pulse has fixed it (R264). -/
  pulsePhase : Option Nat
  /-- Set number in force since the last EVAL. -/
  setNo : Nat
  /-- Raw seal levels and the tick since which they disagree (R268). -/
  sealSince : Option Nat
  /-- COMMIT in progress since. -/
  commitAt : Option Nat
  /-- The device was in STANDBY at COMMIT. -/
  commitMode : Bool
  /-- Last frame start, or the last FRAME_MAX counted since (R251). -/
  maxAt : Nat
  /-- SAFETY rows fetched: frame, row, emitter, listening set. -/
  rows : List SafRow
  /-- Staging window, by byte offset (R269, R281). -/
  stage : List (Nat × Byte)
  deriving DecidableEq, Repr
/-! ### Housekeeping and decimation (12_housekeeping.md) -/

/-- A decimation output (R296 to R299). `own` marks an own cause of invalidity (R298). -/
structure DecSample where
  /-- Its index in the angle history. -/
  idx : Nat
  outAt : Nat
  stamp : Nat
  value : Int
  raw : Int
  restart : Bool
  ovl : Bool
  clip : Bool
  invalid : Bool
  own : Bool
  deriving DecidableEq, Repr

/-- A detector window (R302): outputs counted, valid ones, largest and smallest v, the sum of (v − m)² as a
numerator over 2 to the exponent, and whether an output was INVALID. -/
structure DetWin where
  count : Nat
  valid : Nat
  top : Int
  bot : Int
  sqNum : Nat
  sqExp : Nat
  inv : Bool
  deriving DecidableEq, Repr

def DetWin.init : DetWin := ⟨0, 0, 0, 0, 0, 0, false⟩

/-- A decimation channel (R295 to R302). -/
structure DecChan where
  /-- Outputs, newest first, at most 2,048 (the angle history). -/
  hist : List DecSample
  /-- Older outputs that channel B of the island may yet take for a shot it has not evaluated (R256). -/
  past : List DecSample
  /-- Settings EN, HB, K, SRC in force: latched at the last restart (R297). -/
  cfg : Word
  /-- Pending restarts, oldest first: instant, and the word of DEC_CFG that it puts in force. -/
  restarts : List (Nat × Word)
  /-- EN has turned 1: no output before the restart. -/
  silent : Bool
  /-- The next output is the first after a restart. -/
  fresh : Bool
  /-- INVALID outputs still to come. -/
  invLeft : Nat
  /-- An overload has ended and its restart has not come. -/
  ended : Bool
  /-- The DC estimate m of R301: numerator over 2 to the exponent. -/
  mNum : Int
  mExp : Nat
  det : DetWin
  env : DetWin
  /-- The axis whose period mark opened the window, where it lies between marks (R302). -/
  detBy : Option Nat
  envBy : Option Nat
  /-- The raw output of an instant that the partner's output has used already (R298). -/
  raw : Option (Nat × Int)
  /-- Outputs formed so far, and how many of them were INVALID (R219). -/
  count : Nat
  invN : Nat
  deriving DecidableEq, Repr

def DecChan.init : DecChan := ⟨[], [], 0, [], true, false, 0, false, 0, 0, .init, .init, none, none, none, 0, 0⟩

/-- Phases of the sequencer (R286): stopped, between two entries, and the phases of an entry. -/
inductive HkPhase where
  | stopped | ready | atBreak | made | integrating | checking
  deriving DecidableEq, Repr

/-- What the sequencer keeps of one entry between its executions (R291, R292). -/
structure HkEntry where
  /-- The next result carries SETTLE. -/
  settle : Bool
  /-- A write since the last break sets G_cur to 2^GAIN. -/
  regain : Bool
  /-- log2 of G_cur. -/
  gain : Nat
  /-- The next conversion carries RANGED. -/
  ranged : Bool
  /-- The last ripple-locked integration was locked (true) or fell back. -/
  locked : Option Bool
  /-- Housekeeping clock cycle of the last write plus one, and what the entry was before that cycle: CFG, TIME,
  LIM, `settle`, `regain`. -/
  wroteAt : Nat
  prev : Word × Word × Word × Bool × Bool
  deriving DecidableEq, Repr

def HkEntry.init : HkEntry := ⟨false, false, 0, false, none, 0, (0, 0, 0, false, false)⟩

/-- The conversion in progress: its entry, the settings latched at its break, log2 of the gain, T in 1.6 µs, the code
and its flags. -/
structure HkConv where
  entry : Fin 64
  cfg : Word
  time : Word
  lim : Word
  breakAt : Nat
  t : Nat
  gain : Nat
  round : Nat
  settle : Bool
  ranged : Bool
  ripfb : Bool
  locked : Bool
  code : Int
  ovr : Bool
  clamp : Bool
  deriving DecidableEq, Repr

def HkConv.init : HkConv := ⟨0, 0, 0, 0, 0, 0, 0, 0, false, false, false, false, 0, false, false⟩

/-- The excitation of the entry in progress (R285): a current in 10 µA into HK_P[n] or into IEXC_OUT[n], or VEXC as the
converter's reference. -/
inductive HkExc where
  | pin (n tenUa : Nat)
  | out (n tenUa : Nat)
  | ratio
  deriving DecidableEq, Repr

structure HkState where
  phase : HkPhase
  /-- What is applied from the make to the end of integration. -/
  exc : Option HkExc
  /-- Entry at which the search for the next one starts. -/
  next : Nat
  conv : HkConv
  entries : List (Nat × HkEntry)
  /-- Executed entries that still count as following OVR or CLAMP. -/
  recovery : Nat
  /-- TS and INFO of the last written result, by entry (R294). -/
  res : List (Nat × Nat × Word)
  /-- The entry whose RES was read last: its TS and INFO stand latched (R294). -/
  latch : Option Nat
  deriving DecidableEq, Repr

/-! ### Silt queues and DMA (15_queues_dma.md) -/

/-- A unit of a silt queue (R353): a slice, named by row and frame, or a record enqueued whole. -/
structure SlqUnit where
  key : Option (Nat × Nat)
  closed : Bool
  bytes : List Byte
  /-- End offset of each item within the unit. -/
  items : List Nat
  /-- Segments held, in stream order, each by its pool (true for the SDRAM pool) and its number in it; and segments already
  returned. -/
  segs : List (Bool × Nat)
  freed : Nat
  deriving DecidableEq, Repr

/-- A silt queue: its units in list order, the stream offset of the first unit's first byte, RD, REL and the
marks (R356), oldest first; the lines of its head buffer by stream offset (R353). -/
structure SlqQueue where
  units : List SlqUnit
  start : Nat
  rd : Nat
  rel : Nat
  marks : List Nat
  head : List (Nat × List Byte)
  deriving DecidableEq, Repr

def SlqQueue.init : SlqQueue := ⟨[], 0, 0, 0, [], []⟩

structure SlqState where
  queues : List (Nat × SlqQueue)
  /-- SLQ_ROUTE as of the last frame start (R352), where it differs from the reset route. -/
  route : List (Nat × Nat)
  /-- Segments of the clay and of the SDRAM pool in use, by number. -/
  clay : List Nat
  sdram : List Nat
  deriving DecidableEq, Repr

/-- An outward write that awaits its response: tag, offset within the descriptor, bytes, address. -/
structure DmaOut where
  tag : Nat
  ofs : Nat
  len : Nat
  addr : Nat
  deriving DecidableEq, Repr

/-- A descriptor in execution (R360 to R365). -/
structure DmaChan where
  /-- The eight words of the descriptor. -/
  desc : List Word
  /-- Bytes issued, and bytes whose writes have completed. -/
  moved : Nat
  good : Nat
  /-- The CRC register over the moved bytes. -/
  crc : Word
  /-- The trailer has been issued. -/
  trailer : Bool
  /-- Outward non-posted writes without a response yet; next tag. -/
  outs : List DmaOut
  tag : Nat
  /-- Number of its latest beat among those of all channels (R360). -/
  turn : Nat
  deriving DecidableEq, Repr

def DmaChan.init : DmaChan := ⟨[], 0, 0, 0xFFFFFFFF#32, false, [], 0, 0⟩


/-! ### Engine pool (06_loam_engine_pool.md) -/

/-- A ticket in an engine: its fetch and its kernel run. -/
structure Run where
  tk : Ticket
  /-- Histogram buffer of the engine. -/
  buf : Fin 2
  fetchAt : Nat
  beats : Nat
  fetched : Bool
  kstart : Option Nat
  /-- PS_CHPAR and PS_CHOFS as supplied at the take (R156). -/
  chpar : Word
  chofs : Word
  /-- List length of R116. -/
  count : Nat
  /-- Kernel entry in force: 0 STANDARD, 1 LIGHT, 2 summation. -/
  kind : Nat
  binw : Nat
  winOfs : Nat
  /-- Matched summation slot, and the bytes fetched from it. -/
  slot : Option Nat
  remote : Option (List Byte)
  deriving DecidableEq, Repr

/-- An engine, beside ENG_STAT. -/
structure Engine where
  run : Option Run
  next : Option Run
  /-- Banks that hold the set in use in them: the active set, or that of a swap (R147). -/
  banks : List Nat
  passAt : Option Nat
  testAt : Nat
  /-- It goes to TEST after LOAD (R146). -/
  reinit : Bool
  deriving DecidableEq, Repr

def Engine.init : Engine := ⟨none, none, [], none, 0, false⟩

/-- A steal in progress: tickets on their way to an engine's home queue (R133). -/
structure Steal where
  eng : Nat
  due : Nat
  tks : List Ticket
  deriving DecidableEq, Repr

structure PoolState where
  queues : List (Nat × List Ticket)
  /-- Next place of each cluster's ticket queue memory. -/
  tqWr : List (Nat × Nat)
  engines : List (Nat × Engine)
  moves : List Steal
  /-- Tile cycle in which a queue last served an operation, and the first place of R130's order not yet past in it: 0 to 3
  the posts by tile, 4 to 19 the home takes by position, 20 the help, 21 the steal (R130). -/
  turns : List (Nat × (Nat × Nat))
  /-- Engine position selected for self-test, by cluster. -/
  sel : List (Nat × Nat)
  /-- Staging address of the set in bank 0 and bank 1; none for an empty bank. -/
  src : List (Nat × Nat)
  /-- Start of LOADING (R147). -/
  swapAt : Nat
  /-- Histograms on their way to the cascade port: ring position and slot bytes (R167). -/
  exports : List (Nat × List Byte)
  deriving DecidableEq, Repr



/-! ### Tilth table and ego motion (08_rejection.md) -/

/-- World offset O and yaw Ψ of one frame (R191). -/
structure EgoPose where
  frame : Nat
  ox : Int
  oy : Int
  oz : Int
  psi : Nat
  deriving DecidableEq, Repr

/-- A displacement DX, DY, DZ and yaw increment DPSI (R191). -/
structure EgoMove where
  dx : Int
  dy : Int
  dz : Int
  dpsi : Int
  deriving DecidableEq, Repr

def EgoMove.zero : EgoMove := ⟨0, 0, 0, 0⟩

structure TiltState where
  /-- Present O and Ψ; `frame` is not used. -/
  pose : EgoPose
  /-- O and Ψ of the present frame and the three before it, newest first. -/
  poses : List EgoPose
  /-- Last displacement, and frame starts without a new commit since. -/
  last : EgoMove
  misses : Nat
  /-- The last frame start applied zero displacement (R192). -/
  lost : Bool
  /-- Commits that await a frame start, newest first, with their tile cycle. -/
  commits : List (Nat × EgoMove)
  /-- Bucket that the sweeper visits next. -/
  sweepAt : Nat
  /-- VOX in cm and RMAX in m in force (R197). -/
  vox : Nat
  rmax : Nat
  deriving DecidableEq, Repr


/-! ### Modes and resets (19_modes_recovery.md) -/

structure SysState where
  /-- Code of the mode that a transition under way leads to (R459, R462). -/
  target : Option Nat
  /-- A warm reset sequence: cause code, tick of the accepted request (R466). -/
  reset : Option (Nat × Nat)
  /-- Cause of a warm reset requested during an orderly stop (R463). -/
  later : Option Nat
  /-- Start of the orderly stop (R318), and whether its permits are withdrawn. -/
  orderly : Option Nat
  withdrawn : Bool
  /-- The device is held in reset, since. -/
  held : Option Nat
  /-- The analogue trip holds the reset (R319). -/
  tripped : Bool
  /-- The present reset is a power-on reset. -/
  por : Bool
  /-- AUTO is applicable at the end of this BOOT (R459). -/
  autoOk : Bool
  /-- Tick of the last KICK, or of the release of reset (R464). -/
  kickAt : Nat
  /-- Re-initialisation under way: KIND, INDEX, start (R467). -/
  reinit : Option (Nat × Nat × Nat)
  deriving DecidableEq, Repr

/-! ### Beam steering (09_beam_steering.md) -/

/-- State x1, x2, y1, y2 of a filter section (R208). -/
structure Sect where
  x1 : Int
  x2 : Int
  y1 : Int
  y2 : Int
  deriving DecidableEq, Repr

def Sect.init : Sect := ⟨0, 0, 0, 0⟩

/-- An axis of the control engine, beside its registers. Signals are Q15 integers (R204). -/
structure Axis where
  /-- Its latest sample instant, in half ticks (R205). -/
  last : Nat
  /-- The word that the next sample instant sends (R213). -/
  word : Option Nat
  /-- The word sent last. -/
  sent : Nat
  /-- Bytes of the coefficient banks: 128 × bank + offset (R222). -/
  banks : List (Nat × Byte)
  /-- Trajectory entries. -/
  traj : List (Nat × Nat)
  sect : List (Nat × Sect)
  /-- The integrator I, with 30 fraction bits. -/
  integ : Int
  /-- Clamp of u in the previous sample: 1 upper, −1 lower, 0 none. -/
  side : Int
  phi : Nat
  iq : Int
  qq : Int
  /-- Ip and Ia, Q15 (R204). -/
  ip : Int
  ia : Int
  /-- The drive amplitude A. -/
  amp : Int
  /-- Value and stamp of the last valid feedback sample. -/
  fb : Option (Int × Nat)
  /-- Samples without a new valid feedback output, and with a disagreement of CHK_CH (R220). -/
  miss : Nat
  dis : Nat
  /-- Next trajectory entry, counted from BASE; none before the move from PARK has ended. -/
  play : Option Nat
  /-- BASE and LEN in force (R209). -/
  base : Nat
  len : Nat
  /-- Pending swap: true while it waits for a frame start (R215). -/
  swap : Option Bool
  /-- Output, or amplitude, from which the park generator starts (R217). -/
  u0 : Int
  deriving DecidableEq, Repr

def Axis.init : Axis := ⟨0, none, 0, [], [], [], 0, 0, 0, 0, 0, 0, 0, 0, none, 0, 0, none, 0, 1, none, 0⟩

/-- A scanner, beside its registers. -/
structure Scanner where
  /-- Ticks of START, of the entry to RAMP and of the entry to PARK. -/
  startAt : Nat
  rampAt : Nat
  parkAt : Nat
  /-- Consecutive samples with a phase error below 1/16. -/
  lockRun : Nat
  /-- The 16 periods are being counted, and how many have passed (R218). -/
  counting : Bool
  good : Nat
  /-- Consecutive periods below 80 % (R219). -/
  below : Nat
  /-- INVALID outputs of the fast axis's feedback channel up to the end of its last period (R219). -/
  invSeen : Nat
  /-- A stall has been declared and has not reached the governor (R219, R239). -/
  stalled : Bool
  deriving DecidableEq, Repr

def Scanner.init : Scanner := ⟨0, 0, 0, 0, false, 0, 0, 0, false⟩

structure CtlState where
  /-- Tick at which EN was set (R205). -/
  enAt : Nat
  /-- Axis whose sample the engine computes; none while it is free (R212). -/
  cur : Option Nat
  /-- Decimation period of ACC_IN that the values below belong to, and the decimated value of each input (R206). -/
  accAt : Nat
  acc : List Int
  axes : List (Nat × Axis)
  scns : List (Nat × Scanner)
  deriving DecidableEq, Repr

/-! ### Thermal management (13_thermal.md) -/

structure ThmState where
  /-- Step of the staircase in force: −2 COLD, −1 LOW, 0 NORMAL, 1 to 7, 8 CRIT (R315). -/
  stair : Int
  /-- Hottest non-ignored sensor of the previous capture. -/
  hot : Option Nat
  /-- End of the hold (R314). -/
  holdEnd : Option Nat
  /-- Start of the next autonomous gate (R311). -/
  autoAt : Nat
  /-- Gate start of the last sequencer capture applied. -/
  applied : Option Nat
  /-- Start of a recalibration (R317). -/
  recal : Option Nat
  deriving DecidableEq, Repr

/-! ### Memories (14_memory.md) -/

/-- What the SDRAM controller keeps of the requests and commands of its ports (R338 to R341, R344, R346). -/
structure DramUse where
  /-- Lines of the write queue, oldest first (R341). -/
  wq : List Nat
  /-- The latest run of 32 lines was a write run (R340). -/
  wrote : Bool
  /-- Where the real-time piece in progress goes on (R338, R340). -/
  piece : Option Nat
  /-- Ranks in precharge power-down, and the tick of the latest request by rank (R344). -/
  pd : List Nat
  reqAt : List (Nat × Nat)
  /-- The last 64 commands, newest first, each with the tick of its issue; the number of the next one (R346). -/
  cmds : List (Nat × DramCmd)
  cmdNo : Nat
  deriving DecidableEq, Repr

def DramUse.init : DramUse := ⟨[], false, none, [], [], [], 0⟩

structure DrcState where
  /-- Tick at which DRC_STAT.STATE took its present value. -/
  since : Nat
  /-- The present initialisation leads out of self-refresh: contents are kept. -/
  kept : Bool
  /-- SRT of MR2 is set in the devices, by a self-refresh entry while HOT (R336). -/
  srt : Bool
  /-- Geometry, timing, mode and delay words as of the last INIT, delays as of a later write with TRAIN = 1 (R336). -/
  timing : List (Nat × Word)
  /-- Next refresh due, by rank; none while refresh does not run. -/
  refAt : List (Nat × Nat)
  /-- Forced refreshes that wait for a split point (R343). -/
  force : Nat
  /-- Tick of the last valid temperature report. -/
  reportAt : Option Nat
  /-- No valid report for 1 s (R342). -/
  lost : Bool
  alertAt : Option Nat
  /-- Consecutive replays that caught a command, by command (R346). -/
  replays : List (Nat × Nat)
  /-- Requests that have become URGENT, and those that have become CRITICAL: port and arrival (R339). -/
  urgent : List (Nat × Nat)
  crit : List (Nat × Nat)
  /-- Next line of the patrol scrubber and the start of its pass (R345), the tick of the last ZQCS (R333) and of the last MPR temperature
  read (R342). -/
  patrol : Nat
  patrolAt : Nat
  zqAt : Nat
  mprAt : Option Nat
  /-- The pattern burst that runs: when it ends and the lanes that match (R347, R349). -/
  test : Option (Nat × Nat)
  /-- Next line of the pass and tick of its period's start, by on-chip region (R325). -/
  scrub : List (Nat × Nat × Nat)
  /-- Start of a COMMIT of the clay allocation (R331). -/
  cmAt : Option Nat
  deriving DecidableEq, Repr

/-! ### Lane ports and ring (16_lanes_cascade.md) -/

/-- One virtual channel of a port. SEQ values are taken modulo 4,096; 0xFFF stands for none. -/
structure Vc where
  /-- SEQ of the next new frame, of the last frame acknowledged by the partner, and of the last accepted. -/
  next : Nat
  acked : Nat
  rx : Nat
  /-- Credit from the partner, and credit to return to it, in 64 B units. -/
  credit : Nat
  owe : Nat
  /-- An accepted frame has not been acknowledged; its acceptance. -/
  ackDue : Bool
  /-- Frames that wait; frames sent and not acknowledged (for VC0 and VC1 the retry buffer), and how many of the
  last of them are to be resent. -/
  out : List LaneFrame
  unacked : List LaneFrame
  resend : Nat
  /-- VC2 frames that were sent and that a rewind sends again, in their order (R386). -/
  rewound : List LaneFrame
  /-- Consecutive replays without progress, and the tick from which REPLAY_TO counts. -/
  replays : Nat
  sentAt : Nat
  deriving DecidableEq, Repr

def Vc.init : Vc := ⟨0, 0xFFF, 0xFFF, 0, 0, false, [], [], 0, [], 0, 0⟩

structure LanePort where
  /-- Tick at which STATE took its present value, next check in DETECT, next PARAM frame. -/
  since : Nat
  check : Nat
  paramAt : Nat
  /-- A missed check has been reported since EN turned 1 or since ACTIVE. -/
  missed : Bool
  /-- A compatible PARAM has been received in this training. -/
  seen : Bool
  /-- PORT, NODE_ID and MASTER of the partner's PARAM. -/
  partner : Option (Nat × Nat × Bool)
  /-- An LP request: TARGET, first and last sending. -/
  lp : Option (Nat × Nat × Nat)
  /-- The training leads out of DEEP: PARAM is skipped. -/
  deep : Bool
  vcs : List (Nat × Vc)
  /-- VC2 frames held in the receive buffer (R399). -/
  held : List LaneFrame
  /-- Tick at which an acknowledgement last left. -/
  lastAck : Nat
  deriving DecidableEq, Repr

def LanePort.init : LanePort := ⟨0, 0, 0, false, false, none, none, false, [], [], 0⟩

/-- A completion that waits for port H: whether it answers an RD, TAG, STATUS, data. -/
structure Cpl where
  read : Bool
  tag : Nat
  status : Nat
  data : List Byte
  deriving DecidableEq, Repr

/-- A frame held on VC1 behind the 65th RD: a request of the host, or the response to a DWRNP (R387). -/
inductive HeldReq where
  | read (win : Bool) (ofs tag n : Nat)
  | write (win : Bool) (ofs tag : Nat) (data : List Byte)
  | response (tag : Nat) (error : Bool)
  deriving DecidableEq, Repr

structure HostState where
  cpls : List Cpl
  /-- Frames held on VC1, oldest first (R383, R387). -/
  held : List HeldReq
  deriving DecidableEq, Repr

structure RingState where
  /-- BSEQ of the device's own next broadcast and of its last ENUM, and broadcasts acted upon (origin, BSEQ), newest first. -/
  bseq : Nat
  enumSeq : Nat
  seen : List (Nat × Nat)
  /-- Position in the ring; none while the device holds none. -/
  pos : Option Nat
  /-- Tick of the last ENUM, and the largest timebase it carried. -/
  enumAt : Nat
  /-- The ring has been UP since the device took its position (R391). -/
  everUp : Bool
  /-- Broken links as pairs of positions. -/
  breaks : List (Nat × Nat)
  /-- Reference selected: 0 REFCLK, 1 port U, 2 port D; a pull-in is under way (R474). -/
  refSel : Fin 3
  pullIn : Bool
  /-- Frame starts that FRAME_STARTs schedule, in rising order; tick of the master's last FRAME_START (R397). -/
  startAt : List Nat
  fsAt : Nat
  /-- Timing exchange: NUMBER, t1 in 1/128 tick, tick of the last request. -/
  number : Nat
  t1 : Option Nat
  reqAt : Nat
  /-- Samples so far, the sum of θ in 1/8 ps and of d in 1/2 ps. -/
  n : Nat
  thetaSum : Int
  delaySum : Int
  /-- Consecutive averages within 50 ps; the next correction is the first after RING_UP. -/
  good : Nat
  first : Bool
  /-- Phase steps still to be made, those made, tick of the last one; ticks for which the count is held. -/
  steps : Int
  phase : Int
  stepAt : Nat
  hold : Nat
  deriving DecidableEq, Repr

/-! ### Identity and secure boot (18_identity.md) -/

/-- A boot header copy (R440). -/
structure BootHdr where
  seq : Nat
  active : Nat
  trial : Bool
  tries : Nat
  deriving DecidableEq, Repr

/-- What is known of a verified image. -/
structure ImageInfo where
  svn : Nat
  stateFmt : Nat
  digest : List Byte
  entry : Nat
  codeOfs : Nat
  codeLen : Nat
  ksetOfs : Nat
  ksetLen : Nat
  deriving DecidableEq, Repr

structure SecState where
  /-- Boot flash by offset, an unlisted byte erased (R440); the slot in force and its SEQ of the record of a KIND (R441). -/
  flash : List (Nat × Byte)
  inForce : List (Nat × Nat × Nat)
  /-- Bytes for the inactive bank that wait in the 128 KiB buffer, in order, the count of 0x5806.02, and the sectors erased for this
  update (R445). -/
  buf : List (Nat × Byte)
  programmed : Nat
  erased : List Nat
  /-- The Kelestuno root key's digest and the owner anchor digests in OTP (R435), and the root's public key (R438). -/
  otpRoot : List Byte
  owners : List (List Byte)
  rootKey : List Byte
  /-- The keys that the ROM derives (R436). -/
  codeKey : List Byte
  recKey : List Byte
  wrapKey : List Byte
  /-- The operational private key, and its wrapped form in the identity area (R450). -/
  opk : Option (Nat × List Byte)
  /-- The inactive bank as VERIFY_BANK found it; none once it has been written. -/
  verified : Option ImageInfo
  running : ImageInfo
  /-- SHA-384 of the kernel set image in each half of the kernel-image allocation (R448). -/
  ksets : List (Nat × List Byte)
  boardDigest : List Byte
  /-- Command in progress and its start. -/
  run : Option (Nat × Nat)
  /-- ACTIVATE awaits a frame start (R446). -/
  switch : Option ImageInfo
  /-- Control-core code bank that runs. -/
  codeBank : Nat
  challenge : Option (List Byte)
  /-- Failed tokens since power-on. -/
  dbgFails : Nat
  /-- Debug lock fuse (R435). -/
  fuse : Bool
  /-- Read mode of the boot flash that the ROM uses, as STRAP_FL was sampled (R492). -/
  flashMode : FlashMode
  /-- Buffer of a DOMAIN argument and the transfer object of 0x5808.02. -/
  arg : List Byte
  transfer : List Byte
  csr : List Byte
  report : List Byte
  opcert : List Byte
  anchors : List (List Byte)
  /-- Tick of the last access of the boot flash (R477). -/
  flashAt : Nat
  /-- This BOOT took the other bank (R442). -/
  fellBack : Bool
  deriving DecidableEq, Repr


/-! ### Management, CAN and SGMII (17_dictionary.md) -/

/-- The relation of timebase and PTP time, object 0x6410 (R417). -/
structure PtpMap where
  refTick : Nat
  refTime : Nat
  rate : Int
  state : Nat
  ofs : Int
  deriving DecidableEq, Repr

def PtpMap.init : PtpMap := ⟨0, 0, 0, 0, 0⟩

/-- A forwarded request without an answer (R408): the path it came by, its TAG, the port it left by. -/
structure MgmtFwd where
  path : MgmtPath
  tag : Nat
  port : Nat
  deriving DecidableEq, Repr

structure ComState where
  /-- Objects 0x1005 to 0x1A10 whose value differs from the default, by 0x100 × index + subindex (R412). -/
  od : List (Nat × Nat)
  /-- Tick of the last heartbeat by consumer entry; unlisted while none has come since the last loss. -/
  hbSeen : List (Nat × Nat)
  /-- Tick of the last heartbeat sent by controller. -/
  hbSent : List (Nat × Nat)
  /-- Tick from which the SYNC timeout counts; none once it has been reported. -/
  syncAt : Option Nat
  /-- Controller and tick of the last RPDO applied, by RPDO. -/
  rpdo : List (Nat × Nat × Nat)
  /-- Dictionary view of the unit state words (R421) and tick of its last refresh. -/
  view : List (Nat × Word)
  viewAt : Nat
  /-- The mapping of R417, the values latched by the last read of 0x6410.01, the last timestamp by port in 0.1 ns, and
  tick and interval of the last Sync. -/
  ptp : PtpMap
  ptpLatch : PtpMap
  ptpStamp : List (Nat × Int)
  ptpSync : Option (Nat × Nat)
  /-- Tick of the last update of the mapping (R417), and the sequence number of the clock's next message by type. -/
  ptpAt : Option Nat
  ptpSeq : Nat
  fwd : List MgmtFwd
  deriving DecidableEq, Repr

def ComState.init : ComState := ⟨[], [], [], none, [], [], 0, .init, .init, [], none, none, 0, []⟩

/-! ### The state -/

structure State where
  /-- Commands that wait, first in first out. -/
  pending : List Instr
  /-- The -AN ordering code (R2): fixed at manufacture. -/
  variantAN : Bool
  /-- The 64-bit timebase in 0.8 ns ticks (R65). -/
  tb : BitVec 64
  /-- Ticks by which loads and ring steps have moved the timebase, less those for which the ring has held it (R68, R392). -/
  stepped : Int
  /-- The model's own counter of open values drawn (log 3); not the spec's. -/
  free : Nat
  /-- Registers by address; an unlisted one holds its Reset-column value (`regReset`). -/
  regs : List (Nat × Word)
  /-- W1C bits that hardware has set in the latest tile cycle in which it set one, by register address: the cycle and
  the bits (R11). -/
  hwSet : List (Nat × Nat × Word)
  /-- Events set by hardware in the present tile cycle: event, cycle, whether its flag stood at 1 before (R426) (log 128). -/
  evNow : List (Nat × Nat × Bool)
  /-- Memory of the address map of R24, in canonical form. -/
  mem : List Host.Cell
  /-- Poisoned 64-bit words of the memories (R324, R345), by address, rising. -/
  poison : List Nat
  /-- Unit state words (R418), by unit number; an unlisted word is 0. -/
  units : List (Nat × Word)
  /-- Units under re-initialisation (R467), rising. -/
  reinit : List Nat
  pins : Pins
  tx : List TxItem
  evt : EvtState
  fe : FeState
  tdc : TdcState
  sht : ShtState
  gt : GtState
  emg : EmgState
  ps : PsState
  saf : SafState
  dec : List (Nat × DecChan)
  /-- Modulators in overload (R300), rising. -/
  modOvl : List Nat
  hk : HkState
  slq : SlqState
  dma : List (Nat × DmaChan)
  pool : PoolState
  tilt : TiltState
  ctl : CtlState
  thm : ThmState
  drc : DrcState
  dram : DramUse
  lanes : List (Nat × LanePort)
  host : HostState
  ring : RingState
  sec : SecState
  com : ComState
  sys : SysState
  deriving DecidableEq, Repr

/-- The machine right after reset (log 1, log 2): every register at its Reset-column value, the mode BOOT,
every queue empty, the timebase 0 (R65), every unit word 0 (R420). -/
def State.reset : State where
  pending := []
  variantAN := false
  tb := 0#64
  stepped := 0
  free := 0
  regs := []
  hwSet := []
  evNow := []
  mem := []
  poison := []
  units := []
  reinit := []
  pins := { emitTrig := [], bypHold := false, heatReq := false, masterSel := false, strapFl := 0,
            sealA := false, sealB := false, tap := .idcode, ddrResetN := false, ddrCke := false }
  tx := []
  evt := { irqRel := [], emcy := [], hist := [], emcyAt := 0, hostNotes := [], ethNotes := [] }
  fe := { chan := [], bias := [] }
  tdc := { latch := 0, tabs := [], newTabs := [], calOn := [], unlocked := [], clk := .stable,
           relockAt := 0, frameHeld := false, fillAt := 0, fillMode := false, allDone := [],
           filling := false, nextUnit := 0, lastFillEnd := 0, starved := [], lastMatch := [], aux := [],
           gateRaw := false, gatePend := none, gateFilt := false, gateTrans := [] }
  sht := { seq := 0, seed := [], refTick := 0, frameTick := none, markLost := false, marks := [],
           nextRow := none, slots := [], shots := [], armMsgs := [], gaps := [], lostTiles := [],
           lastEmit := [], lastBank := [], fails := [], pendRange := none, frozen := none, commitAt := 0, unarmed := [], fbBusy := [],
           capT := 0, capEnd := 0, capOfs := 0, capTicks := [], capLost := none }
  gt := { chan := [], post := [], repMode := [] }
  emg := { act := [], emit := [], sect := [], msBin := 0, dsBin := 0, resv := [], senseRun := [],
           storeRun := [], lastPost := [], inhFrom := [], turn := (0, 0), presetDone := false, stallAt := [], band := 2 }
  ps := { slices := [], echoes := [], frameRegs := [], slots := [], slotOrder := 0, lastWords := [],
          fullNext := true, frameTicks := [], shut := [] }
  saf := { frames := [], bshots := [], cfg := [], occA := [], occB := [], runA := [], runB := [], xcRun := [],
           bRun := [], bPos := [], inputs := [], pairs := [], outs := [], pulsePhase := none, setNo := 0, sealSince := none,
           commitAt := none, commitMode := false, maxAt := 0, rows := [], stage := [] }
  dec := []
  modOvl := []
  hk := { phase := .stopped, exc := none, next := 0, conv := .init, entries := [], recovery := 0, res := [], latch := none }
  slq := { queues := [], route := [], clay := [], sdram := [] }
  dma := []
  pool := { queues := [], tqWr := [], engines := [], moves := [], turns := [], sel := [], src := [], swapAt := 0, exports := [] }
  tilt := { pose := ⟨0, 0, 0, 0, 0⟩, poses := [], last := .zero, misses := 0, lost := false, commits := [], sweepAt := 0, vox := 10, rmax := 200 }
  ctl := { enAt := 0, cur := none, accAt := 0, acc := [0, 0, 0, 0], axes := [], scns := [] }
  thm := { stair := 0, hot := none, holdEnd := none, autoAt := 12500000, applied := none, recal := none }
  drc := { since := 0, kept := false, srt := false, timing := [], refAt := [], force := 0, reportAt := none, lost := false, alertAt := none,
           replays := [], urgent := [], crit := [], patrol := 0, patrolAt := 0, zqAt := 0, mprAt := none, test := none, scrub := [],
           cmAt := none }
  dram := .init
  lanes := []
  host := { cpls := [], held := [] }
  ring := { bseq := 0, enumSeq := 0, seen := [], pos := none, enumAt := 0, everUp := false, breaks := [], refSel := 0, pullIn := false, startAt := [], fsAt := 0,
            number := 0, t1 := none, reqAt := 0, n := 0, thetaSum := 0, delaySum := 0, good := 0, first := true,
            steps := 0, phase := 0, stepAt := 0, hold := 0 }
  sec := { flash := [], inForce := [], buf := [], programmed := 0, erased := [], otpRoot := Config.rootDigest, owners := [], rootKey := Config.rootKey,
           codeKey := [], recKey := [], wrapKey := [], opk := none, verified := none, running := ⟨0, 0, [], 0, 0, 0, 0, 0⟩,
           ksets := [], boardDigest := [], run := none, switch := none, codeBank := 0, challenge := none, dbgFails := 0, flashMode := .quad114,
           fuse := true, arg := [], transfer := [], csr := [], report := [], opcert := [], anchors := [],
           flashAt := 0, fellBack := false }
  com := .init
  sys := { target := none, reset := none, later := none, orderly := none, withdrawn := false, held := none, tripped := false,
           por := true, autoOk := true, kickAt := 0, reinit := none }

end Sys2Proof.Machine
end

