-- ==== Sys2Proof/Machine/Ops.lean ====
section
/-! DEFINITION. The named operations over registers, memory and open values that every family uses. -/

namespace Sys2Proof.Machine

/-! ### Registers -/

/-- The word of the register at an address. -/
def rd (s : State) (a : Nat) : Word := tget (regReset a) s.regs a

/-- Writes the word of the register at an address. -/
def wr (s : State) (a : Nat) (v : Word) : State := { s with regs := tput (regReset a) s.regs a v }

/-- The ones of a field. -/
def maskOf (f : Fld) : Word := BitVec.ofNat 32 ((2 ^ f.width - 1) * 2 ^ f.lo)

/-- The value of a field in a word. -/
def getFld (w : Word) (f : Fld) : Nat := w.toNat / 2 ^ f.lo % 2 ^ f.width

/-- A word with a field replaced; the value is taken modulo the field's width. -/
def putFld (w : Word) (f : Fld) (v : Nat) : Word :=
  (w &&& ~~~(maskOf f)) ||| (BitVec.ofNat 32 (v % 2 ^ f.width) <<< f.lo)

/-- The value of a field of a register. -/
def fget (s : State) (a : Nat) (f : Fld) : Nat := getFld (rd s a) f

/-- Writes a field of a register. -/
def fset (s : State) (a : Nat) (f : Fld) (v : Nat) : State := wr s a (putFld (rd s a) f v)

/-- A one-bit field as a truth value. -/
def flag (s : State) (a : Nat) (f : Fld) : Bool := fget s a f = 1

/-- W1C bits of the register at `a` that hardware has set in the present tile cycle (R11) (log 128). -/
def setNow (s : State) (a : Nat) : Word :=
  match lookup s.hwSet a with
  | some (c, m) => if c = s.tb.toNat / 2 then m else 0
  | none => 0

/-- Notes a hardware set of W1C bits (R11). DEDUCED (log 128). -/
def noteSet (s : State) (a : Nat) (m : Word) : State :=
  let c := s.tb.toNat / 2
  let keep := eraseKey (s.hwSet.filter (fun p => p.2.1 = c)) a
  { s with hwSet := insertKey keep a (c, setNow s a ||| m) }

/-- Sets a field to 1; a W1C bit so set is noted (R11). -/
def fon (s : State) (a : Nat) (f : Fld) : State :=
  fset (if f.acc = .w1c then noteSet s a (maskOf f) else s) a f 1

/-- Clears a field. -/
def foff (s : State) (a : Nat) (f : Fld) : State := fset s a f 0

/-- Writes a truth value into a one-bit field. -/
def fsetB (s : State) (a : Nat) (f : Fld) (b : Bool) : State := fset s a f (b2n b)

/-- Adds to a counter field, which saturates at its largest value. -/
def fadd (s : State) (a : Nat) (f : Fld) (n : Nat) : State :=
  fset s a f (satN f.width (fget s a f + n))

/-- Increments a saturating counter field. -/
def finc (s : State) (a : Nat) (f : Fld) : State := fadd s a f 1

/-- Increments a counter field that wraps. -/
def fwrap (s : State) (a : Nat) (f : Fld) : State := fset s a f (fget s a f + 1)

/-- Raises a field to a value that is larger than it holds. -/
def fmax (s : State) (a : Nat) (f : Fld) (v : Nat) : State :=
  fset s a f (max (fget s a f) (satN f.width v))

/-- `f s` where the condition holds. -/
def onlyIf (c : Bool) (f : State → State) (s : State) : State := if c then f s else s

/-! ### Time and open values -/

/-- The timebase as a number of 0.8 ns ticks. -/
def now (s : State) : Nat := s.tb.toNat

/-- Ticks that have passed since power-on reset: the timebase without its loads, steps and holds. -/
def upTime (s : State) : Nat := (now s - s.stepped).toNat

/-- The timebase steps forward by a load or by the ring (R68, R392). -/
def tbStep (s : State) (d : BitVec 64) : State := { s with tb := s.tb + d, stepped := s.stepped + d.toNat }

/-- Ticks of a number of microseconds. -/
abbrev ticksUs (n : Nat) : Nat := n * 1250
/-- Ticks of a number of milliseconds. -/
abbrev ticksMs (n : Nat) : Nat := n * 1250000

/-- An open value of 64 bits and the state that has drawn it (log 3). -/
def openVal (s : State) : BitVec 64 × State :=
  (Config.freeWord s.free, { s with free := s.free + 1 })

/-- An open truth value. -/
def openBool (s : State) : Bool × State := ((openVal s).1.getLsbD 0, (openVal s).2)

/-- A quotient whose rounding the spec leaves open: the exact value, or one of the two integers around it
(log 7) (log 58). -/
def openQuot (s : State) (a b : Nat) : Nat × State :=
  if a % b = 0 then (a / b, s)
  else ((a / b) + b2n (openBool s).1, (openBool s).2)

/-- The integer of a quotient of integers whose rounding the spec leaves open: exact, or one of the two around it
(log 7). -/
def openDivI (s : State) (a : Int) (b : Nat) : Int × State :=
  if a % b = 0 then (a / b, s) else (a / b + b2n (openBool s).1, (openBool s).2)

/-! ### Modes (R456) -/

/-- The operating modes with their codes. -/
inductive Mode where
  | bypass | boot | standby | calibrate | scan | safeHold
  deriving DecidableEq, Repr

def Mode.code : Mode → Nat
  | .bypass => 0 | .boot => 1 | .standby => 2 | .calibrate => 3 | .scan => 4 | .safeHold => 5

/-- The present mode; the reserved codes 6 and 7 never stand in SYS_MODE. -/
def modeOf (s : State) : Mode :=
  match fget s R.SYS_MODE F.SYS_MODE_MODE with
  | 0 => .bypass | 1 => .boot | 2 => .standby | 3 => .calibrate | 4 => .scan | _ => .safeHold

/-- R88: the scheduler fires in SCAN, and in CALIBRATE while CAL_RUN = 1. -/
def firing (s : State) : Bool :=
  modeOf s = .scan ∨ (modeOf s = .calibrate ∧ flag s R.SHT_CTRL F.SHT_CTRL_CAL_RUN)

/-- Both seals read open. -/
def sealsOpen (s : State) : Bool := s.pins.sealA && s.pins.sealB

/-- R388 to R390: the device is a ring follower. -/
def ringFollower (s : State) : Bool :=
  flag s R.RING_CFG F.RING_CFG_RING_EN && !flag s R.RING_STAT F.RING_STAT_MASTER

/-! ### Memory (R24) -/

/-- What a byte reads as that no write has listed: the boot ROM's content, and 0 elsewhere (log 4). -/
def memDefault (a : Nat) : Byte := if a < 0x20000 then Config.bootRom a else 0

/-- A byte of memory. -/
def mget (s : State) (a : Nat) : Byte := tget (memDefault a) s.mem a

/-- Writes a byte of memory. -/
def mset (s : State) (a : Nat) (v : Byte) : State := { s with mem := tput (memDefault a) s.mem a v }

/-- `n` bytes from an address. -/
def mbytes (s : State) (a : Nat) : Nat → List Byte
  | 0 => []
  | n + 1 => mget s a :: mbytes s (a + 1) n

/-- Writes bytes from an address upwards. -/
def mputBytes : State → Nat → List Byte → State
  | s, _, [] => s
  | s, a, b :: l => mputBytes (mset s a b) (a + 1) l

/-- A little-endian number of `n` bytes (R13). -/
def mrd (s : State) (a n : Nat) : Nat := ofLeBytes (mbytes s a n)

/-- Writes a little-endian number of `n` bytes (R13). -/
def mwr (s : State) (a n v : Nat) : State := mputBytes s a (leBytes n v)

/-- Restores the unlisted content of `n` bytes: an area zeroed. -/
def mzero (s : State) (a n : Nat) : State :=
  { s with mem := s.mem.filter (fun c => !(decide (a ≤ c.1) && decide (c.1 < a + n))) }

/-- Whether any 64-bit word of a range is poisoned (R324, R345). -/
def poisoned (s : State) (a n : Nat) : Bool :=
  s.poison.any (fun p => decide (p < a + n) && decide (a < p + 8))

/-- Memory is in canonical form: rising addresses and no entry equal to the unlisted content. -/
def Memory.wf (m : List Host.Cell) : Bool := risingKeys m && m.all (fun c => c.2 != memDefault c.1)

/-- The register table is in canonical form. -/
def regsWf (r : List (Nat × Word)) : Bool := risingKeys r && r.all (fun c => c.2 != regReset c.1)

/-- Sends an item. -/
def send (s : State) (i : TxItem) : State := { s with tx := s.tx ++ [i] }

/-! ### Lane ports and ring broadcasts (R383, R384, R394, R396) -/

/-- Port p: 0 H, 1 U, 2 D. -/
def lanePort (s : State) (p : Nat) : LanePort := tget LanePort.init s.lanes p

def modLane (s : State) (p : Nat) (f : LanePort → LanePort) : State :=
  { s with lanes := tmod LanePort.init s.lanes p f }

/-- Virtual channel v of port p. -/
def vcOf (s : State) (p v : Nat) : Vc := tget Vc.init (lanePort s p).vcs v

def modVc (s : State) (p v : Nat) (f : Vc → Vc) : State :=
  modLane s p (fun x => { x with vcs := tmod Vc.init x.vcs v f })

/-- A frame before its sequence number and its acknowledgement are known. -/
def rawFrame (vc type : Nat) (queue : Nat) (last : Bool) (body : List Byte) : LaneFrame :=
  ⟨Fin.ofNat 4 vc, Fin.ofNat 16 type, 0, BitVec.ofNat 8 queue, last, false, 0, 0, 0, 0, body⟩

/-- A frame joins those that wait on a virtual channel. -/
def laneOut (s : State) (p v type : Nat) (body : List Byte) : State :=
  modVc s p v (fun x => { x with out := x.out ++ [rawFrame v type 0 false body] })

/-- The port carries frames: ACTIVE or STANDBY. -/
def laneUp (s : State) (p : Nat) : Bool :=
  let st := fget s (R.LN_STAT p) F.LN_STAT_STATE
  decide (st = 6) || decide (st = 7)

/-- The device holds a position of a ring. -/
def ringRanked (s : State) : Bool := flag s R.RING_CFG F.RING_CFG_RING_EN && s.ring.pos.isSome

/-- The port through which a ring frame bound for port p leaves: turned back while p is lost (R394, WRAP). -/
def ringOut (s : State) (p : Nat) : Nat := if laneUp s p then p else 3 - p

/-- Fields of a broadcast (R384). -/
structure Bcast where
  kind : Nat
  origin : Nat
  bseq : Nat
  pos1 : Nat
  pos2 : Nat
  size : Nat
  ringId : Nat
  value : Nat
  deriving DecidableEq, Repr

/-- The two payload words of a broadcast. -/
def Bcast.bytes (b : Bcast) : List Byte :=
  leBytes 8 (b.kind + b.origin * 2 ^ 4 + b.bseq % 256 * 2 ^ 16 + b.pos1 * 2 ^ 24 + b.pos2 * 2 ^ 32 + b.size * 2 ^ 37
    + b.ringId * 2 ^ 48) ++ leBytes 8 (b.value % 2 ^ 64)

/-- A broadcast of the device's own, sent in the D direction (log 86). -/
def castRing (s : State) (kind pos1 pos2 size ringId value : Nat) : State :=
  let s' := laneOut s (ringOut s 2) 0 3 (Bcast.bytes ⟨kind, s.ring.pos.getD 0, s.ring.bseq, pos1, pos2, size, ringId, value⟩)
  { s' with ring := { s'.ring with bseq := (s.ring.bseq + 1) % 256 } }

/-- The ring carries the device's broadcasts: it is ranked, or the master of its ring (log 86). -/
def ringTalks (s : State) : Bool :=
  ringRanked s || (flag s R.RING_CFG F.RING_CFG_RING_EN && flag s R.RING_STAT F.RING_STAT_MASTER)

/-! ### Capture trigger (R105) -/

/-- A capture fire is broadcast on the ring (R105) (log 33). -/
def capFireCast (s : State) : State := if ringTalks s then castRing s 8 0 0 0 0 (now s) else s

/-- A local fire or an enabled trigger: an ARMED capture enters SETTLE, with the present tick, for the ring
round trip (0 for a device in no ring) plus 1.0 µs, and the fire is broadcast on the ring (log 33). -/
def capFire (s : State) : State :=
  if fget s R.CAP_STAT F.CAP_STAT_STATE = 1 then
    let s := fset s R.CAP_STAT F.CAP_STAT_STATE 2
    let s := { s with sht := { s.sht with
      capT := now s, capEnd := now s + ticksUs 1 +
        (if flag s R.RING_CFG F.RING_CFG_RING_EN then (rd s R.RING_RTT).toNat else 0) } }
    capFireCast s
  else s

/-- A trigger of the bits of CAP_CTRL.TRIG (R105): 0 GATE_IN, 1 SYNC_IO, 2 event CAP_EV (log 33). -/
def capTrigger (s : State) (bit : Nat) : State :=
  if bitOf (fget s R.CAP_CTRL F.CAP_CTRL_TRIG) bit then capFire s else s

/-! ### Events (R424 to R429) -/

/-- EMCY code and 0x1001 bit of the group of an event (R424) (log 118). -/
def evGroup (n : Nat) : Nat × Nat :=
  if n < 256 then (0xFF00, 7) else if n < 320 then (0xFF01, 7) else if n < 368 then (0xFF02, 4)
  else if n < 400 then (0xFF03, 7) else if n < 432 then (0xFF04, 7) else if n < 456 then (0xFF05, 7)
  else if n < 472 then (0xFF06, 3) else if n < 488 then (0xFF07, 2) else if n < 512 then (0xFF08, 7)
  else if n < 536 then (0xFF09, 7) else if n < 552 then (0xFF0A, 7) else if n < 568 then (0xFF0B, 7)
  else if n < 592 then (0xFF0C, 4) else (0xFF0D, 7)

/-- Event numbers that R425 names (the others are reserved). DEDUCED (log 118). -/
def evNamed (n : Nat) : Bool :=
  n < 368 || (n < 400) || (n < 432) || (n < 450) || (456 ≤ n && n < 468) || (472 ≤ n && n < 482) ||
  (488 ≤ n && n < 512) || (512 ≤ n && n < 536) || (536 ≤ n && n < 544) || (552 ≤ n && n < 562) ||
  (568 ≤ n && n < 590) || (592 ≤ n && n < 610)

/-- The flag bit of event n. -/
def evFlag (s : State) (n : Nat) : Bool := bitOf (rd s (R.EV_FLAG (n / 32))).toNat (n % 32)

/-- Notes a setting of event n in the present tile cycle, and whether its flag stood at 1 before (R426). DEDUCED (log 128). -/
def noteEvent (s : State) (n : Nat) (old : Bool) : State :=
  let c := s.tb.toNat / 2
  let keep := s.evNow.filter (fun p => p.2.1 = c)
  if (lookup keep n).isSome then { s with evNow := keep } else { s with evNow := insertKey keep n (c, old) }

/-- Event n has been set in the present tile cycle: whether its flag stood at 1 before (R426) (log 128). -/
def setInCycle (s : State) (n : Nat) : Option Bool :=
  match lookup s.evNow n with
  | some (c, old) => if c = s.tb.toNat / 2 then some old else none
  | none => none

/-- Writes the flag bit of event n. -/
def setEvFlag (s : State) (n : Nat) (b : Bool) : State :=
  let s := if b then noteSet s (R.EV_FLAG (n / 32)) (1#32 <<< (n % 32)) else s
  wr s (R.EV_FLAG (n / 32)) (BitVec.ofNat 32 (setBitN (rd s (R.EV_FLAG (n / 32))).toNat (n % 32) b))

/-- Event numbers whose flag is 1, rising. -/
def evSet (s : State) : List Nat :=
  (List.range 20).flatMap (fun w => (bitList 32 (rd s (R.EV_FLAG w)).toNat).map (fun j => 32 * w + j))

/-- The events that hold IRQ_N[k] (R427). -/
def irqHolders (s : State) (k : Nat) : List Nat :=
  (evSet s).filter (fun n => flag s (R.EV_ROUTE n) (if k = 0 then F.EV_ROUTE_IRQ0 else F.EV_ROUTE_IRQ1))

/-- IRQ_N[k] is asserted low (R427); released in reset and in BYPASS (R491). -/
def irqLow (s : State) (k : Nat) : Bool :=
  decide (modeOf s ≠ .bypass) && s.sys.held.isNone && !(irqHolders s k).isEmpty && (lookup s.evt.irqRel k).isNone

/-- Object 0x1001 (R428). -/
def errReg (s : State) : Nat :=
  let es := (evSet s).filter (fun n => flag s (R.EV_ROUTE n) F.EV_ROUTE_EMCY)
  (List.range 8).foldl (fun v i =>
    if (i = 0 ∧ !es.isEmpty) ∨ (i ≠ 0 ∧ es.any (fun n => (evGroup n).2 = i)) then v + 2 ^ i else v) 0

/-- Adds a raise at tick `t` to a notice list (R429): the list and whether there was room. A notice whose gathering has ended takes no
further raise (log 115). -/
def noteAdd (ns : List Notice) (t n tick count due : Nat) : List Notice × Bool :=
  match ns.getLast? with
  | none => ([⟨[(n, tick, count)], due⟩], true)
  | some l =>
    if l.due ≤ t then (if ns.length < 4 then (ns ++ [⟨[(n, tick, count)], due⟩], true) else (ns, false))
    else if l.entries.any (fun e => e.1 = n) then
      (ns.dropLast ++ [{ l with entries := l.entries.map (fun e => if e.1 = n then (n, tick, count) else e) }], true)
    else if l.entries.length < 64 then (ns.dropLast ++ [{ l with entries := l.entries ++ [(n, tick, count)] }], true)
    else if ns.length < 4 then (ns ++ [⟨[(n, tick, count)], due⟩], true)
    else (ns, false)

/-- End of the gathering of a notice opened now: COAL µs, 0 acting as 1. -/
def noteDue (s : State) : Nat := now s + ticksUs (max 1 (fget s R.EVT_CTRL F.EVT_CTRL_COAL))

/-- IRQ_N[k] asserted before a raise that is routed to it is released for 200 ns (R427). -/
def irqRelease (s0 s : State) (n k : Nat) (f : Fld) : State :=
  if flag s (R.EV_ROUTE n) f ∧ irqLow s0 k then
    { s with evt := { s.evt with irqRel := insertKey (eraseKey s.evt.irqRel k) k (now s + 250) } }
  else s

/-- The flag of event n becomes 1 (R426), IRQ_N is released where it was asserted (R427), and LAST names the event. -/
def evFlagSet (s : State) (n : Nat) : State :=
  let t := irqRelease s (irqRelease s s n 0 F.EV_ROUTE_IRQ0) n 1 F.EV_ROUTE_IRQ1
  fset (setEvFlag t n true) R.EVT_STAT F.EVT_STAT_LAST n

/-- The EMCY of a raise (R428); `again` raises EMCY_OVF when the queue is full. -/
def evEmcy (again : State → Nat → State) (s : State) (n count : Nat) : State :=
  if flag s (R.EV_ROUTE n) F.EV_ROUTE_EMCY ∧ n ≠ 588 then
    let s := { s with evt := { s.evt with hist := ((n * 0x10000 + (evGroup n).1) :: s.evt.hist).take 16 } }
    if s.evt.emcy.length < 16 then
      { s with evt := { s.evt with emcy := s.evt.emcy ++ [⟨(evGroup n).1, errReg s, n, count⟩] } }
    else again (fon s R.EVT_STAT F.EVT_STAT_EMCY_OVF) 588
  else s

/-- A raise that finds no room for its notice sets NOTIFY_OVF, and `again` raises EVQ_OVF once (R429). -/
def evNoRoom (again : State → Nat → State) (room : Bool) (s : State) : State :=
  if room || flag s R.EVT_STAT F.EVT_STAT_NOTIFY_OVF then s else again (fon s R.EVT_STAT F.EVT_STAT_NOTIFY_OVF) 597

/-- The notice of a raise to the host (R429). -/
def evHost (again : State → Nat → State) (s : State) (n count : Nat) : State :=
  if flag s (R.EV_ROUTE n) F.EV_ROUTE_HOST then
    let r := noteAdd s.evt.hostNotes (now s) n (now s % 2 ^ 32) count (noteDue s)
    evNoRoom again r.2 { s with evt := { s.evt with hostNotes := r.1 } }
  else s

/-- The notice of a raise over UDP (R429). -/
def evEth (again : State → Nat → State) (s : State) (n count : Nat) : State :=
  if flag s (R.EV_ROUTE n) F.EV_ROUTE_ETH then
    let r := noteAdd s.evt.ethNotes (now s) n (now s % 2 ^ 32) count (noteDue s)
    evNoRoom again r.2 { s with evt := { s.evt with ethNotes := r.1 } }
  else s

/-- A raise: the flag was 0 (R426 to R429). -/
def evRaise (again : State → Nat → State) (s : State) (n : Nat) : State :=
  let count := fget s (R.EV_ROUTE n) F.EV_ROUTE_COUNT
  evEth again (evHost again (evEmcy again (evFlagSet s n) n count) n count) n count

/-- A setting counts, and may trigger a capture (R105, R426). -/
def evCount (s : State) (n : Nat) : State :=
  let s := finc s (R.EV_ROUTE n) F.EV_ROUTE_COUNT
  if fget s R.CAP_STAT F.CAP_STAT_CAP_EV = n then capTrigger s 2 else s

/-- A hardware setting of the source of event n (R426 to R429). The fuel bounds the two events that a full
queue raises in turn, EVQ_OVF (597) and EMCY_OVF (588). -/
def raiseFuel : Nat → State → Nat → State
  | 0, s, _ => s
  | fuel + 1, s, n =>
    if s.variantAN ∧ 536 ≤ n ∧ n < 552 then s
    else
      let s := noteEvent (evCount s n) n (evFlag s n)
      if evFlag s n then s else evRaise (raiseFuel fuel) s n

/-- A hardware setting of the source of event n. -/
def raise (s : State) (n : Nat) : State := raiseFuel 3 s n

/-- A software clear of event n's flag in the tile cycle of a setting that found the flag at 1: the flag stays at 1 and the event is
raised again (R426) (log 128). -/
def raiseAgain (s : State) (n : Nat) : State :=
  if setInCycle s n = some true then
    evRaise (raiseFuel 2) { s with evNow := insertKey (eraseKey s.evNow n) n (s.tb.toNat / 2, false) } n
  else s

/-- Sets a unit's flag and raises its event. -/
def flagRaise (s : State) (a : Nat) (f : Fld) (n : Nat) : State := raise (fon s a f) n

/-! ### Event numbers of R425 outside the per-unit groups -/

namespace Ev
abbrev dllUnlock := 462
abbrev tbReplica := 463
abbrev calStarved := 464
abbrev tbDenied := 465
abbrev auxLost := 466
abbrev auxTimeout := 467
abbrev biasWindow := 481
abbrev rwsDiscard := 552
abbrev rwmDiscard := 553
abbrev decodeErr := 592
abbrev viewMismatch := 593
abbrev modeChange := 594
abbrev warmReset := 595
abbrev funcReinit := 596
abbrev evqOvf := 597
abbrev schedWprot := 598
abbrev frameMarkLost := 599
abbrev bankHalt := 600
abbrev gapLost := 601
abbrev capDone := 602
abbrev sliceTimeout := 603
abbrev angleDegraded := 604
abbrev sumLoss := 605
abbrev tilthEvictSolid := 606
abbrev tilthEcc := 607
abbrev egoLost := 608
abbrev biasLoopLimit := 609
end Ev

end Sys2Proof.Machine
end

