-- ==== Sys2Proof/Machine/Units.lean ====
section
/-! DEFINITION. The unit state words (R418 to R420): the STATE of every unit as R419 gives it, and the one
operation that brings the words up to date at the end of every command. -/

namespace Sys2Proof.Machine

/-- The classes of R418. -/
inductive UnitClass where
  | off | starting | running | degraded | reinit | fault
  deriving DecidableEq, Repr

def UnitClass.code : UnitClass → Nat
  | .off => 0 | .starting => 1 | .running => 2 | .degraded => 3 | .reinit => 4 | .fault => 5

/-- Interpolators of a calibration unit: 32 of a tile, 16 of unit 64. -/
def unitInterps (u : Nat) : Nat := if u = 64 then 16 else 32

/-- CUR_MODE is low-power. -/
def lowPower (s : State) : Bool := flag s R.TDC_CLK F.TDC_CLK_CUR_MODE

/-- A table is usable (R75). -/
def tabUsable (s : State) (c : CalTab) : Bool := c.valid && (c.lowPower == lowPower s) && !c.stale

/-- The active table of interpolator i of unit u. -/
def calTab (s : State) (u i : Nat) : CalTab := tget CalTab.none s.tdc.tabs (32 * u + i)

/-- Whether interpolator i of unit u times through a usable table (R70). -/
def usesTable (s : State) (u i : Nat) : Bool :=
  tget true s.tdc.calOn (32 * u + i) && tabUsable s (calTab s u i)

/-- Every interpolator of the unit times through a usable table: the unit's bit of TDC_CD_MAP. -/
def cdMapBit (s : State) (u : Nat) : Bool := (List.range (unitInterps u)).all (usesTable s u)

/-- Code-density calibration is selected and an interpolator of the unit has no usable table. -/
def lacksTable (s : State) (u : Nat) : Bool :=
  flag s R.TDC_CTRL F.TDC_CTRL_CAL_MODE &&
    (List.range (unitInterps u)).any (fun i => !tabUsable s (calTab s u i))

/-- Front-end state codes of FE_STAT. -/
abbrev feOff := 0
abbrev feActive := 1
abbrev feOverload := 2
abbrev feGated := 3

/-- STATE of channel k of tile t. -/
def feStateOf (s : State) (t k : Nat) : Nat := fget s (R.FE_STAT t k) F.FE_STAT_STATE

/-- A bank of the scheduler is halted. -/
def anyHalted (s : State) : Bool := fget s R.SHT_BANK F.SHT_BANK_HALTED ≠ 0

/-- A fault of R274 is latched: bits 10 to 2 of SAF_FAULT (CFG_LOAD is none of them). -/
def safFaulted (s : State) : Bool := bitsOf (rd s R.SAF_FAULT).toNat 10 2 ≠ 0

/-- The class and the detail of unit u (R419). -/
def unitClassDetail (s : State) (u : Nat) : UnitClass × Nat :=
  if u < 64 then
    let locked := !s.tdc.unlocked.contains u
    (if !locked then .fault
     else if (List.range 16).any (fun k => feStateOf s u k = feOverload ∨ feStateOf s u k = feGated)
         ∨ lacksTable s u then .degraded
     else .running,
     2 * b2n (cdMapBit s u) + b2n locked)
  else if u < 0x50 then
    let c := u - 0x40
    let n := ((List.range 16).filter (fun j =>
      bitOf (rd s (R.ENP_RETIRED (c / 2))).toNat (16 * (c % 2) + j))).length
    (if n = 16 then .fault else if n ≠ 0 then .degraded else .running,
     fget s (R.CL_STAT c) F.CL_STAT_IN_SVC)
  else if u < 0x53 then
    let st := fget s (R.LN_STAT (u - 0x50)) F.LN_STAT_STATE
    (if st = 0 ∨ st = 9 then .off else if st ≤ 5 then .starting else .running, st)
  else if u = 0x53 then
    let st := fget s R.RING_STAT F.RING_STAT_RSTATE
    (match st with | 0 => .off | 1 => .starting | 2 => .running | 3 => .degraded | _ => .fault, st)
  else if 0x60 ≤ u ∧ u < 0x70 then
    let n := u - 0x60
    let st := fget s (R.DMA_HEAD n) F.DMA_HEAD_STATE
    (if !flag s (R.DMA_CFG n) F.DMA_CFG_EN then .off else if st = 5 then .fault else .running, st)
  else if 0x70 ≤ u ∧ u < 0x80 then
    let g := u - 0x70
    let n := ((List.range 16).filter (fun j => flag s (R.SLQ_CFG (16 * g + j)) F.SLQ_CFG_EN)).length
    (if n = 0 then .off else .running, n)
  else if u = 0x80 ∨ u = 0x81 then
    let c := u - 0x80
    let bus := fget s (R.CAN_STAT c) F.CAN_STAT_BUS
    (if !flag s (R.CAN_CFG c) F.CAN_CFG_EN then .off else if bus = 2 then .fault
     else if bus = 1 then .degraded else .running,
     4 * fget s (R.CAN_STAT c) F.CAN_STAT_NMT + bus)
  else if u = 0x82 ∨ u = 0x83 then
    let k := u - 0x82
    let l := flag s (R.ETH_STAT k) F.ETH_STAT_LINK
    (if !flag s (R.ETH_CFG k) F.ETH_CFG_EN then .off else if !l then .starting else .running, b2n l)
  else if 0x90 ≤ u ∧ u < 0x94 then
    let a := u - 0x90
    let ty := fget s (R.AX_CFG a) F.AX_CFG_TYPE
    (if ty = 0 ∨ ty = 3 then .off else .running, 4 * fget s (R.AX_SWAP a) F.AX_SWAP_BANK + ty)
  else if u = 0x94 ∨ u = 0x95 then
    let st := fget s (R.SCN_STAT (u - 0x94)) F.SCN_STAT_STATE
    (match st with | 0 => .off | 1 => .starting | 2 => .starting | 3 => .running | 4 => .degraded | _ => .fault, st)
  else if u = 0xA0 then (if anyHalted s then .degraded else .running, b2n (firing s))
  else if u = 0xA1 then
    (.running, 2 * fget s R.TT_CTRL F.TT_CTRL_EN + fget s R.PS_CTRL F.PS_CTRL_EXT)
  else if u = 0xA2 then
    let ok := flag s R.EMG_STAT F.EMG_STAT_CAP_OK
    (if !ok then .off
     else if (List.range 16).any (fun b => flag s (R.BANK_STAT b) F.BANK_STAT_INH)
         ∨ flag s (R.SEC_STAT 0) F.SEC_STAT_STALL_INH ∨ flag s (R.SEC_STAT 1) F.SEC_STAT_STALL_INH then .degraded
     else .running, b2n ok)
  else if u = 0xA3 then
    let act := flag s R.SAF_STAT F.SAF_STAT_ACTIVE
    (if s.variantAN ∨ !act then .off else if safFaulted s then .fault else .running, b2n act)
  else if u = 0xA4 then
    let st := fget s R.DRC_STAT F.DRC_STAT_STATE
    (if st = 0 then .off else if st ≤ 5 ∨ st = 8 then .starting else if st = 6 then .running
     else if st = 7 then .degraded else .fault, st)
  else if u = 0xA5 then
    let r := flag s R.TDC_CLK F.TDC_CLK_RELOCK
    (if r then .degraded else .running, 2 * b2n r + b2n (lowPower s))
  else if u = 0xA6 then
    let r := flag s R.HK_CTRL F.HK_CTRL_RUN
    (if r then .running else .off, b2n r)
  else if u = 0xA7 then
    let b := fget s R.THM_STAT F.THM_STAT_BAND
    (if flag s R.THM_STAT F.THM_STAT_CRIT then .fault
     else if b = 0 ∨ b = 3 ∨ b = 4 then .degraded else if b = 5 then .fault else .running, b)
  else
    let m := modeOf s
    (match m with
     | .bypass => if flag s R.THM_STAT F.THM_STAT_CRIT then .fault else .off
     | .boot => if fget s R.SECU_STAT F.SECU_STAT_STAGE = 2 then .fault else .starting
     | .safeHold => .degraded
     | _ => .running, m.code)

/-- The unit numbers of R419, rising. -/
def unitList : List Nat :=
  List.range 0x54 ++ (List.range 0x20).map (0x60 + ·) ++ (List.range 4).map (0x80 + ·)
    ++ (List.range 6).map (0x90 + ·) ++ (List.range 9).map (0xA0 + ·)

/-- A number that R419 gives to a unit. -/
def isUnit (u : Nat) : Bool := unitList.contains u

/-- STATE of unit u: class REINIT with detail 0 while it is re-initialised (R418, R467). -/
def unitStateNow (s : State) (u : Nat) : Nat :=
  if s.reinit.contains u then 0x4000
  else (unitClassDetail s u).1.code * 0x1000 + (unitClassDetail s u).2 % 0x1000

/-- The state word of unit u. -/
def unitWord (s : State) (u : Nat) : Word := tget 0#32 s.units u

/-- The word with a new STATE: GEN increments with it and wraps (R420). -/
def nextUnitWord (w : Word) (st : Nat) : Word :=
  if w.toNat % 0x10000 = st then w
  else BitVec.ofNat 32 (((w.toNat / 0x10000 + 1) % 0x10000) * 0x10000 + st)

/-- The unit table with every word up to date. -/
def settledUnits (s : State) : List (Nat × Word) :=
  unitList.foldl (fun t u => tput 0#32 t u (nextUnitWord (tget 0#32 t u) (unitStateNow s u))) s.units

/-- Ends a command: a unit changes STATE and increments GEN in the same cycle (R420). -/
def done (s : State) : State := { s with units := settledUnits s }

/-- Marks unit u as under re-initialisation. -/
def reinitOn (s : State) (u : Nat) : State :=
  { s with reinit := if s.reinit.contains u then s.reinit else s.reinit ++ [u] }

/-- Ends the re-initialisation of unit u. -/
def reinitOff (s : State) (u : Nat) : State := { s with reinit := s.reinit.filter (· ≠ u) }

end Sys2Proof.Machine
end

