-- ==== Sys2Proof/Machine/Fabric.lean ====
section
/-! DEFINITION. The address map and the memories behind it (R24 to R27, R91, R324 to R326, R345, R448):
regions, poisoned words, protected ranges, and the reads and writes that every master makes. -/

namespace Sys2Proof.Machine

/-- The regions of R24. -/
inductive Region where
  | bootRom | sram | clay | tile | engine | regs | sdram | hole
  deriving DecidableEq, Repr

/-- Installed SDRAM in bytes. -/
def sdramBytes (s : State) : Nat := fget s R.DRC_GEOM F.DRC_GEOM_CAP * 2 ^ 30

/-- The region of an address; `hole` outside every region, in a reserved part of one, and above the installed
SDRAM (R25). DEDUCED (log 120). -/
def regionOf (s : State) (a : Nat) : Region :=
  if a < 0x20000 then .bootRom
  else if 0x10000000 ≤ a ∧ a < 0x10200000 then .sram
  else if 0x0100000000 ≤ a ∧ a < 0x0100E00000 then .clay
  else if 0x0200000000 ≤ a ∧ a < 0x0201000000 then (if a % 0x40000 < 0x20000 then .tile else .hole)
  else if 0x0300000000 ≤ a ∧ a < 0x0301000000 then .engine
  else if 0x0800000000 ≤ a ∧ a < 0x0801000000 then .regs
  else if 0x1000000000 ≤ a ∧ a < 0x1400000000 then (if a - 0x1000000000 < sdramBytes s then .sdram else .hole)
  else .hole

/-- EV DECODE_ERR with the failing address captured in SYS (R25). -/
def decodeErr (s : State) (a : Nat) (write : Bool) : State :=
  let s := finc s R.SYS_CNT F.SYS_CNT_DECERR_CNT
  let s := wr s R.SYS_DECERR_LO (BitVec.ofNat 32 a)
  let s := fset (fsetB s R.SYS_DECERR_HI F.SYS_DECERR_HI_WRITE write) R.SYS_DECERR_HI F.SYS_DECERR_HI_ADDR (a / 2 ^ 32)
  raise s Ev.decodeErr

/-- What a master reaches at address x of a region (R29): an engine its own window only. -/
def reaches (m : Master) (r : Region) (x : Nat) (write : Bool) : Bool :=
  match m, r with
  | _, .hole => false
  | .core, .bootRom => !write
  | .core, _ => true
  | .dma, .bootRom => !write
  | .dma, .regs => false
  | .dma, _ => true
  | .host, .bootRom => !write
  | .host, .tile => !write
  | .host, .engine => !write
  | .host, _ => true
  | .engine _, .clay => true
  | .engine _, .tile => !write
  | .engine e, .engine => decide ((x - 0x0300000000) / 0x10000 = e.val)
  | .engine _, _ => false
  | .scheduler, .clay => !write
  | .scheduler, _ => false

/-- The first address of a range that a master does not reach (R25, R29). -/
def firstOutside (s : State) (m : Master) (a n : Nat) (write : Bool) : Option Nat :=
  ((List.range n).map (a + ·)).find? (fun x => decide (2 ^ 40 ≤ x) || !reaches m (regionOf s x) x write)

/-! ### Errors of the memories (R324, R326, R345) -/

/-- The on-chip memory region number of an address: 0 tile, 1 engine, 2 clay, 3 control-core. -/
def memRegion (s : State) (a : Nat) : Option Nat :=
  match regionOf s a with
  | .tile => some 0 | .engine => some 1 | .clay => some 2 | .sram => some 3 | _ => none

/-- Offset of an address within its memory. -/
def memOffset (a : Nat) : Nat :=
  if a < 0x0100000000 then a - 0x10000000 else if a < 0x0800000000 then a % 2 ^ 24 else a - 0x1000000000

/-- An uncorrectable beat of the SDRAM is recorded (R345). -/
def drcUe (s : State) (a : Nat) : State :=
  let s := wr (wr s R.DRC_ERR_LO (BitVec.ofNat 32 a)) R.DRC_ERR_HI (BitVec.ofNat 32 (a / 2 ^ 32))
  flagRaise (finc s R.DRC_CNT_A F.DRC_CNT_A_UE_CNT) R.DRC_STAT F.DRC_STAT_UE 445

/-- The SDRAM controller serves its ports: READY, or TRAIN, whose held requests are served (R337, log 11). -/
def drcServes (s : State) : Bool :=
  let st := fget s R.DRC_STAT F.DRC_STAT_STATE
  decide (st = 6) || decide (st = 8)

/-- A poisoned read records its word (R326, R345). -/
def ueRecord (s : State) (a : Nat) : State :=
  match memRegion s a with
  | some r =>
    let s := finc (fon s (R.MEM_RSTAT r) F.MEM_RSTAT_UE) (R.MEM_RCNT r) F.MEM_RCNT_UE_CNT
    raise (fset s (R.MEM_RADDR r) F.MEM_RADDR_UE_ADDR (memOffset a)) (433 + 3 * r)
  | none => drcUe s a

/-- The first poisoned word of a range. -/
def firstPoison (s : State) (a n : Nat) : Option Nat :=
  s.poison.find? (fun p => decide (p < a + n) && decide (a < p + 8))

/-- Poisons the 64-bit word of an address. -/
def poisonWord (s : State) (a : Nat) : State :=
  let w := a / 8 * 8
  { s with poison := if s.poison.contains w then s.poison
      else s.poison.filter (· < w) ++ w :: s.poison.filter (w < ·) }

/-- Clears the poison of the words that a range covers wholly. -/
def unpoison (s : State) (a n : Nat) : State :=
  { s with poison := s.poison.filter (fun p => !(decide (a ≤ p) && decide (p + 8 ≤ a + n))) }

/-! ### Protected ranges of clay memory (R91, R448) -/

def schedBase (s : State) : Nat := 0x0100000000 + fget s R.SHT_TAB_BASE F.SHT_TAB_BASE_OFS * 0x80

/-- Rows that no write may change at present (R91). -/
def rowProtected (s : State) (r : Nat) : Bool :=
  let inside := fun (x : Nat × Nat) => decide (x.1 ≤ r) && decide (r ≤ x.2)
  ((modeOf s = .scan ∨ modeOf s = .calibrate) &&
    (inside (fget s R.SHT_ACT F.SHT_ACT_FIRST, fget s R.SHT_ACT F.SHT_ACT_LAST) ||
      (match s.sht.pendRange with | some x => inside x | none => false))) ||
  (match s.sht.frozen with | some x => inside x | none => false)

/-- An address of the kernel-image allocation, which only SEC writes (R448). -/
def inKimage (a : Nat) : Bool := decide (0x0100D00000 ≤ a) && decide (a < 0x0100D80000)

/-- A byte of clay memory that discards writes at present. -/
def clayProtected (s : State) (a : Nat) : Bool :=
  inKimage a || (decide (schedBase s ≤ a) && decide (a < schedBase s + 0x200000) && rowProtected s ((a - schedBase s) / 0x80))

/-- A protected write is discarded: WPROT is set and EV SCHED_WPROT raised (log 42). -/
def wprot (s : State) : State := flagRaise s R.SHT_STAT F.SHT_STAT_WPROT Ev.schedWprot

/-! ### Requests to the SDRAM (R335, R340, R341, R344, R346) -/

/-- Two ranks: RANKS = 1, but for 16 Gb. -/
def drcRanks (w : Word) : Nat := if getFld w F.DRC_GEOM_DENS ≠ 2 ∧ getFld w F.DRC_GEOM_RANKS = 1 then 2 else 1

/-- Installed GiB of a geometry (R334) (log 70). -/
def drcCap (w : Word) : Nat :=
  if getFld w F.DRC_GEOM_PRESENT = 0 then 0
  else match getFld w F.DRC_GEOM_DENS with
    | 0 => 4 * drcRanks w
    | 2 => 16
    | _ => 8 * drcRanks w

/-- A word in force (log 70). -/
def drcWord (s : State) (a : Nat) : Word := tget (regReset a) s.drc.timing a

/-- The rank of an address (R335). -/
def drcRank (s : State) (a : Nat) : Nat :=
  let w := drcWord s R.DRC_GEOM
  if drcRanks w = 2 then (a - 0x1000000000) / (drcCap w * 2 ^ 29) else 0

/-- Rank r leaves power-down (R344). -/
def pdExit (s : State) (r : Nat) : State := { s with dram := { s.dram with pd := s.dram.pd.filter (· ≠ r) } }

/-- A command of tick `t` for an address stands in the retry buffer of the last 64 (R346). -/
def cmdPut (t : Nat) (d : DramUse) (a : Nat) (write : Bool) : DramUse :=
  { d with cmds := ((t, ⟨d.cmdNo, BitVec.ofNat 40 a, write⟩) :: d.cmds).take 64, cmdNo := d.cmdNo + 1 }

/-- The controller issues a command for an address. -/
def drcIssue (s : State) (a : Nat) (write : Bool) : State := { s with dram := cmdPut (now s) s.dram a write }

/-- The oldest `n` lines of the write queue retire. -/
def wqRetire (t n : Nat) (d : DramUse) : DramUse :=
  (d.wq.take n).foldl (fun d l => cmdPut t d (64 * l) true) { d with wq := d.wq.drop n }

/-- The write queue takes line l (R341): it merges with an entry of its own; a full queue retires a line first; and 32 lines begin a
write run, unless the previous run was one or no command is issued (R340, R346) (log 72). -/
def wqPut (t : Nat) (stopped : Bool) (d : DramUse) (l : Nat) : DramUse :=
  if d.wq.contains l then d
  else
    let d := if 64 ≤ d.wq.length then wqRetire t 1 d else d
    let d := { d with wq := d.wq ++ [l] }
    if 32 ≤ d.wq.length ∧ d.wrote = false ∧ stopped = false then { wqRetire t 32 d with wrote := true } else d

/-- The controller's queues after a request for `n` bytes of the SDRAM (R341, R344): its ranks leave power-down; the lines of a write pass
through the write queue; a read takes the lines that are not queued by commands. -/
def dramUse (s : State) (a n : Nat) (write : Bool) : DramUse :=
  let touch := fun (d : DramUse) (r : Nat) => { d with pd := d.pd.filter (· ≠ r), reqAt := tput 0 d.reqAt r (now s) }
  let d := touch (touch s.dram (drcRank s a)) (drcRank s (a + n - 1))
  let ls := (List.range ((a + n - 1) / 64 - a / 64 + 1)).map (a / 64 + ·)
  if write then ls.foldl (wqPut (now s) s.drc.alertAt.isSome) d
  else ls.foldl (fun d l => if d.wq.contains l then d else cmdPut (now s) d (64 * l) false) { d with wrote := false }

/-- A request for `n` bytes passes the controller, if it serves and they lie in the SDRAM (R335, R337). -/
def drcUse (s : State) (a n : Nat) (write : Bool) : State :=
  if n = 0 ∨ regionOf s a ≠ .sdram ∨ drcServes s = false then s else { s with dram := dramUse s a n write }

/-! ### Reads and writes -/

/-- Stores one byte unless it is protected or belongs to a poisoned word that the write does not cover. -/
def storeByte (keep : Nat → Bool) (s : State) (a : Nat) (b : Byte) : State := if keep a then mset s a b else s

/-- Stores bytes where `keep` holds. -/
def storeBytes (keep : Nat → Bool) : State → Nat → List Byte → State
  | s, _, [] => s
  | s, a, b :: l => storeBytes keep (storeByte keep s a b) (a + 1) l

/-- A write of bytes to a memory (not to a register): the state, and whether it completes without an error. The
rule of R324 for words that the write covers in part applies to on-chip memory; `sec` marks the writes of
SEC. A protected word takes nothing, its poison included (R91). An SDRAM controller that does not serve completes the write
and discards it (R337). -/
def memWrite (s : State) (a : Nat) (bs : List Byte) (sec : Bool) : State × Bool :=
  if regionOf s a = .sdram ∧ drcServes s = false then (finc s R.DRC_CNT_A F.DRC_CNT_A_UE_CNT, true)
  else
  let n := bs.length
  let prot := fun (x : Nat) => decide (regionOf s x = .clay) && clayProtected s x && !(sec && inKimage x)
  let whole := fun (p : Nat) => decide (a ≤ p) && decide (p + 8 ≤ a + n)
  let bad := s.poison.find? (fun p => decide (p < a + n) && decide (a < p + 8) && !whole p && !prot p)
  let s := { s with poison := s.poison.filter (fun p => !(whole p && !prot p)) }
  let part := fun (x : Nat) => s.poison.contains (x / 8 * 8)
  let hit := (List.range n).any (fun i => prot (a + i))
  let s' := storeBytes (fun x => !prot x && !part x) (drcUse s a n true) a bs
  let s' := if hit then wprot s' else s'
  match bad with
  | some p => (ueRecord s' p, false)
  | none => (s', true)

/-- On-chip words that a read finds with a single-bit error and corrects (R324): CE, CE_CNT and the event of region `r`. -/
def ceMeet (s : State) (r k : Nat) : State :=
  if k = 0 then s
  else flagRaise (fadd s (R.MEM_RCNT r) F.MEM_RCNT_CE_CNT k) (R.MEM_RSTAT r) F.MEM_RSTAT_CE (432 + 3 * r)

/-- A read of an on-chip memory corrects single-bit errors; how many of its words have one is open. DESIGN CHOICE (log 141). -/
def ceRead (s : State) (a n : Nat) : State :=
  match memRegion s a with
  | none => s
  | some r =>
    let v := openVal s
    ceMeet v.2 r (v.1.toNat % ((a + n - 1) / 8 - a / 8 + 2))

/-- A read of bytes of a memory: the state, the bytes, and whether it is clean. -/
def memRead (s0 : State) (a n : Nat) : State × List Byte × Bool :=
  let s := drcUse (ceRead s0 a n) a n false
  if regionOf s a = .sdram ∧ drcServes s = false then (s, List.replicate n 0, false)
  else match firstPoison s a n with
  | some p => (ueRecord s p, mbytes s a n, false)
  | none => (s, mbytes s a n, true)

/-- A block of the device stores its bytes in the region: any memory but the boot ROM (R25, R29). -/
def blockReaches (r : Region) : Bool := decide (r ≠ .hole) && decide (r ≠ .regs) && decide (r ≠ .bootRom)

/-- The first address of a range that lies outside the memories that a block writes (R25). -/
def firstHole (s : State) (a n : Nat) : Option Nat :=
  ((List.range n).map (a + ·)).find? (fun x => !blockReaches (regionOf s x))

/-- The first address of a range that lies outside clay memory (R25, R29). -/
def clayOut (a n : Nat) : Option Nat :=
  if a < 0x0100000000 ∨ 0x0100E00000 ≤ a then some a else if 0x0100E00000 < a + n then some 0x0100E00000 else none

/-- A read of a block of the device at an address that software gives: a decode error where no memory is (R25), an uncorrectable error at a
poisoned word (R326); the stored bytes, zeros outside the memories and from an SDRAM that is not served (R337). -/
def blockRead (s : State) (a n : Nat) : State × List Byte :=
  match ((List.range n).map (a + ·)).find? (fun x => decide (regionOf s x = .hole) || decide (regionOf s x = .regs)) with
  | some x =>
    (decodeErr s (x % 2 ^ 40) false, (List.range n).map (fun i =>
      if regionOf s (a + i) = .hole ∨ regionOf s (a + i) = .regs then 0#8 else mget s (a + i)))
  | none => let r := memRead s a n; (r.1, r.2.1)

/-- Stores that the device's own blocks make for their tables (no protection applies to a block's own allocation): a
decode error outside the memories (R25), discarded by an SDRAM controller that does not serve (R337). -/
def blockWrite (s : State) (a : Nat) (bs : List Byte) : State :=
  match firstHole s a bs.length with
  | some x => decodeErr s (x % 2 ^ 40) true
  | none =>
    if regionOf s a = .sdram ∧ drcServes s = false then finc s R.DRC_CNT_A F.DRC_CNT_A_UE_CNT
    else mputBytes (unpoison (drcUse s a bs.length true) a bs.length) a bs

/-- A store into a table of the device's own in clay memory; one that a register places outside it is a decode error (R25, R31). -/
def clayStore (s : State) (a : Nat) (bs : List Byte) : State :=
  match clayOut a bs.length with
  | some x => decodeErr s (x % 2 ^ 40) true
  | none => mputBytes (unpoison s a bs.length) a bs

/-- The firmware reports the bus error of a control core, event n, through EMCY, unless EV_ROUTE has just sent it (R25, R326).
DESIGN CHOICE (log 147). -/
def coreReport (before s : State) (n : Nat) : State :=
  if before.evt.emcy.length < s.evt.emcy.length then s
  else
    let s := { s with evt := { s.evt with hist := ((n * 0x10000 + (evGroup n).1) :: s.evt.hist).take 16 } }
    if s.evt.emcy.length < 16 then
      { s with evt := { s.evt with emcy := s.evt.emcy ++ [⟨(evGroup n).1, errReg s, n, fget s (R.EV_ROUTE n) F.EV_ROUTE_COUNT⟩] } }
    else raise (fon s R.EVT_STAT F.EVT_STAT_EMCY_OVF) 588

/-- The event of an uncorrectable read of an address: that of its region, or SDRAM_UE (R325, R345). -/
def ueEvent (s : State) (a : Nat) : Nat := match memRegion s a with | some r => 433 + 3 * r | none => 445

/-- A store of a block into a buffer that a register places anywhere (R105): protected words take nothing (R91, R448). -/
def bufferWrite (s : State) (a : Nat) (bs : List Byte) : State :=
  match firstHole s a bs.length with
  | some x => decodeErr s (x % 2 ^ 40) true
  | none => (memWrite s a bs false).1

/-- The event of the error response that a write of bytes by a master meets, if any (R25, R29, R324); the registers have theirs. -/
def writeError (m : Master) (s : State) (a : Nat) (bs : List Byte) : Option Nat :=
  if (firstOutside s m a bs.length true).isSome then some Ev.decodeErr
  else if regionOf s a = .regs ∨ (memWrite s a bs false).2 then none
  else some (ueEvent s ((firstPoison s a bs.length).getD a))

/-- The state after an access by a master: a control core takes the error response as a bus error (R25). -/
def coreSees (m : Master) (before s : State) (e : Option Nat) : State :=
  match e with
  | some n => if m = .core then coreReport before s n else s
  | none => s

/-! ### Clock gating (R478) -/

/-- The tile group of tile t runs: domain 6 + t / 4. -/
def tileRuns (s : State) (t : Nat) : Bool := bitOf (rd s R.CLK_ACT0).toNat (6 + t / 4)

/-- The cluster c runs: domain 22 + c. -/
def clusterRuns (s : State) (c : Nat) : Bool :=
  if c < 10 then bitOf (rd s R.CLK_ACT0).toNat (22 + c) else bitOf (rd s R.CLK_ACT1).toNat (c - 10)

end Sys2Proof.Machine
end

