-- ==== Sys2Proof/Machine/Gap.lean ====
section
/-! DEFINITION. Gap records (R102 to R104): counting, merging and storing them, and what they tell the open
slices (R179) and the safety channels (R253). -/

namespace Sys2Proof.Machine

/-! Reason codes of R103. -/
namespace Gap
abbrev emission := 0x01
abbrev noFb := 0x02
abbrev badFb := 0x03
abbrev bankHalt := 0x04
abbrev congest := 0x05
abbrev late := 0x06
abbrev rowCrc := 0x07
abbrev frameCut := 0x08
abbrev gate := 0x09
abbrev settle := 0x0A
abbrev channelOff := 0x0B
abbrev overload := 0x0C
abbrev bias := 0x0D
abbrev tdcUnlock := 0x0E
abbrev thermal := 0x0F
abbrev deadline := 0x10
abbrev refused := 0x11
abbrev pointCredit := 0x12
end Gap

/-- The frame numbered `no` is invalid in channel A (R253). -/
def markBadA (s : State) (no : Nat) : State :=
  { s with saf := { s.saf with frames := s.saf.frames.map (fun f => if f.no = no then { f with badA := true } else f) } }

/-- The frame numbered `no` is invalid in channel B (R255). -/
def markBadB (s : State) (no : Nat) : State :=
  { s with saf := { s.saf with frames := s.saf.frames.map (fun f => if f.no = no then { f with badB := true } else f) } }

/-- Shots `first` to `first + len - 1` as a bit set. -/
def shotBits (first len : Nat) : Nat := (2 ^ len - 1) * 2 ^ first

/-- Union of two bit sets of at most 256 bits. -/
def orBits (a b : Nat) : Nat := (BitVec.ofNat 256 a ||| BitVec.ofNat 256 b).toNat

/-- The slice of a row and frame takes a gap record over the channels of a tile. -/
def Slice.addGap (sl : Slice) (tile mask first len : Nat) : Slice :=
  { sl with cover := (bitList 16 mask).foldl (fun c k =>
      let n := 16 * tile + k
      tput 0 c n (orBits (tget 0 c n) (shotBits first len))) sl.cover }

/-- Every shot of the row on channel n is covered by gap records. -/
def Slice.allGap (sl : Slice) (n : Nat) : Bool := tget 0 sl.cover n = shotBits 0 sl.row.depth

/-- The listening channels of a row. -/
def listenChans (l : List (Fin 64 × Nat)) : List Nat :=
  l.flatMap (fun e => (bitList 16 e.2).map (fun k => 16 * e.1.val + k))

/-- Gap records that the area of R31 holds, 16 bytes each: its last 8 KiB belong to the pending headers of 256 slices. DESIGN CHOICE
(log 40). -/
def gapRoom (s : State) : Nat := (fget s R.CM_GAP_LEN F.CM_GAP_LEN_LEN - 0x2000) / 16

/-- Address of a place of the pending slice headers, 32 bytes each from the end of the area down; none where the area is too small
(log 40). -/
def hdrAddr (s : State) (place : Nat) : Option Nat :=
  let n := fget s R.CM_GAP_LEN F.CM_GAP_LEN_LEN
  if 32 * (place + 1) ≤ n then some (0x0100000000 + fget s R.CM_GAP_BASE F.CM_GAP_BASE_OFS + n - 32 * (place + 1)) else none

/-- The 16 bytes of a gap record (R102). -/
def GapRec.bytes (g : GapRec) : List Byte :=
  wordsBytes [g.reason * 2 ^ 24 + g.tile * 2 ^ 16 + g.mask, g.row * 2 ^ 18 + g.first * 2 ^ 8,
    g.seq % 2 ^ 32, (g.len % 256) * 2 ^ 24 + b2n g.lostBefore * 2 ^ 23 + g.frame % 2 ^ 16]

/-- Address of a place of the gap record area (R31, R328). -/
def gapAddr (s : State) (slot : Nat) : Nat := 0x0100000000 + fget s R.CM_GAP_BASE F.CM_GAP_BASE_OFS + 16 * slot

/-- The lowest place of the gap record area that no pending record holds (log 40). -/
def gapSlot (s : State) : Nat :=
  ((List.range s.sht.gaps.length).find? (fun i => s.sht.gaps.all (fun g => decide (g.slot ≠ i)))).getD s.sht.gaps.length

/-- The pending records that `p` picks stand in the gap record area. -/
def gapStore (s : State) (p : GapRec → Bool) : State :=
  (s.sht.gaps.filter p).foldl (fun s g => if g.slot < gapRoom s then clayStore s (gapAddr s g.slot) g.bytes else s) s

/-- Whether a stored record continues with this one (R102). -/
def GapRec.continues (g : GapRec) (reason tile mask row first frame : Nat) : Bool :=
  g.reason = reason && g.tile = tile && g.mask = mask && g.row = row && g.frame = frame &&
    g.first + g.len = first

/-- Whether a stored record of the same tile cycle covers the same shots on other channels (R120). -/
def GapRec.joins (g : GapRec) (reason tile mask row first len frame cycle : Nat) : Bool :=
  g.reason = reason && g.tile = tile && g.row = row && g.frame = frame && g.first = first && g.len = len &&
    g.cycle = cycle && (List.range 16).all (fun k => !(bitOf g.mask k && bitOf mask k))

/-- An item of a closed slice is discarded (R180, R184). -/
def psLate (s : State) : State :=
  raise (finc (fon s R.PS_STAT F.PS_STAT_LATE) R.PS_CNT_A F.PS_CNT_A_LATE_CNT) Ev.sliceTimeout

/-- The reasons of R255 that leave a window unarmed for channel B. -/
def unarms (reason : Nat) : Bool :=
  [Gap.channelOff, Gap.overload, Gap.bias, Gap.settle, Gap.tdcUnlock].contains reason

/-- Channel B learns that windows of shots are covered by such a record (R255). -/
def unarm (s : State) (tile mask row frame seq len : Nat) : State :=
  let ns := (bitList 16 mask).map (fun k => 16 * tile + k)
  { s with saf := { s.saf with bshots := s.saf.bshots.map (fun b =>
    if b.row = row ∧ b.frame = frame ∧ seq ≤ b.seq ∧ b.seq < seq + len then { b with armed := b.armed.filter (fun n => !ns.contains n) }
    else b) } }

/-- Reports `len` shots from `first` of a row on the channels of a tile (R102, R104): counts every
channel-shot, merges with the record it continues, stores a new record while the area has room, and tells the
slice and channel A. A record of a slice that has closed is discarded with LATE (R180) (log 31) (log 40). -/
def gapAdd (s : State) (reason tile mask row frame first len seq : Nat) : State :=
  if mask % 0x10000 = 0 ∨ len = 0 then s
  else
    let s := fadd s (R.GAP_CNT (reason - 1)) F.GAP_CNT_COUNT (popCount 16 mask * len)
    let s := if unarms reason then unarm s tile mask row frame seq len else s
    if !s.ps.slices.any (fun sl => sl.row.num = row ∧ sl.frame = frame) then psLate s
    else
    let s :=
      if s.sht.gaps.any (fun g => g.continues reason tile mask row first frame) then
        let p := fun (g : GapRec) => g.continues reason tile mask row first frame
        let hit := (s.sht.gaps.filter p).map (·.slot)
        gapStore { s with sht := { s.sht with gaps := s.sht.gaps.map (fun g => if p g then { g with len := g.len + len } else g) } }
          (fun g => hit.contains g.slot)
      else if s.sht.gaps.any (fun g => g.joins reason tile mask row first len frame (now s / 2)) then
        let p := fun (g : GapRec) => g.joins reason tile mask row first len frame (now s / 2)
        let hit := (s.sht.gaps.filter p).map (·.slot)
        gapStore { s with sht := { s.sht with gaps := s.sht.gaps.map (fun g => if p g then { g with mask := g.mask + mask } else g) } }
          (fun g => hit.contains g.slot)
      else if s.sht.gaps.length < gapRoom s then
        let i := gapSlot s
        gapStore { s with sht := { s.sht with
            gaps := s.sht.gaps ++ [⟨reason, tile, mask, row, first, seq, len, s.sht.lostTiles.contains tile, frame, now s / 2, i⟩],
            lostTiles := s.sht.lostTiles.filter (· ≠ tile) } } (fun g => decide (g.slot = i))
      else
        raise (fon { s with sht := { s.sht with
            lostTiles := if s.sht.lostTiles.contains tile then s.sht.lostTiles else s.sht.lostTiles ++ [tile] } }
          R.SHT_STAT F.SHT_STAT_GAP_LOST) Ev.gapLost
    let s := { s with ps := { s.ps with slices := s.ps.slices.map (fun sl =>
        if sl.row.num = row ∧ sl.frame = frame then sl.addGap tile mask first len else sl) } }
    if s.ps.slices.any (fun sl => sl.row.num = row ∧ sl.frame = frame ∧ sl.row.safety = true ∧
        (reason = Gap.deadline ∨ reason = Gap.refused ∨ reason = Gap.pointCredit ∨
         (bitList 16 mask).any (fun k => sl.allGap (16 * tile + k)) = true)) then markBadA s frame
    else s

/-- One gap record over a whole listening set. DEDUCED (log 31). -/
def gapListen (s : State) (reason : Nat) (listen : List (Fin 64 × Nat)) (row frame first len seq : Nat) : State :=
  listen.foldl (fun s e => gapAdd s reason e.1.val e.2 row frame first len seq) s

end Sys2Proof.Machine
end

