-- ==== Sys2Proof/Machine/Capture.lean ====
section
/-! DEFINITION. Diagnostic capture (R105): its states, its circular buffer and its entries. -/

namespace Sys2Proof.Machine

/-- The 8 bytes of a pulse record (R108). -/
def PulseRec.bytes (r : PulseRec) : List Byte :=
  leBytes 8 (r.idx * 2 ^ 62 + b2n r.gainNew * 2 ^ 61 + b2n r.sat * 2 ^ 60 + b2n r.test * 2 ^ 59 +
    b2n r.biasMove * 2 ^ 58 + b2n r.fbSubst * 2 ^ 57 + b2n r.ovf * 2 ^ 56 + b2n r.hx * 2 ^ 55 +
    (r.hrise % 1024) * 2 ^ 45 + (r.tot % 4096) * 2 ^ 33 + r.time % 2 ^ 23)

/-- STATE of CAP_STAT: 0 IDLE, 1 ARMED, 2 SETTLE, 3 POST, 4 DONE. -/
def capState (s : State) : Nat := fget s R.CAP_STAT F.CAP_STAT_STATE
def setCap (s : State) (st : Nat) : State := fset s R.CAP_STAT F.CAP_STAT_STATE st

/-- Recording runs from ARMED to POST. -/
def capRecording (s : State) : Bool := decide (1 ≤ capState s) && decide (capState s ≤ 3) && decide (0 < (rd s R.CAP_LEN).toNat)

def capBase (s : State) : Nat := (rd s R.CAP_BASE_LO).toNat + fget s R.CAP_BASE_HI F.CAP_BASE_HI_BASE * 2 ^ 32

/-- One entry of 16 bytes at the write offset of the circular buffer; a buffer outside the memories takes nothing (R25)
(log 34). -/
def capEntry (s : State) (fire idx : Nat) (fb : Bool) (code : Nat) (r : PulseRec) : State :=
  let n := (rd s R.CAP_LEN).toNat / 16
  let head := leBytes 8 (fire % 2 ^ 48 + (idx % 1024) * 2 ^ 48 + b2n fb * 2 ^ 58 + (code % 16) * 2 ^ 59)
  let s := bufferWrite s (capBase s + 16 * s.sht.capOfs) (head ++ r.bytes)
  let ts := fire :: s.sht.capTicks
  { s with sht := { s.sht with
      capOfs := (s.sht.capOfs + 1) % max 1 n, capTicks := ts.take n,
      capLost := (ts.drop n).foldl (fun m t => some (max t (m.getD 0))) s.sht.capLost } }

/-- The feedback of a shot is known: it waits for none, or its wait is over (R99). -/
def fbKnown (s : State) (q : Nat) : Bool := s.sht.shots.all (fun x => decide (x.msg.seq ≠ q) || x.waited)

/-- The capture has yet to take the records of a window: they are complete, with FB_SUBST, once the window has closed and the shot's
feedback is known (R108). -/
def capOwed (s : State) (w : Win) : Bool := w.pending || !fbKnown s w.msg.seq

/-- The records of a shot on a captured channel: once its window has closed and its feedback is known, when they are dropped before
that, or when recording stops (log 34). -/
def capRecords (s : State) (n : Nat) (w : Win) : State :=
  if capRecording s && decide (fget s R.CAP_CTRL F.CAP_CTRL_TILE = n / 16) && bitOf (fget s R.CAP_CTRL F.CAP_CTRL_MASK) (n % 16) then
    w.recs.foldl (fun s r => capEntry s w.msg.fire n false w.msg.code r) s
  else s

/-- The feedback pair of a shot, with FB = 1 (R108). DEDUCED (log 35). -/
def capFeedback (s : State) (x : Shot) : State :=
  if capRecording s && flag s R.CAP_CTRL F.CAP_CTRL_FB then
    (x.edges.take 2).zipIdx.foldl (fun s e =>
      capEntry s x.msg.fire x.bank.val true x.msg.code
        ⟨e.2, false, false, false, false, false, false, false, 0, 0, e.1⟩) s
  else s

/-- Recording starts with an empty buffer. -/
def capStart (s : State) : State :=
  setCap { s with sht := { s.sht with capOfs := 0, capTicks := [], capLost := none } } 1

/-- Broadcasts on the ring that the device belongs to. -/
def capCast (s : State) (kind : Nat) : State :=
  if ringTalks s then castRing s kind 0 0 0 0 0 else s

/-- CAP_ARM (R105): on the ring master or a device alone; a follower discards it with DENIED. CAP_LEN = 0
disables capture. -/
def execCapArm (s : State) : Host.Outcome State Fault Refusal :=
  .next (done (
    if ringFollower s then fon s R.SHT_STAT F.SHT_STAT_DENIED
    else if capState s = 0 ∧ 0 < (rd s R.CAP_LEN).toNat then capCast (capStart s) 6
    else s))

/-- CAP_DISARM (R105). -/
def execCapDisarm (s : State) : Host.Outcome State Fault Refusal :=
  .next (done (if ringFollower s then fon s R.SHT_STAT F.SHT_STAT_DENIED else capCast (setCap s 0) 7))

/-- CAP_FIRE (R105): FIRE written. DEDUCED (log 33). -/
def execCapFire (s : State) : Host.Outcome State Fault Refusal := .next (done (capFire s))

/-- CAP_RELEASE (R105): leaves DONE. -/
def execCapRelease (s : State) : Host.Outcome State Fault Refusal :=
  .next (done (
    if capState s = 4 then (if flag s R.CAP_CTRL F.CAP_CTRL_REPEAT then capStart s else setCap s 0) else s))

/-- CAP_SETTLE_END (R105): T is fixed as the smallest fire tick seen. -/
def execCapSettleEnd (s : State) : Host.Outcome State Fault Refusal :=
  .next (done (if capState s = 2 ∧ s.sht.capEnd ≤ now s then setCap s 3 else s))

/-- The shots whose windows are open or whose feedback is awaited when recording stops leave the feedback edges and the records that
they have (log 34). -/
def capFlush (s : State) : State :=
  let s := (s.sht.shots.filter (fun x => x.fired && !x.waited)).foldl capFeedback s
  (List.range 16).foldl (fun s k =>
    let n := 16 * fget s R.CAP_CTRL F.CAP_CTRL_TILE + k
    ((tget FeChan.init s.fe.chan n).wins.filter (fun w => capOwed s w && !w.gap)).foldl (fun s w => capRecords s n w) s) s

/-- CAP_POST_END (R105): recording stops at T + POST. DEDUCED (log 34). -/
def execCapPostEnd (s : State) : Host.Outcome State Fault Refusal :=
  let t := s.sht.capT
  let pre := 16 * fget s R.CAP_WIN F.CAP_WIN_PRE
  .next (done (
    if capState s = 3 ∧ t + 16 * fget s R.CAP_WIN F.CAP_WIN_POST ≤ now s then
      let s := capFlush s
      let s := wr (wr s R.CAP_TICK_LO (BitVec.ofNat 32 t)) R.CAP_TICK_HI (BitVec.ofNat 32 (t / 2 ^ 32))
      let partly := match s.sht.capLost with | some x => decide (t ≤ x + pre) | none => false
      let s := fsetB s R.CAP_STAT F.CAP_STAT_PARTIAL partly
      let first := (s.sht.capTicks.min?).getD 0
      let s := if partly then
          wr (wr s R.CAP_FIRST_LO (BitVec.ofNat 32 first)) R.CAP_FIRST_HI (BitVec.ofNat 32 (first / 2 ^ 32)) else s
      raise (setCap s 4) Ev.capDone
    else s))

end Sys2Proof.Machine
end

