-- ==== Sys2Proof/Machine/Sensors.lean ====
section
/-! DEFINITION. Where the temperature sensors lie (R309) and what temperature a calibration unit has
(R310). -/

namespace Sys2Proof.Machine

/-- The neighbours of a sensor (R309). -/
def sensorNeighbours (s : Nat) : List Nat :=
  if s < 16 then
    (if 4 ≤ s then [s - 4] else []) ++ (if s % 4 ≠ 0 then [s - 1] else []) ++
      (if s % 4 ≠ 3 then [s + 1] else []) ++ (if s < 12 then [s + 4] else [])
  else
    ([[5, 6], [4, 8], [7, 11], [9, 10], [12, 13], [14, 15], [1, 2], [0, 3], [19, 20], [19, 24],
      [0, 4, 8, 12], [3, 7, 11, 15]] : List (List Nat)).getD (s - 16) []

/-- The sensor is ignored (R312). -/
def sensorIgnored (st : State) (s : Nat) : Bool := bitOf (rd st R.THM_IGN).toNat s

/-- Last reading of a sensor in 1/16 °C. -/
def sensorTemp16 (st : State) (s : Nat) : Int := signed 16 (fget st (R.THM_SENS s) F.THM_SENS_TEMP)

/-- T_ctl in 1/16 °C. -/
def tCtl16 (st : State) : Int := signed 16 (fget st R.THM_TCTL F.THM_TCTL_T_CTL)

/-- The nearest sensor of a calibration unit (R310). -/
def unitSensor (u : Nat) : Nat := if u < 64 then u / 4 else 16

/-- The temperature of a calibration unit in 1/192 °C (R310): of its nearest sensor, else the mean of the
non-ignored neighbours, else T_ctl. -/
def unitTemp (st : State) (u : Nat) : Int :=
  let s := unitSensor u
  let ns := (sensorNeighbours s).filter (fun n => !sensorIgnored st n)
  if !sensorIgnored st s then 12 * sensorTemp16 st s
  else if ns.isEmpty then 12 * tCtl16 st
  else (12 / ns.length : Nat) * (ns.map (sensorTemp16 st)).sum

end Sys2Proof.Machine
end

