-- ==== Sys2Proof/Machine/Tdc.lean ====
section
/-! DEFINITION. Time measurement and interpolator calibration (03_time_measurement.md): event times, the
timebase and its loads, fills and tables, the coarse-clock change, DLL locks, the auxiliary inputs and the
range gate. -/

namespace Sys2Proof.Machine

/-! ### Event time (R61 to R64, R69) -/

/-- POS of a tap of interpolator i of unit u (R64, R69, R70). -/
def posOf (s : State) (u i tap : Nat) : Nat :=
  if usesTable s u i then (calTab s u i).pos.getD tap 0
  else if lowPower s then 32 * tap + 16 else 16 * tap + 8

/-- Absolute time of an edge on interpolator i of unit u, in 6.25 ps on the timebase. -/
def edgeTime (s : State) (u i : Nat) (e : TdcEdge) : Nat :=
  128 * e.tick.toNat + posOf s u i e.tap.val / 16

/-- Event time of an absolute time against a commanded fire tick (R62). -/
def eventTime (abs fire : Nat) : Nat := abs - 128 * fire

/-- The event time does not fit its 23-bit field (R63). -/
def coarseOvf (ev : Nat) : Bool := 0x800000 ≤ ev

/-- The bias group of a channel (R33). -/
def biasGroup (n : Nat) : Nat := n / 64

/-- Front-end state of channel n. -/
def feChan (s : State) (n : Nat) : FeChan := tget FeChan.init s.fe.chan n

/-- Changes the front-end state of channel n. -/
def modFe (s : State) (n : Nat) (f : FeChan → FeChan) : State :=
  { s with fe := { s.fe with chan := tmod FeChan.init s.fe.chan n f } }

/-- First and last tick bound of a shot's listening window: it opens WIN_OFS ticks after the commanded fire
time and stays open for 256 × (BINW + 1) ticks (R101). -/
def winOpen (m : ArmMsg) : Nat := m.fire + m.winOfs
def winClose (m : ArmMsg) : Nat := winOpen m + 256 * (m.binw + 1)

/-! ### The timebase (R65 to R68) -/

/-- A load is made at a tick that the count would reach as `at` (R68): not below it. DEDUCED (log 23). -/
def tbLoadAt (s : State) (tick : Nat) (bit : Fld) : State :=
  let v := (rd s R.TB_LOAD_HI).toNat * 2 ^ 32 + (rd s R.TB_LOAD_LO).toNat
  let s := foff s R.TB_CTRL bit
  if v < tick then raise (fon s R.TB_CTRL F.TB_CTRL_LOAD_LOW) Ev.tbDenied
  else
    let d := v - tick
    let s := tbStep s (BitVec.ofNat 64 d)
    if flag s R.RING_CFG F.RING_CFG_RING_EN && flag s R.RING_STAT F.RING_STAT_MASTER then castRing s 5 0 0 0 0 d
    else s

/-- A load request on a ring follower is discarded (R68). -/
def tbDenied (s : State) : State := raise (fon s R.TB_CTRL F.TB_CTRL_DENIED) Ev.tbDenied

/-- An RWM write takes effect in STANDBY, and in BOOT through the control cores; elsewhere it is discarded
(R12). -/
def rwmOk (s : State) : Bool := modeOf s = .standby ∨ modeOf s = .boot

/-- `f` under the RWM rule of R12. -/
def withRwm (s : State) (f : State → State) : State := if rwmOk s then f s else raise s Ev.rwmDiscard

/-- TB_LO_READ (R67): the read latches the whole count. -/
def execTbLoRead (s : State) : Host.Outcome State Fault Refusal :=
  let s := { s with tdc := { s.tdc with latch := now s } }
  .next (done (wr (wr s R.TB_LO (BitVec.ofNat 32 (now s))) R.TB_HI (BitVec.ofNat 32 (now s / 2 ^ 32))))

/-- LOAD_NOW (R68): applies TB_LOAD at the next tick, which in low-power mode is two ticks on (R65). -/
def execLoadNow (s : State) : Host.Outcome State Fault Refusal :=
  .next (done (withRwm s fun s =>
    if ringFollower s then tbDenied s else tbLoadAt s (now s + if lowPower s then 2 else 1) F.TB_CTRL_LOAD_NOW))

/-- LOAD_PPS (R68): the load waits for the next PPS_IN edge (log 23). -/
def execLoadPps (s : State) : Host.Outcome State Fault Refusal :=
  .next (done (withRwm s fun s =>
    if ringFollower s then tbDenied s else fon s R.TB_CTRL F.TB_CTRL_LOAD_PPS))

/-- A shot of a row whose histogram still fills no longer contributes to it (R119): SHOTS falls by one if the shot was counted. What its
pairs added to the bins or to the list stays. DEDUCED (log 21). -/
def Hist.unshot (h : Hist) (w : Win) : Hist :=
  if h.st = .filling ∧ h.hr.row = w.msg.row ∧ h.hr.frame = w.msg.frame ∧
     ¬ (w.gainNew ∧ getFld h.set.ctrl F.GT_CTRL_GN_KEEP = 0) then { h with shots := h.shots - 1 }
  else h

/-- The decided windows of channel n among `l` leave their histogram (R119). -/
def histUnshot (s : State) (n : Nat) (l : List Win) : State :=
  { s with gt := { s.gt with chan := tmod GtChan.init s.gt.chan n (fun c =>
      (l.filter (fun w => w.decided)).foldl (fun c w => { c with b0 := c.b0.unshot w, b1 := c.b1.unshot w }) c) } }

/-- Discards the records of channel n's windows that `p` selects; answers them. The GAIN_NEW mark of a window that has not opened
passes on (R46). DEDUCED (log 21). -/
def dropOn (s : State) (n : Nat) (p : Win → Bool) : State × List Win :=
  let hit := (feChan s n).wins.filter (fun w => p w && !w.gap)
  let unopened := hit.any (fun w => w.gainNew && decide (now s < winOpen w.msg))
  let s := (hit.filter (capOwed s)).foldl (fun s w => capRecords s n w) s
  let s := histUnshot s n hit
  (modFe s n (fun c => { c with gainNew := c.gainNew || unopened, wins := c.wins.map (fun w =>
    if p w then { w with recs := [], gap := true, never := w.never || decide (now s < winOpen w.msg) } else w) }), hit)

/-- Discards the records of the windows of unit u that `p` selects and covers their shots with gap records of reason TDC_UNLOCK (R66,
R79): one for each shot, over its channels, so that those of consecutive shots can merge (R102). -/
def dropWindows (s : State) (u : Nat) (p : Win → Bool) : State :=
  let r := (List.range 16).foldl (fun (acc : State × List (ArmMsg × Nat)) k =>
    let x := dropOn acc.1 (16 * u + k) p
    (x.1, acc.2 ++ x.2.map (fun w => (w.msg, 2 ^ k)))) (s, [])
  let msgs := r.2.foldl (fun l x => if l.any (fun m => decide (m.seq = x.1.seq)) then l else l ++ [x.1]) []
  msgs.foldl (fun s m =>
    gapAdd s Gap.tdcUnlock u (((r.2.filter (fun x => decide (x.1.seq = m.seq))).map (·.2)).sum) m.row m.frame m.idx 1 m.seq) r.1

/-- TB_REPLICA_CHECK (R66): unit u's replica against the master count. A window open since the last match is discarded also
if its records have been decided: its shot then no longer counts in SHOTS (R119). DEDUCED (log 21). -/
def execTbReplicaCheck (u : Fin 65) (r : BitVec 64) (s : State) : Host.Outcome State Fault Refusal :=
  let last := tget 0 s.tdc.lastMatch u.val
  .next (done (
    if u.val < 64 ∧ tileRuns s u.val = false then s
    else if r = s.tb then { s with tdc := { s.tdc with lastMatch := tput 0 s.tdc.lastMatch u.val (now s) } }
    else
      let s := fon s R.TDC_CAL_STAT F.TDC_CAL_STAT_REPLICA
      let s := raise (finc s R.TDC_CNT F.TDC_CNT_REPLICA_CNT) Ev.tbReplica
      if u.val < 64 then
        dropWindows s u.val (fun w => decide (winOpen w.msg ≤ now s) && decide (last ≤ winClose w.msg))
      else s))

/-! ### Coarse-clock mode (R77, R78) and DLL locks (R79) -/

/-- REQ_MODE differs from CUR_MODE. -/
def reqDiffers (s : State) : Bool :=
  fget s R.TDC_CLK F.TDC_CLK_REQ_MODE ≠ fget s R.TDC_CLK F.TDC_CLK_CUR_MODE

/-- The coarse clock switches: every table of the old mode becomes unusable (R77), and the rolling round starts at unit 0
(R78, worked case of 03_time_measurement.md). DEDUCED (log 130). -/
def clkSwitch (s : State) : State :=
  let s := fon (fon s R.TDC_CAL_STAT F.TDC_CAL_STAT_XMODE) R.TDC_CLK F.TDC_CLK_RELOCK
  { s with tdc := { s.tdc with
      clk := .relock, relockAt := now s, newTabs := [], starved := [], nextUnit := 0,
      frameHeld := modeOf s = .scan,
      tabs := s.tdc.tabs.map (fun p => (p.1, { p.2 with valid := false })) } }

/-- Enters WAIT_FRAME; outside SCAN the switch follows at once (R77). -/
def clkWaitFrame (s : State) : State :=
  let s := fon { s with tdc := { s.tdc with clk := .waitFrame } } R.TDC_CLK F.TDC_CLK_PEND
  if modeOf s = .scan then s else clkSwitch s

/-- Row 1 and row 2 of R77 at STABLE. -/
def clkRequest (s : State) : State :=
  if !reqDiffers s then s
  else if s.tdc.filling then fon { s with tdc := { s.tdc with clk := .waitFill } } R.TDC_CLK F.TDC_CLK_PEND
  else clkWaitFrame s

/-- Unit u loses its DLL lock (R79); for unit 64, shots that wait for their feedback pair are affected. A fill of the unit that runs goes
on, and R73 judges its counts at its end. DESIGN CHOICE (log 130). -/
def dllUnlock (s : State) (u : Nat) : State :=
  if s.tdc.unlocked.contains u then s
  else
    let s := { s with tdc := { s.tdc with
      unlocked := s.tdc.unlocked ++ [u],
      tabs := s.tdc.tabs.filter (fun p => p.1 / 32 ≠ u),
      newTabs := s.tdc.newTabs.filter (fun p => p.1 / 32 ≠ u),
      starved := s.tdc.starved.filter (fun x => x / 32 ≠ u) } }
    let s := fset s R.TDC_FAULT F.TDC_FAULT_UNLOCK_UNIT u
    let s := finc (fon s R.TDC_CAL_STAT F.TDC_CAL_STAT_DLL_UNLOCK) R.TDC_CNT F.TDC_CNT_UNLOCK_CNT
    let s := raise s Ev.dllUnlock
    if u < 64 then dropWindows s u (fun w => w.pending)
    else { s with sht := { s.sht with shots := s.sht.shots.map (fun x =>
      if x.fired && !x.waited then { x with fbLost := true } else x) } }

/-- The thermal band. -/
def bandOf (s : State) : Nat := fget s R.THM_STAT F.THM_STAT_BAND

/-- Starts the fill of one unit, or of all. -/
def fillStart (s : State) (u : Nat) : State :=
  let s := fset (fon s R.TDC_CAL_STAT F.TDC_CAL_STAT_FILLING) R.TDC_CAL_STAT F.TDC_CAL_STAT_FILL_UNIT u
  { s with tdc := { s.tdc with filling := true, fillAt := now s, fillMode := lowPower s, allDone := [] } }

/-- A FILL_ALL that waits starts (R76): in CALIBRATE, not in CRIT, and while no mode change is pending. -/
def fillAllGo (s : State) : State :=
  if flag s R.TDC_CTRL F.TDC_CTRL_FILL_ALL ∧ modeOf s = .calibrate ∧ bandOf s ≠ 5 ∧ s.tdc.clk = .stable ∧ s.tdc.filling = false then
    fillStart s 0
  else s

/-- RELOCK ends (R77, R78): a frame start that was held is now. A FILL_ALL written while the change was
pending, or whose fill a forced change discarded, starts now. DESIGN CHOICE (log 130). -/
def relockEnd (s : State) : State :=
  let s := fset s R.TDC_CLK F.TDC_CLK_CUR_MODE (1 - fget s R.TDC_CLK F.TDC_CLK_CUR_MODE)
  let s := foff (foff s R.TDC_CLK F.TDC_CLK_PEND) R.TDC_CLK F.TDC_CLK_RELOCK
  let s := if s.tdc.frameHeld ∧ s.sht.frameTick.isSome then
      { s with
        sht := { s.sht with frameTick := some (now s), slots := s.sht.slots.map (fun p => (p.1, { p.2 with frameTick := now s })) },
        ps := { s.ps with
          slices := s.ps.slices.map (fun sl => if some sl.frameTick = s.sht.frameTick then { sl with frameTick := now s } else sl),
          frameTicks := s.ps.frameTicks.map (fun p => if some p.2 = s.sht.frameTick then (p.1, now s) else p) } } else s
  let s := { s with tdc := { s.tdc with clk := .stable, frameHeld := false } }
  clkRequest (fillAllGo s)

/-- The fill in progress ends without a table: no fill takes place in CRIT, outside SCAN, or, for FILL_ALL, outside
CALIBRATE (R76). An unforced mode change goes on (R77). DEDUCED (log 130). -/
def fillStop (s : State) : State :=
  let s := foff s R.TDC_CTRL F.TDC_CTRL_FILL_ALL
  if s.tdc.filling then
    let s := foff { s with tdc := { s.tdc with filling := false, lastFillEnd := now s, allDone := [] } }
      R.TDC_CAL_STAT F.TDC_CAL_STAT_FILLING
    if s.tdc.clk = .waitFill then clkWaitFrame s else s
  else s

/-- The fabric's part of leaving a mode: fills end, and a mode change that waits for a frame takes place at once (R76, R77). -/
def tdcLeave (s : State) : State :=
  let s := fillStop s
  if s.tdc.clk = .waitFrame ∧ modeOf s ≠ .scan then clkSwitch s else s

/-- REQ_MODE (R77): a write of TDC_CLK. -/
def execReqMode (lp force : Bool) (s : State) : Host.Outcome State Fault Refusal :=
  let s := fsetB s R.TDC_CLK F.TDC_CLK_REQ_MODE lp
  .next (done (match s.tdc.clk with
    | .stable =>
      if reqDiffers s && force && s.tdc.filling then
        let s := fon (foff s R.TDC_CAL_STAT F.TDC_CAL_STAT_FILLING) R.TDC_CAL_STAT F.TDC_CAL_STAT_DISCARD
        clkWaitFrame { s with tdc := { s.tdc with filling := false, lastFillEnd := now s } }
      else clkRequest s
    | .waitFill =>
      if !reqDiffers s then foff { s with tdc := { s.tdc with clk := .stable } } R.TDC_CLK F.TDC_CLK_PEND
      else if force then
        let s := fon (foff s R.TDC_CAL_STAT F.TDC_CAL_STAT_FILLING) R.TDC_CAL_STAT F.TDC_CAL_STAT_DISCARD
        clkWaitFrame { s with tdc := { s.tdc with filling := false, lastFillEnd := now s } }
      else s
    | .waitFrame =>
      if !reqDiffers s then foff { s with tdc := { s.tdc with clk := .stable } } R.TDC_CLK F.TDC_CLK_PEND else s
    | .relock => s))

/-- DLL_UNLOCK (R79) (log 21). -/
def execDllUnlock (u : Fin 65) (s : State) : Host.Outcome State Fault Refusal :=
  .next (done (dllUnlock s u.val))

/-- DLL_LOCK (R79): arming resumes at the next arm point, on DLL calibration. -/
def execDllLock (u : Fin 65) (s : State) : Host.Outcome State Fault Refusal :=
  .next (done { s with tdc := { s.tdc with unlocked := s.tdc.unlocked.filter (· ≠ u.val) } })

/-! ### Fills and tables (R71 to R76) -/

/-- FILL_MS with its clamps. -/
def fillMs (s : State) : Nat := max 4 (min 20 (fget s R.TDC_CTRL F.TDC_CTRL_FILL_MS))

/-- The pause of the present band in ms (R76). -/
def fillPause (s : State) : Nat :=
  if bandOf s ≤ 1 then fget s R.TDC_CAL_GAP F.TDC_CAL_GAP_GAP_COLD
  else if bandOf s = 2 then fget s R.TDC_CAL_GAP F.TDC_CAL_GAP_GAP_NORMAL
  else fget s R.TDC_CAL_GAP F.TDC_CAL_GAP_GAP_WARM

/-- A calibration unit has its clock: rolling recalibration skips those of a gated tile group (R478). -/
def unitClocked (s : State) (u : Nat) : Bool := decide (u = 64) || tileRuns s u

/-- The next unit of the rolling round from u on that has its clock. -/
def nextClocked (s : State) (u : Nat) : Nat :=
  (((List.range 65).map (fun i => (u + i) % 65)).find? (unitClocked s)).getD 64

/-- Some interpolator has an unusable table for a reason other than starvation (R76). An accepted table that waits for
its latch point and is not stale needs no fill. DESIGN CHOICE (log 130). -/
def needsFill (s : State) : Bool :=
  (List.range 65).any (fun u => unitClocked s u && (List.range (unitInterps u)).any (fun i =>
    !tabUsable s (calTab s u i) && !s.tdc.starved.contains (32 * u + i) &&
      (match lookup s.tdc.newTabs (32 * u + i) with | some c => c.stale | none => true)))

/-- CAL_FILL_START (R76): the next unit of the rolling round, once its pause is over. -/
def execCalFillStart (s : State) : Host.Outcome State Fault Refusal :=
  .next (done (
    if modeOf s = .scan ∧ flag s R.TDC_CTRL F.TDC_CTRL_ROLL_EN ∧ flag s R.TDC_CTRL F.TDC_CTRL_CAL_MODE ∧
       ¬ s.tdc.filling ∧ s.tdc.clk = .stable ∧ bandOf s ≠ 5 ∧
       (needsFill s ∨ s.tdc.lastFillEnd + ticksMs (fillPause s) ≤ now s) then
      let s := { s with tdc := { s.tdc with nextUnit := nextClocked s s.tdc.nextUnit } }
      fillStart s s.tdc.nextUnit
    else s))

/-- FILL_ALL (R76): fills every unit at once in CALIBRATE; ignored in any other mode. -/
def execFillAll (s : State) : Host.Outcome State Fault Refusal :=
  .next (done (
    if modeOf s = .calibrate ∧ bandOf s ≠ 5 then
      fillAllGo (fon s R.TDC_CTRL F.TDC_CTRL_FILL_ALL)
    else s))

/-- The new table of a fill (R72). -/
def fillTable (s : State) (u : Nat) (c : FillCount) : CalTab :=
  let span := if s.tdc.fillMode then 4096 else 2048
  let n := max 1 c.total.toNat
  let pos := (List.range 128).map (fun i =>
    let below := ((c.taps.take i).map BitVec.toNat).sum
    let own := (c.taps.getD i 0).toNat
    min (span - 1) (roundDiv (span * (2 * below + own) : Nat) (2 * n)).toNat)
  { pos := pos, lowPower := s.tdc.fillMode, temp := unitTemp s u, valid := true, stale := false, made := upTime s }

/-- The fill of one interpolator holds enough edges (R73). -/
def fillEnough (s : State) (c : FillCount) : Bool :=
  1024 * 2 ^ (min 6 (fget s R.TDC_CTRL F.TDC_CTRL_MIN_HITS)) ≤ c.total.toNat

/-- A run from `a` to `b` takes up the whole fill. -/
def wholeFill (s : State) (a b : Nat) : Bool := decide (a ≤ s.tdc.fillAt) && decide (s.tdc.fillAt + ticksMs (fillMs s) ≤ b)

/-- Edges are injected into a return channel only while no window of it is open or it is not ACTIVE, and into a feedback interpolator
only while no shot of its bank waits for feedback (R71): one whose windows, or whose waits, have followed each other without a gap
through the whole fill has taken none. The times of the edges are random, so one that was free for a part of the fill may have any count
(log 130). -/
def fillBusy (s : State) (u i : Nat) : Bool :=
  if u < 64 then
    let n := 16 * u + i / 2
    decide (fget s (R.FE_STAT (n / 16) (n % 16)) F.FE_STAT_STATE = feActive) && wholeFill s (feChan s n).busyFrom (feChan s n).busyTo
  else wholeFill s (tget (0, 0) s.sht.fbBusy i).1 (tget (0, 0) s.sht.fbBusy i).2

/-- The counts of interpolator i of unit u in this fill. -/
def fillCount (s : State) (u : Nat) (c : List FillCount) (i : Nat) : FillCount :=
  if fillBusy s u i then ⟨[], 0⟩ else c.getD i ⟨[], 0⟩

/-- Accepts or rejects a group of interpolators of unit u together (R73). -/
def fillGroup (s : State) (u : Nat) (c : List FillCount) (is : List Nat) : State :=
  let cnt := fillCount s u c
  if is.all (fun i => fillEnough s (cnt i)) then
    is.foldl (fun s i => { s with tdc := { s.tdc with
      newTabs := tput CalTab.none s.tdc.newTabs (32 * u + i) (fillTable s u (cnt i)),
      starved := s.tdc.starved.filter (· ≠ 32 * u + i) } }) s
  else
    let s := fset (fon s R.TDC_CAL_STAT F.TDC_CAL_STAT_STARVED) R.TDC_FAULT F.TDC_FAULT_STARVE_UNIT u
    let s := raise (finc s R.TDC_CNT F.TDC_CNT_STARVE_CNT) Ev.calStarved
    { s with tdc := { s.tdc with
      starved := s.tdc.starved.filter (fun x => !(is.map (32 * u + ·)).contains x) ++ is.map (32 * u + ·) } }

/-- CAL_FILL_END (R71 to R73, R76): the fill period of unit u, by the FILL_MS in force at its end, is over; `c` lists its
counts by interpolator. A fill that runs when ROLL_EN or CAL_MODE is cleared, or when its unit loses its DLL lock, runs on and its tables
are accepted. DESIGN CHOICE (log 130). -/
def execCalFillEnd (u : Fin 65) (c : List FillCount) (s : State) : Host.Outcome State Fault Refusal :=
  let all := flag s R.TDC_CTRL F.TDC_CTRL_FILL_ALL
  .next (done (
    if s.tdc.filling ∧ s.tdc.fillAt + ticksMs (fillMs s) ≤ now s ∧
       (if all then ¬ s.tdc.allDone.contains u.val else fget s R.TDC_CAL_STAT F.TDC_CAL_STAT_FILL_UNIT = u.val) then
      let groups := if u.val < 64 then (List.range 16).map (fun k => [2 * k, 2 * k + 1]) else (List.range 16).map (fun b => [b])
      let s := groups.foldl (fun s g => fillGroup s u.val c g) s
      let s := { s with tdc := { s.tdc with allDone := if all then s.tdc.allDone ++ [u.val] else [] } }
      if all ∧ s.tdc.allDone.length < 65 then s
      else
        let s := { s with tdc := { s.tdc with filling := false, lastFillEnd := now s, allDone := [] } }
        let s := foff (foff s R.TDC_CAL_STAT F.TDC_CAL_STAT_FILLING) R.TDC_CTRL F.TDC_CTRL_FILL_ALL
        let s := if all then s else
          let s := { s with tdc := { s.tdc with nextUnit := if u.val = 64 then 0 else u.val + 1 } }
          if u.val = 64 then fwrap s R.TDC_CAL_STAT F.TDC_CAL_STAT_ROUNDS else s
        if s.tdc.clk = .waitFill then clkWaitFrame s else s
    else s))

/-- Takes the accepted table and the present CAL_MODE of interpolator i of unit u into use (R70, R74). -/
def tabActivate (s : State) (u i : Nat) : State :=
  let s := { s with tdc := { s.tdc with
    calOn := tput true s.tdc.calOn (32 * u + i) (flag s R.TDC_CTRL F.TDC_CTRL_CAL_MODE) } }
  match lookup s.tdc.newTabs (32 * u + i) with
  | none => s
  | some c => { s with tdc := { s.tdc with
      tabs := tput CalTab.none s.tdc.tabs (32 * u + i) c, newTabs := eraseKey s.tdc.newTabs (32 * u + i) } }

/-- Shots of a bank that wait for their feedback pair (R99). -/
def bankWaiting (s : State) (b : Nat) : List Shot :=
  s.sht.shots.filter (fun q => decide (q.bank.val = b) && q.fired && !q.waited)

/-- FB_TABLE_ACTIVATE (R70, R74): no shot of the bank waits for its feedback pair. -/
def execFbTableActivate (b : Fin 16) (s : State) : Host.Outcome State Fault Refusal :=
  .next (done (if (bankWaiting s b.val).isEmpty then tabActivate s 64 b.val else s))

/-- The table of interpolator `p.1` becomes stale (R75). -/
def goesStale (s : State) (p : Nat × CalTab) : Bool :=
  let dt := fget s R.TDC_CTRL F.TDC_CTRL_STALE_DT
  decide (dt ≠ 0) && p.2.valid && !p.2.stale && decide ((192 * dt : Nat) < (unitTemp s (p.1 / 32) - p.2.temp).natAbs)

/-- Marks the tables, active and waiting, of every unit that has drifted by more than STALE_DT (R75): at every change of a
temperature or of STALE_DT. Their interpolators lack a table for another reason than starvation (R76). -/
def staleCheck (s : State) : State :=
  let mark := fun (l : List (Nat × CalTab)) => l.map (fun p => if goesStale s p then (p.1, { p.2 with stale := true }) else p)
  let hit := (s.tdc.tabs ++ s.tdc.newTabs).filter (goesStale s)
  let s := { s with tdc := { s.tdc with
    tabs := mark s.tdc.tabs, newTabs := mark s.tdc.newTabs,
    starved := s.tdc.starved.filter (fun i => !hit.any (fun p => p.1 = i)) } }
  if hit.isEmpty then s else fon s R.TDC_CAL_STAT F.TDC_CAL_STAT_STALE

/-! ### The range gate (R83) -/

/-- Time of an edge on an auxiliary interpolator in 1/128 tick: always under DLL calibration (R70). -/
def auxTime (s : State) (e : TdcEdge) : Nat :=
  128 * e.tick.toNat + (if lowPower s then 2 * e.tap.val + 1 else e.tap.val)

/-- GATE_CFG.FILT in 1/128 tick. -/
def gateFilt128 (s : State) : Nat := 128 * fget s R.GATE_CFG F.GATE_CFG_FILT

/-- Level of the filtered gate at an absolute time in 1/128 tick. -/
def gateLevelAt (s : State) (t : Nat) : Bool :=
  match s.tdc.gatePend with
  | some (e, lv) =>
    if e + gateFilt128 s ≤ t then lv
    else ((s.tdc.gateTrans.find? (fun x => x.1 ≤ t)).map (·.2)).getD false
  | none => ((s.tdc.gateTrans.find? (fun x => x.1 ≤ t)).map (·.2)).getD false

/-- The filtered gate is active at a time in 1/128 tick (POL of GATE_CFG). -/
def gateActiveAt (s : State) (t : Nat) : Bool := xor (gateLevelAt s t) (flag s R.GATE_CFG F.GATE_CFG_POL)

/-- The range-gate qualifier, the filtered gate delayed by exactly 16 ticks, is active at a time in 1/128 tick. -/
def qualifierAt (s : State) (t : Nat) : Bool := gateActiveAt s (t - 16 * 128)

/-- Shows the filtered gate in GATE_CFG.STATE and AUX_STAT.GATE: whether it is active, after POL, and not the level of the pin. DESIGN
CHOICE (log 116). -/
def gateShow (s : State) : State :=
  let on := xor s.tdc.gateFilt (flag s R.GATE_CFG F.GATE_CFG_POL)
  (List.range 6).foldl (fun s a => fsetB s (R.AUX_STAT a) F.AUX_STAT_GATE on) (fsetB s R.GATE_CFG F.GATE_CFG_STATE on)

/-- The filtered gate takes the level of a change at `p` that has lasted (R83); an enabled capture trigger sees the edge
(R105). -/
def gateTake (s : State) (p : Nat) (lv : Bool) : State :=
  capTrigger (gateShow { s with tdc := { s.tdc with
    gateFilt := lv, gateTrans := (p + gateFilt128 s, lv) :: s.tdc.gateTrans, gatePend := none } }) 0

/-- GATE_IN_EDGE (R83): a level change, timestamped by channel 5, waits until it has lasted FILT ticks. A change whose time
was over before this edge has qualified. DEDUCED (log 116). -/
def execGateInEdge (level : Bool) (e : TdcEdge) (s : State) : Host.Outcome State Fault Refusal :=
  let t := auxTime s e
  .next (done (
    if level = s.tdc.gateRaw then s
    else
      let s := match s.tdc.gatePend with
        | some (p, lv) => if p + gateFilt128 s ≤ t then gateTake s p lv else s
        | none => s
      { s with tdc := { s.tdc with
        gateRaw := level, gatePend := if level = s.tdc.gateFilt then none else some (t, level) } }))

/-- FILTERED_GATE_CHANGE (R83): a level that has lasted FILT ticks changes the filtered gate. -/
def execFilteredGateChange (s : State) : Host.Outcome State Fault Refusal :=
  .next (done (match s.tdc.gatePend with
    | some (t, lv) => if t + gateFilt128 s ≤ 128 * now s then gateTake s t lv else s
    | none => s))

/-! ### Auxiliary channels (R80 to R82) -/

def auxChan (s : State) (a : Nat) : AuxChan := tget AuxChan.init s.tdc.aux a
def modAux (s : State) (a : Nat) (f : AuxChan → AuxChan) : State :=
  { s with tdc := { s.tdc with aux := tmod AuxChan.init s.tdc.aux a f } }

/-- Shows the FIFO head and fill of channel a (R81). -/
def auxShow (s : State) (a : Nat) : State :=
  let q := (auxChan s a).fifo
  let h := q.headD (0, 0)
  let s := fset s (R.AUX_STAT a) F.AUX_STAT_FILL q.length
  let s := fset (fsetB s (R.AUX_TS_F a) F.AUX_TS_F_EMPTY q.isEmpty) (R.AUX_TS_F a) F.AUX_TS_F_FINE h.2
  wr (wr s (R.AUX_TS_LO a) (BitVec.ofNat 32 h.1)) (R.AUX_TS_HI a) (BitVec.ofNat 32 (h.1 / 2 ^ 32))

/-- Whether an edge is a selected one (R80). -/
def auxSelected (s : State) (a : Nat) (rising : Bool) : Bool :=
  match fget s (R.AUX_CFG a) F.AUX_CFG_EDGE with
  | 1 => !rising
  | 2 => true
  | _ => rising

/-- The period of R82 from the last 2^AVG intervals. A period that is no whole number of 1/65536 tick is rounded either way, as R82 names
no rounding (DESIGN CHOICE, log 7). While the period is above 0xFFFF_FFFF ticks and AUX_PER_INT reads 0xFFFF_FFFF, AUX_PER_FRAC keeps its
last value, on which R82 is silent (DESIGN CHOICE, log 22). -/
def auxPeriod (s : State) (a : Nat) : State :=
  let avg := min 10 (fget s (R.AUX_CFG a) F.AUX_CFG_AVG)
  let presc := min 8 (fget s (R.AUX_CFG a) F.AUX_CFG_PRESC)
  let ts := (auxChan s a).times
  if ts.length < 2 ^ avg + 1 then s
  else
    let d := ts.headD 0 - ts.getD (2 ^ avg) 0
    let (q, s) := openQuot s (d * 512) (2 ^ (avg + presc))
    if 0xFFFFFFFF * 128 * 2 ^ (avg + presc) < d then foff (wr s (R.AUX_PER_INT a) 0xFFFFFFFF#32) (R.AUX_STAT a) F.AUX_STAT_VALID
    else fon (fset (wr s (R.AUX_PER_INT a) (BitVec.ofNat 32 (q / 65536))) (R.AUX_PER_FRAC a) F.AUX_PER_FRAC_PER_FRAC q)
      (R.AUX_STAT a) F.AUX_STAT_VALID

/-- A counted edge (R80 to R82). -/
def auxCounted (s : State) (a mode t : Nat) : State :=
  let s := finc s (R.AUX_CNT a) F.AUX_CNT_EDGES
  let s := modAux s a (fun c => { c with lastEdge := some (t / 128) })
  if mode = 1 then auxPeriod (modAux s a (fun c => { c with times := (t :: c.times).take 1025 })) a
  else
    let ent := (t / 128, t % 128)
    if (auxChan s a).fifo.length < 16 then
      auxShow (modAux s a (fun c => { c with fifo := c.fifo ++ [ent], latest := ent })) a
    else
      raise (finc (fon s (R.AUX_STAT a) F.AUX_STAT_LOST) (R.AUX_CNT a) F.AUX_CNT_LOST) Ev.auxLost

/-- AUX_EDGE (R80, R68): an edge on input a. On channel 4 an edge that EDGE selects applies an armed load, whether or not the
channel is enabled and without its prescaler, also on a device that has become a ring follower since the load was armed. DESIGN CHOICE
(log 131). -/
def execAuxEdge (a : Fin 6) (e : TdcEdge) (rising : Bool) (s : State) : Host.Outcome State Fault Refusal :=
  let mode := fget s (R.AUX_CFG a) F.AUX_CFG_MODE
  let t := auxTime s e
  .next (done (
    if !auxSelected s a rising then s
    else
      let s := if a.val = 4 ∧ flag s R.TB_CTRL F.TB_CTRL_LOAD_PPS then tbLoadAt s e.tick.toNat F.TB_CTRL_LOAD_PPS else s
      if !flag s (R.AUX_CFG a) F.AUX_CFG_EN || decide (mode = 3) ||
         (decide (mode = 2) && !gateActiveAt s t) then s
      else
        let n := (auxChan s a).presc + 1
        if 2 ^ min 8 (fget s (R.AUX_CFG a) F.AUX_CFG_PRESC) ≤ n then
          auxCounted (modAux s a (fun c => { c with presc := 0 })) a mode t
        else modAux s a (fun c => { c with presc := n })))

/-- AUX_TS_HI_READ (R81): the read removes the head entry. -/
def execAuxTsHiRead (a : Fin 6) (s : State) : Host.Outcome State Fault Refusal :=
  .next (done (auxShow (modAux s a (fun c => { c with fifo := c.fifo.tail })) a))

/-- A write of AUX_CFG (R82): any change clears VALID and restarts the measurement. DEDUCED (log 22). -/
def auxCfgSet (s : State) (a : Nat) (v : Word) : State :=
  let w := (rd s (R.AUX_CFG a) &&& 0x0700FF00#32) ||| (v &&& 0xF8FF00FF#32)
  if w = rd s (R.AUX_CFG a) then s
  else
    let s := foff (wr s (R.AUX_CFG a) w) (R.AUX_STAT a) F.AUX_STAT_VALID
    modAux s a (fun c => { c with presc := 0, times := [], lastEdge := some (now s) })

/-- AUX_CFG_WRITE (R82). -/
def execAuxCfgWrite (a : Fin 6) (v : Word) (s : State) : Host.Outcome State Fault Refusal :=
  .next (done (auxCfgSet s a v))

/-- AUX_TIMEOUT (R82): no counted edge for TIMEOUT ms in PERIOD mode. The next counted edge updates the period from the
earlier ones (log 22). -/
def execAuxTimeout (a : Fin 6) (s : State) : Host.Outcome State Fault Refusal :=
  let lim := ticksMs (max 1 (fget s (R.AUX_CFG a) F.AUX_CFG_TIMEOUT))
  .next (done (match (auxChan s a).lastEdge with
    | none => s
    | some t =>
      if flag s (R.AUX_CFG a) F.AUX_CFG_EN ∧ fget s (R.AUX_CFG a) F.AUX_CFG_MODE = 1 ∧ t + lim ≤ now s then
        let s := foff (fon s (R.AUX_STAT a) F.AUX_STAT_TIMEOUT) (R.AUX_STAT a) F.AUX_STAT_VALID
        raise (modAux s a (fun c => { c with lastEdge := none })) Ev.auxTimeout
      else s))

/-! ### Table readout (R85) -/

/-- TAB_DATA and TAB_INFO for the present TAB_SEL. TEMP is the tag, of which R75 compares every 1/192 °C, rounded to a whole
degree either way. DESIGN CHOICE (log 7). -/
def tabShow (s : State) : State :=
  let u := fget s R.TAB_SEL F.TAB_SEL_UNIT
  let i := fget s R.TAB_SEL F.TAB_SEL_INTERP
  let c := calTab s u i
  let use := usesTable s u i
  let s := fsetB s R.TAB_DATA F.TAB_DATA_VALID use
  let s := fsetB s R.TAB_DATA F.TAB_DATA_MODE c.lowPower
  let s := fsetB s R.TAB_DATA F.TAB_DATA_SRC use
  let s := fset s R.TAB_DATA F.TAB_DATA_POS (posOf s u i (fget s R.TAB_SEL F.TAB_SEL_ENTRY))
  let s := fsetB s R.TAB_INFO F.TAB_INFO_VALID (tabUsable s c)
  let s := fsetB s R.TAB_INFO F.TAB_INFO_MODE c.lowPower
  let s := fset s R.TAB_INFO F.TAB_INFO_AGE (if c = .none then 0 else satN 16 ((upTime s - c.made) / ticksMs 100))
  let fl := c.temp / 192
  let (up, s) := if c.temp % 192 = 0 then (false, s) else openBool s
  fset s R.TAB_INFO F.TAB_INFO_TEMP (unsigned 8 (fl + b2n up))

end Sys2Proof.Machine
end

