-- ==== Sys2Proof/Machine/FrontEnd.lean ====
section
/-! DEFINITION. Return inputs and analogue front end (02_return_inputs.md): staging and latch of the channel
settings, channel states, pulse records, test injection, offset trim, and the bias references. -/

namespace Sys2Proof.Machine

/-! ### Balls of the return inputs (R487) -/

/-- Row and column of the ball RETIN[n]: the tile's block in its band, and the channel's place in the block, both counted from the
package edge (R487). -/
def retinBall (n : Nat) : Nat × Nat :=
  let t := n / 16
  let k := n % 16
  let j := t % 32
  let col := 4 + 6 * (j % 8) + (match k % 4 with | 0 => 1 | 1 => 2 | 2 => 4 | _ => 5)
  let fromEdge := 4 * (j / 8) + k / 4
  (if t / 32 = 0 then 1 + fromEdge else 54 - fromEdge, col)

/-! ### Flags and events of a tile's front end (R57) -/

/-- Sets a flag of FE_STAT and raises FE_FAULT when FE_FAULT_MASK enables it. -/
def feFault (s : State) (t k : Nat) (f : Fld) (bit : Nat) : State :=
  let s := fon s (R.FE_STAT t k) f
  if bitOf (fget s (R.FE_TILE_CTRL t) F.FE_TILE_CTRL_FE_FAULT_MASK) bit then raise s (4 * t + 3) else s

/-- Writes STATE of a channel. -/
def setFeState (s : State) (n st : Nat) : State := fset s (R.FE_STAT (n / 16) (n % 16)) F.FE_STAT_STATE st

/-- STATE of channel n. -/
def feState (s : State) (n : Nat) : Nat := fget s (R.FE_STAT (n / 16) (n % 16)) F.FE_STAT_STATE

/-! ### Staging and latch (R40 to R46) -/

/-- The bits that FE_CFG and FE_ACT share. -/
abbrev feSetMask : Word := 0xF3FF03FF#32

/-- The staged set of channel n. -/
def feStaged (s : State) (n : Nat) : Word := rd s (R.FE_CFG (n / 16) (n % 16)) &&& feSetMask

/-- The active set of channel n. -/
def feInUse (s : State) (n : Nat) : Word := rd s (R.FE_ACT (n / 16) (n % 16)) &&& feSetMask

/-- The threshold conditions of R40 on a word for FE_CFG. -/
def feOrderOk (v : Word) : Bool :=
  decide (8 ≤ getFld v F.FE_CFG_TH_LOW) &&
    (decide (getFld v F.FE_CFG_TH_HIGH = 0) || decide (getFld v F.FE_CFG_TH_LOW < getFld v F.FE_CFG_TH_HIGH))

/-- PEND of channel n, and the instant since which a change has been staged. -/
def fePend (s : State) (n : Nat) : State :=
  let p := decide (feStaged s n ≠ feInUse s n)
  let s := fsetB s (R.FE_ACT (n / 16) (n % 16)) F.FE_ACT_PEND p
  modFe s n (fun c => if p then { c with stagedAt := some (c.stagedAt.getD (now s)) }
    else { c with stagedAt := none, settle := false })

/-- Notes the set that was staged before the first write of the present tile cycle (R43); the firmware has nothing
left to write again (R468). -/
def feWrote (s : State) (n : Nat) : State :=
  modFe s n (fun c => { c with
    cfgWrote := if c.cfgWrote.map Prod.fst = some (now s / 2) then c.cfgWrote else some (now s / 2, feStaged s n),
    rewrite := none })

/-- A write of FE_CFG, staged or rejected (R40, R41). -/
def feCfgSet (s : State) (n : Nat) (v : Word) : State :=
  if feOrderOk v then fePend (wr (feWrote s n) (R.FE_CFG (n / 16) (n % 16)) (v &&& feSetMask)) n
  else feFault s (n / 16) (n % 16) F.FE_STAT_TH_ORDER 1

/-- FE_CFG_WRITE (R40). -/
def execFeCfgWrite (n : Fin 1024) (v : Word) (s : State) : Host.Outcome State Fault Refusal :=
  .next (done (feCfgSet s n.val v))

/-- The group's channels are gated (R55). -/
def groupGated (s : State) (g : Nat) : Bool := (tget BiasGrp.init s.fe.bias g).gating

/-- The set that a latch point takes: a write in its own tile cycle belongs to the following one (R43). -/
def feLatchSet (s : State) (n : Nat) : Word :=
  match (feChan s n).cfgWrote with
  | some (c, w) => if c = now s / 2 then w else feStaged s n
  | none => feStaged s n

/-- The copy of a set at a latch point (R42, R43, R46, R48), and the tables and CAL_MODE that take effect there
(R70, R74). A change staged in the latch point's own cycle stays staged. -/
def feLatch (s : State) (n : Nat) (new : Word) : State :=
  let t := n / 16
  let k := n % 16
  let s :=
    if new = feInUse s n then s
    else
      let s := wr s (R.FE_ACT t k) new
      let s := modFe s n (fun c => { c with gainNew := true })
      if getFld new F.FE_CFG_EN = 0 then
        modFe (setFeState s n feOff) n (fun c => { c with exitPend := false })
      else if feState s n = feOff then
        setFeState s n (if groupGated s (biasGroup n) then feGated else feActive)
      else s
  let later := decide (feStaged s n ≠ feInUse s n)
  let s := modFe (fsetB s (R.FE_ACT t k) F.FE_ACT_PEND later) n (fun c => { c with
    stagedAt := if later then some (now s) else none, settle := false })
  tabActivate (tabActivate s t (2 * k)) t (2 * k + 1)

/-- A window of the channel is pending (R42). -/
def windowPending (s : State) (n : Nat) : Bool := (feChan s n).wins.any (fun w => w.pending)

/-- FE_IDLE_LATCH (R42): the copy while the scheduler fires no shots. -/
def execFeIdleLatch (n : Fin 1024) (s : State) : Host.Outcome State Fault Refusal :=
  .next (done (if !firing s && !windowPending s n.val then feLatch s n.val (feStaged s n.val) else s))

/-- SETTLE_TIMEOUT (R44): 1.0 ms without a latch point stops the arming of the channel. -/
def execSettleTimeout (n : Fin 1024) (s : State) : Host.Outcome State Fault Refusal :=
  .next (done (match (feChan s n.val).stagedAt with
    | some t => if t + ticksMs 1 ≤ now s then modFe s n.val (fun c => { c with settle := true }) else s
    | none => s))

/-! ### Arm points (R42, R44, R46, R48, R49) -/

/-- The spacing of code c in ticks: 4.0 ns and 0.8 ns more per code (R95). -/
def codeTicks (c : Nat) : Nat := c + 5

/-- Test injection on the shot of this arm point (R49) (log 20). -/
def injectNow (s : State) (n : Nat) : Bool :=
  flag s (R.FE_TEST (n / 16) (n % 16)) F.FE_TEST_TEST_EN &&
    decide ((feChan s n).shotCnt % 2 ^ fget s (R.FE_TEST (n / 16) (n % 16)) F.FE_TEST_EVERY = 0)

/-- DELAY, WIDTH and PAIR in force (R49). DEDUCED (log 20). -/
def injectSet (s : State) (n : Nat) : Nat × Nat × Bool :=
  (fget s (R.FE_TEST_TIME (n / 16) (n % 16)) F.FE_TEST_TIME_DELAY,
   max 2 (fget s (R.FE_TEST (n / 16) (n % 16)) F.FE_TEST_WIDTH),
   flag s (R.FE_TEST (n / 16) (n % 16)) F.FE_TEST_PAIR)

/-- The pulses that the test source injects on a shot (R49): width in ticks, amplitude in nA by the active gain, the
second one after the code's spacing. -/
def injectPulses (s : State) (n : Nat) (m : ArmMsg) : List (Nat × Nat × Nat) :=
  let i := injectSet s n
  let amp := fget s (R.FE_TEST (n / 16) (n % 16)) F.FE_TEST_AMP *
    (if flag s (R.FE_ACT (n / 16) (n % 16)) F.FE_ACT_GAIN then 5000 else 500)
  let first := (m.fire + i.1, i.2.1, amp)
  if i.2.2 then [first, (m.fire + i.1 + codeTicks m.code, i.2.1, amp)] else [first]

/-- A clamp that is engaged at the arm point is still engaged when the shot's window opens (R47) (log 127). -/
def clampMeets (s : State) (n : Nat) (m : ArmMsg) : Bool :=
  flag s (R.FE_STAT (n / 16) (n % 16)) F.FE_STAT_CLAMP_NOW &&
    (match (feChan s n).clampEnd with | some t => decide (winOpen m ≤ t) | none => true)

/-- The comparators of channel n are off (R48). -/
def comparatorsOff (s : State) (n : Nat) : Bool :=
  decide (feState s n = feOff) ||
    ((feChan s n).cmpOff && (decide (feState s n = feOverload) || decide (feState s n = feGated)))

/-- An arm point of channel n: the state after it, and the reason for which no window opens. `none` says that
the window opens; a withheld shot answers reason 0 (R98: its gap record is the scheduler's). An injected shot whose
window does not open is not checked under R51. DESIGN CHOICE (log 126). -/
def armPoint (s : State) (n : Nat) (m : ArmMsg) : State × Option Nat :=
  let t := n / 16
  let k := n % 16
  let s0 := s
  let s := if windowPending s n then s else feLatch s n (feLatchSet s n)
  let s :=
    if (feChan s n).exitPend then
      let s := modFe s n (fun c => { c with exitPend := false, gainNew := true })
      if feState s n = feOverload ∨ feState s n = feGated then setFeState s n feActive else s
    else s
  let inject := injectNow s n
  let off := decide (feState s n = feOverload) || decide (feState s n = feGated)
  let s := modFe s n (fun c => { c with shotCnt := c.shotCnt + 1, cmpOff := off })
  if !tileRuns s t then (s0, if m.withheld then some 0 else some Gap.channelOff)
  else if m.withheld then (s, some 0)
  else if s.tdc.unlocked.contains t then (s, some Gap.tdcUnlock)
  else if (feChan s n).settle then (fon s (R.FE_STAT t k) F.FE_STAT_SKIP, some Gap.settle)
  else if feState s n = feOff then (s, some Gap.channelOff)
  else if feState s n = feOverload then (s, some Gap.overload)
  else if feState s n = feGated then (s, some Gap.bias)
  else
    let clamped := clampMeets s n m
    let w : Win := ⟨m, true, (feChan s n).gainNew, inject, injectSet s n,
      if inject then injectPulses s n m else [], [], none, 0, 0, clamped, none, false, false, false, false⟩
    let held := windowPending s n
    let s := if clamped then finc s (R.FE_CNT_B t k) F.FE_CNT_B_CLAMP_SHOTS else s
    (modFe s n (fun c => { c with
      gainNew := false, wins := c.wins ++ [w],
      heldFrom := if held then c.heldFrom else now s, heldVal := if held then c.heldVal else none,
      busyFrom := if winOpen m ≤ c.busyTo then c.busyFrom else winOpen m, busyTo := max c.busyTo (winClose m) }), none)

/-! ### Pulse records (R38, R39, R47, R50, R108) -/

/-- A rise inside the shot's injection window (R50). -/
def inTestWindow (s : State) (t : Nat) (w : Win) (ev : Nat) : Bool :=
  let tol := fget s (R.FE_TILE_CTRL t) F.FE_TILE_CTRL_TOL
  w.inject && decide (128 * w.inj.1 ≤ ev + 128 * tol) &&
    decide (ev ≤ 128 * (w.inj.1 + tol + w.inj.2.1 + 3 + (if w.inj.2.2 then codeTicks w.msg.code else 0)))

/-- TOT of a pulse in 25 ps (R108). DESIGN CHOICE (log 16). -/
def totOf (rise : Nat) (fall : Option Nat) : Nat :=
  match fall with
  | some f => min 0xFFF ((f - rise) / 4)
  | none => 0xFFF

/-- HRISE in 25 ps, and HX (R108) (log 16). -/
def hriseOf (rise : Nat) (high : Option Nat) : Nat × Bool :=
  match high with
  | some h => (min 0x3FE ((h - rise) / 4), true)
  | none => (0x3FF, false)

/-- Replaces the window of a shot on channel n. -/
def putWin (s : State) (n : Nat) (w : Win) : State :=
  modFe s n (fun c => { c with wins := c.wins.map (fun x => if x.msg.seq = w.msg.seq then w else x) })

/-- The marl path receives the records of a SAFETY row as they are formed (R21, R124). -/
def marlSync (s : State) (n : Nat) (w : Win) : State :=
  if !w.msg.safety || w.gap then s
  else
    let rs := w.recs.filter (fun r => !r.ovf && !(r.test && decide (modeOf s = .scan)))
    { s with saf := { s.saf with bshots := s.saf.bshots.map (fun b =>
        if b.seq = w.msg.seq then { b with recs := b.recs.filter (fun x => x.1 ≠ n) ++ rs.map (fun r => (n, r)) } else b) } }

/-- One low pulse in the window of one shot: absolute times of its edges in 6.25 ps (log 16). -/
def pulseInWin (s : State) (n rise : Nat) (fall high : Option Nat) (clamp : Bool) (w : Win) : State :=
  let t := n / 16
  let k := n % 16
  let joins := match w.lastFall with | some f => decide (rise ≤ f + 384) | none => false
  let ev := eventTime rise w.msg.fire
  let satOn := fun (s : State) => if clamp then fon s (R.FE_STAT t k) F.FE_STAT_SAT else s
  if joins then
    if w.dropped ≠ 0 then putWin s n { w with lastFall := fall }
    else
      let recs := w.recs.dropLast ++ (w.recs.drop (w.recs.length - 1)).map (fun r =>
        let start := w.lastRise
        let h := hriseOf start high
        { r with sat := r.sat || clamp, tot := totOf start fall,
                 hx := r.hx || h.2, hrise := if r.hx then r.hrise else h.1 })
      let w := { w with recs := recs, lastFall := fall }
      marlSync (satOn (putWin s n w)) n w
  else if w.recs.length = 4 then
    finc (putWin s n { w with dropped := w.dropped + 1, lastFall := fall }) (R.FE_CNT_B t k) F.FE_CNT_B_REC_DROP
  else
    let ovf := coarseOvf ev
    let h := hriseOf rise high
    let r : PulseRec :=
      { idx := w.recs.length, gainNew := w.gainNew, sat := clamp, test := inTestWindow s t w ev,
        biasMove := flag s (R.BIAS_STAT (biasGroup n)) F.BIAS_STAT_MOVE, fbSubst := w.subst, ovf := ovf,
        hx := h.2, hrise := h.1, tot := totOf rise fall, time := if ovf then 0x7FFFFF else ev }
    let w := { w with recs := w.recs ++ [r], lastFall := fall, lastRise := rise }
    marlSync (satOn (putWin s n w)) n w

/-- The clamp is engaged by a pulse on channel n from `rise` to `fall`: each shot in whose window it lies counts once in
CLAMP_SHOTS, whether or not a record is formed (R47) (log 127). -/
def clampShots (s : State) (n rise : Nat) (fall : Option Nat) : State :=
  let meets := fun (w : Win) => w.pending && !w.clamped && decide (rise / 128 < winClose w.msg) &&
    (match fall with | some f => decide (winOpen w.msg ≤ f / 128) | none => true)
  let hits := ((feChan s n).wins.filter meets).length
  modFe (fadd s (R.FE_CNT_B (n / 16) (n % 16)) F.FE_CNT_B_CLAMP_SHOTS hits) n (fun c => { c with
    wins := c.wins.map (fun w => if meets w then { w with clamped := true } else w) })

/-- CLAMP_NOW of channel n over a pulse (R47, R56): 1 until the pulse ends if it engages the clamp (log 127). -/
def clampLive (s : State) (n : Nat) (fall : Option Nat) (clamp : Bool) : State :=
  let on := clamp && (match fall with | some f => decide (now s < f / 128) | none => true)
  modFe (fsetB s (R.FE_STAT (n / 16) (n % 16)) F.FE_STAT_CLAMP_NOW on) n (fun c => { c with
    clampEnd := if on then fall.map (· / 128) else none })

/-- A read of CLAMP_NOW: the clamp has let go once the pulse has ended (R56). -/
def clampShow (s : State) (n : Nat) : State :=
  match (feChan s n).clampEnd with
  | some t => if t ≤ now s then foff s (R.FE_STAT (n / 16) (n % 16)) F.FE_STAT_CLAMP_NOW else s
  | none => s

/-- PULSE_RECORD (R38): one low pulse on channel n. It forms a record in every open window that its rise falls
into. A pulse shorter than 1.0 ns may yield none, which is left open (log 3). -/
def execPulseRecord (n : Fin 1024) (p : PulseIn) (s : State) : Host.Outcome State Fault Refusal :=
  let t := n.val / 16
  let k := n.val % 16
  let rise := edgeTime s t (2 * k) p.rise
  let fallAt := p.fall.map (fun e => edgeTime s t (2 * k) e)
  let s := if tileRuns s t then clampLive s n.val fallAt p.clamp else s
  let s := if p.clamp then clampShots s n.val rise fallAt else s
  let wins := (feChan s n.val).wins.filter (fun w => w.pending &&
    decide (winOpen w.msg ≤ rise / 128) && decide (rise / 128 < winClose w.msg))
  .next (done (
    if flag s (R.FE_TILE_CTRL t) F.FE_TILE_CTRL_AUTOTRIM || s.tdc.unlocked.contains t || wins.isEmpty ||
        comparatorsOff s n.val then s
    else
      let short := match fallAt with | some f => decide (f < rise + 160) | none => false
      let (keep, s) := if short then openBool s else (true, s)
      if !keep then s
      else
        let high := if fget s (R.FE_ACT t k) F.FE_ACT_TH_HIGH = 0 then none
          else p.high.map (fun e => edgeTime s t (2 * k + 1) e)
        wins.foldl (fun s w =>
          let fall := match fallAt with
            | some f => if f / 128 < winClose w.msg then some f else none
            | none => none
          pulseInWin s n.val rise fall high p.clamp w) s))

/-- A hit of R51: a record within ±TOL ticks of the commanded fire time + DELAY + 2.4 ns. -/
def testHit (s : State) (t : Nat) (w : Win) : Bool :=
  let tol := 128 * fget s (R.FE_TILE_CTRL t) F.FE_TILE_CTRL_TOL
  w.recs.any (fun r => !r.ovf && decide (r.time ≤ 128 * (w.inj.1 + 3) + tol) && decide (128 * (w.inj.1 + 3) ≤ r.time + tol))

/-- The hit check of an injected shot at the close of its window (R51). Every miss from the MISS_LIM-th consecutive one on
sets TMISS again. DESIGN CHOICE (log 126). -/
def testCheck (s : State) (n : Nat) (w : Win) : State :=
  let t := n / 16
  let k := n % 16
  if !w.inject then s
  else if testHit s t w then
    modFe (finc s (R.FE_CNT_A t k) F.FE_CNT_A_TEST_HIT) n (fun c => { c with missRun := 0 })
  else
    let s := modFe (finc s (R.FE_CNT_A t k) F.FE_CNT_A_TEST_MISS) n (fun c => { c with missRun := c.missRun + 1 })
    if max 1 (fget s (R.FE_TILE_CTRL t) F.FE_TILE_CTRL_MISS_LIM) ≤ (feChan s n).missRun then
      feFault s t k F.FE_STAT_TMISS 2
    else s

/-- LISTEN_WINDOW_CLOSE (R101): 256 × (BINW + 1) ticks after it opened, the window closes; a capture takes its records now if the shot's
feedback is known (R108). -/
def execListenWindowClose (n : Fin 1024) (q : BitVec 48) (s : State) : Host.Outcome State Fault Refusal :=
  .next (done (match (feChan s n.val).wins.find? (fun w => w.pending && decide (w.msg.seq = q.toNat)) with
    | none => s
    | some w =>
      if winClose w.msg ≤ now s then
        let s := testCheck (putWin s n.val { w with pending := false }) n.val w
        if fbKnown s w.msg.seq then capRecords s n.val w else s
      else s))

/-! ### Overload (R47, R48) and baseline (R37) -/

/-- OVERLOAD_ENTRY (R48): the clamp (`clamp`) or DCR_LIM (`lim`) has held for 1.0 ms. The live bits show it in every
state (R56); an ACTIVE channel enters OVERLOAD. -/
def execOverloadEntry (n : Fin 1024) (clamp lim : Bool) (s : State) : Host.Outcome State Fault Refusal :=
  let t := n.val / 16
  let k := n.val % 16
  let lim := lim && decide (fget s (R.FE_MODE t k) F.FE_MODE_DCR_BW ≠ 0)
  .next (done (
    let s := if clamp then modFe (fon s (R.FE_STAT t k) F.FE_STAT_CLAMP_NOW) n.val
        (fun c => { c with clampEnd := c.clampEnd.filter (fun e => decide (now s < e)) }) else s
    let s := if lim then fon s (R.FE_STAT t k) F.FE_STAT_DCR_LIM else s
    if (clamp || lim) && decide (feState s n.val = feActive) then
      let s := modFe (setFeState s n.val feOverload) n.val (fun c => { c with exitPend := false })
      feFault s t k F.FE_STAT_OVL 0
    else s))

/-- OVERLOAD_EXIT (R48): clamp idle and DCR_LIM = 0 for 10.0 ms, which the live bits show in every state (R56); a channel
in OVERLOAD returns at its next arm point. -/
def execOverloadExit (n : Fin 1024) (s : State) : Host.Outcome State Fault Refusal :=
  let t := n.val / 16
  let k := n.val % 16
  .next (done (
    let s := modFe (foff (foff s (R.FE_STAT t k) F.FE_STAT_CLAMP_NOW) (R.FE_STAT t k) F.FE_STAT_DCR_LIM) n.val
      (fun c => { c with clampEnd := none })
    if feState s n.val = feOverload then modFe s n.val (fun c => { c with exitPend := true }) else s))

/-- DCR_HOLD freezes the correction of channel n: from an arm point to the close of its window (R37) (log 127). -/
def dcrHeld (s : State) (n : Nat) : Bool :=
  flag s (R.FE_MODE (n / 16) (n % 16)) F.FE_MODE_DCR_HOLD && windowPending s n

/-- The correction averaged over the last 10.0 µs, and whether it is at capacity (R37): over a frozen loop, what the first
average over the frozen correction alone gave. -/
def dcrAverage (s : State) (n cur : Nat) (atCap : Bool) : State × Nat × Bool :=
  if dcrHeld s n && decide ((feChan s n).heldFrom + ticksUs 10 ≤ now s) then
    let v := (feChan s n).heldVal.getD (cur, atCap)
    (modFe s n (fun c => { c with heldVal := some v }), v)
  else (s, cur, atCap)

/-- FE_BASELINE_REFRESH (R37): the averaged restoration current, and whether the loop is at capacity. With the loop off
FE_BASELINE and DCR_LIM read 0. -/
def execFeBaselineRefresh (n : Fin 1024) (cur : BitVec 32) (atCap : Bool) (s : State) :
    Host.Outcome State Fault Refusal :=
  let t := n.val / 16
  let k := n.val % 16
  .next (done (
    if fget s (R.FE_MODE t k) F.FE_MODE_DCR_BW = 0 then
      foff (wr s (R.FE_BASELINE t k) 0) (R.FE_STAT t k) F.FE_STAT_DCR_LIM
    else
      let r := dcrAverage s n.val (min 0xFFFF cur.toNat) atCap
      let s := fset r.1 (R.FE_BASELINE t k) F.FE_BASELINE_GAIN (fget r.1 (R.FE_ACT t k) F.FE_ACT_GAIN)
      let s := fset s (R.FE_BASELINE t k) F.FE_BASELINE_CURRENT r.2.1
      fsetB s (R.FE_STAT t k) F.FE_STAT_DCR_LIM r.2.2))

/-! ### Offset trim (R52) -/

/-- AUTOTRIM (R52): starts the trim of tile t in CALIBRATE, ignored in any other mode. -/
def execAutotrim (t : Fin 64) (s : State) : Host.Outcome State Fault Refusal :=
  .next (done (if modeOf s = .calibrate then fon s (R.FE_TILE_CTRL t.val) F.FE_TILE_CTRL_AUTOTRIM else s))

/-- AUTOTRIM_DONE (R52): TRIM_OK and the codes found, which the spec leaves to the part (log 3). -/
def execAutotrimDone (t : Fin 64) (s : State) : Host.Outcome State Fault Refusal :=
  .next (done (
    if flag s (R.FE_TILE_CTRL t.val) F.FE_TILE_CTRL_AUTOTRIM then
      (List.range 16).foldl (fun s k =>
        let (v, s) := openVal s
        let s := fset s (R.FE_TRIM t.val k) F.FE_TRIM_OFS_HIGH (v.toNat / 256)
        fon (fset s (R.FE_TRIM t.val k) F.FE_TRIM_OFS_LOW v.toNat) (R.FE_TRIM t.val k) F.FE_TRIM_TRIM_OK)
        (foff s (R.FE_TILE_CTRL t.val) F.FE_TILE_CTRL_AUTOTRIM)
    else s))

/-! ### Bias references and monitors (R53 to R55, R186) -/

def biasGrp (s : State) (g : Nat) : BiasGrp := tget BiasGrp.init s.fe.bias g
def modBias (s : State) (g : Nat) (f : BiasGrp → BiasGrp) : State :=
  { s with fe := { s.fe with bias := tmod BiasGrp.init s.fe.bias g f } }

/-- RESREF and BIASREF are driven to 0 V by the mode or a reset (R457, R466). -/
def refsOff (s : State) : Bool :=
  decide (modeOf s = .bypass) || decide (modeOf s = .boot) || s.sys.reset.isSome || s.sys.held.isSome

/-- Every BIASREF output is driven to 0 V (R53, R318, R55). -/
def biasZero (s : State) (g : Nat) : Bool :=
  (biasGrp s g).zeroed || refsOff s || flag s R.THM_STAT F.THM_STAT_CRIT

/-- The code that BIASREF[g] moves towards (R54, R186) (log 18). -/
def biasTarget (s : State) (g : Nat) : Nat :=
  if biasZero s g then 0
  else min (fget s (R.BIAS_REF g) F.BIAS_REF_CODE) (fget s (R.BIAS_LIM g) F.BIAS_LIM_MAX)
    - fget s (R.BL_STAT g) F.BL_STAT_RED

/-- CLIP, the clamps to MAX and to 0 V, and MOVE after a change of CODE, MAX, RED or a forced zero, and after each slew
step: while CODE exceeds MAX, each of these sets a CLIP that software has cleared. DEDUCED (log 18). -/
def biasUpdate (s : State) (g : Nat) : State :=
  let code := fget s (R.BIAS_REF g) F.BIAS_REF_CODE
  let top := fget s (R.BIAS_LIM g) F.BIAS_LIM_MAX
  let s := if top < code then fon s (R.BIAS_STAT g) F.BIAS_STAT_CLIP else s
  let out := fget s (R.BIAS_STAT g) F.BIAS_STAT_OUT
  let out := if biasZero s g then 0 else min out top
  let s := fset s (R.BIAS_STAT g) F.BIAS_STAT_OUT out
  fsetB s (R.BIAS_STAT g) F.BIAS_STAT_MOVE (decide (out ≠ biasTarget s g))

/-- BIAS_REF_WRITE (R54). -/
def execBiasRefWrite (g : Fin 16) (v : BitVec 14) (s : State) : Host.Outcome State Fault Refusal :=
  .next (done (biasUpdate (fset s (R.BIAS_REF g.val) F.BIAS_REF_CODE v.toNat) g.val))

/-- BIAS_SLEW_STEP (R54): every 10 µs the output moves by at most SLEW codes. -/
def execBiasSlewStep (g : Fin 16) (s : State) : Host.Outcome State Fault Refusal :=
  let step := max 1 (fget s (R.BIAS_LIM g.val) F.BIAS_LIM_SLEW)
  let out := fget s (R.BIAS_STAT g.val) F.BIAS_STAT_OUT
  let goal := biasTarget s g.val
  let out' := if out < goal then min goal (out + step) else max goal (out - step)
  .next (done (biasUpdate (fset s (R.BIAS_STAT g.val) F.BIAS_STAT_OUT out') g.val))

/-- Gating of group g starts (R48, R55); a return that waited for an arm point is off. DEDUCED (log 17). -/
def gateGroup (s : State) (g : Nat) : State :=
  let s := modBias s g (fun b => { b with gating := true })
  (List.range 64).foldl (fun s j =>
    let n := 64 * g + j
    if feState s n = feActive ∨ feState s n = feOverload ∨ feState s n = feGated then
      modFe (setFeState s n feGated) n (fun c => { c with exitPend := false })
    else s) s

/-- Gating of group g ends: each channel returns at its next arm point (R48) (log 17). -/
def ungateGroup (s : State) (g : Nat) : State :=
  let s := modBias s g (fun b => { b with gating := false, holdEnd := none })
  (List.range 64).foldl (fun s j =>
    let n := 64 * g + j
    if feState s n = feGated then modFe s n (fun c => { c with exitPend := true }) else s) s

/-- A window flag is set by the third sample in a row, and again while the violation lasts after a clear. DEDUCED (log 19). -/
def biasWinFlag (s : State) (g run : Nat) (f : Fld) : State :=
  if run = 3 ∨ (3 < run ∧ ¬ flag s (R.BIAS_STAT g) f) then flagRaise s (R.BIAS_STAT g) f Ev.biasWindow else s

/-- BIAS_MON_SAMPLE (R55) (log 19). -/
def execBiasMonSample (g : Fin 16) (v : BitVec 10) (s : State) : Host.Outcome State Fault Refusal :=
  let hi := fget s (R.BIAS_MON g.val) F.BIAS_MON_HI
  let lo := fget s (R.BIAS_MON g.val) F.BIAS_MON_LO
  let act := fget s (R.BIAS_MON g.val) F.BIAS_MON_ACTION
  let s := fset s (R.BIAS_STAT g.val) F.BIAS_STAT_MON v.toNat
  let s := modBias s g.val (fun b => { b with
    hiRun := if hi < v.toNat then b.hiRun + 1 else 0, loRun := if v.toNat < lo then b.loRun + 1 else 0 })
  let b := biasGrp s g.val
  let s := biasWinFlag s g.val b.hiRun F.BIAS_STAT_WIN_HI
  let s := biasWinFlag s g.val b.loRun F.BIAS_STAT_WIN_LO
  let viol := decide (3 ≤ b.hiRun) || decide (3 ≤ b.loRun)
  .next (done (
    if viol then
      if act = 0 then s
      else
        let s := if b.gating then s else gateGroup s g.val
        let s := modBias s g.val (fun b => { b with holdEnd := none, zeroed := b.zeroed || decide (2 ≤ act) })
        biasUpdate s g.val
    else if b.gating && !b.zeroed && b.holdEnd.isNone then
      modBias s g.val (fun b => { b with holdEnd := some (now s + ticksMs 10) })
    else s))

/-- BIAS_GATE_HOLD_END (R55): 10.0 ms after the violation has ended. -/
def execBiasGateHoldEnd (g : Fin 16) (s : State) : Host.Outcome State Fault Refusal :=
  .next (done (match (biasGrp s g.val).holdEnd with
    | some t => if t ≤ now s then ungateGroup s g.val else s
    | none => s))

/-- With both WIN flags cleared, ACTION 10 or 11 releases the group (R55). -/
def biasRelease (s : State) (g : Nat) : State :=
  if (biasGrp s g).zeroed && !flag s (R.BIAS_STAT g) F.BIAS_STAT_WIN_HI && !flag s (R.BIAS_STAT g) F.BIAS_STAT_WIN_LO then
    biasUpdate (ungateGroup (modBias s g (fun b => { b with zeroed := false })) g) g
  else s

/-- A change of FE_MODE: a change of POL marks the next shot GAIN_NEW (R46); with the loop off FE_BASELINE and
DCR_LIM read 0 (R37). -/
def feModeSet (s : State) (n : Nat) (v : Word) : State :=
  let t := n / 16
  let k := n % 16
  let old := rd s (R.FE_MODE t k)
  let s := wr s (R.FE_MODE t k) (v &&& 0x1E#32)
  let s := if getFld old F.FE_MODE_POL ≠ getFld v F.FE_MODE_POL then modFe s n (fun c => { c with gainNew := true }) else s
  if fget s (R.FE_MODE t k) F.FE_MODE_DCR_BW = 0 then
    foff (wr s (R.FE_BASELINE t k) 0) (R.FE_STAT t k) F.FE_STAT_DCR_LIM
  else s

/-- FAULT_CH of FE_TILE_SUM (R57). -/
def feTileSum (s : State) (t : Nat) : Nat :=
  (List.range 16).foldl (fun v k =>
    if flag s (R.FE_STAT t k) F.FE_STAT_OVL || flag s (R.FE_STAT t k) F.FE_STAT_TH_ORDER ||
       flag s (R.FE_STAT t k) F.FE_STAT_TMISS then v + 2 ^ k else v) 0

end Sys2Proof.Machine
end

