-- ==== Sys2Proof/Machine/Emission.lean ====
section
/-! DEFINITION. Emission and the energy governor (10_emission_governor.md): the permit and its reservation,
pulse energy, inhibits, accumulators, exit sectors, stall stop, reservoir references and the sealed set. -/

namespace Sys2Proof.Machine

/-! ### The active sealed set (R242) -/

/-- A word of the active sealed set. -/
def sealWord (s : State) (a : Nat) : Word := tget (regReset a) s.emg.act a

/-- A field of the active sealed set. -/
def sealFld (s : State) (a : Nat) (f : Fld) : Nat := getFld (sealWord s a) f

/-- The registers of the sealed set in ascending address order. -/
def sealedRegs : List Nat :=
  [R.EMG_E1, R.EMG_EM100, R.EMG_EM10S] ++ (List.range 4).map R.EMG_EN ++
  (List.range 2).flatMap (fun s => [R.SEC_X s, R.SEC_Y s, R.SEC_SLEW s, R.SEC_CFG s, R.SEC_C100 s, R.SEC_C10S s]) ++
  (List.range 16).flatMap (fun b => [R.BANK_CFG b, R.BANK_CAL b, R.BANK_SNS b]) ++ (List.range 128).map R.EM_OFS

/-- The scanner of a bank (R228). -/
def bankScanner (s : State) (b : Nat) : Nat := sealFld s (R.BANK_CFG b) F.BANK_CFG_SCN

def e1Max (s : State) : Nat := sealFld s R.EMG_E1 F.EMG_E1_E1_MAX
def eFloor (s : State) : Nat := sealFld s R.EMG_E1 F.EMG_E1_EFLOOR
def capOk (s : State) : Bool := flag s R.EMG_STAT F.EMG_STAT_CAP_OK

/-- Caps in nJ: of an emitter and of a sector of scanner c, over 100 ms and over 10 s. -/
def capEm100 (s : State) : Nat := 1000 * (sealWord s R.EMG_EM100).toNat
def capEm10s (s : State) : Nat := 1000 * (sealWord s R.EMG_EM10S).toNat
def capSec100 (s : State) (c : Nat) : Nat := 1000 * (sealWord s (R.SEC_C100 c)).toNat
def capSec10s (s : State) (c : Nat) : Nat := 1000 * (sealWord s (R.SEC_C10S c)).toNat

/-! ### Accumulators (R236) -/

/-- Numbers of the current 1 ms and 100 ms bins, counted so that 100 bins precede the first. -/
def curMs (s : State) : Nat := now s / 1250000 + 100
def curDs (s : State) : Nat := now s / 125000000 + 100

/-- The sum over the current bin and the 100 bins before it, and over the bin after it: only a grant that is under way lies
there already (R232). -/
def windowSum (l : List (Nat × Nat)) (cur : Nat) : Nat :=
  ((l.filter (fun p => decide (cur ≤ p.1 + 100) && decide (p.1 ≤ cur + 1))).map (·.2)).sum

/-- The bins current when a permit requested now is granted: 8 ns, 10 ticks, later (R232). -/
def grantMs (s : State) : Nat := (now s + 10) / 1250000 + 100
def grantDs (s : State) : Nat := (now s + 10) / 125000000 + 100

/-- The 100 ms and the 10 s accumulator. -/
def a100 (s : State) (a : Acc) : Nat := windowSum a.ms (curMs s)
def a10s (s : State) (a : Acc) : Nat := windowSum a.ds (curDs s)

def emAcc (s : State) (e : Nat) : Acc := tget Acc.init s.emg.emit e
def secAcc (s : State) (x : Nat) : Acc := tget Acc.init s.emg.sect x

/-- Adds and then takes away energy in two bins of an accumulator pair. -/
def Acc.change (a : Acc) (ms ds add sub : Nat) : Acc :=
  ⟨tmod 0 a.ms ms (fun v => v + add - sub), tmod 0 a.ds ds (fun v => v + add - sub)⟩

/-- Changes the accumulators of an emitter and of sectors in two bins. -/
def accChange (s : State) (e : Nat) (secs : List Nat) (ms ds add sub : Nat) : State :=
  { s with emg := { s.emg with
      emit := tmod Acc.init s.emg.emit e (fun a => a.change ms ds add sub),
      sect := secs.foldl (fun l x => tmod Acc.init l x (fun a => a.change ms ds add sub)) s.emg.sect } }

/-- Drops the bins that have left their windows. -/
def Acc.prune (a : Acc) (ms ds : Nat) : Acc :=
  ⟨a.ms.filter (fun p => ms ≤ p.1 + 100), a.ds.filter (fun p => ds ≤ p.1 + 100)⟩

/-- EMG_BIN_BOUNDARY (R236): the oldest bins leave the windows. -/
def execEmgBinBoundary (s : State) : Host.Outcome State Fault Refusal :=
  let trim := fun (l : List (Nat × Acc)) =>
    (l.map (fun p => (p.1, p.2.prune (curMs s) (curDs s)))).filter (fun p => p.2 ≠ Acc.init)
  .next (done { s with emg := { s.emg with
    emit := trim s.emg.emit, sect := trim s.emg.sect, msBin := curMs s, dsBin := curDs s } })

/-! ### Exit sectors (R238) -/

def decChan (s : State) (c : Nat) : DecChan := tget DecChan.init s.dec c

/-! ### The angle history -/

/-- Address of entry j of the angle history of channel c (R299). -/
def histAddr (s : State) (c j : Nat) : Nat :=
  fget s R.DEC_HIST_BASE_HI F.DEC_HIST_BASE_HI_ADDR * 2 ^ 32 + (rd s R.DEC_HIST_BASE_LO).toNat + c * 0x8000 + j % 2048 * 16

/-- A sample that a reader of the angle history takes: not INVALID, and its entry not poisoned (R326) (log 51). -/
def angleGood (s : State) (c : Nat) (x : DecSample) : Bool := !x.invalid && !poisoned s (histAddr s c x.idx) 16

/-- The poisoned entries that a search of channel c, newest first, meets before it ends at `stop` are recorded (R326). -/
def angleUes (s : State) (c : Nat) (stop : DecSample → Bool) : State :=
  (((decChan s c).hist.takeWhile (fun x => !(angleGood s c x && stop x))).filterMap
    (fun x => firstPoison s (histAddr s c x.idx) 16)).foldl ueRecord s

/-- The latest valid sample of a decimation channel within AGE_MAX µs of a fire tick: value and age. -/
def govSample (s : State) (c fire ageMax : Nat) : Option (Int × Nat) :=
  match (decChan s c).hist.find? (angleGood s c) with
  | none => none
  | some x =>
    let age := ceilDiv (fire - x.stamp) 1250
    if age ≤ ageMax then some (x.value, age) else none

/-- The bins that the interval from `lo` to `hi` touches on an axis. -/
def binsOf (edge : Int) (step : Nat) (lo hi : Int) : List Nat :=
  let bin := fun (x : Int) => (clampInt 0 7 ((x - edge) / (max 1 step : Nat))).toNat
  (List.range (bin hi + 1)).drop (bin lo)

/-- AZ bins and EL bins of a shot of emitter e in a bank, or `none` without a valid angle sample. -/
def shotBins (s : State) (e b fire : Nat) : Option (List Nat × List Nat) :=
  let c := bankScanner s b
  let cfg := sealWord s (R.SEC_CFG c)
  let ageMax := getFld cfg F.SEC_CFG_AGE_MAX
  match govSample s (getFld cfg F.SEC_CFG_CH_X) fire ageMax, govSample s (getFld cfg F.SEC_CFG_CH_Y) fire ageMax with
  | some (x, ax), some (y, ay) =>
    let ofs := sealWord s (R.EM_OFS e)
    let x := x + signed 16 (getFld ofs F.EM_OFS_OFS_X)
    let y := y + signed 16 (getFld ofs F.EM_OFS_OFS_Y)
    let wx : Int := (sealFld s (R.SEC_SLEW c) F.SEC_SLEW_SLEW_X * ax : Nat)
    let wy : Int := (sealFld s (R.SEC_SLEW c) F.SEC_SLEW_SLEW_Y * ay : Nat)
    some (binsOf (signed 16 (sealFld s (R.SEC_X c) F.SEC_X_LO)) (sealFld s (R.SEC_X c) F.SEC_X_STEP) (x - wx) (x + wx),
      binsOf (signed 16 (sealFld s (R.SEC_Y c) F.SEC_Y_LO)) (sealFld s (R.SEC_Y c) F.SEC_Y_STEP) (y - wy) (y + wy))
  | _, _ => none

/-- The charged sectors: 64 × scanner + 8 × EL bin + AZ bin. -/
def chargedSectors (s : State) (b : Nat) (bins : List Nat × List Nat) : List Nat :=
  bins.2.flatMap (fun el => bins.1.map (fun az => 64 * bankScanner s b + 8 * el + az))

/-! ### The order of the governor's work in a tile cycle (R240) -/

/-- Work of kind k may still be done in the present tile cycle: no later kind has been. Bin boundaries need no turn, since every sum
is taken over the bins of the present tick. DEDUCED (log 139). -/
def govTurn (s : State) (k : Nat) : Bool := decide (s.emg.turn.1 ≠ now s / 2) || decide (s.emg.turn.2 ≤ k)

/-- Work of kind k is done. -/
def govDid (s : State) (k : Nat) : State := { s with emg := { s.emg with turn := (now s / 2, k) } }

/-! ### The permit (R231, R232) -/

/-- The index in the order of R231 of the first condition that fails; `none` when all ten hold. -/
def permitRefusal (s : State) (e fire : Nat) : Option Nat :=
  let b := e / 8
  let c := bankScanner s b
  let bins := shotBins s e b fire
  let secs := match bins with | some x => chargedSectors s b x | none => []
  let e1 := e1Max s
  if !flag s (R.SCN_STAT c) F.SCN_STAT_EMIT_OK then some 0
  else if flag s (R.SEC_STAT c) F.SEC_STAT_STALL_INH then some 1
  else if flag s (R.BANK_STAT b) F.BANK_STAT_INH && decide (tget 0 s.emg.inhFrom b ≤ now s / 2) then some 2
  else if !capOk s || !bitOf (sealWord s (R.EMG_EN (e / 32))).toNat (e % 32) then some 3
  else if bins.isNone then some 4
  else if bins.any (fun x => decide (3 < x.1.length) || decide (3 < x.2.length)) then some 5
  else if capEm100 s < a100 s (emAcc s e) + e1 then some 6
  else if capEm10s s < a10s s (emAcc s e) + e1 then some 7
  else if secs.any (fun x => decide (capSec100 s c < a100 s (secAcc s x) + e1)) then some 8
  else if secs.any (fun x => decide (capSec10s s c < a10s s (secAcc s x) + e1)) then some 9
  else none

/-- An accumulator above NEAR / 16 of its cap. -/
def nearCap (s : State) (a cap : Nat) : Bool := fget s R.EMG_CTRL F.EMG_CTRL_NEAR * cap < 16 * a

/-- Counts a refusal by its reason. -/
def refusePermit (s : State) (i : Nat) : State :=
  let s := finc s (R.EMG_REF (i / 2)) (if i % 2 = 0 then F.EMG_REF_FIRST else F.EMG_REF_SECOND)
  flagRaise s R.EMG_STAT F.EMG_STAT_REFUSED 530

/-- Grants a permit: reserves E1_MAX in the bins current at the grant, 8 ns after the request (R232). -/
def grantPermit (s : State) (seq e fire : Nat) : State :=
  let b := e / 8
  let c := bankScanner s b
  let secs := match shotBins s e b fire with | some x => chargedSectors s b x | none => []
  let s := accChange s e secs (grantMs s) (grantDs s) (e1Max s) 0
  let s := { s with emg := { s.emg with
    resv := s.emg.resv ++ [⟨seq, fire, e, secs, grantMs s, grantDs s, e1Max s⟩] } }
  if nearCap s (a100 s (emAcc s e)) (capEm100 s) || nearCap s (a10s s (emAcc s e)) (capEm10s s) ||
     secs.any (fun x => nearCap s (a100 s (secAcc s x)) (capSec100 s c) || nearCap s (a10s s (secAcc s x)) (capSec10s s c)) then
    flagRaise s R.EMG_STAT F.EMG_STAT_NEAR_CAP 531
  else s

/-- The permit of a shot: the state after the request and whether it is granted. -/
def permit (s : State) (seq e fire : Nat) : State × Bool :=
  let cfg := sealWord s (R.SEC_CFG (bankScanner s (e / 8)))
  let s := angleUes (angleUes s (getFld cfg F.SEC_CFG_CH_X) (fun _ => true)) (getFld cfg F.SEC_CFG_CH_Y) (fun _ => true)
  match permitRefusal s e fire with
  | some i => (refusePermit s i, false)
  | none => (grantPermit s seq e fire, true)

/-! ### Pulse energy (R233 to R235) -/

/-- Changes the armed shot of a SEQ. -/
def modShot (s : State) (q : Nat) (f : Shot → Shot) : State :=
  { s with sht := { s.sht with shots := s.sht.shots.map (fun x => if x.msg.seq = q then f x else x) } }

/-- The armed shot of a SEQ. -/
def shotOf (s : State) (q : Nat) : Option Shot := s.sht.shots.find? (fun x => x.msg.seq = q)

/-- Instants of V_pre and V_post in 1/128 tick: 50 ns before the commanded fire time, and POST ticks after the
second accepted feedback edge (R233). -/
def vPreAt (fire : Nat) : Nat := 128 * fire - 8000
def vPostAt (s : State) (b fb : Nat) : Nat := fb + 128 * sealFld s (R.BANK_SNS b) F.BANK_SNS_POST

/-- E_meas of a shot is available 100 ns after V_post (R233). -/
def measDone (s : State) (b fb : Nat) : Bool := decide (vPostAt s b fb + 16000 ≤ 128 * now s)

/-- Notes the V_post instant of a shot of bank b that fired at `fire`; 0 says that it has none. -/
def postNote (s : State) (b fire post : Nat) : State :=
  let l := tmod [] s.emg.lastPost b (fun l => ((fire, post) :: l.filter (fun p => decide (p.1 ≠ fire))).take 8)
  { s with emg := { s.emg with lastPost := l } }

/-- V_post instant of the bank's shot before the one that fires at `fire`; 0 where that one has none. -/
def prevPost (s : State) (b fire : Nat) : Nat :=
  (((tget [] s.emg.lastPost b).filter (fun p => decide (p.1 < fire))).foldl
    (fun (m : Nat × Nat) p => if m.1 ≤ p.1 then p else m) (0, 0)).2

/-- Whether two shots of a bank overlap in the third case of R234. -/
def measSkip (s : State) (x : Shot) (fb : Nat) : Bool :=
  decide (vPreAt x.msg.fire < prevPost s x.bank.val x.msg.fire) ||
    s.sht.shots.any (fun y => decide (y.bank = x.bank) && decide (x.msg.fire < y.msg.fire) && !y.msg.withheld &&
      decide (vPreAt y.msg.fire < vPostAt s x.bank.val fb))

/-- Stored energy of a bank at a sense code, in 1/2 nF × (1/2^14 × 5/1024 V)²: CRES × (code × SNS_GAIN)². The
factor to nJ is 25 / 2^45. -/
def senseSq (s : State) (b code : Nat) : Nat := (code * sealFld s (R.BANK_SNS b) F.BANK_SNS_SNS_GAIN) ^ 2

/-- V² = (code × 2.5 × SNS_GAIN / (16,384 × 256))² = senseSq × 25 / (4 × 2^44) V². -/
abbrev vSqDen : Nat := 4 * 2 ^ 44

/-- E_meas in nJ, a negative value taken as 0 (R233). -/
def eMeas (s : State) (b pre post : Nat) : Nat :=
  let k := sealFld s (R.BANK_CAL b) F.BANK_CAL_KOPT
  let c := sealFld s (R.BANK_CAL b) F.BANK_CAL_CRES
  (roundDiv ((k * c * 25 * (senseSq s b pre - senseSq s b post) : Nat)) (65536 * 2 * vSqDen)).toNat

/-- V_PRE_SAMPLE (R233): 50 ns before the commanded fire time; `v` is the code of RESSNS. -/
def execVPreSample (q : BitVec 48) (v : BitVec 14) (s : State) : Host.Outcome State Fault Refusal :=
  .next (done (match shotOf s q.toNat with
    | some x => if vPreAt x.msg.fire ≤ 128 * now s ∧ ¬ x.msg.withheld then modShot s q.toNat (fun y => { y with vpre := some v.toNat }) else s
    | none => s))

/-- V_POST_SAMPLE (R233): POST ticks after the second accepted feedback edge; a shot whose pair has been refused has none. -/
def execVPostSample (q : BitVec 48) (v : BitVec 14) (s : State) : Host.Outcome State Fault Refusal :=
  .next (done (match shotOf s q.toNat with
    | some x => match x.fbTick with
      | some fb =>
        if vPostAt s x.bank.val fb ≤ 128 * now s ∧ x.ok ≠ some false then
          let skip := measSkip s x fb
          let s := modShot s q.toNat (fun y => { y with vpost := some v.toNat, skip := skip })
          postNote s x.bank.val x.msg.fire (vPostAt s x.bank.val fb)
        else s
      | none => s
    | none => s))

/-- Inhibits a bank (R235), for permits from the next tile cycle on: RESREF[b] is driven to 0 V. -/
def bankInhibit (s : State) (b cause : Nat) : State :=
  if flag s (R.BANK_STAT b) F.BANK_STAT_INH then s
  else
    let s := fset (fon s (R.BANK_STAT b) F.BANK_STAT_INH) (R.BANK_STAT b) F.BANK_STAT_CAUSE cause
    let s := { s with emg := { s.emg with inhFrom := tput 0 s.emg.inhFrom b (now s / 2 + 1) } }
    raise (fset s (R.BANK_STAT b) F.BANK_STAT_OUT 0) (512 + b)

/-- Replaces the reservation of a shot in its bins by the charged energy (R232). -/
def settleResv (s : State) (q e : Nat) : State :=
  match s.emg.resv.find? (fun r => r.seq = q) with
  | none => s
  | some r =>
    let s := accChange s r.emitter r.sectors r.msBin r.dsBin e r.amount
    { s with emg := { s.emg with resv := s.emg.resv.filter (fun r => r.seq ≠ q) } }

/-- Settles a measured shot (R234, R235). -/
def settleMeasured (s : State) (x : Shot) (e : Nat) : State :=
  let b := x.bank.val
  let s := fset s (R.BANK_MEAS b) F.BANK_MEAS_E_LAST (satN 16 e)
  let s := settleResv s x.msg.seq (max e (eFloor s))
  let s := { s with emg := { s.emg with
    senseRun := tput 0 s.emg.senseRun b (if e < eFloor s then tget 0 s.emg.senseRun b + 1 else 0) } }
  if e1Max s < e then bankInhibit (flagRaise s R.EMG_STAT F.EMG_STAT_OVER_PULSE 532) b 1
  else if 8 ≤ tget 0 s.emg.senseRun b then bankInhibit s b 3
  else s

/-- The charged energy of a shot is known (R233, R234): it had no accepted feedback, or is not measured, or E_meas is available. -/
def settleReady (s : State) (x : Shot) : Bool :=
  !x.settled && (match x.ok with
    | some false => true
    | some true => x.skip || (x.vpre.isSome && x.vpost.isSome && (match x.fbTick with
        | some fb => measDone s x.bank.val fb
        | none => false))
    | none => false)

/-- Settles a shot (R232, R234). -/
def settleShot (s : State) (x : Shot) : State :=
  let q := x.msg.seq
  let s := govDid (modShot s q (fun y => { y with settled := true })) 2
  match x.ok with
  | some true =>
    if x.skip then settleResv (fon (finc s (R.BANK_CNT x.bank.val) F.BANK_CNT_MEAS_SKIP) R.EMG_STAT F.EMG_STAT_MEAS_SKIP) q (e1Max s)
    else settleMeasured s x (eMeas s x.bank.val (x.vpre.getD 0) (x.vpost.getD 0))
  | _ => finc (settleResv s q (e1Max s)) (R.BANK_CNT x.bank.val) F.BANK_CNT_UNMEAS

/-- SHOT_SETTLE (R232, R240): E_c is known and replaces the reservation, in commanded-fire-time order. -/
def execShotSettle (q : BitVec 48) (s : State) : Host.Outcome State Fault Refusal :=
  .next (done (match shotOf s q.toNat with
    | none => s
    | some x =>
      if settleReady s x && govTurn s 2 && s.sht.shots.all (fun y => !settleReady s y || decide (x.msg.fire ≤ y.msg.fire)) then
        settleShot s x
      else s))

/-- A shot measurement of the bank is pending: from its V_pre instant until its E_meas is available (R235). -/
def measPending (s : State) (b : Nat) : Bool :=
  s.sht.shots.any (fun x => decide (x.bank.val = b) && !x.msg.withheld && decide (vPreAt x.msg.fire ≤ 128 * now s) &&
    (match x.ok, x.fbTick with
      | some false, _ => false
      | _, some fb => !measDone s b fb
      | _, none => !x.settled))

/-- STORE_MONITOR_SAMPLE (R235): every 1 µs, while no shot measurement is pending. The energy cap is in
0.1 µJ, that is 100 nJ. -/
def execStoreMonitorSample (b : Fin 16) (v : BitVec 14) (s : State) : Host.Outcome State Fault Refusal :=
  .next (done (
    if measPending s b.val || !govTurn s 3 then s
    else
      let s := fset (govDid s 3) (R.BANK_MEAS b.val) F.BANK_MEAS_VNOW v.toNat
      let c := sealFld s (R.BANK_CAL b.val) F.BANK_CAL_CRES
      let past := decide (sealFld s (R.BANK_CFG b.val) F.BANK_CFG_ESTORE_MAX * 100 * (2 * vSqDen)
        < c * 25 * senseSq s b.val v.toNat)
      let run := if past then tget 0 s.emg.storeRun b.val + 1 else 0
      let s := { s with emg := { s.emg with storeRun := tput 0 s.emg.storeRun b.val run } }
      if 3 ≤ run then bankInhibit (flagRaise s R.EMG_STAT F.EMG_STAT_STORE_OVER 533) b.val 2 else s))

/-- BANK_RELEASE (R235): a write of RELEASE, in STANDBY. -/
def execBankRelease (b : Fin 16) (s : State) : Host.Outcome State Fault Refusal :=
  .next (done (withRwm s fun s =>
    let s := fset (foff s (R.BANK_STAT b.val) F.BANK_STAT_INH) (R.BANK_STAT b.val) F.BANK_STAT_CAUSE 0
    { s with emg := { s.emg with
        senseRun := tput 0 s.emg.senseRun b.val 0, storeRun := tput 0 s.emg.storeRun b.val 0 } }))

/-! ### Reservoir reference (R230, R241) -/

/-- RESREF[b] stands at 0 V (R230, R457). -/
def resrefZero (s : State) (b : Nat) : Bool :=
  refsOff s || !capOk s || flag s (R.BANK_STAT b) F.BANK_STAT_INH || flag s R.THM_STAT F.THM_STAT_CRIT

/-- Frames are running: in SCAN, and in CALIBRATE with CAL_RUN = 1. -/
def framesRunning (s : State) : Bool := firing s

/-- The band whose code RESREF follows. -/
def resrefBand (s : State) : Nat := if framesRunning s then s.emg.band else bandOf s

/-- The code RESREF[b] moves towards. -/
def resrefTarget (s : State) (b : Nat) : Nat :=
  if resrefZero s b then 0
  else
    let r := rd s (R.BANK_REF b)
    let c := if resrefBand s ≤ 1 then getFld r F.BANK_REF_REF_C
      else if resrefBand s = 2 then getFld r F.BANK_REF_REF_N else getFld r F.BANK_REF_REF_W
    min c (sealFld s (R.BANK_CFG b) F.BANK_CFG_REF_MAX)

/-- RESREF_STEP (R241): the output moves by one code per µs, at once where it exceeds REF_MAX; a forced zero is driven. -/
def execResrefStep (b : Fin 16) (s : State) : Host.Outcome State Fault Refusal :=
  let out := min (sealFld s (R.BANK_CFG b.val) F.BANK_CFG_REF_MAX) (fget s (R.BANK_STAT b.val) F.BANK_STAT_OUT)
  let goal := resrefTarget s b.val
  .next (done (fset s (R.BANK_STAT b.val) F.BANK_STAT_OUT
    (if resrefZero s b.val then 0
     else if out < goal then out + 1 else if goal < out then out - 1 else out)))

/-- REF_MAX of a bank, which no driven code exceeds (R241). -/
def refMax (s : State) (b : Nat) : Nat := sealFld s (R.BANK_CFG b) F.BANK_CFG_REF_MAX

/-- Drives every RESREF that must stand at 0 V to it, and none above REF_MAX (R241). -/
def resrefForce (s : State) : State :=
  (List.range 16).foldl (fun s b => fset s (R.BANK_STAT b) F.BANK_STAT_OUT
    (if resrefZero s b then 0 else min (refMax s b) (fget s (R.BANK_STAT b) F.BANK_STAT_OUT))) s

/-! ### Commit and preset (R237, R242) -/

/-- The CRC-32C over the staged words of the sealed set (R242). -/
def stagedCrc (s : State) : Word := crc32c (sealedRegs.flatMap (fun a => leBytes 4 (rd s a).toNat))

/-- The 100 bins before the current one at one hundredth of the cap, rounded up (R237). -/
def presetBins (cur cap : Nat) : List (Nat × Nat) :=
  if cap = 0 then [] else (List.range 100).map (fun i => (cur - 100 + i, ceilDiv cap 100))

/-- An active set takes effect; the first after a power-on reset decides the preset by its own PRESET bit and
caps (R237). -/
def sealActivate (s : State) (words : List (Nat × Word)) : State :=
  let first := !s.emg.presetDone
  let s := resrefForce { s with emg := { s.emg with act := words, presetDone := true } }
  let s := fon s R.EMG_STAT F.EMG_STAT_CAP_OK
  if first && decide (sealFld s R.EMG_E1 F.EMG_E1_PRESET = 1) then
    let em : Acc := ⟨presetBins (curMs s) (capEm100 s), presetBins (curDs s) (capEm10s s)⟩
    let sc := fun (c : Nat) => (⟨presetBins (curMs s) (capSec100 s c), presetBins (curDs s) (capSec10s s c)⟩ : Acc)
    { s with emg := { s.emg with
        emit := (List.range 128).foldl (fun l e => tput Acc.init l e em) [],
        sect := (List.range 128).foldl (fun l x => tput Acc.init l x (sc (x / 64))) [] } }
  else s

/-- The staged words of the sealed set. -/
def stagedWords (s : State) : List (Nat × Word) :=
  sealedRegs.foldl (fun l a => tput (regReset a) l a (rd s a)) []

/-- A commit of the sealed set is refused (R242). -/
def emgCapErr (s : State) : State := flagRaise s R.EMG_STAT F.EMG_STAT_CAP_ERR 535

/-- EXP_CRC matches: the staged set becomes the active set (R242). -/
def emgCopy (s : State) : State :=
  let crc := stagedCrc s
  raise (wr (sealActivate s (stagedWords s)) R.EMG_ACT_CRC crc) 534

/-! ### Stall stop (R239) -/

/-- STALL_STOP (R239): a stall declaration of scanner c reaches the governor; without one nothing happens. -/
def execStallStop (c : Fin 2) (s : State) : Host.Outcome State Fault Refusal :=
  .next (done (
    if (tget Scanner.init s.ctl.scns c.val).stalled && govTurn s 3 then
      let s := { s with ctl := { s.ctl with scns := tmod Scanner.init s.ctl.scns c.val (fun x => { x with stalled := false }) } }
      let s := finc (fon (govDid s 3) (R.SEC_STAT c.val) F.SEC_STAT_STALL_INH) (R.SEC_STAT c.val) F.SEC_STAT_STALL_STOPS
      raise { s with emg := { s.emg with stallAt := tput 0 s.emg.stallAt c.val (now s) } } (528 + c.val)
    else s))

/-- OUTPUT_GATE (R239): at an instant between receipt and 1 ms after it, the output gate holds the EMIT_TRIG
outputs of the scanner's banks low. -/
def execOutputGate (c : Fin 2) (s : State) : Host.Outcome State Fault Refusal :=
  .next (done (
    if flag s (R.SEC_STAT c.val) F.SEC_STAT_STALL_INH then
      let s := fon s (R.SEC_STAT c.val) F.SEC_STAT_GATE
      { s with pins := { s.pins with emitTrig := s.pins.emitTrig.filter (fun p => bankScanner s (p.1 / 8) ≠ c.val) } }
    else s))

/-- Entry into RUN clears the stall inhibit and the gate (R239). -/
def stallClear (s : State) (c : Nat) : State :=
  foff (foff s (R.SEC_STAT c) F.SEC_STAT_STALL_INH) (R.SEC_STAT c) F.SEC_STAT_GATE

/-- EMG_MON_VAL for the present EMG_MON_SEL (R244). -/
def monVal (s : State) : Nat :=
  let k := fget s R.EMG_MON_SEL F.EMG_MON_SEL_KIND
  let i := fget s R.EMG_MON_SEL F.EMG_MON_SEL_INDEX
  let a := if k = 1 then secAcc s i else if k = 2 then secAcc s (64 + i) else emAcc s i
  if (k = 1 ∨ k = 2) ∧ 64 ≤ i then 0
  else satN 32 (ceilDiv (if flag s R.EMG_MON_SEL F.EMG_MON_SEL_WIN then a10s s a else a100 s a) 1000)

/-- FILL100 of SEC_STAT (R245): the highest 100 ms sector fill of scanner c; its rounding is left open
(log 7). -/
def fill100 (s : State) (c : Nat) : Nat × State :=
  let v := (List.range 64).foldl (fun m i => max m (a100 s (secAcc s (64 * c + i)))) 0
  if capSec100 s c = 0 then (if v = 0 then 0 else 255, s)
  else
    let (q, s) := openQuot s (256 * v) (capSec100 s c)
    (satN 8 q, s)

end Sys2Proof.Machine
end

