-- ==== Sys2Proof/Machine/Queues.lean ====
section
/-! DEFINITION. Silt queues (R352 to R359): segments, units, items, the sink's operations and the forced
reset. -/

namespace Sys2Proof.Machine

def slqQueue (s : State) (q : Nat) : SlqQueue := tget SlqQueue.init s.slq.queues q
def modQueue (s : State) (q : Nat) (f : SlqQueue → SlqQueue) : State :=
  { s with slq := { s.slq with queues := tmod SlqQueue.init s.slq.queues q f } }

/-- The queue is enabled with the point stage as its source (R352). -/
def slqPoint (s : State) (q : Nat) : Bool :=
  flag s (R.SLQ_CFG q) F.SLQ_CFG_EN && !flag s (R.SLQ_CFG q) F.SLQ_CFG_SRC

/-- Segments of a queue. -/
def SlqQueue.segs (u : SlqQueue) : Nat := (u.units.map (fun x => x.segs.length)).sum

/-- Free segments of the clay and of the SDRAM pool (R353). -/
def clayFree (s : State) : Nat := fget s R.CM_SPILL_LEN F.CM_SPILL_LEN_LEN / 1024 - s.slq.clay.length
def sdramFree (s : State) : Nat :=
  if flag s R.SLQ_CTRL F.SLQ_CTRL_SD_EN then fget s R.SLQ_CTRL F.SLQ_CTRL_SD_SEGS - s.slq.sdram.length else 0

/-- End of the last closed unit that every unit before it is closed up to (WR of R356). -/
def slqWr (u : SlqQueue) : Nat :=
  u.start + ((u.units.takeWhile (fun x => x.closed)).map (fun x => x.bytes.length)).sum

/-- Shows the levels of a queue and of the pools (R369, R370). -/
def slqShow (s : State) (q : Nat) : State :=
  let u := slqQueue s q
  let s := fset s (R.SLQ_LEVEL q) F.SLQ_LEVEL_SEGS (satN 16 u.segs)
  let s := fset s (R.SLQ_LEVEL q) F.SLQ_LEVEL_MARKED (satN 16 (ceilDiv (u.rd - u.rel) 64))
  let s := fset s (R.SLQ_QSTAT q) F.SLQ_QSTAT_MARKS u.marks.length
  let s := fset s R.SLQ_POOL_C F.SLQ_POOL_C_FREE (clayFree s)
  fset s R.SLQ_POOL_S F.SLQ_POOL_S_FREE (sdramFree s)

/-- One more segment for a queue that holds `held` (R353, R354): the pool it comes from. A reserve item may
exceed SEG_MAX by four and take from the reserves. -/
def slqPool (s : State) (q held : Nat) (reserve : Bool) : Option Bool :=
  let lim := max 1 (fget s (R.SLQ_CFG q) F.SLQ_CFG_SEG_MAX) + (if reserve then 4 else 0)
  let rsv := if reserve then 0 else fget s R.SLQ_CTRL F.SLQ_CTRL_POOL_RSV
  if lim ≤ held then none
  else if !flag s (R.SLQ_CFG q) F.SLQ_CFG_SD_ONLY && decide (rsv < clayFree s) then some false
  else if rsv < sdramFree s then some true
  else none

/-- The lowest segment number that is not in use. -/
def segFree (l : List Nat) : Nat := ((List.range l.length).find? (fun i => !l.contains i)).getD l.length

/-- Takes up to `n` segments; `none` when the queue cannot have them all. DEDUCED (log 32). -/
def slqTake (s : State) (q : Nat) (reserve : Bool) : Nat → Nat → Option (State × List (Bool × Nat))
  | 0, _ => some (s, [])
  | n + 1, held =>
    match slqPool s q held reserve with
    | none => none
    | some p =>
      let i := segFree (if p then s.slq.sdram else s.slq.clay)
      let s := { s with slq := if p then { s.slq with sdram := s.slq.sdram ++ [i] } else { s.slq with clay := s.slq.clay ++ [i] } }
      match slqTake s q reserve n (held + 1) with
      | none => none
      | some (s, l) => some (s, (p, i) :: l)

/-- Returns segments to their pools. -/
def slqGive (s : State) (l : List (Bool × Nat)) : State :=
  { s with slq := { s.slq with
      clay := s.slq.clay.filter (fun i => !l.contains (false, i)), sdram := s.slq.sdram.filter (fun i => !l.contains (true, i)) } }

/-! ### The bytes of a unit in its segments (R353, R355) -/

/-- Address of a segment: in the silt spill region of clay memory or in the SDRAM pool. -/
def segAddr (s : State) (g : Bool × Nat) : Nat :=
  (if g.1 then fget s R.SLQ_SD_BASE_HI F.SLQ_SD_BASE_HI_ADDR * 2 ^ 32 + (rd s R.SLQ_SD_BASE_LO).toNat / 1024 * 1024
   else 0x0100000000 + fget s R.CM_SPILL_BASE F.CM_SPILL_BASE_OFS) + 1024 * g.2

/-- The segment of a unit that holds its byte at an offset. -/
def SlqUnit.segAt (u : SlqUnit) (o : Nat) : Option (Bool × Nat) := u.segs[o / 1024 - u.freed]?

/-- A line goes to its segment; a segment outside its pool takes nothing. -/
def segStore (s : State) (g : Bool × Nat) (o : Nat) (bs : List Byte) : State :=
  if g.1 then
    if g.2 < fget s R.SLQ_CTRL F.SLQ_CTRL_SD_SEGS then blockWrite s (segAddr s g + o) bs else s
  else if g.2 < fget s R.CM_SPILL_LEN F.CM_SPILL_LEN_LEN / 1024 then clayStore s (segAddr s g + o) bs else s

/-- Lines a to b − 1 of a unit pass to its segments. -/
def slqFlush (s : State) (u : SlqUnit) (a b : Nat) : State :=
  (List.range (b - a)).foldl (fun s i =>
    match u.segAt (64 * (a + i)) with
    | some g => segStore s g (64 * (a + i) % 1024) ((u.bytes.drop (64 * (a + i))).take 64)
    | none => s) s

/-- A byte of a unit as its segment holds it. -/
def unitByte (s : State) (u : SlqUnit) (o : Nat) : Byte :=
  match u.segAt o with
  | some g => mget s (segAddr s g + o % 1024)
  | none => u.bytes.getD o 0

/-- The first of the bytes o to o + n − 1 of a unit that reads with an error: a poisoned word, or an SDRAM that does not serve
(R326, R337). -/
def unitBad (s : State) (u : SlqUnit) (o n : Nat) : Option Nat :=
  ((List.range n).filterMap (fun i => (u.segAt (o + i)).map (fun g => (g.1, segAddr s g + (o + i) % 1024)))).findSome? (fun p =>
    if p.1 && !drcServes s then some p.2 else firstPoison s p.2 1)

/-! ### The head buffer (R353, R356) -/

/-- The next four lines that the sink reads: stream offset, unit, and line within it. -/
def nextLines (x : SlqQueue) : List (Nat × SlqUnit × Nat) :=
  let us := x.units.takeWhile (fun u => u.closed)
  let ls := us.foldl (fun (acc : Nat × List (Nat × SlqUnit × Nat)) u =>
    (acc.1 + u.bytes.length, acc.2 ++ (if 4 ≤ acc.2.length ∨ acc.1 + u.bytes.length ≤ x.rd then []
      else ((List.range 4).map (fun i => (x.rd - acc.1) / 64 + i)).filterMap (fun i =>
        if 64 * i < u.bytes.length then some (acc.1 + 64 * i, u, i) else none)))) (x.start, [])
  ls.2.take 4

/-- The bytes of line i of a unit as its segment holds them; none where the read meets an error. -/
def lineRead (s : State) (u : SlqUnit) (i : Nat) : Option (List Byte) :=
  let n := min 64 (u.bytes.length - 64 * i)
  if (unitBad s u (64 * i) n).isSome then none else some ((List.range n).map (fun j => unitByte s u (64 * i + j)))

/-- The head buffer fills from the segments up to its four lines; at a line that reads with an error it waits for the sink's own read,
which meets the error (R357) (log 80). -/
def headFill (s : State) (q : Nat) : State :=
  let ls := (nextLines (slqQueue s q)).filterMap (fun p =>
    (match lookup (slqQueue s q).head p.1 with
      | some bs => some bs
      | none => lineRead s p.2.1 p.2.2).map (fun bs => (p.1, bs)))
  modQueue s q (fun x => { x with head := ls })

/-- The byte at offset o of a unit whose first byte has stream offset a: from the head buffer, else from its segment. -/
def sinkByte (s : State) (x : SlqQueue) (a : Nat) (u : SlqUnit) (o : Nat) : Byte :=
  match lookup x.head (a + o / 64 * 64) with
  | some bs => bs.getD (o % 64) 0
  | none => unitByte s u o

/-- The first byte that the sink takes from a segment and that reads with an error. -/
def sinkBad (s : State) (x : SlqQueue) (a : Nat) (u : SlqUnit) (o n : Nat) : Option Nat :=
  ((List.range n).map (o + ·)).findSome? (fun i =>
    if (lookup x.head (a + i / 64 * 64)).isSome then none else unitBad s u i 1)

/-- A header that is not stored (R352, R354). -/
def slqHdrLost (s : State) (q : Nat) : State := finc s (R.SLQ_CNT q) F.SLQ_CNT_HDR_LOST

/-- Appends a unit of its first bytes; segments from the reserve (R354). -/
def slqNewUnit (s : State) (q : Nat) (u : SlqUnit) : State × Bool :=
  match slqTake s q true (max 1 (ceilDiv u.bytes.length 1024)) (slqQueue s q).segs with
  | none => (fon (slqHdrLost s q) R.SLQ_STAT F.SLQ_STAT_POOL_EMPTY, false)
  | some (s, l) =>
    let u := { u with segs := l }
    let s := modQueue s q (fun x => { x with units := x.units ++ [u] })
    (slqShow (if u.closed then headFill (slqFlush s u 0 (ceilDiv u.bytes.length 64)) q else s) q, true)

/-- A slice opens in its queue: its first 32 B are set aside for the header (R355) (log 32). -/
def slqOpen (s : State) (q row frame : Nat) : State :=
  if slqPoint s q then
    (slqNewUnit s q ⟨some (row, frame), false, List.replicate 32 0, [32], [], 0⟩).1
  else slqHdrLost s q

/-- A record enqueued whole (R353). -/
def slqRecord (s : State) (q : Nat) (bs : List Byte) : State :=
  (slqNewUnit s q ⟨none, true, bs, [bs.length], [], 0⟩).1

/-- Appends an item to an open slice (R354); false when it is not accepted (log 32) (log 40). -/
def slqItem (s : State) (q row frame : Nat) (bs : List Byte) (reserve : Bool) : State × Bool :=
  match (slqQueue s q).units.find? (fun u => u.key = some (row, frame) ∧ u.closed = false) with
  | none => (s, false)
  | some u =>
    let need := ceilDiv (u.bytes.length + bs.length) 1024 - (u.segs.length + u.freed)
    match slqTake s q reserve need (slqQueue s q).segs with
    | none =>
      if reserve then (fon s R.SLQ_STAT F.SLQ_STAT_POOL_EMPTY, false)
      else
        let s := finc (fon s (R.SLQ_QSTAT q) F.SLQ_QSTAT_FULL) (R.SLQ_CNT q) F.SLQ_CNT_FULL_CNT
        (raise (foff s (R.SLQ_QSTAT q) F.SLQ_QSTAT_CREDIT) (401 + 2 * (q / 16)), false)
    | some (s, l) =>
      let w := { u with bytes := u.bytes ++ bs, items := u.items ++ [u.bytes.length + bs.length], segs := u.segs ++ l }
      let s := modQueue s q (fun x => { x with units := x.units.map (fun v =>
        if v.key = some (row, frame) ∧ v.closed = false then w else v) })
      let s := slqFlush s w (u.bytes.length / 64) (w.bytes.length / 64)
      (slqShow (fon s (R.SLQ_QSTAT q) F.SLQ_QSTAT_CREDIT) q, true)

/-- Flushes the assembly line, writes the header and marks the slice's unit closed (R355). -/
def slqClose (s : State) (q row frame : Nat) (hdr : List Byte) : State :=
  match (slqQueue s q).units.find? (fun u => u.key = some (row, frame) ∧ u.closed = false) with
  | none => s
  | some u =>
    let w := { u with bytes := hdr ++ u.bytes.drop 32, closed := true }
    let s := modQueue s q (fun x => { x with units := x.units.map (fun v =>
      if v.key = some (row, frame) ∧ v.closed = false then w else v) })
    headFill (slqFlush (slqFlush s w (u.bytes.length / 64) (ceilDiv w.bytes.length 64)) w 0 1) q

/-- Units whose last byte REL has passed leave the list; segments that REL has passed return (R356). -/
def slqTrim : Nat → State → Nat → State
  | 0, s, _ => s
  | fuel + 1, s, q =>
    let x := slqQueue s q
    match x.units with
    | [] => s
    | u :: us =>
      if u.closed ∧ x.start + u.bytes.length ≤ x.rel then
        slqTrim fuel (slqGive (modQueue s q (fun x => { x with units := us, start := x.start + u.bytes.length })) u.segs) q
      else
        let n := (x.rel - x.start) / 1024 - u.freed
        slqGive (modQueue s q (fun x => { x with units := { u with segs := u.segs.drop n, freed := u.freed + n } :: us }))
          (u.segs.take n)

/-- A RELEASE or REWIND that names no mark held (R356). -/
def slqMarkErr (s : State) (q : Nat) : State :=
  raise (fon s R.SLQ_STAT F.SLQ_STAT_MARK_ERR) (400 + 2 * (q / 16))

/-- MARK (R356): the present RD is appended to the mark list. -/
def slqMark (s : State) (q : Nat) : State :=
  if (slqQueue s q).marks.length < 32 then slqShow (modQueue s q (fun x => { x with marks := x.marks ++ [x.rd] })) q else s

/-- Bytes that the sink can read: from RD to WR. -/
def slqUnread (u : SlqQueue) : List Byte :=
  (((u.units.takeWhile (fun x => x.closed)).flatMap (fun x => x.bytes)).drop (u.rd - u.start))

/-- READ (R356): the sink takes `n` bytes. -/
def slqRead (s : State) (q n : Nat) : State :=
  slqShow (headFill (modQueue s q (fun x => { x with rd := min (slqWr x) (x.rd + n) })) q) q

/-- RELEASE n (R356). -/
def slqRelease (s : State) (q n : Nat) : State :=
  let x := slqQueue s q
  if n ≤ x.marks.length then
    let s := modQueue s q (fun x => { x with rel := (x.marks.drop n).headD x.rd, marks := x.marks.drop n })
    fon (slqShow (slqTrim (x.units.length + 1) s q) q) (R.SLQ_QSTAT q) F.SLQ_QSTAT_CREDIT
  else slqMarkErr s q

/-- REWIND k (R356): RD returns to mark k, the later marks are removed and the head buffer is filled again from the segments. -/
def slqRewind (s : State) (q k : Nat) : State :=
  let x := slqQueue s q
  match x.marks[k]? with
  | some m => slqShow (headFill (modQueue s q (fun x => { x with rd := m, marks := x.marks.take (k + 1), head := [] })) q) q
  | none => slqMarkErr s q

/-- Items that a forced reset discards unsent (R357, R368): those that end beyond RD, an open unit's too, whose header is none yet
(log 143). -/
def slqUnsent (u : SlqQueue) : Nat :=
  (u.units.foldl (fun (acc : Nat × Nat) x =>
    (acc.1 + x.bytes.length, acc.2 + ((if x.closed then x.items else x.items.filter (· ≠ 32)).filter (fun e => decide (u.rd < acc.1 + e))).length))
    (u.start, 0)).2

/-- The forced reset of a queue (R357, R358): slices that stay open count the points of their new units (R181). DEDUCED (log 143). -/
def slqReset (s : State) (q cause : Nat) : State :=
  let x := slqQueue s q
  let lost := slqUnsent x
  let s := x.units.foldl (fun s u => slqGive s u.segs) s
  let s := modQueue s q (fun _ => SlqQueue.init)
  let s := fadd s (R.SLQ_LOST q) F.SLQ_LOST_LOST lost
  let s := finc s (R.SLQ_CNT q) F.SLQ_CNT_RESETS
  let s := fset (fon s (R.SLQ_QSTAT q) F.SLQ_QSTAT_RESET) (R.SLQ_QSTAT q) F.SLQ_QSTAT_CAUSE cause
  let s := if cause = 1 then fon s R.SLQ_STAT F.SLQ_STAT_PTR_ERR
    else if cause = 2 then fon s R.SLQ_STAT F.SLQ_STAT_SPILL_UE else s
  let s := raise s (400 + 2 * (q / 16))
  let s := slqRecord s q (wordsBytes [0x52000000 + cause * 0x100000 + q, lost % 2 ^ 32,
    fget s R.SHT_FRAME_NO F.SHT_FRAME_NO_FRAME_NO % 0x10000 * 0x10000,
    fget s (R.SLQ_CNT q) F.SLQ_CNT_RESETS * 0x10000])
  let s := { s with ps := { s.ps with slices := s.ps.slices.map (fun y => if y.queue.val = q then { y with points := 0 } else y) } }
  x.units.foldl (fun s u => match u.key with
    | some (row, frame) => if u.closed || decide (0x10000 ≤ row) then s else slqOpen s q row frame
    | none => s) (slqShow s q)

/-- SLQ_PTR_CHECK (R357): the two copies of the pointers of queue q are compared. -/
def execSlqPtrCheck (q : Fin 256) (mismatch : Bool) (s : State) : Host.Outcome State Fault Refusal :=
  .next (done (if mismatch then slqReset s q.val 1 else s))

/-- SLQ_GROUP_REINIT (R359): each queue of the group undergoes a forced reset with CAUSE 3. -/
def execSlqGroupReinit (g : Fin 16) (s : State) : Host.Outcome State Fault Refusal :=
  let s := (List.range 16).foldl (fun s j => slqReset s (16 * g.val + j) 3) s
  let s := fset s R.SLQ_GRP F.SLQ_GRP_REINIT_BUSY (setBitN (fget s R.SLQ_GRP F.SLQ_GRP_REINIT_BUSY) g.val true)
  .next (done (reinitOn s (0x70 + g.val)))

/-- The queue of a tile's slices, as of the last frame start (R352). -/
def slqRouteOf (s : State) (t : Nat) : Fin 256 := Fin.ofNat 256 (tget t s.slq.route t)

/-- SLQ_ROUTE takes effect (R352). -/
def slqLatchRoute (s : State) : State :=
  { s with slq := { s.slq with route := (List.range 64).foldl (fun l t =>
      tput t l t (fget s (R.SLQ_ROUTE t) F.SLQ_ROUTE_QUEUE)) [] } }

end Sys2Proof.Machine
end

