-- ==== Sys2Proof/Machine/Slices.lean ====
section
/-! DEFINITION. Slices (R171, R179 to R181): opening, the reference fire time, closing with gap records and
header, timeout. -/

namespace Sys2Proof.Machine

/-- The slice of a row in a frame. -/
def sliceOf (s : State) (row frame : Nat) : Option Slice :=
  s.ps.slices.find? (fun x => x.row.num = row ∧ x.frame = frame)

/-- The slice of a SAFETY row that closed with points still to be formed (R182). -/
def shutOf (s : State) (row frame : Nat) : Option Slice :=
  s.ps.shut.find? (fun x => x.row.num = row ∧ x.frame = frame)

/-- Changes the slice of a row in a frame. -/
def modSlice (s : State) (row frame : Nat) (f : Slice → Slice) : State :=
  { s with ps := { s.ps with slices := s.ps.slices.map (fun x =>
      if x.row.num = row ∧ x.frame = frame then f x else x) } }

/-- A listening channel is accounted for (R179). -/
def Slice.accounted (x : Slice) (n : Nat) : Bool := x.compl.contains n || x.allGap n

/-- Ticks from the frame start to the nominal end of a row (R89). -/
def rowEnd (s : State) (r : Row) : Nat :=
  r.start + (r.depth - 1) * r.period + r.jspan + fget s R.SHT_HOLD F.SHT_HOLD_MAX_DEFER + r.winOfs + 256 * (r.binw + 1)

/-- A gap record that no unit could take (R104, R354). -/
def gapUnstored (s : State) (tile : Nat) : State :=
  raise (fon { s with sht := { s.sht with
      lostTiles := if s.sht.lostTiles.contains tile then s.sht.lostTiles else s.sht.lostTiles ++ [tile] } }
    R.SHT_STAT F.SHT_STAT_GAP_LOST) Ev.gapLost

/-- Appends the gap records of a slice to its unit, as the gap record area holds them; a poisoned one counts as not stored
(R326). Answers how many were stored. -/
def sliceGaps (s : State) (x : Slice) (gs : List GapRec) : State × Nat :=
  gs.foldl (fun acc g =>
    match firstPoison acc.1 (gapAddr acc.1 g.slot) 16 with
    | some p => (gapUnstored (ueRecord acc.1 p) g.tile, acc.2)
    | none =>
      let r := slqItem acc.1 x.queue.val x.row.num x.frame (mbytes acc.1 (gapAddr acc.1 g.slot) 16) true
      if r.2 then (r.1, acc.2 + 1) else (gapUnstored r.1 g.tile, acc.2)) (s, 0)

/-- The slice header (R181) with the unit words of its tiles as of slice open. -/
def Slice.header (x : Slice) (words : List Byte) (close gaps : Nat) : List Byte :=
  let missing := ((listenChans x.row.listen).filter (fun n => !x.accounted n)).length
  wordsBytes ([0x53000000 + b2n x.ext * 2 ^ 23 + close * 2 ^ 20 + x.row.sliceId % 2 ^ 16,
    x.row.num * 2 ^ 18 + x.frame % 2 ^ 16, x.row.start,
    (x.points % 4096) * 2 ^ 20 + (gaps % 4096) * 2 ^ 8 + missing % 256]) ++ words

/-- The header of a slice that closes, with the words that its pending header holds; one that reads poisoned counts as not stored and
leaves its 32 bytes zero (R326, R104) (log 40). -/
def sliceHeader (s : State) (x : Slice) (close gaps : Nat) : State × List Byte :=
  let tile := (x.row.listen.head?.map (·.1.val)).getD 0
  match hdrAddr s x.place with
  | none => (gapUnstored s tile, List.replicate 32 0)
  | some a =>
    match firstPoison s a 32 with
    | some p => (gapUnstored (ueRecord s p) tile, List.replicate 32 0)
    | none => (s, x.header (mbytes s (a + 16) 16) close gaps)

/-- Closes a slice (R179, R180, R355): its gap records follow the points, the header is written and the unit
is closed. -/
def sliceClose (s : State) (x : Slice) (close : Nat) : State :=
  let gs := s.sht.gaps.filter (fun g => g.row = x.row.num ∧ g.frame = x.frame)
  let s := { s with
    sht := { s.sht with gaps := s.sht.gaps.filter (fun g => !(decide (g.row = x.row.num) && decide (g.frame = x.frame))) },
    ps := { s.ps with slices := s.ps.slices.filter (fun y => !(decide (y.row.num = x.row.num) && decide (y.frame = x.frame))) } }
  let s :=
    if x.stored then
      let r := sliceGaps s x gs
      let h := sliceHeader r.1 x close r.2
      slqClose h.1 x.queue.val x.row.num x.frame h.2
    else s
  if close = 0 then s
  else
    let s := raise (finc (fon s R.PS_STAT F.PS_STAT_TIMEOUT) R.PS_CNT_A F.PS_CNT_A_TIMEOUT_CNT) Ev.sliceTimeout
    if x.row.safety then
      let live := s.ps.shut.filter (fun y => s.saf.frames.any (fun f => decide (f.no = y.frame)))
      markBadA { s with ps := { s.ps with shut := live ++ [x] } } x.frame
    else s

/-- Opens the slice of a fetched row (R179, R180, R352). -/
def sliceOpen (s : State) (r : Row) (frame tick : Nat) : State :=
  match r.listen with
  | [] => s
  | e :: _ =>
    let s := match s.ps.slices with
      | x :: _ => if 256 ≤ s.ps.slices.length then sliceClose s x 2 else s
      | [] => s
    let q := slqRouteOf s e.1.val
    let words := (List.range 4).map (fun i =>
      match (r.places.zip r.listen).find? (fun p => p.1 = i) with
      | some p => (unitWord s p.2.1.val).toNat
      | none => 0)
    let s := slqOpen s q.val r.num frame
    let stored := (slqQueue s q.val).units.any (fun u => decide (u.key = some (r.num, frame)) && !u.closed)
    let place := ((List.range 256).find? (fun i => s.ps.slices.all (fun y => decide (y.place ≠ i)))).getD 0
    let x : Slice := ⟨r, frame, tick, q, stored, flag s R.PS_CTRL F.PS_CTRL_EXT, place, none, [], [], 0⟩
    let s := match hdrAddr s place with
      | some a => clayStore s a (x.header (wordsBytes words) 0 0)
      | none => s
    { s with ps := { s.ps with slices := s.ps.slices ++ [x] } }

/-- The row has resolved: its references reach the point stage (R171); a SAFETY row without one makes the frame
invalid in channel A (R253). -/
def rowResolved (s : State) (row frame : Nat) (safety : Bool) (refs : Option Nat × Option Nat) : State :=
  let s := modSlice s row frame (fun x => { x with ref := some refs })
  let s := { s with ps := { s.ps with shut := s.ps.shut.map (fun x =>
      if x.row.num = row ∧ x.frame = frame then { x with ref := some refs } else x) } }
  if safety && refs.1.isNone then markBadA s frame else s

/-- Echoes of a slice that have not become points. -/
def sliceEchoes (s : State) (x : Slice) : Nat :=
  (s.ps.echoes.filter (fun e => decide (e.row = x.row.num) && decide (e.frame = x.frame))).length

/-- All three conditions of R179 hold. -/
def sliceReady (s : State) (x : Slice) : Bool :=
  x.ref.isSome && (listenChans x.row.listen).all (fun n => x.accounted n) && decide (sliceEchoes s x = 0)

/-- SLICE_CLOSE (R179). -/
def execSliceClose (r : Fin 16384) (f : BitVec 32) (s : State) : Host.Outcome State Fault Refusal :=
  .next (done (match sliceOf s r.val f.toNat with
    | some x => if sliceReady s x then sliceClose s x 0 else s
    | none => s))

/-- SLICE_TIMEOUT (R180): SLICE_TO × 100 µs after the row's END. -/
def execSliceTimeout (r : Fin 16384) (f : BitVec 32) (s : State) : Host.Outcome State Fault Refusal :=
  let lim := ticksUs (100 * max 1 (fget s R.PS_CTRL F.PS_CTRL_SLICE_TO))
  .next (done (match sliceOf s r.val f.toNat with
    | some x => if x.frameTick + rowEnd s x.row + lim ≤ now s then sliceClose s x 1 else s
    | none => s))

end Sys2Proof.Machine
end

