-- ==== Sys2Proof/Machine/Scheduler.lean ====
section
/-! DEFINITION. The shot scheduler (04_shot_scheduling.md): validation of a schedule range, rows and slots, the
code and jitter generator, arming, firing, feedback and its resolution. -/

namespace Sys2Proof.Machine

/-! ### Rows (R89) -/

/-- Address of row r. -/
def rowAddr (s : State) (r : Nat) : Nat := schedBase s + 0x80 * r

/-- The first address of row r that the scheduler does not reach (R25, R29). -/
def rowOutside (s : State) (r : Nat) : Option Nat := firstOutside s .scheduler (rowAddr s r) 0x80 false

/-- ROW_CRC matches, no word of the row is poisoned, and the row lies in clay memory (R25, R103, R326). -/
def rowCrcOk (s : State) (r : Nat) : Bool :=
  (rowOutside s r).isNone && !poisoned s (rowAddr s r) 0x80 &&
    decide ((crc32c (mbytes s (rowAddr s r) 0x7C)).toNat = mrd s (rowAddr s r + 0x7C) 4)

/-- The fields of row r (R89). -/
def rowAt (s : State) (r : Nat) : Row :=
  let w := fun (o : Nat) => mrd s (rowAddr s r + o) 4
  let es := (List.range 4).filter (fun i => bitOf (w (0x14 + 4 * i)) 31)
  { num := r, valid := bitOf (w 0) 31, trip2 := bitOf (w 0) 30, gate := bitsOf (w 0) 29 28,
    emitter := bitsOf (w 0) 6 0, start := w 4,
    depth := if bitsOf (w 8) 23 16 = 0 then 256 else bitsOf (w 8) 23 16, period := bitsOf (w 8) 15 0,
    binw := bitsOf (w 0xC) 19 16, winOfs := bitsOf (w 0xC) 15 0,
    codeMask := if bitsOf (w 0x10) 31 16 = 0 then 0xFFFF else bitsOf (w 0x10) 31 16,
    jspan := min 2500 (bitsOf (w 0x10) 11 0),
    listen := es.map (fun i => (Fin.ofNat 64 (bitsOf (w (0x14 + 4 * i)) 21 16), bitsOf (w (0x14 + 4 * i)) 15 0)),
    places := es,
    safety := bitOf (w 0x24) 17, scanner := bitsOf (w 0x24) 16 16, sliceId := bitsOf (w 0x24) 15 0 }

/-! ### Validation (R90) -/

/-- The scheduler reads row r: a decode error outside clay memory (R25), an uncorrectable error at a poisoned word
(R326). -/
def rowRead (s : State) (r : Nat) : State :=
  match rowOutside s r with
  | some x => decodeErr s x false
  | none => match firstPoison s (rowAddr s r) 0x80 with
    | some p => ueRecord s p
    | none => s

/-- The rows of the range NEXT_FIRST to NEXT_LAST frozen at COMMIT. -/
def rangeRows (x : Nat × Nat) : List Nat := (List.range (x.2 + 1)).drop x.1

/-- A row breaks check 3. -/
def fieldBad (r : Row) : Bool :=
  decide (r.period < 2500) || decide (65536 < r.winOfs + 256 * (r.binw + 1)) ||
    (List.range r.listen.length).any (fun i => ((r.listen.drop (i + 1)).map (·.1)).contains (r.listen.getD i (0, 0)).1)

/-- The first row whose START is below that of the valid row before it (check 4). -/
def orderBad : List Row → Option Nat
  | a :: b :: l => if b.start < a.start then some b.num else orderBad (b :: l)
  | _ => none

/-- Two rows select a common channel. -/
def shareChan (a b : Row) : Bool :=
  a.listen.any (fun x => b.listen.any (fun y => decide (x.1 = y.1) && (List.range 16).any (fun k => bitOf x.2 k && bitOf y.2 k)))

/-- Valid rows whose interval [START, END] covers an instant. -/
def rowsOver (s : State) (rs : List Row) (t : Nat) : List Row :=
  rs.filter (fun r => decide (r.start ≤ t) && decide (t ≤ rowEnd s r))

/-- The sum of 312.5 / PERIOD exceeds 1, as numerator and denominator of 625 / (2 × PERIOD). -/
def rateBad (rs : List Row) : Bool :=
  let f := rs.foldl (fun (acc : Nat × Nat) r => (acc.1 * (2 * r.period) + 625 * acc.2, acc.2 * (2 * r.period))) (0, 1)
  decide (f.2 < f.1)

/-- The checks of R90 in their order: error code and row of the first failure. DEDUCED (log 30). -/
def validate (s : State) (x : Nat × Nat) : Option (Nat × Nat) :=
  if x.2 < x.1 then some (1, x.1)
  else match (rangeRows x).find? (fun r => !rowCrcOk s r) with
  | some r => some (2, r)
  | none =>
    let rs := ((rangeRows x).map (rowAt s)).filter (fun r => r.valid)
    let first := fun (p : Row → Bool) => (rs.find? p).map (fun r => r.num)
    match first fieldBad with
    | some r => some (3, r)
    | none => match orderBad rs with
    | some r => some (4, r)
    | none => match first (fun r => decide ((rd s R.SHT_FRAME_LEN).toNat < rowEnd s r + 128000)) with
    | some r => some (5, r)
    | none => match first (fun r => rs.any (fun q => decide (q.num < r.num) && decide (r.start ≤ rowEnd s q) && decide (q.start ≤ rowEnd s r) && shareChan q r)) with
    | some r => some (6, r)
    | none => match first (fun r => decide (64 < (rowsOver s rs r.start).length)) with
    | some r => some (7, r)
    | none => (first (fun r => rateBad (rowsOver s rs r.start))).map (fun r => (8, r))

/-- SCHED_COMMIT (R90, R91): validation starts and the range is frozen; ignored while BUSY = 1. -/
def execSchedCommit (s : State) : Host.Outcome State Fault Refusal :=
  .next (done (
    if flag s R.SHT_VAL F.SHT_VAL_BUSY then s
    else
      let s := fon (fon s R.SHT_NEXT F.SHT_NEXT_COMMIT) R.SHT_VAL F.SHT_VAL_BUSY
      { s with sht := { s.sht with
        frozen := some (fget s R.SHT_NEXT F.SHT_NEXT_FIRST, fget s R.SHT_NEXT F.SHT_NEXT_LAST), commitAt := now s } }))

/-- VALIDATION_DONE (R90): reading a row that fails check 2 shows what it met (R25, R326). -/
def execValidationDone (s : State) : Host.Outcome State Fault Refusal :=
  .next (done (match s.sht.frozen with
    | none => s
    | some x =>
      let s := foff (foff s R.SHT_NEXT F.SHT_NEXT_COMMIT) R.SHT_VAL F.SHT_VAL_BUSY
      let bad := validate s x
      let s := match bad with | some (2, r) => rowRead s r | _ => s
      let s := { s with sht := { s.sht with frozen := none } }
      match bad with
      | some (e, r) => fset (fset (foff s R.SHT_VAL F.SHT_VAL_OK) R.SHT_VAL F.SHT_VAL_ERR e) R.SHT_VAL F.SHT_VAL_ERR_ROW r
      | none =>
        let s := fset (fset (fon s R.SHT_VAL F.SHT_VAL_OK) R.SHT_VAL F.SHT_VAL_ERR 0) R.SHT_VAL F.SHT_VAL_ERR_ROW 0
        fon { s with sht := { s.sht with pendRange := some x } } R.SHT_VAL F.SHT_VAL_PENDING))

/-- SCHED_ROW_WRITE (R91): the host writes bytes from an offset of a row; discarded where the row is protected, a decode
error where it lies outside clay memory (R25). -/
def execSchedRowWrite (r : Fin 16384) (o : Fin 128) (d : List Byte) (s : State) : Host.Outcome State Fault Refusal :=
  let bs := d.take (128 - o.val)
  .next (done (match firstOutside s .host (rowAddr s r.val + o.val) bs.length true with
    | some x => decodeErr s (x % 2 ^ 40) true
    | none => (memWrite s (rowAddr s r.val + o.val) bs false).1))

/-! ### The generator (R95, R96) -/

/-- K0 and K1. -/
def keys (s : State) : BitVec 64 × BitVec 64 :=
  let w := fun (m : Nat) => (tget 0#32 s.sht.seed m).toNat
  if flag s R.SHT_CTRL F.SHT_CTRL_CODE_MODE then
    (BitVec.ofNat 64 (w 0 + w 1 * 2 ^ 32), BitVec.ofNat 64 (w 2 + w 3 * 2 ^ 32))
  else (BitVec.ofNat 64 (ofLeBytes (s.sec.codeKey.take 8)), BitVec.ofNat 64 (ofLeBytes (s.sec.codeKey.drop 8)))

/-- The 64-bit output u for a SEQ. -/
def generator (k0 k1 n : BitVec 64) : BitVec 64 :=
  let z := k0 ^^^ (n * 0x9E3779B97F4A7C15#64)
  let z := (z ^^^ (z >>> 30)) * 0xBF58476D1CE4E5B9#64
  let z := (z ^^^ (z >>> 27)) * 0x94D049BB133111EB#64
  z ^^^ (z >>> 31) ^^^ k1

/-- The output for a SEQ of this node. -/
def drawOf (s : State) (seq : Nat) : BitVec 64 :=
  generator (keys s).1 (keys s).2 (BitVec.ofNat 64 (fget s R.SHT_NODE F.SHT_NODE_NODE_ID * 2 ^ 48 + seq))

/-- Jitter offset in ticks. -/
def jitterOf (u : BitVec 64) (jspan : Nat) : Nat := u.toNat % 2 ^ 32 * (jspan + 1) / 2 ^ 32

/-- Spacing code: c, else the next higher code, cyclically, that the mask permits. -/
def codeOf (u : BitVec 64) (mask : Nat) : Nat :=
  let c := u.toNat / 2 ^ 32 % 16
  (((List.range 16).map (fun k => (c + k) % 16)).find? (fun x => bitOf mask x)).getD c

/-! ### Slots (R94) and the resolution of rows (R171) -/

/-- Changes slot k. -/
def modSlot (s : State) (k : Nat) (f : Slot → Slot) : State :=
  { s with sht := { s.sht with slots := s.sht.slots.map (fun p => if p.1 = k then (k, f p.2) else p) } }

/-- Slot of a row in a frame. -/
def slotOf (s : State) (row frame : Nat) : Option (Nat × Slot) :=
  s.sht.slots.find? (fun p => p.2.row.num = row ∧ p.2.frame = frame)

/-- `n` more shots of slot k have resolved; with the last one the row reports its references and the slot is
free. -/
def slotResolve (s : State) (k n : Nat) : State :=
  let s := modSlot s k (fun x => { x with resolved := x.resolved + n })
  match lookup s.sht.slots k with
  | some x =>
    if x.row.depth ≤ x.resolved then
      rowResolved { s with sht := { s.sht with slots := eraseKey s.sht.slots k } } x.row.num x.frame x.row.safety x.refs
    else s
  | none => s

/-- When the window of the last shot of a slot's row closes, by its jittered time (R119). DEDUCED (log 133). -/
def lastClose (s : State) (x : Slot) : Nat :=
  let i := x.row.depth - 1
  x.frameTick + x.row.start + i * x.row.period + jitterOf (drawOf s ((x.seq0 + i) % 2 ^ 48)) x.row.jspan +
    x.row.winOfs + 256 * (x.row.binw + 1)

/-- The last shot of a slot's row is dropped before its arm instant (R119); entries that no histogram waits for leave the
list. -/
def lastDropped (s : State) (x : Slot) : State :=
  { s with sht := { s.sht with
    unarmed := s.sht.unarmed.filter (fun e => now s < e.2.2 + 40) ++ [(x.row.num, x.frame, lastClose s x)] } }

/-- Drops the shots of slot k that have not been armed, with reason FRAME_CUT (R93, R462). -/
def slotCut (s : State) (k : Nat) : State :=
  match lookup s.sht.slots k with
  | none => s
  | some x =>
    let n := x.row.depth - x.next
    if n = 0 then s
    else
      let s := fon s R.SHT_STAT F.SHT_STAT_FRAME_CUT
      let s := gapListen s Gap.frameCut x.row.listen x.row.num x.frame x.next n ((x.seq0 + x.next) % 2 ^ 48)
      slotResolve (modSlot (lastDropped s x) k (fun x => { x with next := x.row.depth })) k n

/-- Cuts every slot; rows not fetched are not fetched (log 29). -/
def cutSlots (s : State) : State :=
  (s.sht.slots.map (·.1)).foldl slotCut { s with sht := { s.sht with nextRow := none } }

/-- Firing begins (R92, R95): SEQ starts at 0 and the reference instant is now; a mark that is already on its way counts if it
arrives later. RESREF follows the present band (R241). -/
def startFiring (s : State) : State :=
  { s with sht := { s.sht with seq := 0, refTick := now s, frameTick := none, markLost := false, nextRow := none,
                               marks := s.sht.marks.filter (fun t => now s < t) },
           emg := { s.emg with band := bandOf s } }

/-- A change of CAL_RUN (R88, R92): from 0 to 1 in CALIBRATE firing begins; from 1 to 0 it ends as under
R462 and EMIT_TRIG is low (R88). DEDUCED (log 29). -/
def calRunSet (s : State) (on : Bool) : State :=
  let old := flag s R.SHT_CTRL F.SHT_CTRL_CAL_RUN
  let s := fsetB s R.SHT_CTRL F.SHT_CTRL_CAL_RUN on
  if modeOf s = .calibrate ∧ on ∧ ¬ old then startFiring s
  else if modeOf s = .calibrate ∧ ¬ on ∧ old then cutSlots { s with pins := { s.pins with emitTrig := [] } }
  else s

/-- CAL_RUN (R92): the bit is set. -/
def execCalRun (s : State) : Host.Outcome State Fault Refusal := .next (done (calRunSet s true))

/-- ROW_FETCH (R94, R103): the next row of the active range goes into a slot, its shots take their SEQ and its
slice opens. DEDUCED (log 25). -/
def execRowFetch (s : State) : Host.Outcome State Fault Refusal :=
  .next (done (match s.sht.nextRow, s.sht.frameTick with
    | some r, some t =>
      if firing s && !s.sht.markLost && !s.tdc.frameHeld && decide (s.sht.slots.length < 64) then
        let frame := (rd s R.SHT_FRAME_NO).toNat
        let s := { s with sht := { s.sht with
          nextRow := if r < fget s R.SHT_ACT F.SHT_ACT_LAST then some (r + 1) else none } }
        let s := rowRead s r
        if !rowCrcOk s r then
          let s := finc (fon s R.SHT_STAT F.SHT_STAT_ROW_CRC) (R.GAP_CNT (Gap.rowCrc - 1)) F.GAP_CNT_COUNT
          markBadB (markBadA s frame) frame
        else
          let row := rowAt s r
          if !row.valid then s
          else
            let k := ((List.range 64).find? (fun k => (lookup s.sht.slots k).isNone)).getD 64
            let s := { s with sht := { s.sht with
              seq := (s.sht.seq + row.depth) % 2 ^ 48,
              slots := insertKey s.sht.slots k ⟨row, frame, t, s.sht.seq, 0, none, (none, none), 0⟩ } }
            let s := if row.safety then
                { s with saf := { s.saf with rows := s.saf.rows ++ [⟨frame, r, row.emitter, row.listen⟩] } } else s
            sliceOpen s row frame t
      else s
    | _, _ => s))

/-! ### Arming (R94, R97, R98) -/

/-- The next shot of a slot. -/
structure Cand where
  slot : Nat
  x : Slot
  seq : Nat
  code : Nat
  jittered : Nat
  deriving DecidableEq, Repr

def Cand.emitter (c : Cand) : Nat := c.x.row.emitter
def Cand.bank (c : Cand) : Nat := c.x.row.emitter / 8

/-- The candidate of a slot. -/
def candOf (s : State) (k : Nat) (x : Slot) : Cand :=
  let q := (x.seq0 + x.next) % 2 ^ 48
  let u := drawOf s q
  ⟨k, x, q, codeOf u x.row.codeMask, x.frameTick + x.row.start + x.next * x.row.period + jitterOf u x.row.jspan⟩

/-- Order of jittered times, ties by row index (R97). -/
def candBefore (a b : Cand) : Bool := a.jittered < b.jittered || (a.jittered == b.jittered && a.x.row.num < b.x.row.num)

/-- Inserts a candidate in order. -/
def candInsert (c : Cand) : List Cand → List Cand
  | [] => [c]
  | d :: l => if candBefore c d then c :: d :: l else d :: candInsert c l

/-- The next shots of all slots in order. -/
def candidates (s : State) : List Cand :=
  (s.sht.slots.filter (fun p => p.2.next < p.2.row.depth)).foldl (fun l p => candInsert (candOf s p.1 p.2) l) []

/-- FB_MAX; below FB_MIN it acts as FB_MIN. -/
def fbMax (s : State) : Nat := max (fget s R.SHT_FB F.SHT_FB_FB_MAX) (fget s R.SHT_FB F.SHT_FB_FB_MIN)
def fbMin (s : State) : Nat := fget s R.SHT_FB F.SHT_FB_FB_MIN

/-- Bank b is halted. DEDUCED (log 27). -/
def bankHalted (s : State) (b : Nat) : Bool := bitOf (fget s R.SHT_BANK F.SHT_BANK_HALTED) b

/-- The earliest fire time of a candidate after the latest fire times of its emitter and bank (R97). -/
def postponed (s : State) (c : Cand) (le lb : List (Nat × Nat)) : Nat :=
  let e := match lookup le c.emitter with | some t => t + fget s R.SHT_HOLD F.SHT_HOLD_EMIT_HOLD | none => 0
  let b := match lookup lb c.bank with | some t => t + fbMax s + 22 | none => 0
  max c.jittered (max e b)

/-- A planned candidate: fire time after postponement, and whether it exceeds MAX_DEFER. -/
structure Planned where
  c : Cand
  fire : Nat
  congest : Bool
  deriving DecidableEq, Repr

/-- Instant at which a planned shot is decided: 400 ns before its fire time, or before its jittered time when it is
dropped (log 28). -/
def Planned.due (p : Planned) : Nat := (if p.congest then p.c.jittered else p.fire) - 500

/-- Plans candidates in order, each against the fire times of those before it (log 27). -/
def planShots (s : State) : List Cand → List (Nat × Nat) → List (Nat × Nat) → List Planned
  | [], _, _ => []
  | c :: l, le, lb =>
    if bankHalted s c.bank then ⟨c, c.jittered, false⟩ :: planShots s l le lb
    else
      let fire := postponed s c le lb
      if c.jittered + fget s R.SHT_HOLD F.SHT_HOLD_MAX_DEFER < fire then ⟨c, fire, true⟩ :: planShots s l le lb
      else ⟨c, fire, false⟩ ::
        planShots s l (insertKey (eraseKey le c.emitter) c.emitter fire) (insertKey (eraseKey lb c.bank) c.bank fire)

/-- The planned shot that is due first; ties to the lower emitter number (R240), then by order. -/
def firstDue : List Planned → Option Planned
  | [] => none
  | p :: l => match firstDue l with
    | some q => if q.due < p.due ∨ (q.due = p.due ∧ q.c.emitter < p.c.emitter) then some q else some p
    | none => some p

/-- The shots of a row have one fewer to arm; a dropped or withheld shot is resolved. -/
def slotTake (s : State) (k : Nat) : State := modSlot s k (fun x => { x with next := x.next + 1 })

/-- Drops the next shot of a slot with a gap record. -/
def dropShot (s : State) (c : Cand) (reason : Nat) : State :=
  let s := slotTake s c.slot
  let s := if c.x.next + 1 = c.x.row.depth then lastDropped s c.x else s
  let s := gapListen s reason c.x.row.listen c.x.row.num c.x.frame c.x.next 1 c.seq
  slotResolve s c.slot 1

/-- What the arm message carries of the row's previous shot (R101). -/
def prevOf (x : Slot) : Option (Nat × Nat × Option Nat) :=
  if x.row.trip2 then
    x.prev.map (fun p => (p.fire, p.code, p.ofs))
  else none

/-- The arm message of a shot (R101). -/
def armMsgOf (c : Cand) (fire : Nat) (withheld : Bool) : ArmMsg :=
  let r := c.x.row
  { seq := c.seq, row := r.num, idx := c.x.next, depth := r.depth, frame := c.x.frame, fire := fire, code := c.code,
    binw := r.binw, winOfs := r.winOfs, gate := r.gate, trip2 := r.trip2, prev := prevOf c.x, safety := r.safety,
    emitter := r.emitter, scanner := r.scanner, withheld := withheld, listen := r.listen }

/-- Shots that have ended their feedback wait and are settled leave the list. -/
def purgeShots (s : State) : State :=
  { s with sht := { s.sht with shots := s.sht.shots.filter (fun x => !(x.waited && x.settled)) } }

/-- The reason for which a shot at its arm instant is withheld (R98), before the permit. DEDUCED (log 24). -/
def withholdReason (s : State) (c : Cand) (fire : Nat) : Option Nat :=
  if c.x.row.gate % 2 = 1 ∧ qualifierAt s (128 * (fire - 500)) = false then some Gap.gate
  else if c.seq % 8 < fget s R.SHT_CTRL F.SHT_CTRL_THROTTLE then some Gap.thermal
  else if s.tdc.unlocked.contains 64 then some Gap.tdcUnlock
  else none

/-- A shot reaches its arm instant: armed, or withheld with a gap record (R98) (log 24). Either way it is from now on the
row's previous shot (log 132). -/
def armShot (s : State) (c : Cand) (fire : Nat) : State :=
  let pre := withholdReason s c fire
  let (s, why) := match pre with
    | some r => (s, some r)
    | none =>
      let p := permit (govDid s 4) c.seq c.emitter fire
      (p.1, if p.2 then none else some Gap.emission)
  let m := armMsgOf c fire why.isSome
  let s := { s with sht := { s.sht with
    lastEmit := insertKey (eraseKey s.sht.lastEmit c.emitter) c.emitter fire,
    lastBank := insertKey (eraseKey s.sht.lastBank c.bank) c.bank fire,
    armMsgs := s.sht.armMsgs ++ [m] } }
  let s := modSlot s c.slot (fun x => { x with next := x.next + 1, prev := some ⟨fire, c.code, c.seq, none⟩ })
  match why with
  | some r =>
    slotResolve (gapListen s r c.x.row.listen c.x.row.num c.x.frame c.x.next 1 c.seq) c.slot 1
  | none =>
    let s := purgeShots s
    let s := { s with sht := { s.sht with
      shots := s.sht.shots ++ [⟨m, Fin.ofNat 16 c.bank, false, false, [], false, none, none, none, none, none, false, false, false⟩] } }
    if m.safety then
      { s with saf := { s.saf with bshots := s.saf.bshots ++
        [⟨c.seq, m.frame, m.row, m.emitter, fire, m.code, m.listen, [], [], false, 0⟩] } }
    else s

/-- Ticks between two instants at which the block acts: 1, or 2 in the low-power clock mode. -/
def tickStep (s : State) : Nat := if lowPower s then 2 else 1

/-- SHOT_ARM (R94, R97): the shot that is due first. `behind` says that the scheduler is behind and cannot arm
it by its arm instant. DEDUCED (log 28). -/
def execShotArm (behind : Bool) (s : State) : Host.Outcome State Fault Refusal :=
  .next (done (
    if !firing s || s.sht.markLost || s.tdc.frameHeld then s
    else match firstDue (planShots s (candidates s) s.sht.lastEmit s.sht.lastBank) with
    | none => s
    | some p =>
      if now s < p.due ∨ govTurn s 4 = false then s
      else
        let c := p.c
        if bankHalted s c.bank then dropShot s c Gap.bankHalt
        else
          let s := if c.jittered < p.fire then finc s R.SHT_CNT_A F.SHT_CNT_A_DEFER_CNT else s
          if p.congest then dropShot (fon s R.SHT_STAT F.SHT_STAT_CONGEST) c Gap.congest
          else if behind || decide (p.due + tickStep s ≤ now s) then
            dropShot (finc (fon s R.SHT_STAT F.SHT_STAT_LATE) R.SHT_CNT_A F.SHT_CNT_A_LATE_CNT) c Gap.late
          else armShot s c p.fire))

/-! ### Firing (R95) -/

/-- EMIT_TRIG of a bank may rise: the scheduler fires and the output gate is open (R88, R239). -/
def trigAllowed (s : State) (b : Nat) : Bool :=
  firing s && !flag s (R.SEC_STAT (bankScanner s b)) F.SEC_STAT_GATE && !flag s R.THM_STAT F.THM_STAT_CRIT

/-- EMIT_TRIG[e] is high until a tick. -/
def trigHigh (s : State) (e until_ : Nat) : State :=
  if trigAllowed s (e / 8) then
    { s with pins := { s.pins with emitTrig := s.pins.emitTrig.filter (fun p => p.1 ≠ e) ++
      [(e, max until_ (tget 0 s.pins.emitTrig e))] } }
  else s

/-- Pulse width in ticks. -/
def pulseWidth (s : State) : Nat := max 2 (fget s R.SHT_CTRL F.SHT_CTRL_PW)

/-- The bank of a fired shot waits for its feedback (R71, R99): the run of waits goes on, or a new one begins. -/
def fbBusyAdd (s : State) (x : Shot) : State :=
  let old := tget (0, 0) s.sht.fbBusy x.bank.val
  let fin := x.msg.fire + fbMax s + 22
  let run := if x.msg.fire ≤ old.2 then (old.1, max old.2 fin) else (x.msg.fire, fin)
  { s with sht := { s.sht with fbBusy := tput (0, 0) s.sht.fbBusy x.bank.val run } }

/-- SHOT_FIRE (R95): the first pulse rises at the commanded fire time. -/
def execShotFire (q : BitVec 48) (s : State) : Host.Outcome State Fault Refusal :=
  .next (done (match shotOf s q.toNat with
    | some x =>
      if !x.fired && decide (x.msg.fire ≤ now s) then
        trigHigh (modShot (fbBusyAdd s x) q.toNat (fun x => { x with fired := true, fbLost := s.tdc.unlocked.contains 64 }))
          x.msg.emitter (x.msg.fire + pulseWidth s)
      else s
    | none => s))

/-- SECOND_PULSE (R95): one code spacing after the first. -/
def execSecondPulse (q : BitVec 48) (s : State) : Host.Outcome State Fault Refusal :=
  .next (done (match shotOf s q.toNat with
    | some x =>
      let at2 := x.msg.fire + codeTicks x.msg.code
      if x.fired && !x.second && decide (at2 ≤ now s) then
        trigHigh (modShot s q.toNat (fun x => { x with second := true })) x.msg.emitter (at2 + pulseWidth s)
      else s
    | none => s))

/-! ### Feedback (R99, R100) -/

/-- Last tick of a shot's feedback wait. -/
def waitEnd (s : State) (x : Shot) : Nat := x.msg.fire + fbMax s + 22

/-- EMIT_FB_EDGE (R99): a rising edge on EMIT_FB[b]. -/
def execEmitFbEdge (b : Fin 16) (e : TdcEdge) (s : State) : Host.Outcome State Fault Refusal :=
  let t := edgeTime s 64 b.val e
  .next (done (
    if s.tdc.unlocked.contains 64 then s
    else match (bankWaiting s b.val).find? (fun x => decide (128 * x.msg.fire ≤ t) && decide (t ≤ 128 * waitEnd s x)) with
    | none => finc s R.SHT_CNT_B F.SHT_CNT_B_STRAY
    | some x =>
      let ev := eventTime t x.msg.fire
      if coarseOvf ev then s
      else modShot s x.msg.seq (fun x => { x with
        edges := x.edges ++ [ev], fbTick := if x.edges.length = 1 then some t else x.fbTick })))

/-- What the feedback of a shot says (R99, R100). -/
inductive FbVerdict where
  | accepted (ofs : Nat)
  | noFb
  | badFb
  deriving DecidableEq, Repr

/-- The verdict over the edges of a shot. -/
def fbVerdict (s : State) (x : Shot) : FbVerdict :=
  match x.edges with
  | [] => .noFb
  | e :: l =>
    if 128 * fbMax s < e then .noFb
    else if e < 128 * fbMin s then .badFb
    else match l with
      | [f] =>
        if ((f : Int) - e - 128 * codeTicks x.msg.code).natAbs ≤ 8 * fget s R.SHT_FB F.SHT_FB_FB_TOL then .accepted e
        else .badFb
      | _ => .badFb

/-- The measured fire offset reaches the tiles (R62, R99, R100), and as the previous shot's reference the arm
messages of the row (R101). DEDUCED (log 26). -/
def deliverOfs (s : State) (x : Shot) (ofs : Nat) (subst : Bool) : State :=
  let m := x.msg
  let prev := fun (p : ArmMsg) =>
    if p.row = m.row ∧ p.frame = m.frame then
      { p with prev := p.prev.map (fun v => if v.1 = m.fire then (v.1, v.2.1, some ofs) else v) }
    else p
  let s := { s with sht := { s.sht with
    armMsgs := s.sht.armMsgs.map prev,
    slots := s.sht.slots.map (fun p => (p.1, { p.2 with prev := p.2.prev.map (fun y =>
      if y.seq = m.seq then { y with ofs := some ofs } else y) })) } }
  (listenChans m.listen).foldl (fun s n => modFe s n (fun c => { c with wins := c.wins.map (fun w =>
    if w.msg.seq = m.seq then
      { w with ofs := some ofs, subst := subst, recs := w.recs.map (fun r => { r with fbSubst := subst }) } else { w with msg := prev w.msg }) })) s

/-- The shot's records are discarded and a gap record covers it (R100): a window with a gap record yields nothing but raw
records for a capture (R105). -/
def discardShot (s : State) (x : Shot) (reason : Nat) : State :=
  let m := x.msg
  let s := (listenChans m.listen).foldl (fun s n => modFe s n (fun c => { c with wins := c.wins.map (fun w =>
    if w.msg.seq = m.seq then { w with gap := true } else w) })) s
  gapListen s reason m.listen m.row m.frame m.idx 1 m.seq

/-- One more failure of a bank; at FB_LIM it halts (R100). -/
def fbFail (s : State) (b : Nat) : State :=
  let n := tget 0 s.sht.fails b + 1
  let s := { s with sht := { s.sht with fails := tput 0 s.sht.fails b n } }
  let lim := fget s R.SHT_FB F.SHT_FB_FB_LIM
  if lim ≠ 0 ∧ lim ≤ n ∧ ¬ bankHalted s b then
    raise (fset s R.SHT_BANK F.SHT_BANK_HALTED (setBitN (fget s R.SHT_BANK F.SHT_BANK_HALTED) b true)) Ev.bankHalt
  else s

/-- Applies a verdict: counters, policy, offset delivery and the bank's run of failures. Answers the offset in
force. -/
def fbApply (s : State) (x : Shot) (v : FbVerdict) : State × Option Nat :=
  match v with
  | .accepted e => (deliverOfs { s with sht := { s.sht with fails := tput 0 s.sht.fails x.bank.val 0 } } x e false, some e)
  | v =>
    let no := decide (v = .noFb)
    let s := if no then finc (fon s R.SHT_STAT F.SHT_STAT_NO_FB) R.SHT_CNT_B F.SHT_CNT_B_NO_FB
      else finc (fon s R.SHT_STAT F.SHT_STAT_BAD_FB) R.SHT_CNT_B F.SHT_CNT_B_BAD_FB
    if flag s R.SHT_FB F.SHT_FB_FB_POLICY then
      let e := 128 * fget s R.SHT_FB F.SHT_FB_FB_NOM
      (fbFail (deliverOfs s x e true) x.bank.val, some e)
    else (fbFail (discardShot s x (if no then Gap.noFb else Gap.badFb)) x.bank.val, none)

/-- Takes a shot's reference into its slot and resolves it (R171). -/
def refTake (s : State) (x : Shot) (ofs : Option Nat) : State :=
  match slotOf s x.msg.row x.msg.frame with
  | none => s
  | some (k, _) =>
    let s := match ofs with
      | some e => modSlot s k (fun y => { y with refs := (some (128 * x.msg.fire + e), y.refs.1) })
      | none => s
    slotResolve s k 1

/-- The feedback of a shot is known: a capture takes the records of its windows that have closed (R108). -/
def capLate (s : State) (x : Shot) : State :=
  (listenChans x.msg.listen).foldl (fun s n =>
    ((feChan s n).wins.filter (fun w => decide (w.msg.seq = x.msg.seq) && !w.pending)).foldl (fun s w => capRecords s n w) s) s

/-- FEEDBACK_WAIT_END (R99, R100, R171) (log 26). A shot that unit 64, unlocked while it waited, left without its pair is
covered with reason TDC_UNLOCK (R79) and is no failure of its bank. -/
def execFeedbackWaitEnd (q : BitVec 48) (s : State) : Host.Outcome State Fault Refusal :=
  .next (done (match shotOf s q.toNat with
    | none => s
    | some x =>
      if x.fired && !x.waited && decide (waitEnd s x ≤ now s) then
        let v := fbVerdict s x
        let s := capFeedback s x
        let lost := x.fbLost && (match v with | .accepted _ => false | _ => true)
        let (s, ofs) := if lost then (discardShot s x Gap.tdcUnlock, none) else fbApply s x v
        let ok := match v with | .accepted _ => true | _ => false
        let s := modShot s q.toNat (fun y => { y with waited := true, ok := some ok, ofs := ofs })
        let s := if ok then s else postNote s x.bank.val x.msg.fire 0
        let s := { s with saf := { s.saf with bshots := s.saf.bshots.map (fun b =>
          if b.seq = x.msg.seq then { b with ok := ofs.isSome, ofs := ofs.getD 0 } else b) } }
        refTake (capLate s x) x ofs
      else s))

/-- RESUME (R100): ends the halt of a bank. Its run of failures starts afresh, so that FB_LIM further ones halt it again. DESIGN CHOICE
(log 145). -/
def bankResume (s : State) (b : Nat) : State :=
  let s := fset s R.SHT_BANK F.SHT_BANK_HALTED (setBitN (fget s R.SHT_BANK F.SHT_BANK_HALTED) b false)
  { s with sht := { s.sht with fails := tput 0 s.sht.fails b 0 } }

/-- RESUME (R100). -/
def execResume (b : Fin 16) (s : State) : Host.Outcome State Fault Refusal := .next (done (bankResume s b.val))

/-! ### Seed and SEQ (R96, R106) -/

/-- SEED_CHK: the CRC-16 of the present seed. -/
def seedShow (s : State) : State :=
  fset s R.SEED_CHK F.SEED_CHK_CHK
    (crc16 ((List.range 4).flatMap (fun m => leBytes 4 (tget 0#32 s.sht.seed m).toNat))).toNat

/-- A write of SEEDm (R96): only in STANDBY. -/
def seedSet (s : State) (m : Nat) (v : Word) : State :=
  if modeOf s = .standby then seedShow { s with sht := { s.sht with seed := tput 0#32 s.sht.seed m v } }
  else raise s Ev.rwmDiscard

/-- SEED_WRITE (R96). -/
def execSeedWrite (m : Fin 4) (v : Word) (s : State) : Host.Outcome State Fault Refusal := .next (done (seedSet s m.val v))

/-- SEQ_LO_READ (R106): the read latches SEQ_HI. -/
def execSeqLoRead (s : State) : Host.Outcome State Fault Refusal :=
  .next (done (fset (wr s R.SHT_SEQ_LO (BitVec.ofNat 32 s.sht.seq)) R.SHT_SEQ_HI F.SHT_SEQ_HI_SEQ_HI (s.sht.seq / 2 ^ 32)))

end Sys2Proof.Machine
end

