-- ==== Sys2Proof/Machine/Tiles.lean ====
section
/-! DEFINITION. Grain tiles (05_grain_tiles.md): exclusion, pairing, coincidence, background, dense and sparse
histograms, the life of a buffer and its ticket. -/

namespace Sys2Proof.Machine

def gtChan (s : State) (n : Nat) : GtChan := tget GtChan.init s.gt.chan n
def modGt (s : State) (n : Nat) (f : GtChan → GtChan) : State :=
  { s with gt := { s.gt with chan := tmod GtChan.init s.gt.chan n f } }

/-- Buffer f of a channel. -/
def GtChan.buf (c : GtChan) (f : Nat) : Hist := if f = 0 then c.b0 else c.b1
def GtChan.setBuf (c : GtChan) (f : Nat) (h : Hist) : GtChan := if f = 0 then { c with b0 := h } else { c with b1 := h }

/-- Code of a buffer state in GT_BUF. -/
def BufState.code : BufState → Nat
  | .free => 0 | .filling => 1 | .posted => 2 | .held => 3 | .clearing => 3

/-- Address of the area of channel n in buffer f (R26). -/
def areaAddr (n f : Nat) : Nat := 0x0200000000 + n / 16 * 0x40000 + f * 0x10000 + n % 16 * 0x1000

/-- Generation of buffer f. -/
def bufGen (s : State) (n f : Nat) : Nat :=
  fget s (R.GT_BUF (n / 16) (n % 16)) (if f = 0 then F.GT_BUF_GEN0 else F.GT_BUF_GEN1)

/-- Puts a buffer and shows its state. -/
def putBuf (s : State) (n f : Nat) (h : Hist) : State :=
  fset (modGt s n (fun c => c.setBuf f h)) (R.GT_BUF (n / 16) (n % 16)) (if f = 0 then F.GT_BUF_B0 else F.GT_BUF_B1) h.st.code

/-- Changes buffer f of channel n. -/
def modBuf (s : State) (n f : Nat) (g : Hist → Hist) : State := putBuf s n f (g ((gtChan s n).buf f))

/-! ### Loss of a histogram (R120) -/

/-- A buffer starts CLEARING. -/
def bufClear (s : State) (n f : Nat) : State :=
  modBuf s n f (fun h => { h with st := .clearing, clearAt := now s, converting := false, waiting := [] })

/-- A gap record over shots 0 to DEPTH − 1 of a histogram's channel. -/
def histGap (s : State) (n reason : Nat) (h : HistRow) : State :=
  gapAdd s reason (n / 16) (2 ^ (n % 16)) h.row h.frame 0 h.depth h.seq0

/-- A histogram lost to a refused post. -/
def histRefused (s : State) (n f : Nat) : State :=
  let t := n / 16
  let h := (gtChan s n).buf f
  let s := flagRaise (finc s (R.GT_CNT_B t) F.GT_CNT_B_REFUSED_CNT) (R.GT_STAT t) F.GT_STAT_REFUSED (4 * t)
  bufClear (histGap s n Gap.refused h.hr) n f

/-- A histogram reclaimed unfetched from its cluster queue. -/
def histDeadline (s : State) (n f : Nat) : State :=
  let t := n / 16
  let h := (gtChan s n).buf f
  let s := flagRaise (finc s (R.GT_CNT_B t) F.GT_CNT_B_DEADLINE_CNT) (R.GT_STAT t) F.GT_STAT_DEADLINE (4 * t)
  bufClear (histGap s n Gap.deadline h.hr) n f

/-- Tickets in the post buffer of tile t. -/
def postOf (s : State) (t : Nat) : List Ticket := tget [] s.gt.post t
def setPost (s : State) (t : Nat) (l : List Ticket) : State :=
  fset { s with gt := { s.gt with post := tput [] s.gt.post t l } } (R.GT_STAT t) F.GT_STAT_POSTQ l.length

/-- A POSTED histogram is reclaimed: REFUSED while its ticket is in the post buffer, from which it is withdrawn,
else DEADLINE. DEDUCED (log 39). -/
def histReclaim (s : State) (n f : Nat) : State :=
  let h := (gtChan s n).buf f
  if h.queued then histDeadline s n f
  else
    let t := n / 16
    histRefused (setPost s t ((postOf s t).filter (fun k => !(decide (k.ch = n % 16) && decide (k.buf = f))))) n f

/-! ### Start of a histogram (R113, R120) -/

/-- The adaptive state at the first arm point of a histogram (R113). BG_RATE is in 1/256 kHz. -/
def coincNext (s : State) (n : Nat) (coinc : Word) : Bool :=
  let hi := getFld coinc F.GT_COINC_BG_HI
  let lo := if hi ≤ getFld coinc F.GT_COINC_BG_LO then hi else getFld coinc F.GT_COINC_BG_LO
  let rate := (gtChan s n).bgRate
  if hi * 100 * 256 ≤ rate then true
  else if rate < lo * 100 * 256 then false
  else flag s (R.GT_OCC (n / 16) (n % 16)) F.GT_OCC_COINC_ON

/-- The settings that the first arm point of a histogram of channel n latches (R113, R125). -/
def histSet (s : State) (n : Nat) : HistSet :=
  let t := n / 16
  let h : HistSet := ⟨rd s (R.GT_CTRL t), rd s (R.GT_COINC t), rd s (R.GT_DEADLINE t), rd s (R.GT_NB t (n % 16)), false⟩
  { h with adapt := coincNext s n h.coinc }

/-- A FREE buffer enters FILLING (R120). -/
def histStart (s : State) (n f : Nat) (x : HistRow × HistSet) (lastClose : Nat) : State :=
  let t := n / 16
  let k := n % 16
  let g := if f = 0 then F.GT_BUF_GEN0 else F.GT_BUF_GEN1
  let s := fwrap s (R.GT_BUF t k) g
  putBuf s n f { Hist.init with
    st := .filling, hr := x.1, set := x.2, sparse := flag s (R.GT_OCC t k) F.GT_OCC_REP, lastClose := lastClose }

/-- The first arm point of a histogram on channel n latches its settings, decides its adaptive state and assigns it to the
next buffer: a FREE one fills; a POSTED one is reclaimed first; one that still clears fills when it is FREE, and only then does GEN
increment and the representation become fixed. DESIGN CHOICE (log 145). Windows of earlier rows leave the channel once they are decided
and the unit's replica has matched after they closed (R66). -/
def histAssign (s : State) (n : Nat) (hr : HistRow) : State :=
  let f := (gtChan s n).nextBuf
  let h := histSet s n
  let s := fsetB s (R.GT_OCC (n / 16) (n % 16)) F.GT_OCC_COINC_ON h.adapt
  let s := modGt s n (fun c => { c with nextBuf := 1 - f, last := some (hr.row, hr.frame), hadHist := true })
  let s := modFe s n (fun c => { c with wins := c.wins.filter (fun w =>
    w.pending || !(w.decided || w.gap) || (decide (w.msg.row = hr.row) && decide (w.msg.frame = hr.frame)) ||
      decide (tget 0 s.tdc.lastMatch (n / 16) ≤ winClose w.msg)) })
  match ((gtChan s n).buf f).st with
  | .free => histStart s n f (hr, h) 0
  | .posted => modBuf (histReclaim s n f) n f (fun x => { x with nextRow := some (hr, h), lastClose := 0 })
  | _ => modBuf s n f (fun x => { x with nextRow := some (hr, h), lastClose := 0 })

/-- Notes the close of a shot's window on the histogram of its row. -/
def histNote (s : State) (n : Nat) (m : ArmMsg) : State :=
  [0, 1].foldl (fun s f =>
    let h := (gtChan s n).buf f
    let mine := fun (x : HistRow) => decide (x.row = m.row) && decide (x.frame = m.frame)
    if (decide (h.st = .filling) && mine h.hr) || (match h.nextRow with | some x => mine x.1 | none => false) then
      modBuf s n f (fun h => { h with lastClose := max h.lastClose (winClose m) })
    else s) s

/-- An arm point of a listening channel, with its histogram (R42, R120). -/
def tileArm (s : State) (n : Nat) (m : ArmMsg) : State × Option Nat :=
  let s :=
    if tileRuns s (n / 16) && decide ((gtChan s n).last ≠ some (m.row, m.frame)) then
      histAssign s n ⟨m.row, m.frame, (m.seq + 2 ^ 48 - m.idx) % 2 ^ 48, m.depth, m.binw, m.winOfs, m.trip2⟩
    else s
  armPoint (histNote s n m) n m

/-- The reasons of the channels of one tile for a shot. -/
def tileArms (s : State) (t mask : Nat) (m : ArmMsg) : State × List (Nat × Nat) :=
  (bitList 16 mask).foldl (fun acc k =>
    let r := tileArm acc.1 (16 * t + k) m
    match r.2 with
    | some why => (r.1, acc.2 ++ [(k, why)])
    | none => (r.1, acc.2)) (s, [])

/-- Reasons that an unarmed channel gives. -/
def armReasons : List Nat := [Gap.settle, Gap.channelOff, Gap.overload, Gap.bias, Gap.tdcUnlock]

/-- One gap record per reason over the channels of a tile that were not armed. -/
def armGaps (s : State) (t : Nat) (m : ArmMsg) (out : List (Nat × Nat)) : State :=
  armReasons.foldl (fun s r =>
    gapAdd s r t ((out.filter (fun o => o.2 = r)).map (fun o => 2 ^ o.1)).sum m.row m.frame m.idx 1 m.seq) s

/-- Channel B learns which windows were armed (R255). -/
def armTold (s : State) (t mask : Nat) (m : ArmMsg) (out : List (Nat × Nat)) : State :=
  let ns := ((bitList 16 mask).filter (fun k => !(out.map (·.1)).contains k)).map (fun k => 16 * t + k)
  { s with saf := { s.saf with bshots := s.saf.bshots.map (fun b => if b.seq = m.seq then { b with armed := b.armed ++ ns } else b) } }

/-- WINDOW_ARM (R101, R42, R120): the oldest arm message reaches its tiles. -/
def execWindowArm (s : State) : Host.Outcome State Fault Refusal :=
  .next (done (match s.sht.armMsgs with
    | [] => s
    | m :: l =>
      m.listen.foldl (fun s e =>
        let r := tileArms s e.1.val e.2 m
        armTold (armGaps r.1 e.1.val m r.2) e.1.val e.2 m r.2) { s with sht := { s.sht with armMsgs := l } }))

/-! ### Pairing (R109 to R111) -/

/-- The settings of the histogram of a row on channel n; the present ones where there is none. -/
def histSetOf (s : State) (n row frame : Nat) : HistSet :=
  let c := gtChan s n
  let has := fun (h : Hist) =>
    if h.st ≠ .free ∧ h.st ≠ .clearing ∧ h.hr.row = row ∧ h.hr.frame = frame then some h.set
    else h.nextRow.bind (fun x => if x.1.row = row ∧ x.1.frame = frame then some x.2 else none)
  ((has c.b0).or (has c.b1)).getD (histSet s n)

/-- The records of a window that stay for pairing (R101, R109). -/
def keptRecs (s : State) (c : HistSet) (w : Win) : List PulseRec :=
  if w.gap || (w.gainNew && getFld c.ctrl F.GT_CTRL_GN_KEEP = 0) then []
  else w.recs.filter (fun r => !r.ovf && !(r.test && decide (modeOf s = .scan)) &&
    !(decide (2 ≤ w.msg.gate) && !qualifierAt s (128 * w.msg.fire + r.time)))

/-- Pair tolerance in LSB. -/
def pairTol (c : HistSet) : Nat := 8 * max 1 (getFld c.ctrl F.GT_CTRL_PAIR_TOL)

/-- The first record of a list at spacing `sp` LSB after record i. DEDUCED (log 53). -/
def partner (i : PulseRec) (sp tol : Nat) (l : List PulseRec) : Option PulseRec :=
  l.find? (fun j => decide (((j.time : Int) - i.time - sp).natAbs ≤ tol))

/-- A pair as it is found: its first record, the SAT of both, and whether it is a TRIP pair. -/
structure RawPair where
  r : PulseRec
  sat : Bool
  trip : Bool
  deriving DecidableEq, Repr

/-- Pairs the records in one pass in ascending TIME; answers the pairs and the number of unpaired records. A record
without a partner at the current spacing takes one at the previous spacing before later records look for theirs. The fuel is
the number of records. DEDUCED (log 53). -/
def pairUp : Nat → Nat → Option Nat → Nat → List PulseRec → List RawPair × Nat
  | 0, _, _, _, _ => ([], 0)
  | _ + 1, _, _, _, [] => ([], 0)
  | k + 1, sp, tsp, tol, i :: l =>
    match partner i sp tol l with
    | some j => let x := pairUp k sp tsp tol (l.erase j); (⟨i, i.sat || j.sat, false⟩ :: x.1, x.2)
    | none =>
      match tsp.bind (fun t => partner i t tol l) with
      | some j => let x := pairUp k sp tsp tol (l.erase j); (⟨i, i.sat || j.sat, true⟩ :: x.1, x.2)
      | none => let x := pairUp k sp tsp tol l; (x.1, x.2 + 1)

/-- The previous shot's spacing in LSB, where second-trip search applies (R111) (log 53). -/
def tripSpacing (w : Win) : Option Nat :=
  match w.msg.prev with
  | some (_, code, some _) => if code = w.msg.code then none else some (128 * codeTicks code)
  | _ => none

/-- Pairs and unpaired records of a window (R110, R111). -/
def winPairs (s : State) (c : HistSet) (w : Win) : List RawPair × Nat :=
  let rs := keptRecs s c w
  if getFld c.ctrl F.GT_CTRL_PAIR_REQ = 0 then (rs.map (fun r => ⟨r, r.sat, false⟩), 0)
  else pairUp rs.length (128 * codeTicks w.msg.code) (tripSpacing w) (pairTol c) rs

/-! ### Coincidence (R112, R113) -/

/-- The channel that a neighbour code names (R112). -/
def nbChan (t code : Nat) : Option Nat :=
  if code < 0x10 then some (16 * t + code)
  else if code < 0x20 then (if t = 0 then none else some (16 * (t - 1) + (code - 0x10)))
  else if code < 0x30 then (if t = 63 then none else some (16 * (t + 1) + (code - 0x20)))
  else none

/-- The neighbours of channel n: a slot counts for itself, also one that names the channel itself or the channel of
another slot. DESIGN CHOICE (log 37). -/
def neighbours (c : HistSet) (n : Nat) : List Nat :=
  ([F.GT_NB_NB0, F.GT_NB_NB1, F.GT_NB_NB2, F.GT_NB_NB3].map (fun f => nbChan (n / 16) (getFld c.nb f))).filterMap id

/-- Window of a shot on a channel. -/
def winOf (s : State) (n q : Nat) : Option Win := (feChan s n).wins.find? (fun w => w.msg.seq = q)

/-- A current pair is spatially coincident (R112): a neighbour whose window did not open does not count. DEDUCED
(log 37). -/
def spatial (s : State) (c : HistSet) (n q time : Nat) : Bool :=
  let ws := (neighbours c n).filterMap (fun m => ((winOf s m q).filter (fun w => !w.never)).map (fun w => (m, w)))
  let lim := 128 * getFld c.coinc F.GT_COINC_SP_WIN
  let near := ws.filter (fun x => (winPairs s (histSetOf s x.1 x.2.msg.row x.2.msg.frame) x.2).1.any (fun p =>
    !p.trip && decide (((p.r.time : Int) - time).natAbs ≤ lim)))
  decide (min (getFld c.coinc F.GT_COINC_SP_N + 1) ws.length ≤ near.length)

/-- A current pair enters accumulation (R113) (log 37). -/
def pairEnters (s : State) (c : HistSet) (n q : Nat) (p : RawPair) : Bool :=
  match getFld c.coinc F.GT_COINC_MODE with
  | 0 => true
  | 1 => spatial s c n q p.r.time
  | 2 => p.r.hx || spatial s c n q p.r.time
  | _ => !c.adapt || spatial s c n q p.r.time

/-! ### Accumulation (R115, R116, R118) -/

/-- Bin of a relative time; none outside the 2,048 bins. -/
def binOf (rel : Int) (binw : Nat) : Option Nat :=
  let b := rel / (16 * (binw + 1) : Nat)
  if 0 ≤ b ∧ b ≤ 2047 then some b.toNat else none

/-- A tile writes into its histogram memory under R324; an update that reads an uncorrectable word loses the histogram
(R326). -/
def tileStore (s : State) (n f a : Nat) (bs : List Byte) : State :=
  let r := memWrite s a bs false
  if r.2 then r.1 else modBuf r.1 n f (fun h => { h with lost := true })

/-- Increments a dense bin, which saturates (log 36). -/
def binAdd (s : State) (n f b : Nat) : State :=
  let a := areaAddr n f + 2 * b
  tileStore s n f a (leBytes 2 (min 0xFFFF (mrd s a 2 + 1)))

/-- A list entry (R116). -/
def Pair.entry (p : Pair) : Nat :=
  b2n p.trip * 2 ^ 57 + b2n p.subst * 2 ^ 56 + b2n p.biasMove * 2 ^ 55 + b2n p.sat * 2 ^ 54 + b2n p.hx * 2 ^ 53 +
    (p.shot % 256) * 2 ^ 45 + (p.hrise % 1024) * 2 ^ 35 + (p.tot % 4096) * 2 ^ 23 + unsigned 23 p.rel

/-- Number of entries in the list of a buffer; COUNT is written at the close. -/
def outside (s : State) (n : Nat) : State := finc s (R.GT_CNT_C (n / 16)) F.GT_CNT_C_OUTSIDE

/-- A TRIP pair is discarded (R111). -/
def tripDrop (s : State) (n f : Nat) : State :=
  let t := n / 16
  modBuf (flagRaise s (R.GT_STAT t) F.GT_STAT_TRIP_DROP (4 * t + 2)) n f (fun h => { h with tripLost := true })

/-- A pair has entered: its sums and the peak. DEDUCED (log 36). -/
def pairCount (s : State) (n f : Nat) (p : Pair) : State :=
  let s := modBuf s n f (fun h => { h with
    pairs := h.pairs + 1, totSum := h.totSum + (if p.hx then p.tot else 0), totN := h.totN + b2n p.hx,
    sat := h.sat || p.sat, biasMove := h.biasMove || p.biasMove })
  fmax s (R.GT_OCC (n / 16) (n % 16)) F.GT_OCC_PEAK_FRAME ((gtChan s n).buf f).pairs

/-- A pair enters a dense histogram. -/
def pairDense (s : State) (n f : Nat) (p : Pair) : State :=
  if p.trip then tripDrop s n f
  else match binOf p.rel ((gtChan s n).buf f).hr.binw with
    | some b => pairCount (binAdd s n f b) n f p
    | none => outside s n

/-- The conversion of a full list starts (R118) (log 36). -/
def convStart (s : State) (n f : Nat) (p : Pair) : State :=
  let t := n / 16
  let k := n % 16
  let s := flagRaise (finc s (R.GT_CNT_A t) F.GT_CNT_A_CONV_CNT) (R.GT_STAT t) F.GT_STAT_CONV (4 * t + 1)
  let s := fset (foff s (R.GT_OCC t k) F.GT_OCC_REP) (R.GT_MODEMAP t) F.GT_MODEMAP_SPARSE
    (setBitN (fget s (R.GT_MODEMAP t) F.GT_MODEMAP_SPARSE) k false)
  modBuf s n f (fun h => { h with converting := true, conv := true, waiting := [p] })

/-- A pair enters a sparse list. -/
def pairSparse (s : State) (n f : Nat) (p : Pair) : State :=
  let h := (gtChan s n).buf f
  if p.trip && decide (0x7FFFFF < p.rel) then tripDrop s n f
  else if !p.trip && (binOf p.rel h.hr.binw).isNone then outside s n
  else if h.converting then modBuf s n f (fun h => { h with waiting := h.waiting ++ [p] })
  else if 510 ≤ h.pairs then convStart s n f p
  else pairCount (tileStore s n f (areaAddr n f + 0x10 + 8 * h.pairs) (leBytes 8 p.entry)) n f p

/-- A pair of a window goes to the buffer that fills. -/
def pairInto (s : State) (n f : Nat) (w : Win) (ofs : Nat) (p : RawPair) : State :=
  let base : Int := p.r.time - 128 * w.msg.winOfs
  let rel : Int := if p.trip then
      match w.msg.prev with
      | some (pf, _, some po) => base + 128 * (w.msg.fire - pf : Nat) - po
      | _ => base
    else base - ofs
  let q : Pair := ⟨rel, p.r.tot, p.r.hrise, p.r.hx, p.sat, p.r.biasMove, w.subst, w.msg.idx, p.trip⟩
  if ((gtChan s n).buf f).sparse then pairSparse s n f q else pairDense s n f q

/-- The buffer of channel n that fills with a row's histogram. -/
def fillingBuf (s : State) (n row frame : Nat) : Option Nat :=
  [0, 1].find? (fun f =>
    let h := (gtChan s n).buf f
    decide (h.st = .filling) && decide (h.hr.row = row) && decide (h.hr.frame = frame))

/-- A histogram of the row waits for its buffer. -/
def assignedBuf (s : State) (n row frame : Nat) : Bool :=
  [0, 1].any (fun f => match ((gtChan s n).buf f).nextRow with
    | some x => decide (x.1.row = row) && decide (x.1.frame = frame)
    | none => false)

/-- The decision of one window: exclusion, pairing, coincidence, accumulation (R109 to R116, R119). A rejected pair leaves its
two records unpaired, a rejected pair of one its one record. DEDUCED (log 53). -/
def decideWin (s : State) (n f : Nat) (w : Win) (ofs : Nat) : State :=
  let t := n / 16
  let k := n % 16
  let c := histSetOf s n w.msg.row w.msg.frame
  let ovf := (w.recs.filter (fun r => r.ovf)).length
  let s := if ovf = 0 then s
    else flagRaise (fadd s (R.GT_CNT_A t) F.GT_CNT_A_OVF_CNT ovf) (R.GT_STAT t) F.GT_STAT_OVF (4 * t + 2)
  if w.gainNew && getFld c.ctrl F.GT_CTRL_GN_KEEP = 0 then finc s (R.GT_CNT_C t) F.GT_CNT_C_GN_EXCL
  else
    let x := winPairs s c w
    let ok := x.1.filter (fun p => p.trip || pairEnters s c n w.msg.seq p)
    let rej := x.1.length - ok.length
    let s := fadd s (R.GT_CH_CNT t k) F.GT_CH_CNT_REJ rej
    let per := if getFld c.ctrl F.GT_CTRL_PAIR_REQ = 0 then 1 else 2
    let s := modBuf s n f (fun h => { h with
      shots := h.shots + 1, unpaired := h.unpaired + x.2 + per * rej,
      full := h.full + (if w.dropped = 0 then 0 else 1), subst := h.subst || w.subst })
    ok.foldl (fun s p => pairInto s n f w ofs p) s

/-- PAIR_DECIDE (R110): once the window has closed and the fire offset has arrived (log 53). A GAIN_NEW shot that a gap record covers is
excluded for the gap record and does not count in GN_EXCL. DESIGN CHOICE (log 145). -/
def execPairDecide (n : Fin 1024) (q : BitVec 48) (s : State) : Host.Outcome State Fault Refusal :=
  .next (done (match winOf s n.val q.toNat with
    | none => s
    | some w =>
      if w.pending || w.decided || w.gap || assignedBuf s n.val w.msg.row w.msg.frame then s
      else match w.ofs with
        | none => s
        | some ofs =>
          let s := match fillingBuf s n.val w.msg.row w.msg.frame with
            | some f => decideWin s n.val f w ofs
            | none => s
          putWin s n.val { w with decided := true }))

/-- The pair that a list entry holds. -/
def entryPair (e : Nat) : Pair :=
  ⟨e % 2 ^ 23, bitsOf e 34 23, bitsOf e 44 35, bitOf e 53, bitOf e 54, bitOf e 55, bitOf e 56, bitsOf e 52 45, bitOf e 57⟩

/-- The entries of a list area. -/
def listEntries (s : State) (a count : Nat) : List Pair := (List.range count).map (fun i => entryPair (mrd s (a + 0x10 + 8 * i) 8))

/-- CONVERSION_DONE (R118): the current pairs are replayed as bin increments, then the waiting ones. -/
def execConversionDone (n : Fin 1024) (s : State) : Host.Outcome State Fault Refusal :=
  .next (done ([0, 1].foldl (fun s f =>
    let h := (gtChan s n.val).buf f
    if h.converting && decide (h.st = .filling) then
      let s := match firstPoison s (areaAddr n.val f + 0x10) (8 * h.pairs) with
        | some p => modBuf (ueRecord s p) n.val f (fun h => { h with lost := true })
        | none => s
      let es := listEntries s (areaAddr n.val f) h.pairs
      let s := mzero s (areaAddr n.val f) 0x1000
      let s := if es.any (fun p => p.trip) then tripDrop s n.val f else s
      let cur := es.filter (fun p => !p.trip)
      let s := modBuf s n.val f (fun h => { h with sparse := false, converting := false, waiting := [], pairs := cur.length })
      let s := cur.foldl (fun s p => match binOf p.rel h.hr.binw with | some b => binAdd s n.val f b | none => s) s
      h.waiting.foldl (fun s p => pairDense s n.val f p) s
    else s) s))

/-! ### Closing (R114, R120 to R122) -/

/-- BG_RATE at the close, and BG_BIN, which the ticket carries (R114). -/
def bgUpdate (s : State) (n f : Nat) : State × Nat :=
  let h := (gtChan s n).buf f
  if h.shots = 0 then (s, 0)
  else
    let bin := min 4095 (roundDiv (h.unpaired * 512 : Nat) h.shots).toNat
    let rate := min 0xFFFFFF (roundDiv (h.unpaired * 1250000 : Nat) (h.shots * (h.hr.binw + 1))).toNat
    let avg := 2 ^ min 8 (getFld h.set.ctrl F.GT_CTRL_BG_AVG)
    let new := min 0xFFFFFF (roundDiv (((gtChan s n).bgRate : Int) * (avg - 1 : Nat) + rate) avg).toNat
    let s := modGt s n (fun c => { c with bgRate := new })
    (fset s (R.GT_BG (n / 16) (n % 16)) F.GT_BG_BG_RATE (new / 256), bin)

/-- The 16 bytes of a ticket (R122) (log 38). -/
def Ticket.bytes (k : Ticket) : List Byte :=
  wordsBytes [k.tile * 2 ^ 26 + k.ch * 2 ^ 22 + k.buf * 2 ^ 21 + b2n k.sparse * 2 ^ 20 + b2n k.trip2 * 2 ^ 19 +
      b2n k.tripLost * 2 ^ 18 + k.gen * 2 ^ 14 + k.row,
    (k.frame % 2 ^ 16) * 2 ^ 16 + k.shots * 2 ^ 7 + b2n k.sat * 2 ^ 6 + b2n k.biasMove * 2 ^ 5 + b2n k.subst * 2 ^ 4 + b2n k.conv * 2 ^ 3,
    k.totMean * 2 ^ 20 + k.full * 2 ^ 12 + k.bgBin, k.deadline % 2 ^ 32]

/-- Posts a closed histogram, or refuses it while the post buffer is full (log 36). DEDUCED (log 38). -/
def histPost (s : State) (n f : Nat) : State :=
  let t := n / 16
  let k := n % 16
  let (s, bin) := bgUpdate (modGt s n (fun c => { c with closed := true })) n f
  let s := finc s (R.GT_CH_CNT t k) F.GT_CH_CNT_HISTS
  if 32 ≤ (postOf s t).length then histRefused s n f
  else
    let h := (gtChan s n).buf f
    let (mean, s) := if h.totN = 0 then (0, s) else openQuot s h.totSum h.totN
    let due := now s + ticksUs (max 1 (getFld h.set.deadline F.GT_DEADLINE_DL_MAX))
    let s := if h.sparse then tileStore s n f (areaAddr n f) (leBytes 16 (h.pairs % 1024)) else s
    let s := fset s (R.GT_BG t k) F.GT_BG_BG_BIN bin
    let tk : Ticket :=
      { tile := t, ch := k, buf := f, sparse := h.sparse, trip2 := h.hr.trip2, tripLost := h.tripLost, gen := bufGen s n f,
        row := h.hr.row, frame := h.hr.frame, shots := h.shots, sat := h.sat, biasMove := h.biasMove, subst := h.subst,
        conv := h.conv, totMean := mean, full := min 255 h.full, bgBin := bin, deadline := due, stolen := false, entry := now s, slot := 0 }
    let s := modBuf s n f (fun h => { h with st := .posted, deadline := due, queued := false })
    finc (setPost s t (postOf s t ++ [tk])) (R.GT_TICKETS t) F.GT_TICKETS_TICKETS

/-- Every shot of the row is armed or never will be. -/
def rowArmed (s : State) (row frame : Nat) : Bool :=
  match slotOf s row frame with
  | some (_, x) => decide (x.row.depth ≤ x.next)
  | none => true

/-- The windows of a row that its shots have, fired or not, have closed 20 tile cycles ago (R119, R120). -/
def rowClosed (s : State) (h : Hist) : Bool :=
  decide (h.lastClose + 40 ≤ now s) &&
    s.sht.unarmed.all (fun e => !(decide (e.1 = h.hr.row) && decide (e.2.1 = h.hr.frame)) || decide (e.2.2 + 40 ≤ now s))

/-- A histogram is ready to close: 20 tile cycles after the last window of the row, with every window decided. -/
def histReady (s : State) (n : Nat) (h : Hist) : Bool :=
  decide (h.st = .filling) && !h.converting && rowArmed s h.hr.row h.hr.frame && rowClosed s h &&
    (feChan s n).wins.all (fun w => !(decide (w.msg.row = h.hr.row) && decide (w.msg.frame = h.hr.frame)) || w.decided || w.gap) &&
    s.sht.armMsgs.all (fun m => !(decide (m.row = h.hr.row) && decide (m.frame = h.hr.frame)))

/-- HIST_CLOSE (R120): the histogram is posted or refused; one that a tile update found damaged is lost (R326): it counts neither in HISTS
nor in the background. DESIGN CHOICE (log 145). -/
def execHistClose (n : Fin 1024) (s : State) : Host.Outcome State Fault Refusal :=
  .next (done ([0, 1].foldl (fun s f =>
    let h := (gtChan s n.val).buf f
    if histReady s n.val h then
      if h.lost then bufClear (histGap s n.val Gap.deadline h.hr) n.val f else histPost s n.val f
    else s) s))

/-- HIST_DEADLINE (R120): buffer f is still POSTED when its deadline passes. -/
def execHistDeadline (n : Fin 1024) (f : Fin 2) (s : State) : Host.Outcome State Fault Refusal :=
  let h := (gtChan s n.val).buf f.val
  .next (done (if h.st = .posted ∧ h.deadline ≤ now s then histReclaim s n.val f.val else s))

/-- A buffer becomes FREE, or takes the histogram that waits for it (R120). -/
def bufFree (s : State) (n f : Nat) : State :=
  let h := (gtChan s n).buf f
  let s := unpoison (mzero s (areaAddr n f) 0x1000) (areaAddr n f) 0x1000
  let s := putBuf s n f Hist.init
  match h.nextRow with
  | some x => histStart s n f x h.lastClose
  | none => s

/-- BUFFER_CLEAR_DONE (R120): 64 tile cycles after CLEARING started. -/
def execBufferClearDone (n : Fin 1024) (f : Fin 2) (s : State) : Host.Outcome State Fault Refusal :=
  let h := (gtChan s n.val).buf f.val
  .next (done (if h.st = .clearing ∧ h.clearAt + 128 ≤ now s then bufFree s n.val f.val else s))

/-! ### Representation (R117) -/

/-- The representation of a channel in the coming frame: true for sparse. -/
def repNext (s : State) (t k : Nat) : Bool :=
  let mode := fget s (R.GT_CTRL t) F.GT_CTRL_REP_MODE
  let cur := flag s (R.GT_OCC t k) F.GT_OCC_REP
  let on := min 510 (fget s (R.GT_REP t) F.GT_REP_DENSE_ON)
  let off := fget s (R.GT_REP t) F.GT_REP_SPARSE_ON
  let peak := fget s (R.GT_OCC t k) F.GT_OCC_PEAK_PREV
  if mode = 1 then false
  else if mode = 2 then true
  else if mode ≠ tget 1 s.gt.repMode t then false
  else if on ≤ off then false
  else if !(gtChan s (16 * t + k)).hadHist then cur
  else if cur then decide (peak ≤ on) else decide (peak < off)

/-- REP_SELECT (R117) for one tile (log 41). -/
def repSelect (s : State) (t : Nat) : State :=
  let s := (List.range 16).foldl (fun s k =>
    let s := fset (fset s (R.GT_OCC t k) F.GT_OCC_PEAK_PREV (fget s (R.GT_OCC t k) F.GT_OCC_PEAK_FRAME)) (R.GT_OCC t k) F.GT_OCC_PEAK_FRAME 0
    let sp := repNext s t k
    let s := fsetB s (R.GT_OCC t k) F.GT_OCC_REP sp
    let s := fset s (R.GT_MODEMAP t) F.GT_MODEMAP_SPARSE (setBitN (fget s (R.GT_MODEMAP t) F.GT_MODEMAP_SPARSE) k sp)
    modGt s (16 * t + k) (fun c => { c with hadHist := false })) s
  { s with gt := { s.gt with repMode := tput 1 s.gt.repMode t (fget s (R.GT_CTRL t) F.GT_CTRL_REP_MODE) } }

end Sys2Proof.Machine
end

