-- ==== Sys2Proof/Machine/Trig.lean ====
section
/-! DEFINITION. Sine and cosine of an angle in 2π/65,536 rad as a fixed-point number, to within 2 to the −56. -/

namespace Sys2Proof.Machine

/-- π times 2 to the 80. -/
def pi80 : Nat := 3797952473636338580787994

/-- Terms of the sine series from `term`, for the square `x2` of the argument; numbers carry 80 fraction bits. -/
def sinSeries (x2 : Nat) : Nat → Nat → Int → Int → Int
  | 0, _, _, acc => acc
  | k + 1, n, term, acc =>
    sinSeries x2 k (n + 2) (-(term * x2 / ((2 ^ 80 * ((n + 1) * (n + 2)) : Nat) : Int))) (acc + term)

/-- Sine of an angle of 0 to 16,384 units, in 2 to the −60. -/
def sinQuad (a : Nat) : Int :=
  if a = 0 then 0
  else if a = 16384 then 2 ^ 60
  else
    let x := a * pi80 / 32768
    sinSeries (x * x / 2 ^ 80) 14 1 x 0 / 2 ^ 20

/-- Sine of an angle in 2π/65,536 rad, in 2 to the −60. -/
def sinFix (a : Nat) : Int :=
  let a := a % 65536
  if a ≤ 16384 then sinQuad a
  else if a ≤ 32768 then sinQuad (32768 - a)
  else if a ≤ 49152 then -sinQuad (a - 32768)
  else -sinQuad (65536 - a)

/-- Cosine of an angle in 2π/65,536 rad, in 2 to the −60. -/
def cosFix (a : Nat) : Int := sinFix (a + 16384)

end Sys2Proof.Machine
end

