-- ==== Sys2Proof/Machine/Tilth.lean ====
section
/-! DEFINITION. The tilth table, the world frame, classification and the bias loops (R186, R187, R191 to
R198). -/

namespace Sys2Proof.Machine

/-! ### World frame (R191, R192) -/

/-- EGO_COMMIT (R192): EGO_DXY and EGO_DZP become the value of the next frame start. A second commit of the same
tile cycle takes the place of the first. -/
def execEgoCommit (s : State) : Host.Outcome State Fault Refusal :=
  let m : EgoMove := ⟨signed 16 (fget s R.EGO_DXY F.EGO_DXY_DX), signed 16 (fget s R.EGO_DXY F.EGO_DXY_DY),
    signed 16 (fget s R.EGO_DZP F.EGO_DZP_DZ), signed 16 (fget s R.EGO_DZP F.EGO_DZP_DPSI)⟩
  let old := s.tilt.commits.filter (fun c => c.1 ≠ now s / 2)
  .next (done (fon { s with tilt := { s.tilt with commits := (now s / 2, m) :: old.take 1 } } R.EGO_CTRL F.EGO_CTRL_PENDING))

/-- O held to 48 bits (R191). -/
def hold48 (x : Int) : Int := signed 48 (unsigned 48 x)

/-- O ← O + Rot_z(Ψ) × (DX, DY, DZ) and Ψ ← Ψ + DPSI (R191). -/
def egoApply (s : State) (m : EgoMove) : State :=
  let p := s.tilt.pose
  let (x, s) := openDivI s (m.dx * cosFix p.psi - m.dy * sinFix p.psi) (2 ^ 60)
  let (y, s) := openDivI s (m.dx * sinFix p.psi + m.dy * cosFix p.psi) (2 ^ 60)
  { s with tilt := { s.tilt with pose :=
    ⟨0, hold48 (p.ox + x), hold48 (p.oy + y), hold48 (p.oz + m.dz), unsigned 16 ((p.psi : Int) + m.dpsi)⟩ } }

/-- The displacement that a frame start takes: the value committed last before it, the last one for up to HOLD
frame starts, then zero (R192); EV EGO_LOST on the first zero and at each setting of the flag (R192, R201).
DEDUCED (log 48). -/
def egoUpdate (s : State) (frame : Nat) : State :=
  let s :=
    match s.tilt.commits.find? (fun c => c.1 ≠ now s / 2) with
    | some c =>
      egoApply { s with tilt := { s.tilt with
        commits := s.tilt.commits.filter (fun c => c.1 = now s / 2), last := c.2, misses := 0, lost := false } } c.2
    | none =>
      let s := { s with tilt := { s.tilt with misses := s.tilt.misses + 1 } }
      let hold := fget s R.EGO_CTRL F.EGO_CTRL_HOLD
      if s.tilt.misses ≤ hold then egoApply { s with tilt := { s.tilt with lost := false } } s.tilt.last
      else
        let first := !s.tilt.lost || !flag s R.TT_STAT F.TT_STAT_EGO_LOST
        let s := finc (fon { s with tilt := { s.tilt with lost := true } } R.TT_STAT F.TT_STAT_EGO_LOST) R.TT_CNT_D F.TT_CNT_D_EGO_LOST
        if first then raise s Ev.egoLost else s
  let s := fsetB s R.EGO_CTRL F.EGO_CTRL_PENDING (!s.tilt.commits.isEmpty)
  let s := fset s R.EGO_PSI F.EGO_PSI_PSI s.tilt.pose.psi
  { s with tilt := { s.tilt with poses := ({ s.tilt.pose with frame := frame } :: s.tilt.poses).take 4 } }

/-! ### The table (R193 to R197) -/

def ttBase (s : State) : Nat :=
  fget s R.TT_BASE_HI F.TT_BASE_HI_ADDR * 2 ^ 32 + (rd s R.TT_BASE_LO).toNat / 0x1000 * 0x1000

/-- log2 of the number of entries. DEDUCED (log 47). -/
def ttSize (s : State) : Nat := max 12 (min 17 (fget s R.TT_BASE_HI F.TT_BASE_HI_SIZE))

def ttAgeMax (s : State) : Nat := max 1 (fget s R.TT_AGE F.TT_AGE_AGE_MAX)
def ttPMax (s : State) : Nat := max 1 (fget s R.TT_AGE F.TT_AGE_P_MAX)
def ttSolid (s : State) : Nat := max 1 (fget s R.CLS_CFG F.CLS_CFG_P_SOLID)

/-- Every entry becomes zero; a table outside clay memory is a decode error (R25). -/
def ttZero (s : State) : State :=
  let n := 2 ^ ttSize s * 32
  let s' := match clayOut (ttBase s) n with
    | some x => decodeErr s (x % 2 ^ 40) true
    | none => mzero (unpoison s (ttBase s) n) (ttBase s) n
  fset s' R.TT_OCC F.TT_OCC_VALID 0

/-- Entry to SCAN sets O, Ψ and the last displacement to zero and clears the table (R192). -/
def ttScanEntry (s : State) : State :=
  ttZero (fset { s with tilt := { s.tilt with pose := ⟨0, 0, 0, 0, 0⟩, poses := [], last := .zero, misses := 0, lost := false } }
    R.EGO_PSI F.EGO_PSI_PSI 0)

/-- A change of VOX or RMAX takes effect at a frame start and clears the table (R197). -/
def ttFrame (s : State) : State :=
  let v := max 2 (fget s R.TT_CTRL F.TT_CTRL_VOX)
  let r := max 1 (fget s R.TT_CTRL F.TT_CTRL_RMAX)
  if v = s.tilt.vox ∧ r = s.tilt.rmax then s
  else ttZero { s with tilt := { s.tilt with vox := v, rmax := r } }

/-- A world coordinate from its exact product in 2 to the −120 (R191): within ±2 units of it. -/
def worldCoord (x : Int) (range el az axis : Nat) : Int :=
  x / 2 ^ 120 - 1 + (Config.worldErr range el az axis % 4 : Nat)

/-- X, Y and Z of a point (R191). -/
def worldOf (p : EgoPose) (range az el : Nat) : Int × Int × Int :=
  let a := (az + p.psi) % 65536
  (worldCoord (range * cosFix el * cosFix a) range el a 0 + p.ox,
   worldCoord (range * cosFix el * sinFix a) range el a 1 + p.oy,
   worldCoord (range * sinFix el * 2 ^ 60) range el a 2 + p.oz)

/-- A voxel index: the low 21 bits of the floor (R193). -/
def voxIndex (vox : Nat) (x : Int) : Nat := unsigned 21 (x / ((40 * vox : Nat) : Int))

/-- The bucket of three voxel indices (R193). -/
def ttBucket (size vx vy vz : Nat) : Nat :=
  let h := (BitVec.ofNat 32 vx * 0x9E3779B1#32) ^^^ (BitVec.ofNat 32 vy * 0x85EBCA77#32) ^^^ (BitVec.ofNat 32 vz * 0xC2B2AE3D#32)
  h.toNat / 2 ^ (35 - size)

/-- An entry of the table (R194). -/
structure TtWay where
  valid : Bool
  vx : Nat
  vy : Nat
  vz : Nat
  last : Nat
  persist : Nat
  hits : Nat
  first : Nat
  intMax : Nat
  widthMax : Nat
  deriving DecidableEq, Repr

/-- Reads the entry at an address. -/
def ttRead (s : State) (a : Nat) : TtWay :=
  let w := fun i => if (clayOut a 32).isSome then 0 else mrd s (a + 4 * i) 4
  ⟨bitOf (w 0) 31, w 0 % 2 ^ 21, w 1 % 2 ^ 21, w 2 % 2 ^ 21, w 3 / 2 ^ 16, w 3 / 2 ^ 8 % 256, w 3 % 256, w 4 / 2 ^ 16, w 5 / 2 ^ 16,
    w 5 / 2 ^ 8 % 256⟩

/-- Writes an entry with its CLASS_LAST. -/
def ttWrite (s : State) (a : Nat) (x : TtWay) (cls : Nat) : State :=
  match clayOut a 32 with
  | some x => decodeErr s (x % 2 ^ 40) true
  | none => mputBytes s a (wordsBytes [b2n x.valid * 2 ^ 31 + x.vx, x.vy, x.vz, x.last * 2 ^ 16 + x.persist * 2 ^ 8 + x.hits,
      x.first * 2 ^ 16, x.intMax * 2 ^ 16 + x.widthMax * 2 ^ 8 + cls, 0, 0])

/-- Age of an entry in frames at frame F. DEDUCED (log 49). -/
def TtWay.age (x : TtWay) (f : Nat) : Nat := (f + 65536 - x.last) % 65536

/-- An entry whose age exceeds AGE_MAX: swept, and free for a new entry (R195, R197) (log 49). -/
def TtWay.aged (x : TtWay) (f ageMax : Nat) : Bool := decide (ageMax < x.age f)

/-- A bucket is read: a decode error outside clay memory (R25); an uncorrectable error invalidates its 8 ways (R197). -/
def ttEcc (s : State) (a : Nat) : State :=
  match clayOut a 256 with
  | some x => decodeErr s (x % 2 ^ 40) false
  | none =>
  match firstPoison s a 256 with
  | none => s
  | some p =>
    let n := ((List.range 8).filter (fun i => (ttRead s (a + 32 * i)).valid)).length
    let s := ueRecord s p
    let s := mzero (unpoison s a 256) a 256
    let s := fset s R.TT_OCC F.TT_OCC_VALID (fget s R.TT_OCC F.TT_OCC_VALID - n)
    flagRaise (finc s R.TT_CNT_C F.TT_CNT_C_UE_BUCKETS) R.TT_STAT F.TT_STAT_ECC_UE Ev.tilthEcc

/-- The way that a new entry replaces when none is free: lowest PERSIST, then oldest LAST_FRAME, then lowest
number (log 49). -/
def ttVictim (f : Nat) (ws : List (Nat × TtWay)) : Nat × TtWay :=
  ws.tail.foldl (fun b w =>
    if w.2.persist < b.2.persist ∨ (w.2.persist = b.2.persist ∧ b.2.age f < w.2.age f) then w else b)
    (ws.headD (0, ⟨false, 0, 0, 0, 0, 0, 0, 0, 0, 0⟩))

/-- TILTH_UPDATE (R195, R196): answers the point's PERSIST and the entry to write, once its class is known. DEDUCED (log 50). -/
def ttUpdate (s : State) (p : EgoPose) (f range az el intensity width : Nat) (angle : Bool) : State × Nat × Option (Nat × TtWay) :=
  let (x, y, z) := worldOf p range az el
  let vx := voxIndex s.tilt.vox x
  let vy := voxIndex s.tilt.vox y
  let vz := voxIndex s.tilt.vox z
  let a := ttBase s + ttBucket (ttSize s) vx vy vz * 256
  let s := ttEcc (finc s R.TT_CNT_A F.TT_CNT_A_LOOKUPS) a
  let ws := (List.range 8).map (fun i => (a + 32 * i, ttRead s (a + 32 * i)))
  let age := ttAgeMax s
  let fresh : TtWay := ⟨true, vx, vy, vz, f, 1, 1, f, intensity, width⟩
  match ws.find? (fun w => w.2.valid && decide (w.2.vx = vx) && decide (w.2.vy = vy) && decide (w.2.vz = vz)) with
  | some (b, w) =>
    let d := w.age f
    if angle then (s, w.persist, none)
    else if d = 0 then
      (s, w.persist, some (b, { w with hits := min 255 (w.hits + 1), intMax := max w.intMax intensity, widthMax := max w.widthMax width }))
    else if d ≤ age then
      let n := min (ttPMax s) (w.persist - fget s R.TT_AGE F.TT_AGE_DECAY * (d - 1) + 1)
      (s, n, some (b, { w with persist := n, last := f, hits := 1, intMax := intensity, widthMax := width }))
    else if d < 32768 then (s, 1, some (b, fresh))
    else (s, w.persist, none)
  | none =>
    if angle then (s, 0, none)
    else
      match ws.find? (fun w => !w.2.valid || w.2.aged f age) with
      | some (b, w) => (if w.valid then s else fset s R.TT_OCC F.TT_OCC_VALID (fget s R.TT_OCC F.TT_OCC_VALID + 1), 1, some (b, fresh))
      | none =>
        let (b, w) := ttVictim f ws
        let s := finc (fon s R.TT_STAT F.TT_STAT_FULL) R.TT_CNT_B F.TT_CNT_B_EVICT
        let s := if ttSolid s ≤ w.persist then
            flagRaise (finc s R.TT_CNT_B F.TT_CNT_B_EVICT_SOLID) R.TT_STAT F.TT_STAT_EVICT_SOLID Ev.tilthEvictSolid
          else s
        (s, 1, some (b, fresh))

/-- TILTH_SWEEP (R197): the sweeper visits its next bucket. With EN = 0 the table is left as it is (R196). -/
def execTilthSweep (s : State) : Host.Outcome State Fault Refusal :=
  let b := s.tilt.sweepAt % 2 ^ (ttSize s - 3)
  let f := fget s R.SHT_FRAME_NO F.SHT_FRAME_NO_FRAME_NO % 65536
  let a := ttBase s + 256 * b
  let s := if flag s R.TT_CTRL F.TT_CTRL_EN && !flag s R.TT_STAT F.TT_STAT_CLR_BUSY then
      (List.range 8).foldl (fun s i =>
        let w := ttRead s (a + 32 * i)
        if w.valid && w.aged f (ttAgeMax s) then
          fset (mwr s (a + 32 * i) 4 (mrd s (a + 32 * i) 4 % 2 ^ 31)) R.TT_OCC F.TT_OCC_VALID (fget s R.TT_OCC F.TT_OCC_VALID - 1)
        else s) (ttEcc s a)
    else s
  .next (done (if b + 1 = 2 ^ (ttSize s - 3) then
      finc { s with tilt := { s.tilt with sweepAt := 0 } } R.TT_CNT_D F.TT_CNT_D_SWEEPS
    else { s with tilt := { s.tilt with sweepAt := b + 1 } }))

/-- TILTH_CLEAR (R197): ignored in SCAN (log 50). -/
def execTilthClear (s : State) : Host.Outcome State Fault Refusal :=
  .next (done (if modeOf s = .scan then s
    else fon (fon (ttZero s) R.TT_STAT F.TT_STAT_CLEAR) R.TT_STAT F.TT_STAT_CLR_BUSY))

/-- TILTH_CLEAR_DONE (R197). -/
def execTilthClearDone (s : State) : Host.Outcome State Fault Refusal :=
  .next (done (if flag s R.TT_STAT F.TT_STAT_CLR_BUSY then
      foff (foff s R.TT_STAT F.TT_STAT_CLEAR) R.TT_STAT F.TT_STAT_CLR_BUSY
    else s))

/-! ### Classification (R198) -/

/-- CLASS of a point. `none` says that R191 or R196 set CLASS NONE. -/
def classOf (s : State) (none : Bool) (persist width intensity : Nat) (light : Bool) : Nat :=
  let wc := fget s R.CLS_CFG F.CLS_CFG_W_CLOUD
  if none || !flag s R.CLS_CFG F.CLS_CFG_CLS_EN then 0
  else if wc ≠ 0 ∧ wc ≤ width ∧ intensity < fget s R.CLS_CFG F.CLS_CFG_I_CLOUD * width ∧ light = false then 3
  else if ttSolid s ≤ persist then 1
  else 2

/-- CONF of a point; `snr` is the 12.4 field. -/
def confOf (cls persist snr : Nat) (half : Bool) : Nat :=
  let c := if cls = 0 then min 127 (snr / 16) else min 255 (min 127 (snr / 16) + 16 * min persist 8)
  if half then c / 2 else c

/-! ### Bias loops (R186, R187) -/

/-- The channels of a group that qualify, with their BG_RATE in 1/256 kHz (R114). -/
def biasRates (s : State) (g : Nat) : List Nat :=
  ((List.range 64).filter (fun j => (gtChan s (64 * g + j)).closed && decide (feState s (64 * g + j) = feActive))).map (fun j =>
    (gtChan s (64 * g + j)).bgRate)

/-- A new RED of group g. DEDUCED (log 52). -/
def setRed (s : State) (g red : Nat) : State := biasUpdate (fset s (R.BL_STAT g) F.BL_STAT_RED red) g

/-- BIAS_LOOP_UPDATE of group g at a frame start (R186) (log 52). -/
def biasLoop (s : State) (g : Nat) : State :=
  if !flag s (R.BL_CFG g) F.BL_CFG_EN ∨ biasZero s g then s
  else
    let l := biasRates s g
    if l.isEmpty then s
    else
      let (mean, s) := openQuot s l.sum (256 * l.length)
      let s := fset s (R.BL_STAT g) F.BL_STAT_MEAN (satN 16 mean)
      let step := 4 * max 1 (fget s (R.BL_CFG g) F.BL_CFG_STEP)
      let top := fget s (R.BL_CFG g) F.BL_CFG_RED_MAX
      let red := fget s (R.BL_STAT g) F.BL_STAT_RED
      let new := if fget s (R.BL_CFG g) F.BL_CFG_BL_HI * 25600 * l.length < l.sum then min top (red + step)
        else if l.sum < fget s (R.BL_CFG g) F.BL_CFG_BL_LO * 25600 * l.length then red - step else red
      if new = red then s
      else
        let s := setRed s g new
        if new = top then flagRaise s (R.BL_STAT g) F.BL_STAT_AT_MAX Ev.biasLoopLimit else s

/-- The bias loops of all groups at a frame start; the marks of closed histograms start afresh (log 52). -/
def biasLoops (s : State) : State :=
  let s := (List.range 16).foldl biasLoop s
  { s with gt := { s.gt with chan := s.gt.chan.filterMap (fun p =>
      let c := { p.2 with closed := false }
      if c = GtChan.init then none else some (p.1, c)) } }

/-- RED of every group is cleared on entry to SCAN (R187). -/
def biasScanEntry (s : State) : State := (List.range 16).foldl (fun s g => setRed s g 0) s

/-- A write of BL_CFG: BL_EN written 0 clears RED (R187). -/
def blCfgSet (s : State) (g : Nat) (v : Word) : State :=
  let s := wr s (R.BL_CFG g) v
  if flag s (R.BL_CFG g) F.BL_CFG_EN then s else setRed s g 0

end Sys2Proof.Machine
end

