-- ==== Sys2Proof/Machine/Can.lean ====
section
/-! DEFINITION. The CAN controllers and the CANopen communication of the node (R410 to R414, R425, R428, R432).
The layout of the communication objects is that of CiA 301 (log 12). -/

namespace Sys2Proof.Machine

/-! ### Controllers and objects -/

def canEn (s : State) (c : Nat) : Bool := flag s (R.CAN_CFG c) F.CAN_CFG_EN

/-- Controller 1 carries the node of controller 0 (R414). -/
def redundant (s : State) : Bool := flag s (R.CAN_CFG 1) F.CAN_CFG_REDUNDANT && canEn s 1

/-- Node-ID; 0 acts as 1. -/
def nodeId (s : State) (c : Nat) : Nat :=
  max 1 (fget s (R.CAN_CFG (if redundant s then 0 else c)) F.CAN_CFG_NODE)

/-- CAN FD is in use: 64 data bytes per PDO. -/
def canFd (s : State) : Bool := flag s (R.CAN_CFG 0) F.CAN_CFG_FD

/-- The CAN ports are served in this mode (R457). -/
def canServed (s : State) (c : Nat) : Bool :=
  canEn s c && s.sys.held.isNone && decide (modeOf s ≠ .boot) && decide (fget s (R.CAN_STAT c) F.CAN_STAT_BUS ≠ 2)

/-- The controllers that carry the frames of the node. -/
def nodeBuses (s : State) : List Nat :=
  ([0] ++ (if redundant s then [1] else [])).filter (canServed s)

/-- A request, SYNC or PDO of the node is accepted on controller c (R414). -/
def nodeHears (s : State) (c : Nat) : Bool := canServed s c && (decide (c = 0) || redundant s)

def canSend (s : State) (c id : Nat) (data : List Byte) : State := send s (.can c id data)

/-- A frame of the node on each of its buses. -/
def nodeSend (s : State) (id : Nat) (data : List Byte) : State :=
  (nodeBuses s).foldl (fun s c => canSend s c id data) s

/-- The value of a communication object after a reset (CiA 301, log 12). -/
def odDefault (s : State) (i sub : Nat) : Nat :=
  let n := nodeId s 0
  let off := 0x80000000
  if i = 0x1005 then 0x80
  else if i = 0x1014 then 0x80 + n
  else if 0x1400 ≤ i ∧ i < 0x1410 ∧ sub = 1 then
    (if i < 0x1404 then 0x200 + 0x100 * (i - 0x1400) + n else off)
  else if 0x1800 ≤ i ∧ i < 0x1810 ∧ sub = 1 then
    (if i < 0x1804 then 0x180 + 0x100 * (i - 0x1800) + n else off)
  else if ((0x1400 ≤ i ∧ i < 0x1410) ∨ (0x1800 ≤ i ∧ i < 0x1810)) ∧ sub = 2 then 255
  else 0

def od (s : State) (i sub : Nat) : Nat := tget (odDefault s i sub) s.com.od (0x100 * i + sub)

def odSet (s : State) (i sub v : Nat) : State :=
  { s with com := { s.com with od := insertKey (eraseKey s.com.od (0x100 * i + sub)) (0x100 * i + sub) v } }

/-- Communication cycle period 0x1006 in ticks. -/
def cyclePeriod (s : State) : Nat := ticksUs (od s 0x1006 0)

/-! ### NMT (R411) -/

/-- NMT state of controller c: 0 pre-operational, 1 operational, 2 stopped, 3 initialising. -/
def nmtOf (s : State) (c : Nat) : Nat := fget s (R.CAN_STAT c) F.CAN_STAT_NMT

/-- A change of NMT state raises EV NMT_CHANGE (R425). -/
def setNmt (s : State) (c st : Nat) : State :=
  if nmtOf s c = st then s else raise (fset s (R.CAN_STAT c) F.CAN_STAT_NMT st) 584

/-- The heartbeat's code of the NMT state (CiA 301, log 12). -/
def nmtCode (st : Nat) : Nat := match st with | 0 => 127 | 1 => 5 | 2 => 4 | _ => 0

/-- A heartbeat or boot-up message of controller c. -/
def heartbeat (s : State) (c code : Nat) : State :=
  let s := { s with com := { s.com with hbSent := insertKey (eraseKey s.com.hbSent c) c (now s) } }
  canSend s c (0x700 + nodeId s c) [BitVec.ofNat 8 code]

/-- The node has initialised: boot-up message, then pre-operational. -/
def canBootUp (s : State) (c : Nat) : State :=
  if canServed s c ∧ nmtOf s c = 3 then setNmt (heartbeat s c 0) c 0 else s

/-- Controller and CANopen communication state of controller c are re-initialised (R411, R468 KIND 5). -/
def canClear (s : State) (c : Nat) : State :=
  let s := fset (fset (fset s (R.CAN_STAT c) F.CAN_STAT_BUS 0) (R.CAN_STAT c) F.CAN_STAT_TEC 0) (R.CAN_STAT c) F.CAN_STAT_REC 0
  let s := { s with com := { s.com with hbSent := eraseKey s.com.hbSent c } }
  let sync := if od s 0x1006 0 = 0 then none else some (now s)
  let s := if c = 0 then { s with com := { s.com with hbSeen := [], rpdo := [], syncAt := sync } } else s
  setNmt s c 3

/-- A received frame is counted. -/
def canCount (s : State) (c n : Nat) : State := fadd s (R.CAN_CNT c) F.CAN_CNT_RX_FRAMES n

/-! ### SYNC and heartbeats (R410, R425) -/

/-- SYNC_RX (R410) (log 107). -/
def execSyncRx (c : Fin 2) (s : State) : Host.Outcome State Fault Refusal :=
  .next (done (
    if nodeHears s c.val then
      let s := canCount s c.val 1
      { s with com := { s.com with syncAt := some (now s) } }
    else s))

/-- SYNC_LOST (R425): 1.5 communication cycle periods without SYNC while 0x1006 ≠ 0 (log 107). -/
def execSyncLost (s : State) : Host.Outcome State Fault Refusal :=
  .next (done (
    match s.com.syncAt with
    | some t =>
      if od s 0x1006 0 ≠ 0 ∧ 2 * t + 3 * cyclePeriod s ≤ 2 * now s then
        raise { s with com := { s.com with syncAt := none } } 586
      else s
    | none => s))

/-- HEARTBEAT_TX (R410, R414): the producer heartbeat time has passed. -/
def execHeartbeatTx (c : Fin 2) (s : State) : Host.Outcome State Fault Refusal :=
  let period := od s 0x1017 0
  .next (done (
    if canServed s c.val ∧ period ≠ 0 ∧ nmtOf s c.val ≠ 3 ∧ tget 0 s.com.hbSent c.val + ticksMs period ≤ now s then
      heartbeat s c.val (nmtCode (nmtOf s c.val))
    else s))

/-- Node and time in ms of consumer entry j of 0x1016. -/
def hbEntry (s : State) (j : Nat) : Nat × Nat := let v := od s 0x1016 (j + 1); (v / 0x10000 % 0x100, v % 0x10000)

/-- HEARTBEAT_RX (R410): restarts the timeout of the entries that name the node (log 107). -/
def execHeartbeatRx (c : Fin 2) (node : BitVec 7) (_state : Byte) (s : State) : Host.Outcome State Fault Refusal :=
  .next (done (
    if nodeHears s c.val then
      (List.range 4).foldl (fun s j =>
        if (hbEntry s j).1 = node.toNat ∧ (hbEntry s j).2 ≠ 0 then
          { s with com := { s.com with hbSeen := insertKey (eraseKey s.com.hbSeen j) j (now s) } }
        else s) (canCount s c.val 1)
    else s))

/-- HB_LOST (R425): the timeout of consumer entry j. DEDUCED (log 107). -/
def execHbLost (j : Fin 4) (s : State) : Host.Outcome State Fault Refusal :=
  .next (done (
    match lookup s.com.hbSeen j.val with
    | some t =>
      if (hbEntry s j.val).2 ≠ 0 ∧ t + ticksMs (hbEntry s j.val).2 ≤ now s then
        raise (fon { s with com := { s.com with hbSeen := eraseKey s.com.hbSeen j.val } } (R.CAN_STAT 0) F.CAN_STAT_HB_LOST) 585
      else s
    | none => s))

/-! ### Errors of a controller (R410, R432) -/

/-- BUS_OFF (R410). -/
def execBusOff (c : Fin 2) (s : State) : Host.Outcome State Fault Refusal :=
  .next (done (
    if canEn s c.val ∧ fget s (R.CAN_STAT c.val) F.CAN_STAT_BUS ≠ 2 then
      let s := fset s (R.CAN_STAT c.val) F.CAN_STAT_BUS 2
      flagRaise (finc s (R.CAN_CNT c.val) F.CAN_CNT_BUS_OFFS) (R.CAN_STAT c.val) F.CAN_STAT_BUS_OFF (568 + 4 * c.val)
    else s))

/-- BUS_OFF_RECOVERY (R410): error active again, with both error counts 0. -/
def execBusOffRecovery (c : Fin 2) (s : State) : Host.Outcome State Fault Refusal :=
  .next (done (
    if fget s (R.CAN_STAT c.val) F.CAN_STAT_BUS = 2 then
      fset (fset (fset s (R.CAN_STAT c.val) F.CAN_STAT_BUS 0) (R.CAN_STAT c.val) F.CAN_STAT_TEC 0) (R.CAN_STAT c.val) F.CAN_STAT_REC 0
    else s))

/-- CAN_ERROR_PASSIVE (R410): the controller enters or leaves error passive. -/
def execCanErrorPassive (c : Fin 2) (enter : Bool) (tec rec : Byte) (s : State) : Host.Outcome State Fault Refusal :=
  .next (done (
    if canEn s c.val ∧ fget s (R.CAN_STAT c.val) F.CAN_STAT_BUS ≠ 2 then
      let s := fset (fset s (R.CAN_STAT c.val) F.CAN_STAT_TEC tec.toNat) (R.CAN_STAT c.val) F.CAN_STAT_REC rec.toNat
      let s := fsetB s (R.CAN_STAT c.val) F.CAN_STAT_BUS enter
      if enter then flagRaise s (R.CAN_STAT c.val) F.CAN_STAT_ERR_PASSIVE (569 + 4 * c.val) else s
    else s))

/-- TX_TO (R432): a frame has not been sent within 100 ms. -/
def execTxTo (c : Fin 2) (s : State) : Host.Outcome State Fault Refusal :=
  .next (done (if canEn s c.val then flagRaise s (R.CAN_STAT c.val) F.CAN_STAT_TX_TO (571 + 4 * c.val) else s))

/-! ### EMCY (R428) -/

/-- EMCY_SEND (R428): the oldest message leaves once the inhibit time 0x1015 has passed. -/
def execEmcySend (s : State) : Host.Outcome State Fault Refusal :=
  .next (done (
    match s.evt.emcy with
    | m :: ms =>
      if s.evt.emcyAt ≤ now s ∧ nodeBuses s ≠ [] ∧ nmtOf s 0 ≠ 3 then
        let s := { s with evt := { s.evt with emcy := ms, emcyAt := now s + 100 * ticksUs 1 * od s 0x1015 0 } }
        nodeSend s (od s 0x1014 0 % 0x800)
          (leBytes 2 m.code ++ leBytes 1 m.errReg ++ leBytes 2 m.event ++ leBytes 2 m.count ++ [0#8])
      else s
    | [] => s))

/-- The last EMCY-routed flag has been cleared: an EMCY with code 0 follows (R428) (log 107). -/
def emcyReset (before s : State) : State :=
  if errReg before ≠ 0 ∧ errReg s = 0 ∧ s.evt.emcy.length < 16 then
    { s with evt := { s.evt with emcy := s.evt.emcy ++ [⟨0, 0, 0, 0⟩] } }
  else s

end Sys2Proof.Machine
end

