-- ==== Sys2Proof/Machine/Dma.lean ====
section
/-! DEFINITION. DMA channels (R360 to R365, R371, R387): descriptor rings, line moves, trailers, outcomes. Source
and destination addresses are integers: a row outside 40 bits is outside every region. -/

namespace Sys2Proof.Machine

def dmaChan (s : State) (n : Nat) : DmaChan := tget DmaChan.init s.dma n
def modDma (s : State) (n : Nat) (f : DmaChan → DmaChan) : State := { s with dma := tmod DmaChan.init s.dma n f }

/-- STATE of DMA_HEAD. -/
def dmaState (s : State) (n : Nat) : Nat := fget s (R.DMA_HEAD n) F.DMA_HEAD_STATE
def setDmaState (s : State) (n st : Nat) : State := fset s (R.DMA_HEAD n) F.DMA_HEAD_STATE st

/-- Address of the descriptor at HEAD. -/
def dmaDescAddr (s : State) (n : Nat) : Nat :=
  fget s (R.DMA_RING_LO n) F.DMA_RING_LO_ADDR * 32 + fget s (R.DMA_RING_HI n) F.DMA_RING_HI_ADDR * 2 ^ 32
    + 32 * fget s (R.DMA_HEAD n) F.DMA_HEAD_HEAD

/-! ### The descriptor (R361) -/

def DmaChan.word (x : DmaChan) (i : Nat) : Nat := (x.desc.getD i 0).toNat
def DmaChan.rowLen (x : DmaChan) : Nat := if x.word 4 % 2 ^ 16 = 0 then 65536 else x.word 4 % 2 ^ 16
def DmaChan.total (x : DmaChan) : Nat := max 1 (x.word 4 / 2 ^ 16) * x.rowLen
def DmaChan.outward (x : DmaChan) : Bool := bitOf (x.word 7) 29
def DmaChan.nonPosted (x : DmaChan) : Bool := bitOf (x.word 7) 28
def DmaChan.writesBack (x : DmaChan) : Bool := bitOf (x.word 7) 27

/-- Source of the byte at an offset of the descriptor. -/
def DmaChan.src (x : DmaChan) (o : Nat) : Int :=
  ((x.word 0 + x.word 1 % 2 ^ 8 * 2 ^ 32 : Nat) : Int) + (o / x.rowLen : Nat) * signed 32 (x.word 5) + (o % x.rowLen : Nat)

/-- Destination of the byte at an offset of the descriptor. -/
def DmaChan.dst (x : DmaChan) (o : Nat) : Int :=
  ((x.word 2 + x.word 3 * 2 ^ 32 : Nat) : Int) + (o / x.rowLen : Nat) * signed 32 (x.word 6) + (o % x.rowLen : Nat)

/-- A descriptor that breaks a condition of R361. DEDUCED (log 74). -/
def dmaDescBad (s : State) (x : DmaChan) : Bool :=
  decide (x.word 1 / 2 ^ 8 ≠ 0) || decide (bitsOf (x.word 7) 26 24 ≠ 0) || decide (x.word 7 % 2 ^ 16 ≠ 0) ||
  (!x.outward && decide (x.word 3 / 2 ^ 8 ≠ 0)) ||
  (x.outward && decide (regionOf s (x.word 0 + x.word 1 * 2 ^ 32) = .hole))

/-! ### Accesses (R29, R362) -/

/-- Whether a DMA channel reaches an address for reading or writing (R29) (log 75). -/
def dmaReaches (s : State) (a : Int) (write : Bool) : Bool :=
  decide (0 ≤ a) && decide (a < 2 ^ 40) && reaches .dma (regionOf s a.toNat) a.toNat write

/-- A read within one 64 B line, which the channel reads whole. DEDUCED (log 75). -/
def dmaReadLine (s : State) (a : Int) (n : Nat) : State × List Byte × Bool :=
  if dmaReaches s a false then
    let r := memRead s (a.toNat / 64 * 64) 64
    (r.1, mbytes s a.toNat n, r.2.2)
  else (decodeErr s (a % 2 ^ 40).toNat false, List.replicate n 0, false)

/-- A read of at most 64 bytes, from one line or two (log 75). -/
def dmaRead (s : State) (a : Int) (n : Nat) : State × List Byte × Bool :=
  let k := min n (64 - (a % 64).toNat)
  let r := dmaReadLine s a k
  if r.2.2 = false ∨ n = k then r
  else
    let r' := dmaReadLine r.1 (a + (k : Nat)) (n - k)
    (r'.1, r.2.1 ++ r'.2.1, r'.2.2)

/-- A write within one line; false for an error response. -/
def dmaWrite (s : State) (a : Int) (bs : List Byte) : State × Bool :=
  if dmaReaches s a true then memWrite s a.toNat bs false
  else (decodeErr s (a % 2 ^ 40).toNat true, false)

/-- The write-back of STATUS into the descriptor at HEAD (R364, R365); false when it fails. -/
def dmaStatusWrite (s : State) (n status : Nat) : State × Bool :=
  if (dmaChan s n).writesBack then dmaWrite s ((dmaDescAddr s n + 0x1E : Nat) : Int) [BitVec.ofNat 8 status]
  else (s, true)

/-- The flags and the event of a stopped channel (R365) (log 75). -/
def dmaHalt (s : State) (n : Nat) (tail : Bool) (addr : Int) : State :=
  let s := fon (setDmaState s n 5) (R.DMA_STAT n) F.DMA_STAT_STOPPED
  let s := fon s (R.DMA_STAT n) (if tail then F.DMA_STAT_TAIL_ERR else F.DMA_STAT_ERR)
  let a := (addr % 2 ^ 64).toNat
  let s := wr (wr s (R.DMA_ERR_LO n) (BitVec.ofNat 32 a)) (R.DMA_ERR_HI n) (BitVec.ofNat 32 (a / 2 ^ 32))
  raise (finc (modDma s n (fun x => { x with outs := [] })) (R.DMA_CNT n) F.DMA_CNT_ERRORS) (369 + 2 * n)

/-- A descriptor ends with a STATUS other than OK and the channel stops (R365). DEDUCED (log 76). -/
def dmaStop (s : State) (n status : Nat) (addr : Int) : State :=
  let s := fset s (R.DMA_STAT n) F.DMA_STAT_STATUS status
  dmaHalt (dmaStatusWrite s n status).1 n (status = 2) addr

def setDmaCount (s : State) (n v : Nat) : State := fset s (R.DMA_COUNT n) F.DMA_COUNT_COUNT v

/-- Shows the CRC of the bytes moved so far (log 74). -/
def dmaShowCrc (s : State) (n : Nat) : State := wr s (R.DMA_CRC n) ((dmaChan s n).crc ^^^ 0xFFFFFFFF#32)

/-- An idle channel with EN = 1 and HEAD ≠ TAIL fetches the descriptor at HEAD (R360, R361). A fetch that ends in
an error response stops the channel with ERR; COUNT has no stated value then (log 75). -/
def dmaKick (s : State) (n : Nat) : State :=
  if flag s (R.DMA_CFG n) F.DMA_CFG_EN && decide (dmaState s n = 0) && !s.reinit.contains (0x60 + n) &&
     decide (fget s (R.DMA_HEAD n) F.DMA_HEAD_HEAD ≠ fget s (R.DMA_TAIL n) F.DMA_TAIL_TAIL) then
    let a := dmaDescAddr s n
    let r := dmaRead (setDmaState s n 1) (a : Int) 32
    if r.2.2 then
      let ws := (List.range 8).map (fun i => BitVec.ofNat 32 (ofLeBytes ((r.2.1.drop (4 * i)).take 4)))
      let s := modDma r.1 n (fun x => { DmaChan.init with desc := ws, tag := x.tag, turn := x.turn })
      let s := setDmaCount s n (dmaChan s n).total
      if dmaDescBad s (dmaChan s n) then dmaStop s n 5 (a : Int) else dmaShowCrc (setDmaState s n 2) n
    else
      let s := modDma r.1 n (fun x => { DmaChan.init with tag := x.tag, turn := x.turn })
      let v := openVal s
      dmaStop (setDmaCount v.2 n v.1.toNat) n 3 (a : Int)
  else s

/-- An outward write frame of port H (R387). DEDUCED (log 77). -/
def dmaOutFrame (s : State) (n : Nat) (x : DmaChan) (addr : Int) (bs : List Byte) : State :=
  let tag := 16 * n + x.tag % 16
  let pad := (8 - bs.length % 8) % 8
  let s := laneOut s 0 1 (if x.nonPosted then 5 else 4)
    (leBytes 8 (addr % 2 ^ 64).toNat ++ leBytes 8 (bs.length + tag * 2 ^ 16) ++ bs ++ List.replicate pad 0)
  modDma s n (fun y => { y with tag := y.tag + 1 })

/-- Port H's transmit path has room, and with NP a tag is free (log 77). -/
def dmaRoom (s : State) (x : DmaChan) : Bool :=
  decide ((vcOf s 0 1).out.length < 64) && decide (x.outs.length < 16)

/-- DMA_DOORBELL (R360): the index after the last descriptor is written into TAIL. -/
def execDmaDoorbell (n : Fin 16) (tail : BitVec 12) (s : State) : Host.Outcome State Fault Refusal :=
  .next (done (dmaKick (fset s (R.DMA_TAIL n) F.DMA_TAIL_TAIL tail.toNat) n))

/-- The bytes of one beat are written to internal memory (R362, R365) (log 75). -/
def dmaBeatInternal (s : State) (n : Nat) (x : DmaChan) (bs : List Byte) : State :=
  let k := bs.length
  let r := dmaWrite (setDmaCount s n (x.total - x.moved - k)) (x.dst x.moved) bs
  let s := modDma r.1 n (fun y => { y with moved := x.moved + k })
  if r.2 then modDma s n (fun y => { y with good := y.good + k })
  else if x.moved + k = x.total then dmaStop s n 2 (x.dst x.moved)
  else dmaStop (setDmaCount s n (x.total - x.moved)) n 3 (x.dst x.moved)

/-- The bytes of one beat leave through port H (R364, R387) (log 77). -/
def dmaBeatOutward (s : State) (n : Nat) (x : DmaChan) (bs : List Byte) : State :=
  let k := bs.length
  let s := dmaOutFrame (setDmaCount s n (x.total - x.moved - k)) n x (x.dst x.moved) bs
  modDma s n (fun y => { y with
    moved := x.moved + k, good := if x.nonPosted then y.good else y.good + k,
    outs := if x.nonPosted then y.outs ++ [⟨16 * n + x.tag % 16, x.moved, k, (x.dst x.moved % 2 ^ 64).toNat⟩] else y.outs })

/-- The channel has a beat to move. -/
def dmaWants (s : State) (n : Nat) : Bool :=
  let x := dmaChan s n
  decide (dmaState s n = 2) && decide (x.moved < x.total) && (!x.outward || dmaRoom s x)

/-- The next beat is channel n's (R360): no channel of a higher PRIO has one, and none of the same PRIO was served longer ago (log 77). -/
def dmaTurn (s : State) (n : Nat) : Bool :=
  let prio := fun (k : Nat) => fget s (R.DMA_CFG k) F.DMA_CFG_PRIO
  let turn := fun (k : Nat) => (dmaChan s k).turn
  (List.range 16).all (fun k => decide (k = n) || !dmaWants s k || decide (prio k < prio n) ||
    (decide (prio k = prio n) && (decide (turn n < turn k) || (decide (turn n = turn k) && decide (n < k)))))

/-- The beat of channel n is the latest. -/
def dmaServed (s : State) (n : Nat) : State :=
  let t := (List.range 16).foldl (fun m k => max m (dmaChan s k).turn) 0
  modDma s n (fun x => { x with turn := t + 1 })

/-- DMA_BEAT_RESPONSE (R360, R362, R365): in the channel's turn one more piece of a destination line is read and written. -/
def execDmaBeatResponse (n : Fin 16) (s : State) : Host.Outcome State Fault Refusal :=
  let x := dmaChan s n
  .next (done (
    if dmaWants s n && dmaTurn s n then
      let s := dmaServed s n
      let k := min (x.rowLen - x.moved % x.rowLen) (64 - (x.dst x.moved % 64).toNat)
      let r := dmaRead s (x.src x.moved) k
      if r.2.2 = false then dmaStop (setDmaCount r.1 n (x.total - x.good)) n 3 (x.src x.moved)
      else
        let s := dmaShowCrc (modDma r.1 n (fun y => { y with crc := r.2.1.foldl crc32cByte y.crc })) n
        if x.outward then dmaBeatOutward s n x r.2.1 else dmaBeatInternal s n x r.2.1
    else s))

/-- HEAD advances modulo RING_N (R360). -/
def dmaAdvance (s : State) (n : Nat) : State :=
  let h := (fget s (R.DMA_HEAD n) F.DMA_HEAD_HEAD + 1) % max 1 (fget s (R.DMA_CFG n) F.DMA_CFG_RING_N)
  setDmaState (fset s (R.DMA_HEAD n) F.DMA_HEAD_HEAD h) n 0

/-- A descriptor whose writes and trailer have completed: STATUS, DONE, the event, the next one (R364, R365) (log 76). -/
def dmaOk (s : State) (n : Nat) : State :=
  let x := dmaChan s n
  let s := fset (setDmaState s n 4) (R.DMA_STAT n) F.DMA_STAT_STATUS 1
  let r := dmaStatusWrite s n 1
  if r.2 then
    let s := finc (fon r.1 (R.DMA_STAT n) F.DMA_STAT_DONE) (R.DMA_CNT n) F.DMA_CNT_DESC_DONE
    let s := dmaAdvance s n
    dmaKick (if bitOf (x.word 7) 31 then raise s (368 + 2 * n) else s) n
  else dmaHalt r.1 n false ((dmaDescAddr s n + 0x1E : Nat) : Int)

/-- An internal write has completed when a read of its last address has returned (R364). -/
def dmaReadBack (s : State) (x : DmaChan) (a : Int) : State × Bool :=
  if x.outward then (s, true) else let r := dmaRead s a 1; (r.1, r.2.2)

/-- DMA_DESC_COMPLETE (R363, R364): every data write has completed, an internal one by its read-back, whose error is that of the final
data beat; the trailer, which completes alike, then STATUS (log 76). -/
def execDmaDescComplete (n : Fin 16) (s : State) : Host.Outcome State Fault Refusal :=
  let x := dmaChan s n
  .next (done (
    if (dmaState s n = 2 ∨ dmaState s n = 3) ∧ x.moved = x.total ∧ x.outs = [] then
      let back := if x.trailer then (s, true) else dmaReadBack s x (x.dst (x.total - 1))
      let s := back.1
      if back.2 = false then dmaStop s n 2 (x.dst (x.total - 1))
      else if bitOf (x.word 7) 30 && !x.trailer then
        let s := modDma (setDmaState s n 3) n (fun y => { y with trailer := true })
        let a := x.dst (x.total - 1) + 1
        let bs := leBytes 4 (rd s (R.DMA_CRC n)).toNat
        if x.outward then
          if dmaRoom s x then
            let s := dmaOutFrame s n x a bs
            if x.nonPosted then
              modDma s n (fun y => { y with outs := [⟨16 * n.val + x.tag % 16, x.total, 4, (a % 2 ^ 64).toNat⟩] })
            else dmaOk s n
          else modDma s n (fun y => { y with trailer := false })
        else
          let k := min 4 (64 - (a % 64).toNat)
          let r := dmaWrite s a (bs.take k)
          let r' := if r.2 ∧ k < 4 then dmaWrite r.1 (a + (k : Nat)) (bs.drop k) else r
          let r' := if r'.2 then dmaReadBack r'.1 x (a + 3) else r'
          if r'.2 then dmaOk r'.1 n else dmaStop r'.1 n 4 a
      else dmaOk s n
    else s))

/-- A re-initialised channel without outstanding responses: EN, HEAD and TAIL are cleared (R365). -/
def dmaEmptied (s : State) (n : Nat) : State :=
  fset (fset (foff s (R.DMA_CFG n) F.DMA_CFG_EN) (R.DMA_HEAD n) F.DMA_HEAD_HEAD 0) (R.DMA_TAIL n) F.DMA_TAIL_TAIL 0

/-- A response to an outward non-posted write (R364, R365) (log 77). -/
def dmaResponse (s : State) (tag : Nat) (error : Bool) : State :=
  let n := tag / 16
  let x := dmaChan s n
  match x.outs.find? (fun o => o.tag = tag) with
  | none => s
  | some o =>
    if s.reinit.contains (0x60 + n) then
      let s := modDma s n (fun y => { y with outs := y.outs.filter (fun p => p.tag ≠ tag) })
      if (dmaChan s n).outs = [] then dmaEmptied s n else s
    else if error then
      if o.ofs = x.total then dmaStop s n 4 (o.addr : Int)
      else if o.ofs + o.len = x.total then dmaStop s n 2 (o.addr : Int)
      else dmaStop (setDmaCount s n (x.total - x.good)) n 3 (o.addr : Int)
    else modDma s n (fun y => { y with
      outs := y.outs.filter (fun p => p.tag ≠ tag), good := if o.ofs = x.total then y.good else y.good + o.len })

/-- A frame waits on VC1 behind a held RD, in its receive buffer (R383, R387) (log 121). -/
def holdReq (s : State) (r : HeldReq) (units : Nat) : State :=
  let s := modVc s 0 1 (fun x => { x with owe := x.owe - units })
  { s with host := { s.host with held := s.host.held ++ [r] } }

/-- DRSP_RX (R364, R387): a response to an outward non-posted write (log 77). -/
def execDrspRx (tag : Byte) (error : Bool) (s : State) : Host.Outcome State Fault Refusal :=
  .next (done (if s.host.held ≠ [] then holdReq s (.response tag.toNat error) 1 else dmaResponse s tag.toNat error))

/-- A stopped channel leaves the stop (log 76). -/
def dmaUnstop (s : State) (n : Nat) : State := setDmaState (foff s (R.DMA_STAT n) F.DMA_STAT_STOPPED) n 0

/-- DMA_RESTART (R365). -/
def execDmaRestart (n : Fin 16) (s : State) : Host.Outcome State Fault Refusal :=
  .next (done (if flag s (R.DMA_STAT n) F.DMA_STAT_STOPPED then dmaKick (dmaUnstop s n) n else s))

/-- DMA_SKIP (R365). -/
def execDmaSkip (n : Fin 16) (s : State) : Host.Outcome State Fault Refusal :=
  .next (done (if flag s (R.DMA_STAT n) F.DMA_STAT_STOPPED then dmaKick (dmaAdvance (dmaUnstop s n) n) n else s))

/-- DMA_REINIT (R365): rung 2 of the recovery ladder: the descriptor is abandoned, outstanding responses are waited for, then EN, HEAD and
TAIL are cleared; counters are kept (log 76). -/
def execDmaReinit (n : Fin 16) (s : State) : Host.Outcome State Fault Refusal :=
  let s := dmaUnstop (modDma s n (fun x => { DmaChan.init with tag := x.tag, outs := x.outs, turn := x.turn })) n
  .next (done (reinitOn (if (dmaChan s n).outs = [] then dmaEmptied s n else s) (0x60 + n.val)))

end Sys2Proof.Machine
end

