-- ==== Sys2Proof/Machine/ModeBase.lean ====
section
/-! DEFINITION. Leaving a mode (R459, R462, R463): the part of a transition that faults, scanners and mode requests
share. -/

namespace Sys2Proof.Machine

/-- A transition, a warm reset sequence or an orderly stop is under way. -/
def modeBusy (s : State) : Bool := s.sys.target.isSome || s.sys.reset.isSome || s.sys.orderly.isSome

/-- The mode takes a new value: EV MODE_CHANGE (R425). The device fires no more, so EMIT_TRIG is low (R88), and the fabric
leaves the mode (R76, R77). -/
def setMode (s : State) (m : Mode) : State :=
  if modeOf s = m then s
  else
    let s := raise (fset s R.SYS_MODE F.SYS_MODE_MODE m.code) Ev.modeChange
    tdcLeave { s with pins := { s.pins with emitTrig := [] } }

/-- The leaving sequence towards a mode begins: no further shot is armed (R462). -/
def leaveTo (s : State) (m : Mode) : State :=
  let s := if modeOf s = .scan ∨ modeOf s = .calibrate then cutSlots s else s
  fon { s with sys := { s.sys with target := some m.code } } R.SYS_MODE F.SYS_MODE_BUSY

/-- Entry to SAFE_HOLD (R459, R463): from STANDBY, CALIBRATE or SCAN, and in place of a leaving sequence bound for
another mode; an orderly stop or a warm reset governs. -/
def safeHold (s : State) : State :=
  if s.sys.reset.isSome || s.sys.orderly.isSome then s
  else match modeOf s with
    | .standby | .calibrate | .scan => leaveTo s .safeHold
    | _ => s

end Sys2Proof.Machine
end

