-- ==== Sys2Proof/Machine/Kernel.lean ====
section
/-! DEFINITION. The kernels (07_echo_extraction.md, R154 to R166, R169): pile-up correction, matched filtering,
peaks, echo time, walk, second trip, intensity and width, over exact numbers. -/

namespace Sys2Proof.Machine

/-! ### Numbers -/

/-- Integer square root by `k` bits from the top: the largest r with r² ≤ n. -/
def isqrtBits : Nat → Nat → Nat → Nat
  | 0, _, r => r
  | k + 1, n, r => isqrtBits k n (if (r + 2 ^ k) ^ 2 ≤ n then r + 2 ^ k else r)

def isqrt (n : Nat) : Nat := isqrtBits (n.log2 / 2 + 1) n 0

/-- The series z + z³/3 + z⁵/5 + … in 2^-96, `k` terms from the term of exponent 2i + 1 on; `p` is z^(2i+1). -/
def atanhSeries : Nat → Nat → Nat → Nat → Nat
  | 0, _, _, _ => 0
  | k + 1, i, p, z2 => p / (2 * i + 1) + atanhSeries k (i + 1) (p * z2 / 2 ^ 96) z2

/-- ln of p/q in 2^-96 for q ≤ p < 2q. -/
def lnOne (p q : Nat) : Nat :=
  let z := (p - q) * 2 ^ 96 / (p + q)
  2 * atanhSeries 40 0 z (z * z / 2 ^ 96)

/-- ln of p/q in 2^-96 for p ≥ q > 0 (log 9). -/
def lnFix (p q : Nat) : Nat :=
  let k := (p / q).log2
  lnOne p (q * 2 ^ k) + k * lnOne (2 ^ 97 - 1) (2 ^ 96)

/-- round(m × ln(p/q)) to nearest. -/
def lnRound (m p q : Nat) : Nat := (m * lnFix p q * 2 + 2 ^ 96) / 2 ^ 97

/-! ### The kernel set in a bank (R154, R155) -/

/-- What a kernel reads of its set, for one BINW. -/
structure KSet where
  detK : Nat
  puDead : Nat
  minSep : Nat
  puEn : Bool
  taps : List (List Int)
  delay : List Int
  walk : List Int
  deriving DecidableEq, Repr

/-- A 16-bit signed number in memory. -/
def mi16 (s : State) (a : Nat) : Int := signed 16 (mrd s a 2)

/-- The set loaded at a base address, for a BINW and a walk table. -/
def readSet (s : State) (base binw sel : Nat) : KSet :=
  let param := base + mrd s (base + 0xE) 2
  let tmpl := base + mrd s (base + 0x10) 2
  let walk := base + mrd s (base + 0x12) 2
  { detK := mrd s param 1, puDead := mrd s (param + 1) 1, minSep := mrd s (param + 2) 1, puEn := bitOf (mrd s (param + 3) 1) 0,
    taps := (List.range 4).map (fun t => (List.range 32).map (fun k => mi16 s (tmpl + (4 * binw + t) * 64 + 2 * k))),
    delay := (List.range 4).map (fun t => mi16 s (tmpl + 4096 + (4 * binw + t) * 4)),
    walk := (List.range 256).map (fun i => mi16 s (walk + 512 * sel + 2 * i)) }

/-! ### Pile-up correction (R157) -/

/-- Counts by bin, and corrected counts by bin in 1/256. -/
abbrev BinMap := List (Nat × Nat)

/-- Sum of the counts of the `m` bins below b. -/
def sumBelow (h : BinMap) (b m : Nat) : Nat := ((List.range m).map (fun j => tget 0 h (b - 1 - j))).sum

/-- A_b × 2^20. -/
def avail (h : BinMap) (sh bg d b : Nat) : Int :=
  let m := min b d
  2 ^ 20 * ((sh : Int) - sumBelow h b m) - (m * sh * bg : Nat)

/-- The corrected count of a bin in 1/256, and whether the bin is clamped. -/
def corrected (h : BinMap) (sh bg d b hb : Nat) : Nat × Bool :=
  let a := avail h sh bg d b
  if hb = 0 then (0, false)
  else if (hb : Int) * 2 ^ 20 < a ∧ (2 ^ 20 : Int) ≤ a then
    (min 0xFFFFFF (lnRound (256 * sh) a.toNat (a.toNat - hb * 2 ^ 20)), false)
  else (min 0xFFFFFF (lnRound (256 * sh) (2 * (max a (2 ^ 20)).toNat) (2 ^ 20)), true)

/-- Corrected counts of a histogram and its clamped bins. -/
def pileUp (k : KSet) (h : BinMap) (sh bg binw : Nat) : BinMap × List Nat :=
  if !k.puEn then (h.map (fun p => (p.1, min 0xFFFFFF (256 * p.2))), [])
  else
    let d := ceilDiv k.puDead (binw + 1)
    let c := h.map (fun p => (p.1, corrected h sh bg d p.1 p.2))
    (c.map (fun p => (p.1, p.2.1)), (c.filter (fun p => p.2.2)).map (·.1))

/-! ### Filtering and peaks (R159 to R161) -/

/-- A value of R159 as a signed square over a positive denominator. -/
structure Snr where
  num : Int
  den : Nat
  deriving DecidableEq, Repr

def Snr.lt (a b : Snr) : Bool := decide (a.num * b.den < b.num * a.den)

/-- Numerator of y_t(b), over 256 × T_max. -/
def filtNum (taps : List Int) (c : BinMap) (b : Nat) : Int :=
  ((taps.zipIdx).map (fun p => if b + p.2 < 15 then (0 : Int) else p.1 * (tget 0 c (b + p.2 - 15) : Nat))).sum

/-- The largest tap. -/
def tapMax (taps : List Int) : Int := taps.foldl max 0

/-- Σc of the histogram. DEDUCED (log 46). -/
def total (c : BinMap) : Nat := (c.map (·.2)).sum

/-- The SNR of a template in a bin, and its linear numerator: with D = 524,288 × T_max, N = 2,048 × Y − Σc × ΣT and
W = Σc × ΣT + D, the value is (N / D) / sqrt(W / D). -/
def snrOf (taps : List Int) (c : BinMap) (b : Nat) : Snr :=
  let d := 524288 * tapMax taps
  let bt := (total c : Int) * taps.sum
  let n := 2048 * filtNum taps c b - bt
  let w := bt + d
  if w ≤ 0 then ⟨0, 1⟩ else ⟨n * n.natAbs, (d * w).toNat⟩

/-- The best template of a bin: the largest SNR, ties to the lowest number. -/
def bestTmpl (k : KSet) (mask : Nat) (c : BinMap) (b : Nat) : Option (Nat × Snr) :=
  ((List.range 4).filter (fun t => bitOf mask t && decide (0 < tapMax (k.taps.getD t [])))).foldl (fun acc t =>
    let v := snrOf (k.taps.getD t []) c b
    match acc with
    | none => some (t, v)
    | some x => if x.2.lt v then some (t, v) else some x) none

/-- A candidate: bin, template, SNR. -/
structure Peak where
  b : Nat
  t : Nat
  v : Snr
  deriving DecidableEq, Repr

/-- y on template t at the bin below, at, and above b (numerators over one denominator); below bin 0 the taps that
reach inside count. -/
def ys (k : KSet) (c : BinMap) (t b : Nat) : Int × Int × Int :=
  let taps := k.taps.getD t []
  let below := ((taps.zipIdx).map (fun p => if b + p.2 < 16 then (0 : Int) else p.1 * (tget 0 c (b + p.2 - 16) : Nat))).sum
  (below, filtNum taps c b, filtNum taps c (b + 1))

/-- A bin is a candidate (R160) (log 45). -/
def candidate (k : KSet) (mask : Nat) (c : BinMap) (b : Nat) : Option Peak :=
  match bestTmpl k mask c b with
  | none => none
  | some (t, v) =>
    let y := ys k c t b
    if y.1 ≤ y.2.1 ∧ y.2.2 < y.2.1 ∧ (k.detK ^ 2 * v.den : Nat) ≤ 256 * v.num then some ⟨b, t, v⟩ else none

/-- Bins in which the filter can differ from its baseline, rising, below a limit. -/
def nearBins (c : BinMap) (lim : Nat) : List Nat :=
  (c.flatMap (fun p => (List.range 34).filterMap (fun j => if 17 ≤ p.1 + j ∧ p.1 + j - 17 < lim then some (p.1 + j - 17) else none))).foldl
    (fun l b => if l.contains b then l else l.filter (· < b) ++ b :: l.filter (b < ·)) []

/-- Inserts a candidate in descending SNR, ascending bin at equal SNR. -/
def peakInsert (p : Peak) : List Peak → List Peak
  | [] => [p]
  | q :: l => if q.v.lt p.v then p :: q :: l else q :: peakInsert p l

/-- Surviving candidates of a histogram in descending SNR. -/
def survivors (k : KSet) (mask binw : Nat) (c : BinMap) (lim : Nat) : List Peak :=
  let cs := ((nearBins c lim).filterMap (candidate k mask c)).foldl (fun l p => peakInsert p l) []
  let m := ceilDiv k.minSep (binw + 1)
  cs.foldl (fun l p => if l.all (fun q => decide (m < ((p.b : Int) - q.b).natAbs)) then l ++ [p] else l) []

/-- The bins of a peak region, clipped below a limit. -/
def region (k : KSet) (binw b lim : Nat) : List Nat :=
  let h := ceilDiv k.minSep (binw + 1) / 2
  (List.range (2 * h + 1)).filterMap (fun j => if h ≤ b + j ∧ b + j - h < lim then some (b + j - h) else none)

/-! ### Echoes (R158, R162 to R166) -/

/-- Rounds a rational with a denominator of either sign to nearest, ties away from zero (log 45). -/
def roundQ (a b : Int) : Int := if b < 0 then roundDiv (-a) b.natAbs else roundDiv a b.natAbs

/-- T of the dense form without DELAY and WIN_OFS: round((b + 0.5 + δ) × 16 × (BINW + 1)), where δ = p / (2q) is held
within ±0.5. -/
def denseTime (k : KSet) (c : BinMap) (t b binw : Nat) : Int :=
  let y := ys k c t b
  let p := y.1 - y.2.2
  let q := y.1 - 2 * y.2.1 + y.2.2
  let p := clampInt (-(q.natAbs : Int)) q.natAbs p
  if q = 0 then roundQ (16 * (binw + 1) * (2 * b + 1) : Nat) 2
  else roundQ ((16 * (binw + 1) : Nat) * ((2 * b + 1 : Nat) * q + p)) (2 * q)

/-- The lower median of a list of numbers. -/
def medianLow (l : List Nat) : Nat :=
  let r := l.foldl (fun (a : List Nat) x => a.filter (· ≤ x) ++ x :: a.filter (x < ·)) []
  r.getD ((r.length - 1) / 2) 0

/-- INTENSITY (R166). -/
def intensityOf (c : BinMap) (reg : List Nat) (sh : Nat) : Nat :=
  let v := roundDiv (2048 * ((reg.map (fun b => tget 0 c b)).sum : Nat) - (reg.length * total c : Nat) : Int) (2048 * max 1 sh)
  (clampInt 0 0xFFFF v).toNat

/-- First bin at or below b whose count is at or below half the peak; none within the histogram. -/
def fallDown (c : BinMap) (peak : Nat) : Nat → Option Nat
  | 0 => if 2 * tget 0 c 0 ≤ peak then some 0 else none
  | b + 1 => if 2 * tget 0 c (b + 1) ≤ peak then some (b + 1) else fallDown c peak b

/-- First of `n` bins from b upwards whose count is at or below half the peak. -/
def fallUp (c : BinMap) (peak : Nat) : Nat → Nat → Option Nat
  | 0, _ => none
  | n + 1, b => if 2 * tget 0 c b ≤ peak then some b else fallUp c peak n (b + 1)

/-- WIDTH (R166): the distance of the two crossings as a rational, in 0.4 ns. -/
def widthOf (c : BinMap) (reg : List Nat) (binw lim : Nat) : Nat :=
  let p := reg.foldl (fun a b => if tget 0 c a < tget 0 c b then b else a) (reg.headD 0)
  let top := tget 0 c p
  let half := fun (x : Nat) => 2 * tget 0 c x
  -- distance from the peak to each crossing as numerator and denominator
  let left : Nat × Nat :=
    match if p = 0 then none else fallDown c top (p - 1) with
    | some a => ((p - a - 1) * (half (a + 1) - half a) + (half (a + 1) - top), half (a + 1) - half a)
    | none => (p, 1)
  let right : Nat × Nat :=
    match fallUp c top (lim - (p + 1)) (p + 1) with
    | some a => ((a - 1 - p) * (half (a - 1) - half a) + (half (a - 1) - top), half (a - 1) - half a)
    | none => (lim - 1 - p, 1)
  if top = 0 then 0
  else min 255 (roundDiv ((left.1 * right.2 + right.1 * left.2) * (binw + 1) : Nat) (4 * (left.2 * right.2))).toNat

/-- SNR in unsigned 12.4, saturating: round(16 × value). DEDUCED (log 45). -/
def snrField (v : Snr) : Nat := if v.num ≤ 0 then 0 else min 0xFFFF ((isqrt (1024 * v.num.toNat / v.den) + 1) / 2)

/-- A remote histogram (R169): word 0x08 of its slot, SHOTS, word 0x0C, the shift in bins, its bins. -/
structure Remote where
  w8 : Nat
  shots : Nat
  wc : Nat
  shift : Int
  bins : List (Nat × Nat)

/-- What a kernel run works on. -/
structure KRun where
  set : KSet
  tk : Ticket
  binw : Nat
  winOfs : Nat
  mask : Nat
  remote : Option Remote
  bins : List (Nat × Nat)
  /-- List entries of a sparse histogram. -/
  entries : List Pair
  cl : Fin 16
  chofs : Word
  doneAt : Nat

/-- The bin of an entry. -/
def Pair.bin (p : Pair) (binw : Nat) : Nat := (p.rel / ((16 * (binw + 1) : Nat) : Int)).toNat

/-- Bins entries by their relative time. -/
def binEntries (es : List Pair) (binw : Nat) : BinMap :=
  es.foldl (fun h p => tmod 0 h (p.bin binw) (· + 1)) []

/-- The blank echo of a run. -/
def KRun.echo (r : KRun) : Echo :=
  { ch := 16 * r.tk.tile + r.tk.ch, row := r.tk.row, frame := r.tk.frame, time := 0, trip := false, intensity := 0, width := 0,
    sat := false, biasMove := false, subst := false, summed := false, pileup := false, walkEst := false, ecount := 0,
    eidx := 0, bg := r.tk.bgBin, walk := 0, sumMiss := false, more := false, tmpl := 0, shots := r.tk.shots, snr := 0, tot := 0,
    doneAt := r.doneAt, cl := r.cl, chofs := r.chofs, light := false }

/-- Sums the remote corrected counts, shifted, into the local ones (R169). -/
def sumShift (c : BinMap) (sh : Int) (q : BinMap) : BinMap :=
  q.foldl (fun l p =>
    let b := (p.1 : Int) + sh
    if 0 ≤ b ∧ b ≤ 2047 then tmod 0 l b.toNat (fun v => v + p.2) else l) c

/-- One echo of STANDARD from a surviving candidate. `es` are the list entries that the candidate's histogram was
binned from; `rank` 0 is the highest SNR. DEDUCED (log 44). -/
def KRun.standard (r : KRun) (c : BinMap) (clamped : List Nat) (sh : Nat) (summed trip : Bool) (es : List Pair) (rank lim : Nat)
    (p : Peak) : Echo :=
  let reg := region r.set r.binw p.b lim
  let near := es.filter (fun x => reg.contains (x.bin r.binw))
  let sparse := r.tk.sparse && !summed
  let base : Int := 128 * r.winOfs + r.set.delay.getD p.t 0
  let t := if sparse && !near.isEmpty then base + (2 * (near.map (·.rel)).sum + near.length) / ((2 * near.length : Nat) : Int)
    else base + denseTime r.set c p.t p.b r.binw
  let tot : Option Nat :=
    if sparse then (if near.isEmpty then none else some (medianLow (near.map (·.tot))))
    else if rank = 0 ∧ r.tk.totMean ≠ 0 then some r.tk.totMean else none
  let w := match tot with | some x => r.set.walk.getD (min 255 (x / 4)) 0 | none => r.set.walk.getD 0 0
  let rem := fun (b : Nat) => match r.remote with | some x => bitOf x.w8 b | none => false
  let flag3 := fun (own : Bool) (f : Pair → Bool) (b : Nat)  => if sparse then near.any f else own || (summed && rem b)
  { r.echo with
    time := t - w, trip := trip, intensity := intensityOf c reg sh, width := widthOf c reg r.binw lim,
    sat := flag3 r.tk.sat (·.sat) 22, biasMove := flag3 r.tk.biasMove (·.biasMove) 21, subst := flag3 r.tk.subst (·.subst) 20,
    summed := summed, pileup := reg.any (fun b => clamped.contains b), walkEst := tot.isNone, walk := w, tmpl := p.t,
    shots := sh, snr := snrField p.v, tot := tot.getD 0 }

/-- Numbers the echoes in ascending range and carries what belongs to the whole histogram (R158, R161) (log 44). -/
def finishEchoes (more full : Bool) (l : List Echo) : List Echo :=
  let l := l.foldl (fun (a : List Echo) e => a.filter (fun x => x.time ≤ e.time) ++ e :: a.filter (fun x => e.time < x.time)) []
  (l.zipIdx).map (fun p => { p.1 with eidx := p.2, ecount := l.length - 1, more := more, pileup := p.1.pileup || full })

/-- STANDARD, with summation when the run has a remote histogram (R157 to R164, R166, R169). -/
def KRun.runStandard (r : KRun) : List Echo :=
  let h := if r.tk.sparse then binEntries (r.entries.filter (fun p => !p.trip)) r.binw else r.bins
  let loc := pileUp r.set h r.tk.shots r.tk.bgBin r.binw
  let summed := r.remote.isSome
  let (c, clamped, sh, full2) := match r.remote with
    | none => (loc.1, loc.2, r.tk.shots, false)
    | some x =>
      let q := pileUp r.set x.bins x.shots (x.wc % 4096) r.binw
      let cl := q.2.filterMap (fun (b : Nat) => let y := (b : Int) + x.shift; if 0 ≤ y ∧ y ≤ 2047 then some y.toNat else none)
      (sumShift loc.1 x.shift q.1, loc.2 ++ cl, r.tk.shots + x.shots, decide (x.shots < 4 * (x.wc / 4096 % 256)))
  let tr := r.entries.filter (fun p => p.trip)
  let ct := (binEntries tr r.binw).map (fun p => (p.1, 256 * p.2))
  let cur := if sh = 0 then [] else survivors r.set r.mask r.binw c 2048
  let sec := if sh = 0 || !r.tk.trip2 then [] else survivors r.set r.mask r.binw ct (2 ^ 23)
  let top := cur.take 4
  let es := ((top.zipIdx).map (fun p => r.standard c clamped sh summed false (r.entries.filter (fun x => !x.trip)) p.2 2048 p.1)) ++
    ((sec.take (4 - top.length)).map (fun p => { r.standard ct [] sh false true tr 1 (2 ^ 23) p with summed := summed }))
  finishEchoes (decide (4 < cur.length + sec.length)) (decide (r.tk.shots < 4 * r.tk.full) || full2) es

/-- LIGHT (R165). -/
def KRun.runLight (r : KRun) : List Echo :=
  finishEchoes (decide (4 < r.entries.length)) (decide (r.tk.shots < 4 * r.tk.full)) ((r.entries.take 4).map (fun p =>
    let w := r.set.walk.getD (min 255 (p.tot / 4)) 0
    { r.echo with time := 128 * r.winOfs + p.rel - w, trip := p.trip, intensity := p.tot, width := min 255 ((p.tot + 8) / 16),
                  sat := p.sat, biasMove := p.biasMove, subst := p.subst, walk := w, tot := p.tot }))

end Sys2Proof.Machine
end

