-- ==== Sys2Proof/Machine/Pool.lean ====
section
/-! DEFINITION. The loam engine pool (06_loam_engine_pool.md): ticket queues, takes, help and steals, fetches and
kernel runs, self-test, retirement, re-initialisation and the hitless kernel swap. -/

namespace Sys2Proof.Machine

/-! ### Queues and engines -/

def tqOf (s : State) (c : Nat) : List Ticket := tget [] s.pool.queues c
def eng (s : State) (e : Nat) : Engine := tget Engine.init s.pool.engines e
def modEng (s : State) (e : Nat) (f : Engine → Engine) : State :=
  { s with pool := { s.pool with engines := tmod Engine.init s.pool.engines e f } }

/-- STATE codes of ENG_STAT. -/
abbrev engLoad := 0
abbrev engIdle := 1
abbrev engBusy := 2
abbrev engDrain := 3
abbrev engTest := 4
abbrev engRetired := 5

def engState (s : State) (e : Nat) : Nat := fget s (R.ENG_STAT e) F.ENG_STAT_STATE

/-- The positions of a cluster. -/
def clEngines (c : Nat) : List Nat := (List.range 16).map (16 * c + ·)

/-- Shows the engines that take tickets (IDLE or BUSY). -/
def clShow (s : State) (c : Nat) : State :=
  fset s (R.CL_STAT c) F.CL_STAT_IN_SVC
    (if clusterRuns s c then
      ((clEngines c).filter (fun e => decide (engState s e = engIdle) || decide (engState s e = engBusy))).length else 0)

/-- Changes STATE of an engine. -/
def setEng (s : State) (e st : Nat) : State := clShow (fset s (R.ENG_STAT e) F.ENG_STAT_STATE st) (e / 16)

/-- A queue with its occupancy shown; QUEUE_HIGH when OCC reaches QHI (R152). -/
def setTq (s : State) (c : Nat) (l : List Ticket) : State :=
  let old := fget s (R.CL_Q c) F.CL_Q_OCC
  let hi := fget s (R.CL_CTRL c) F.CL_CTRL_QHI
  let s := fset { s with pool := { s.pool with queues := tput [] s.pool.queues c l } } (R.CL_Q c) F.CL_Q_OCC l.length
  let s := fmax s (R.CL_Q c) F.CL_Q_PEAK l.length
  if old < hi ∧ hi ≤ l.length then raise s (256 + 4 * c + 2) else s

/-- A loss of the cluster's tickets (R152). -/
def histLoss (s : State) (c : Nat) (f : Fld) : State := raise (fon s R.ENP_STAT f) (256 + 4 * c + 1)

/-- Address of a place of a ticket queue. -/
def tqAddr (s : State) (c slot : Nat) : Nat :=
  0x0100000000 + fget s R.CM_TQ_BASE F.CM_TQ_BASE_OFS + 0x4000 * c + 16 * slot

/-- Appends a ticket to a queue and writes its 16 bytes. DEDUCED (log 40). -/
def tqPush (s : State) (c : Nat) (k : Ticket) : State :=
  let w := tget 0 s.pool.tqWr c
  let s := { s with pool := { s.pool with tqWr := tput 0 s.pool.tqWr c ((w + 1) % 1024) } }
  setTq (blockWrite s (tqAddr s c w) k.bytes) c (tqOf s c ++ [{ k with slot := w }])

/-- Queue c still serves place k of R130's order in the present tile cycle. DEDUCED (log 134). -/
def qTurn (s : State) (c k : Nat) : Bool :=
  let t := tget (0, 0) s.pool.turns c
  decide (t.1 ≠ now s / 2) || decide (t.2 ≤ k)

/-- Queue c has served an operation: from place k on, the order of the present tile cycle is still open (R130). -/
def qServe (s : State) (c k : Nat) : State :=
  { s with pool := { s.pool with turns := tput (0, 0) s.pool.turns c (now s / 2, k) } }

/-- TICKET_POST (R121, R129, R130): 8 tile cycles after posting, when the home queue of the tile grants credit. -/
def execTicketPost (t : Fin 64) (s : State) : Host.Outcome State Fault Refusal :=
  .next (done (match postOf s t.val with
    | [] => s
    | k :: l =>
      let c := t.val / 4
      if k.entry + 16 ≤ now s ∧ (tqOf s c).length < 1024 ∧ qTurn s c (t.val % 4) = true then
        let s := qServe (setPost s t.val l) c (t.val % 4)
        let s := modBuf s (16 * t.val + k.ch) k.buf (fun h => { h with queued := true })
        tqPush s c { k with entry := now s }
      else s))

/-! ### Loss, retirement and self-test selection (R141, R143, R145) -/

/-- A gap record for a ticket's channel over shots 0 to DEPTH − 1, DEPTH as the row in clay memory gives it. -/
def ticketGap (s : State) (k : Ticket) (reason : Nat) : State :=
  gapAdd s reason k.tile (2 ^ k.ch) k.row k.frame 0 (rowAt s k.row).depth 0xFFFFFFFF

/-- The tile buffer of a ticket, HELD for its fetch, clears. -/
def releaseBuf (s : State) (k : Ticket) : State :=
  if ((gtChan s (16 * k.tile + k.ch)).buf k.buf).st = .held ∧ bufGen s (16 * k.tile + k.ch) k.buf = k.gen then
    bufClear s (16 * k.tile + k.ch) k.buf
  else s

/-- The histograms that an engine holds are lost (R141). -/
def loseHeld (s : State) (e : Nat) : State :=
  let rs := (eng s e).run.toList ++ (eng s e).next.toList
  let s := modEng s e (fun x => { x with run := none, next := none })
  rs.foldl (fun s r => ticketGap (if r.fetched then s else releaseBuf s r.tk) r.tk Gap.deadline) s

/-- The engine after position p, in ascending order with wrap, that may be selected. -/
def nextSel (s : State) (c p : Nat) : Option Nat :=
  ((List.range 16).map (fun i => (p + 1 + i) % 16)).find? (fun j =>
    decide (engState s (16 * c + j) = engIdle) || decide (engState s (16 * c + j) = engBusy))

/-- Selects the engine after position p for self-test (R143). -/
def selectAfter (s : State) (c p : Nat) : State :=
  let s := { s with pool := { s.pool with sel := eraseKey s.pool.sel c } }
  if flag s R.ENP_CTRL F.ENP_CTRL_ST_EN && clusterRuns s c then
    match nextSel s c p with
    | some j =>
      let s := { s with pool := { s.pool with sel := insertKey s.pool.sel c j } }
      setEng (fset s (R.CL_STAT c) F.CL_STAT_TESTING j) (16 * c + j) engDrain
    | none => s
  else s

/-- Selects an engine where none is selected and no re-initialisation runs. -/
def selectFirst (s : State) (c : Nat) : State :=
  if (lookup s.pool.sel c).isNone && !flag s (R.CL_STAT c) F.CL_STAT_REINIT_BUSY then selectAfter s c 15 else s

/-- Ends a re-initialisation once its last engine has left TEST (R146). -/
def reinitEnd (s : State) (c : Nat) : State :=
  if flag s (R.CL_STAT c) F.CL_STAT_REINIT_BUSY && (clEngines c).all (fun e => !(eng s e).reinit) then
    selectFirst (raise (foff s (R.CL_STAT c) F.CL_STAT_REINIT_BUSY) (256 + 4 * c + 3)) c
  else s

/-- Engines of a cluster in service (R139). -/
def inService (s : State) (c : Nat) : Nat :=
  16 - ((clEngines c).filter (fun e => decide (engState s e = engRetired))).length - b2n (flag s R.ENP_CTRL F.ENP_CTRL_ST_EN)

/-- Engine e retires (R135, R145): causes 1 ST_FAIL, 2 OVERRUN, 3 ECC_UE, 4 LOAD_CRC. -/
def retire (s : State) (e cause : Nat) : State :=
  let c := e / 16
  let s := loseHeld s e
  let s := setEng (fset s (R.ENG_STAT e) F.ENG_STAT_CAUSE cause) e engRetired
  let s := fset s (R.ENP_RETIRED (e / 32)) F.ENP_RETIRED_RETIRED
    (setBitN (fget s (R.ENP_RETIRED (e / 32)) F.ENP_RETIRED_RETIRED) (e % 32) true)
  let s := flagRaise s R.ENP_STAT F.ENP_STAT_RETIRE (256 + 4 * c)
  let s := if inService s c ≤ fget s (R.CL_CTRL c) F.CL_CTRL_RET_WARN then
      flagRaise s R.ENP_STAT F.ENP_STAT_RET_WARN (256 + 4 * c + 3) else s
  let s := if lookup s.pool.sel c = some (e % 16) then selectAfter s c (e % 16) else s
  reinitEnd (modEng s e (fun x => { x with reinit := false, banks := [] })) c

/-- Address of engine e's local memory (R27, R136). -/
def engAddr (e : Nat) : Nat := 0x0300000000 + 0x10000 * e

/-- An uncorrectable error in word `a` of an engine's local memory (R326) (log 39). -/
def engineUe (s : State) (e a : Nat) : State := retire (ueRecord s a) e 3

/-- An uncorrectable error that the engine reports itself: which of its words is open (log 135). -/
def engineUeOpen (s : State) (e : Nat) : State :=
  engineUe (openVal s).2 e (engAddr e + 8 * ((openVal s).1.toNat % 8192))

/-- Corrected errors of an engine's local memory: its own count and region 1's (R325). -/
def engineCe (s : State) (e n : Nat) : State :=
  let s := fadd s (R.ENG_STAT e) F.ENG_STAT_ECC_CE n
  if n = 0 then s else raise (fadd (fon s (R.MEM_RSTAT 1) F.MEM_RSTAT_CE) (R.MEM_RCNT 1) F.MEM_RCNT_CE_CNT n) 435

/-- Fills `n` 64-bit words of an engine's memory with open values: content that the spec does not give (log 135). -/
def openFill (s : State) (a n : Nat) : State :=
  blockWrite { s with free := s.free + n } a
    ((List.range n).flatMap (fun i => leBytes 8 (Config.freeWord (s.free + i)).toNat))

/-! ### Kernel set banks (R147, R148) -/

/-- Address of bank b in engine e. -/
def bankAddr (e b : Nat) : Nat := engAddr e + 0x6000 * b

def activeBank (s : State) : Nat := fget s R.ENP_KSWAP F.ENP_KSWAP_BANK
def swapState (s : State) : Nat := fget s R.ENP_KSWAP F.ENP_KSWAP_STATE
def setSwap (s : State) (st : Nat) : State := fset s R.ENP_KSWAP F.ENP_KSWAP_STATE st

/-- The bank on which a ticket runs (R148). -/
def bankOf (s : State) (k : Ticket) : Nat :=
  if swapState s = 3 ∧ ¬ (k.frame + 2 ^ 16 - fget s R.ENP_KSWAP F.ENP_KSWAP_SWAP_FRAME) % 2 ^ 16 < 2 ^ 15 then 1 - activeBank s
  else activeBank s

/-- SIZE of an image, and the check of its bank CRC (R154). -/
def imgSize (s : State) (a : Nat) : Nat := mrd s (a + 4) 4
def imgCrcOk (s : State) (a : Nat) : Bool :=
  !poisoned s a (imgSize s a) && decide (imgSize s a ≤ 24576) &&
    decide ((crc32c (mbytes s (a + 0x40) (imgSize s a - 0x40))).toNat = mrd s (a + 0x1C) 4)

/-- The header of an image is good (R147, R448): CRC, SIZE, the allocation, and a SET_ID of its own. -/
def imgHdrOk (s : State) (a : Nat) : Bool :=
  !poisoned s a 0x40 && inKimage a && decide (a % 64 = 0) &&
    decide ((crc32c (mbytes s a 0x3C)).toNat = mrd s (a + 0x3C) 4) &&
    decide (0x40 ≤ imgSize s a) && decide (imgSize s a ≤ 24576) &&
    decide (mrd s a 2 ≠ fget s R.ENP_KINFO F.ENP_KINFO_SET_ACT)

/-- Loads the image at an address into bank b of engine e. -/
def loadBank (s : State) (e b a : Nat) : State := blockWrite s (bankAddr e b) (mbytes s a (imgSize s a))

/-- A read of an image meets a poisoned word, which is recorded (R326). -/
def imgRead (s : State) (a n : Nat) : State := match firstPoison s a n with | some p => ueRecord s p | none => s

/-- A swap in progress. -/
def swapping (s : State) : Bool := swapState s = 1 || swapState s = 2

/-- The banks an engine needs: the active one, and those of a swap in progress or not yet freed. -/
def neededBanks (s : State) : List Nat :=
  if swapState s = 0 then [activeBank s] else [activeBank s, 1 - activeBank s]

/-- Engine e lacks a set in use. -/
def lacksSet (s : State) (e : Nat) : Bool :=
  (neededBanks s).any (fun b => (lookup s.pool.src b).isSome && !(eng s e).banks.contains b)

/-- Bank b of engine e takes the image at an address; ENP_KINFO shows the set of the active bank (R147, R149). -/
def bankLoaded (s : State) (e b a : Nat) : State :=
  let s := modEng (loadBank s e b a) e (fun x => { x with banks := if x.banks.contains b then x.banks else x.banks ++ [b] })
  if b = activeBank s then fset s R.ENP_KINFO F.ENP_KINFO_SET_ACT (mrd s a 2) else s

/-- ENGINE_LOAD_DONE (R135, R147). -/
def execEngineLoadDone (e : Fin 256) (s : State) : Host.Outcome State Fault Refusal :=
  let c := e.val / 16
  .next (done (
    if engState s e.val = engLoad then
      let need := (neededBanks s).filterMap (fun b => (lookup s.pool.src b).map (fun a => (b, a)))
      if need.isEmpty then s
      else if need.all (fun x => imgCrcOk s x.2) then
        let s := need.foldl (fun s x => bankLoaded s e.val x.1 x.2) s
        let s := modEng s e.val (fun x => { x with testAt := now s })
        if (eng s e.val).reinit then setEng s e.val engTest
        else selectFirst (setEng s e.val engIdle) c
      else retire (need.foldl (fun s x => imgRead s x.2 (imgSize s x.2)) s) e.val 4
    else if swapState s = 1 && !(eng s e.val).banks.contains (1 - activeBank s) &&
        (decide (engState s e.val = engIdle) || decide (engState s e.val = engBusy) || decide (engState s e.val = engDrain)) then
      match lookup s.pool.src (1 - activeBank s) with
      | some a =>
        if imgCrcOk s a then bankLoaded s e.val (1 - activeBank s) a
        else retire (imgRead s a (imgSize s a)) e.val 4
      | none => s
    else s))

/-- A swap fails (R147). -/
def swapFail (s : State) (err : Nat) : State :=
  let s := fset (setSwap s 0) R.ENP_KSWAP F.ENP_KSWAP_ERR err
  let s := { s with pool := { s.pool with src := eraseKey s.pool.src (1 - activeBank s) } }
  (List.range 16).foldl (fun s c => raise s (256 + 4 * c + 3)) (fon s R.ENP_STAT F.ENP_STAT_KSWAP_ERR)

/-- KSWAP_REQ (R147): the header is checked and loading starts. -/
def execKswapReq (s : State) : Host.Outcome State Fault Refusal :=
  let a := (rd s R.ENP_KSRC_LO).toNat + fget s R.ENP_KSRC_HI F.ENP_KSRC_HI_ADDR * 2 ^ 32
  .next (done (
    if swapState s ≠ 0 then s
    else if !imgHdrOk s a then swapFail (imgRead s a 0x40) 1
    else
      let s := fset (setSwap s 1) R.ENP_KSWAP F.ENP_KSWAP_ERR 0
      { s with pool := { s.pool with
        src := insertKey (eraseKey s.pool.src (1 - activeBank s)) (1 - activeBank s) a, swapAt := now s,
        engines := s.pool.engines.map (fun p => (p.1, { p.2 with banks := p.2.banks.filter (· ≠ 1 - activeBank s) })) } }))

/-- KSWAP_CANCEL (R147). -/
def execKswapCancel (s : State) : Host.Outcome State Fault Refusal :=
  .next (done (
    if swapping s then
      let s := fset (setSwap s 0) R.ENP_KINFO F.ENP_KINFO_SET_NEW 0
      { s with pool := { s.pool with src := eraseKey s.pool.src (1 - activeBank s) } }
    else s))

/-- KSWAP_LOADED (R147): every engine in service has the new set, within 200 µs (log 41). -/
def execKswapLoaded (s : State) : Host.Outcome State Fault Refusal :=
  .next (done (
    if swapState s = 1 && decide (now s < s.pool.swapAt + ticksUs 200) && (List.range 256).all (fun e =>
        (eng s e).banks.contains (1 - activeBank s) || !(decide (engState s e = engIdle) || decide (engState s e = engBusy))) then
      fset (setSwap s 2) R.ENP_KINFO F.ENP_KINFO_SET_NEW (mrd s ((lookup s.pool.src (1 - activeBank s)).getD 0) 2)
    else s))

/-- KSWAP_TIMEOUT (R147): 200 µs of LOADING. -/
def execKswapTimeout (s : State) : Host.Outcome State Fault Refusal :=
  .next (done (
    if swapState s = 1 ∧ s.pool.swapAt + ticksUs 200 ≤ now s then fset (swapFail s 2) R.ENP_KINFO F.ENP_KINFO_SET_NEW 0 else s))

/-- KSWAP_SWITCH (R147) at a frame start. DEDUCED (log 41). -/
def kswapSwitch (s : State) : State :=
  if swapState s = 2 then
    let act := fget s R.ENP_KINFO F.ENP_KINFO_SET_ACT
    let new := fget s R.ENP_KINFO F.ENP_KINFO_SET_NEW
    let s := fset s R.ENP_KSWAP F.ENP_KSWAP_BANK (1 - activeBank s)
    let s := fset (setSwap s 3) R.ENP_KSWAP F.ENP_KSWAP_SWAP_FRAME (rd s R.SHT_FRAME_NO).toNat
    let s := fset (fset s R.ENP_KINFO F.ENP_KINFO_SET_ACT new) R.ENP_KINFO F.ENP_KINFO_SET_NEW act
    (List.range 16).foldl (fun s c => raise s (256 + 4 * c + 3)) s
  else s

/-- Every ticket in a queue, a steal or an engine. -/
def poolTickets (s : State) : List Ticket :=
  s.pool.queues.flatMap (·.2) ++ s.pool.moves.flatMap (·.tks) ++
    s.pool.engines.flatMap (fun p => (p.2.run.toList ++ p.2.next.toList).map (·.tk))

/-- KSWAP_OLD_FREED (R147): no ticket older than the switch frame remains. -/
def execKswapOldFreed (s : State) : Host.Outcome State Fault Refusal :=
  let f := fget s R.ENP_KSWAP F.ENP_KSWAP_SWAP_FRAME
  .next (done (
    if swapState s = 3 && (poolTickets s).all (fun k => decide ((k.frame + 2 ^ 16 - f) % 2 ^ 16 < 2 ^ 15)) then
      let s := fset (setSwap s 0) R.ENP_KINFO F.ENP_KINFO_SET_NEW 0
      { s with pool := { s.pool with src := eraseKey s.pool.src (1 - activeBank s) } }
    else s))

/-! ### Takes (R130 to R134, R156, R169, R170) -/

/-- DEADLINE minus timebase bits 31:0 as a signed number. -/
def dlDiff (s : State) (k : Ticket) : Int := signed 32 (k.deadline + 2 ^ 32 - now s % 2 ^ 32)

/-- The head of queue c is urgent. -/
def urgentHead (s : State) (c : Nat) : Bool :=
  match tqOf s c with
  | k :: _ => decide (dlDiff s k < 125 * fget s R.ENP_CTRL F.ENP_CTRL_URGENT)
  | [] => false

/-- Help is on. -/
def helpOn (s : State) : Bool := flag s R.ENP_CTRL F.ENP_CTRL_HELP_EN && decide (fget s R.ENP_CTRL F.ENP_CTRL_URGENT ≠ 0)

/-- The queue from which an engine of cluster c takes; `idle` says that it is in IDLE (R131). -/
def takeFrom (s : State) (c : Nat) (idle : Bool) : Option Nat :=
  let home := tqOf s c
  let up := (c + 1) % 16
  let dn := (c + 15) % 16
  if helpOn s && (idle || !home.isEmpty) && !urgentHead s c && urgentHead s up then some up
  else if helpOn s && (idle || !home.isEmpty) && !urgentHead s c && urgentHead s dn then some dn
  else if home.isEmpty then none else some c

/-- A register word as it stood at the last frame start (R156, R183). -/
def frameReg (s : State) (a : Nat) : Word := tget (regReset a) s.ps.frameRegs a

/-- Kernel entry of a ticket (R137): 0 STANDARD, 1 LIGHT, 2 summation. -/
def kmapOf (s : State) (t : Nat) : Nat := bitsOf (rd s (R.ENP_KMAP (t / 16))).toNat (2 * (t % 16) + 1) (2 * (t % 16))

/-- Address of a summation slot. -/
def sumAddr (s : State) (i : Nat) : Nat :=
  (rd s R.PS_SUM_BASE_LO).toNat + fget s R.PS_SUM_BASE_HI F.PS_SUM_BASE_HI_ADDR * 2 ^ 32 + 4160 * i

/-- Tick of the start of a ticket's frame. -/
def frameTickOf (s : State) (k : Ticket) : Nat := tget 0 s.ps.frameTicks k.frame

/-- The slot that matches a ticket (R169). -/
def sumMatch (s : State) (k : Ticket) (r : Row) (chpar : Word) : Option Nat :=
  (s.ps.slots.find? (fun p =>
    let a := sumAddr s p.1
    let w0 := mrd s a 4
    let w8 := mrd s (a + 8) 4
    let d := (mrd s (a + 4) 4 + 2 ^ 32 - frameTickOf s k / 256 % 2 ^ 32) % 2 ^ 32
    bitOf w0 31 && decide (bitsOf w0 30 26 = getFld chpar F.PS_CHPAR_PART_POS) &&
      decide (bitsOf w0 25 16 = getFld chpar F.PS_CHPAR_PART_CH) && decide (w0 % 2 ^ 16 = r.sliceId) &&
      (decide (d ≤ 1) || decide (d = 2 ^ 32 - 1)) && decide (bitsOf w8 19 16 = r.binw) && decide (w8 % 2 ^ 16 = r.winOfs))).map (·.1)

/-- Beats of a fetch (R116, R137). -/
def fetchBeats (sparse : Bool) (count : Nat) (remote : Bool) : Nat :=
  (if sparse then ceilDiv (16 + 8 * count) 64 else 64) + (if remote then 65 else 0)

/-- The fetch of a ticket starts: the tile serves it, or refuses a stale one (R134). -/
def startFetch (s : State) (e : Nat) (k : Ticket) : State :=
  let n := 16 * k.tile + k.ch
  let c := e / 16
  let h := (gtChan s n).buf k.buf
  if h.st = .posted ∧ bufGen s n k.buf = k.gen then
    let s := modBuf s n k.buf (fun h => { h with st := .held })
    let chpar := frameReg s (R.PS_CHPAR n)
    let r := rowAt s k.row
    let map := kmapOf s k.tile
    let sum := decide (map = 2) && decide (getFld chpar F.PS_CHPAR_SUM_EN = 1)
    let light := decide (map = 1) && k.sparse
    let s := if map = 1 ∧ ¬ k.sparse then fon s R.ENP_STAT F.ENP_STAT_LIGHT_DENSE else s
    let slot := if sum then sumMatch s k r chpar else none
    let s := if sum then s.ps.slots.foldl (fun s p => imgRead s (sumAddr s p.1) 12) s else s
    let s := if sum && slot.isNone then
        raise (finc (fon s R.PS_STAT F.PS_STAT_SUM_MISS) R.PS_CNT_C F.PS_CNT_C_SUM_MISS_CNT) Ev.sumLoss else s
    let count := if k.sparse then mrd s (areaAddr n k.buf) 4 % 1024 else 0
    let x := eng s e
    let b : Fin 2 := match x.run with | some r => 1 - r.buf | none => 0
    let run : Run := ⟨k, b, now s, fetchBeats k.sparse count slot.isSome, false, none, chpar, frameReg s (R.PS_CHOFS n), count,
      if sum then 2 else if light then 1 else 0, r.binw, r.winOfs, slot, none⟩
    let s := modEng s e (fun x => if x.run.isNone then { x with run := some run } else { x with next := some run })
    if engState s e = engIdle then setEng s e engBusy else s
  else histLoss (finc s (R.CL_CNT_C c) F.CL_CNT_C_STALE) c F.ENP_STAT_STALE

/-- Engine e may take a ticket (R131): in IDLE, or a second one at the start of a kernel run (log 134). -/
def mayTake (s : State) (e : Nat) : Bool :=
  clusterRuns s (e / 16) &&
  ((decide (engState s e = engIdle) && (eng s e).run.isNone) ||
   (decide (engState s e = engBusy) && (eng s e).next.isNone && (match (eng s e).run.bind (·.kstart) with | some t => decide (now s / 2 ≤ t / 2 + 1) | none => false)))

/-- Place of engine e's take from queue q in R130's order: a home take by position, or the help. -/
def takeTurn (e q : Nat) : Nat := if q = e / 16 then 4 + e % 16 else 20

/-- TICKET_TAKE (R130, R131): in its turn the head is fetched, or discarded when it has expired or its entry is poisoned
(R326). -/
def execTicketTake (e : Fin 256) (s : State) : Host.Outcome State Fault Refusal :=
  let c := e.val / 16
  .next (done (
    if !mayTake s e.val then s
    else match takeFrom s c (engState s e.val = engIdle) with
    | none => s
    | some q =>
      match tqOf s q with
      | [] => s
      | k :: l =>
        if !qTurn s q (takeTurn e.val q) then s else
        let bad := firstPoison s (tqAddr s q k.slot) 16
        let s := setTq (qServe s q (takeTurn e.val q + 1)) q l
        let s := if q = c then s
          else finc (finc s (R.CL_CNT_B q) F.CL_CNT_B_STOLEN_OUT) (R.CL_CNT_B c) F.CL_CNT_B_STOLEN_IN
        match bad with
        | some p => histLoss (finc (ueRecord s p) (R.CL_CNT_C q) F.CL_CNT_C_EXPIRED) q F.ENP_STAT_EXPIRED
        | none =>
          if dlDiff s k ≤ 0 then histLoss (finc s (R.CL_CNT_C q) F.CL_CNT_C_EXPIRED) q F.ENP_STAT_EXPIRED
          else startFetch (finc s (R.CL_CNT_A c) F.CL_CNT_A_TAKEN) e.val k))

/-- The clusters in probing order (R132). -/
def probeOrder (c : Nat) : List Nat :=
  (List.range 7).flatMap (fun d => [(c + d + 1) % 16, (c + 15 - d) % 16]) ++ [(c + 8) % 16]

/-- Tickets of a queue that may be stolen. -/
def stealable (s : State) (c : Nat) : List Ticket := (tqOf s c).filter (fun k => !k.stolen)

/-- Takes the `n` oldest stealable tickets out of a queue. -/
def stealOut : Nat → List Ticket → List Ticket × List Ticket
  | _, [] => ([], [])
  | 0, l => ([], l)
  | n + 1, k :: l =>
    if k.stolen then let x := stealOut (n + 1) l; (x.1, k :: x.2)
    else let x := stealOut n l; ({ k with stolen := true } :: x.1, x.2)

/-- Engine e probes for a steal (R132). -/
def stealing (s : State) (e : Nat) : Bool :=
  flag s R.ENP_CTRL F.ENP_CTRL_STEAL_EN && mayTake s e && decide (engState s e = engIdle) &&
    (tqOf s (e / 16)).isEmpty && (takeFrom s (e / 16) true).isNone && s.pool.moves.all (fun m => decide (m.eng ≠ e))

/-- The cluster that a thief of cluster c takes: the first with STEAL_MIN stealable tickets (R132). -/
def victimOf (s : State) (c : Nat) : Option Nat :=
  (probeOrder c).find? (fun v => decide (max 1 (fget s R.ENP_CTRL F.ENP_CTRL_STEAL_MIN) ≤ (stealable s v).length))

/-- Rank of thief cluster c at queue v: ring distance d, the thief for which the queue is c + d first (R133). -/
def thiefRank (v c : Nat) : Nat :=
  let u := (v + 16 - c) % 16
  if u ≤ 8 then 2 * u else 2 * (16 - u) + 1

/-- No thief of another cluster that wants queue v goes before cluster c (R133) (log 134). -/
def stealGrant (s : State) (v c : Nat) : Bool :=
  (List.range 16).all (fun d => decide (thiefRank v c ≤ thiefRank v d) || decide (victimOf s d ≠ some v) ||
    (clEngines d).all (fun e => !stealing s e))

/-- STEAL_PROBE (R130, R132, R133): a thief that is refused probes again. A ticket whose entry reads poisoned is discarded (R326) (log 134). -/
def execStealProbe (e : Fin 256) (s : State) : Host.Outcome State Fault Refusal :=
  let c := e.val / 16
  .next (done (
    if stealing s e.val then
      match victimOf s c with
      | none => s
      | some v =>
        if !(qTurn s v 21 && stealGrant s v c) then s else
        let k := min (ceilDiv (stealable s v).length 2) (max 1 (fget s R.ENP_CTRL F.ENP_CTRL_STEAL_MAX))
        let x := stealOut k (tqOf s v)
        let bad := x.1.filterMap (fun k => firstPoison s (tqAddr s v k.slot) 16)
        let good := x.1.filter (fun k => (firstPoison s (tqAddr s v k.slot) 16).isNone)
        let s := setTq (qServe s v 22) v x.2
        let s := bad.foldl (fun s p => histLoss (finc (ueRecord s p) (R.CL_CNT_C v) F.CL_CNT_C_EXPIRED) v F.ENP_STAT_EXPIRED) s
        let s := fadd (fadd s (R.CL_CNT_B v) F.CL_CNT_B_STOLEN_OUT k) (R.CL_CNT_B c) F.CL_CNT_B_STOLEN_IN k
        { s with pool := { s.pool with moves := s.pool.moves ++ [⟨e.val, now s + 2 * (8 + ceilDiv k 4), good⟩] } }
    else s))

/-- STEAL_MOVE_DONE (R133). -/
def execStealMoveDone (e : Fin 256) (s : State) : Host.Outcome State Fault Refusal :=
  .next (done (match s.pool.moves.find? (fun m => m.eng = e.val ∧ m.due ≤ now s) with
    | none => s
    | some m =>
      let s := { s with pool := { s.pool with moves := s.pool.moves.filter (fun x => x.eng ≠ e.val) } }
      m.tks.foldl (fun s k => tqPush s (e.val / 16) k) s))

/-! ### Fetches (R135, R167) -/

/-- Ring position of this device. -/
def ringPos (s : State) : Nat := fget s R.RING_STAT F.RING_STAT_NODE_ID % 32

/-- The 4,160 bytes of an exported histogram (R168). -/
def exportBytes (s : State) (r : Run) : List Byte :=
  let k := r.tk
  let n := 16 * k.tile + k.ch
  wordsBytes [2 ^ 31 + ringPos s * 2 ^ 26 + n * 2 ^ 16 + (rowAt s k.row).sliceId, frameTickOf s k / 256 % 2 ^ 32,
    k.shots * 2 ^ 23 + b2n k.sat * 2 ^ 22 + b2n k.biasMove * 2 ^ 21 + b2n k.subst * 2 ^ 20 + r.binw * 2 ^ 16 + r.winOfs,
    k.totMean * 2 ^ 20 + k.full * 2 ^ 12 + k.bgBin, getFld r.chofs F.PS_CHOFS_OFS] ++ List.replicate 44 0 ++ mbytes s (areaAddr n k.buf) 4096

/-- HIST_EXPORT (R167): while its engine fetches it, a dense histogram of an exporting channel is copied. -/
def histExport (s : State) (r : Run) : State :=
  if getFld r.chpar F.PS_CHPAR_EXP_EN = 0 then s
  else if r.tk.sparse then finc s R.PS_CNT_D F.PS_CNT_D_EXP_SKIP
  else { s with pool := { s.pool with exports := s.pool.exports ++ [(getFld r.chpar F.PS_CHPAR_PART_POS, exportBytes s r)] } }

/-- Starts the kernel of an engine's first ticket once it is fetched. -/
def kernelStart (s : State) (e : Nat) : State :=
  modEng s e (fun x => { x with run := x.run.map (fun r => if r.fetched && r.kstart.isNone then { r with kstart := some (now s) } else r) })

/-- The fetch in progress of an engine: of its first ticket, else of its second; true for the second. -/
def fetching (x : Engine) : Option (Run × Bool) :=
  match x.run with
  | some r => if !r.fetched then some (r, false) else (x.next.bind (fun q => if q.fetched then none else some (q, true)))
  | none => none

/-- Drops a ticket whose fetch the tile refuses (R134, R326). -/
def dropFetch (s : State) (e : Nat) (second : Bool) : State :=
  let s := modEng s e (fun x => if second then { x with next := none } else { x with run := x.next, next := none })
  let s := histLoss (finc s (R.CL_CNT_C (e / 16)) F.CL_CNT_C_STALE) (e / 16) F.ENP_STAT_STALE
  if (eng s e).run.isNone ∧ engState s e = engBusy then setEng s e engIdle else kernelStart s e

/-- FETCH_DONE (R135, R136): the histogram stands in the engine's buffer, the tile buffer clears, and the kernel
starts when no other runs. -/
def execFetchDone (e : Fin 256) (s : State) : Host.Outcome State Fault Refusal :=
  .next (done (match fetching (eng s e.val) with
    | none => s
    | some (r, second) =>
      if now s < r.fetchAt + 2 * r.beats then s
      else
        let n := 16 * r.tk.tile + r.tk.ch
        let a := areaAddr n r.tk.buf
        let bytes := if r.tk.sparse then min 4096 (64 * ceilDiv (16 + 8 * r.count) 64) else 4096
        let bad := firstPoison s a bytes
        match (if ((gtChan s n).buf r.tk.buf).lost then some a else bad) with
        | some _ =>
          let s := histGap (match bad with | some p => ueRecord s p | none => s) n Gap.deadline ((gtChan s n).buf r.tk.buf).hr
          dropFetch (bufClear s n r.tk.buf) e.val second
        | none =>
          let s := histExport s r
          let s := blockWrite s (engAddr e.val + 0xC000 + 0x1000 * r.buf) (mbytes s a bytes)
          let s := bufClear s n r.tk.buf
          let s := match r.slot with | some i => imgRead s (sumAddr s i) 4160 | none => s
          let rem := r.slot.map (fun i => mbytes s (sumAddr s i) 4160)
          let s := match r.slot with
            | some i => { s with ps := { s.ps with slots := eraseKey s.ps.slots i } }
            | none => s
          let r' := { r with fetched := true, remote := rem }
          kernelStart (modEng s e.val (fun x => if second then { x with next := some r' } else { x with run := some r' })) e.val))

/-! ### Kernel runs (R138, R140) -/

/-- Cycles of a run (R138); an engine cycle is one tick. -/
def kernelCycles (r : Run) : Nat :=
  let std := if r.tk.sparse && decide (r.count < 4) then 448 + 240 * r.count else 1408
  if r.kind = 1 then 344 + 48 * min r.count 4
  else if r.kind = 2 then std + (if r.tk.trip2 then 640 else 256)
  else std + (if r.tk.trip2 then 384 else 0)

/-- The dense bins in memory that are not 0 (log 46). -/
def readBins (s : State) (a : Nat) : List (Nat × Nat) :=
  ((List.range 2048).map (fun b => (b, mrd s (a + 2 * b) 2))).filter (fun p => p.2 ≠ 0)

/-- The bins of a slot's bytes that are not 0. -/
def sliceBins : Nat → Nat → List Byte → List (Nat × Nat)
  | 0, _, _ => []
  | k + 1, b, l => let v := ofLeBytes (l.take 2)
    if v = 0 then sliceBins k (b + 1) (l.drop 2) else (b, v) :: sliceBins k (b + 1) (l.drop 2)

/-- The remote histogram of a run (R169). -/
def remoteOf (r : Run) (l : List Byte) : Remote :=
  let w := fun (o : Nat) => ofLeBytes ((l.drop o).take 4)
  let d := signed 16 (getFld r.chofs F.PS_CHOFS_OFS) - signed 16 (w 0x10)
  ⟨w 8, bitsOf (w 8) 31 23, w 0xC, roundDiv d (16 * (r.binw + 1)), sliceBins 2048 0 (l.drop 0x40)⟩

/-- The echoes of a run. -/
def runEchoes (s : State) (e : Nat) (r : Run) : List Echo :=
  let a := engAddr e + 0xC000 + 0x1000 * r.buf
  let mask := getFld r.chpar F.PS_CHPAR_TMPL_MASK
  let k : KRun :=
    { set := readSet s (bankAddr e (bankOf s r.tk)) r.binw (getFld r.chpar F.PS_CHPAR_WALK_SEL), tk := r.tk, binw := r.binw,
      winOfs := r.winOfs, mask := if mask = 0 then 1 else mask, remote := r.remote.map (remoteOf r),
      bins := if r.tk.sparse then [] else readBins s a, entries := if r.tk.sparse then listEntries s a r.count else [],
      cl := Fin.ofNat 16 (e / 16), chofs := r.chofs, doneAt := now s }
  let l := if r.kind = 1 then k.runLight else k.runStandard
  l.map (fun x => { x with sumMiss := decide (r.kind = 2) && r.slot.isNone })

/-- Echo credits left to a cluster (R140). -/
def credits (s : State) (c : Nat) : Nat := 64 - (s.ps.echoes.filter (fun x => x.cl.val = c)).length

/-- Offers echoes to the point stage and reports the completion (R140, R179, R352). -/
def offerEchoes (s : State) (c : Nat) (k : Ticket) (es : List Echo) : State :=
  let sl := sliceOf s k.row k.frame
  let room := match sl with | some x => if x.stored then credits s c else 0 | none => credits s c
  let s := { s with ps := { s.ps with echoes := s.ps.echoes ++ es.take room } }
  let lost := es.length - room
  let s := if lost = 0 then s
    else histLoss (fadd (ticketGap s k Gap.pointCredit) (R.CL_LAT c) F.CL_LAT_OUT_DROP lost) c F.ENP_STAT_OUT_DROP
  match sl with
  | some _ => modSlice s k.row k.frame (fun x => { x with compl := x.compl ++ [16 * k.tile + k.ch] })
  | none => psLate s

/-- An engine's run has ended: its second ticket becomes the first. -/
def engineNext (s : State) (e : Nat) : State :=
  let s := modEng s e (fun x => { x with run := x.next, next := none })
  if (eng s e).run.isNone ∧ engState s e = engBusy then setEng s e engIdle else kernelStart s e

/-- A run has exceeded its cycle count by more than 64 cycles (R135). -/
def runOver (s : State) (r : Run) (t : Nat) : Bool := decide (t + kernelCycles r + 64 < now s)

/-- A run over its count is aborted and the engine retires (R135, R141). -/
def abortRun (s : State) (e : Nat) : State :=
  retire (histLoss (finc s (R.CL_CNT_D (e / 16)) F.CL_CNT_D_ABORT) (e / 16) F.ENP_STAT_ABORT) e 2

/-- The first poisoned word of the set and the histogram that a run reads (R326) (log 135). -/
def runPoison (s : State) (e : Nat) (r : Run) : Option Nat :=
  let b := bankAddr e (bankOf s r.tk)
  (firstPoison s b (imgSize s b)).or (firstPoison s (engAddr e + 0xC000 + 0x1000 * r.buf) 4096)

/-- KERNEL_COMPLETE (R138, R140): the run has met `errors` in local memory. Working memory, echo output and control words are left with content that the spec does not give (R136). -/
def execKernelComplete (e : Fin 256) (errors : LocalErrors) (s : State) : Host.Outcome State Fault Refusal :=
  .next (done (match (eng s e.val).run with
    | none => s
    | some r => match r.kstart with
      | none => s
      | some t =>
        if now s < t + kernelCycles r then s
        else if runOver s r t then abortRun (engineCe s e.val errors.ce.toNat) e.val
        else if errors.ue then engineUeOpen (engineCe s e.val errors.ce.toNat) e.val
        else match runPoison s e.val r with
        | some p => engineUe (engineCe s e.val errors.ce.toNat) e.val p
        | none =>
          let es := runEchoes s e.val r
          let s := openFill (engineCe s e.val errors.ce.toNat) (engAddr e.val + 0xE000) 1024
          let s := engineNext s e.val
          let (lat, s) := openQuot s (now s - r.tk.entry) 125
          offerEchoes (fmax s (R.CL_LAT (e.val / 16)) F.CL_LAT_LAT_MAX lat) (e.val / 16) r.tk es))

/-- KERNEL_OVERRUN (R135, R141): the run exceeds its cycle count by more than 64 cycles. -/
def execKernelOverrun (e : Fin 256) (s : State) : Host.Outcome State Fault Refusal :=
  .next (done (match (eng s e.val).run with
    | none => s
    | some r => match r.kstart with
      | none => s
      | some t =>
        if runOver s r t then abortRun s e.val else s))

/-! ### Self-test (R143, R144) and re-initialisation (R146) -/

/-- Test limit in ticks. -/
def stSlot (s : State) : Nat := ticksUs (max 100 (fget s R.ENP_ST F.ENP_ST_ST_SLOT))

/-- SELF_TEST_START (R135): a draining engine that holds no ticket. -/
def execSelfTestStart (e : Fin 256) (s : State) : Host.Outcome State Fault Refusal :=
  .next (done (
    if engState s e.val = engDrain ∧ (eng s e.val).run = none then
      setEng (modEng s e.val (fun x => { x with testAt := now s })) e.val engTest
    else s))

/-- An engine leaves TEST: the next one is selected, or the re-initialisation may end. -/
def testLeft (s : State) (e : Nat) : State :=
  if lookup s.pool.sel (e / 16) = some (e % 16) then selectAfter s (e / 16) (e % 16) else reinitEnd s (e / 16)

/-- SELF_TEST_DONE (R144): a failed test, or one whose golden vectors read poisoned (R326), retires the engine; so does a word
of its memory that reads poisoned or `ue`. The march test and the runs leave content that the spec does not give above 0xC000. -/
def execSelfTestDone (e : Fin 256) (pass : Bool) (ce : BitVec 16) (ue : Bool) (s : State) : Host.Outcome State Fault Refusal :=
  let c := e.val / 16
  let gold := fun (a : Nat) => firstPoison s (a + mrd s (a + 0x14) 4) (mrd s (a + 0x18) 4)
  .next (done (
    if engState s e.val ≠ engTest then s
    else
      let s := engineCe s e.val ce.toNat
      if ue then engineUeOpen s e.val
      else match firstPoison s (engAddr e.val) 0x10000 with
      | some p => engineUe s e.val p
      | none =>
        let vectors := (s.pool.src.filter (fun p => (eng s e.val).banks.contains p.1)).filterMap (fun p => gold p.2)
        let s := openFill (vectors.foldl ueRecord s) (engAddr e.val + 0xC000) 2048
        if pass && decide (now s ≤ (eng s e.val).testAt + stSlot s) && vectors.isEmpty then
          let s := finc (fset s (R.ENG_STAT e.val) F.ENG_STAT_LAST_PASS 0) (R.CL_CNT_D c) F.CL_CNT_D_ST_PASS
          let s := modEng s e.val (fun x => { x with passAt := some (upTime s), reinit := false })
          testLeft (setEng s e.val (if lacksSet s e.val then engLoad else engIdle)) e.val
        else retire (finc s (R.CL_CNT_D c) F.CL_CNT_D_ST_FAIL) e.val 1))

/-- SELF_TEST_TIMEOUT (R135): ST_SLOT has elapsed. -/
def execSelfTestTimeout (e : Fin 256) (s : State) : Host.Outcome State Fault Refusal :=
  .next (done (
    if engState s e.val = engTest ∧ (eng s e.val).testAt + stSlot s ≤ now s then
      retire (finc s (R.CL_CNT_D (e.val / 16)) F.CL_CNT_D_ST_FAIL) e.val 1
    else s))

/-- Re-initialises cluster c (R146): every engine enters LOAD. -/
def clusterReinit (s : State) (c : Nat) : State :=
  let s := { s with pool := { s.pool with sel := eraseKey s.pool.sel c } }
  let s := fon s (R.CL_STAT c) F.CL_STAT_REINIT_BUSY
  let s := (clEngines c).foldl (fun s e =>
    let s := loseHeld s e
    let s := fset (fset s (R.ENG_STAT e) F.ENG_STAT_CAUSE 0) (R.ENP_RETIRED (e / 32)) F.ENP_RETIRED_RETIRED
      (setBitN (fget s (R.ENP_RETIRED (e / 32)) F.ENP_RETIRED_RETIRED) (e % 32) false)
    setEng (modEng s e (fun x => { x with reinit := true, banks := [] })) e engLoad) s
  reinitOn s (0x40 + c)

/-- CLUSTER_REINIT (R146). -/
def execClusterReinit (c : Fin 16) (s : State) : Host.Outcome State Fault Refusal := .next (done (clusterReinit s c.val))

/-- LAST_PASS of an engine: ms since its last passed test. -/
def lastPass (s : State) (e : Nat) : Nat :=
  match (eng s e).passAt with
  | some t => min 0xFFFF ((upTime s - t) / ticksMs 1)
  | none => 0xFFFF

end Sys2Proof.Machine
end

