-- ==== Sys2Proof/Machine/Points.lean ====
section
/-! DEFINITION. From echo to point (R168, R171 to R178): angle pairing, the point record, classification and
delivery to the silt queue and to channel A. -/

namespace Sys2Proof.Machine

/-! ### Angles (R173, R174) -/

/-- Valid samples of a decimation channel, newest first. -/
def angSamples (s : State) (c : Nat) : List DecSample :=
  (decChan s c).hist.filter (angleGood s c)

/-- The first valid sample at or after a reference time in 1/128 tick. -/
def angAfter (s : State) (c ref : Nat) : Option DecSample :=
  ((angSamples s c).filter (fun x => decide (ref ≤ 128 * x.stamp))).getLast?

/-- The last valid sample at or before a reference time. -/
def angBefore (s : State) (c ref : Nat) : Option DecSample :=
  (angSamples s c).find? (fun x => decide (128 * x.stamp ≤ ref))

/-- An angle as a fraction, with its marks. -/
structure Theta where
  num : Int
  den : Nat
  stale : Bool
  old : Bool
  deriving DecidableEq, Repr

/-- θ of a channel at a reference time (R173, R174). Without any valid sample the value is open. DESIGN CHOICE (log 51). -/
def thetaAt (s : State) (c ref : Nat) : Theta × State :=
  match angBefore s c ref, angAfter s c ref with
  | some a, some b =>
    if b.stamp ≤ a.stamp then (⟨a.value, 1, false, false⟩, s)
    else (⟨a.value * (128 * (b.stamp - a.stamp) : Nat) + (b.value - a.value) * (ref - 128 * a.stamp : Nat),
      128 * (b.stamp - a.stamp), false, false⟩, s)
  | some a, none => (⟨a.value, 1, true, false⟩, s)
  | none, some _ => (⟨(((angSamples s c).getLast?).map (·.value)).getD 0, 1, false, true⟩, s)
  | none, none => (⟨signed 16 ((openVal s).1.toNat % 65536), 1, true, false⟩, (openVal s).2)

/-- The scanner's angles are used. -/
def scnEn (s : State) (c : Nat) : Bool := flag s (R.SCN_CFG c) (F.SCN_CFG_EN)

/-- AZ or EL of a point: emitter word plus channel offset plus gain times θ over 4,096, modulo 65,536. -/
def angleSum (base ofs gain : Nat) (t : Theta) : Nat :=
  unsigned 16 ((base : Int) + ofs + roundDiv (signed 16 gain * t.num) (4096 * t.den))

/-! ### Point records (R172, R175 to R178) -/

/-- RANGE (R172). -/
def rangeOf (t : Int) (ofs : Nat) : Nat :=
  min 0xFFFFFF (roundDiv ((t - signed 16 ofs) * 149896229) 40000000).toNat

/-- A point. -/
structure Point where
  range : Nat
  az : Nat
  el : Nat
  flags : Nat
  cls : Nat
  conf : Nat
  persist : Nat
  tofs : Nat
  refTick : Nat
  deriving DecidableEq, Repr

/-- FLAGS (R177). -/
def flagsOf (e : Echo) (angle : Bool) : Nat :=
  b2n e.sat * 128 + b2n e.biasMove * 64 + b2n e.subst * 32 + b2n e.trip * 16 + b2n e.summed * 8 + b2n e.pileup * 4 +
    b2n e.walkEst * 2 + b2n angle

/-- The 16 or 32 bytes of a point (R176, R178). -/
def Point.bytes (p : Point) (e : Echo) (ext : Bool) : List Byte :=
  leBytes 3 p.range ++ leBytes 2 p.az ++ leBytes 2 p.el ++ leBytes 2 e.intensity ++ leBytes 1 e.width ++ leBytes 1 p.flags ++
    leBytes 1 p.cls ++ leBytes 2 (e.ecount * 4096 + e.eidx * 1024 + e.ch) ++ leBytes 2 p.tofs ++
  (if ext then
    leBytes 1 p.conf ++ leBytes 1 p.persist ++ leBytes 2 e.bg ++ leBytes 2 (unsigned 16 e.walk) ++
      leBytes 2 (b2n e.sumMiss * 8192 + b2n e.more * 4096 + e.tmpl * 1024 + e.shots) ++ leBytes 2 e.snr ++ leBytes 2 e.tot ++
      leBytes 4 p.refTick
   else [])

/-- The reference time of an echo in its slice (R171): none while unknown, `some none` where there is none. -/
def Slice.refFor (x : Slice) (e : Echo) : Option (Option Nat) :=
  x.ref.map (fun r => if e.trip then r.2 else r.1)

/-- PERSIST and CLASS of a point, with the table's update (R191, R195, R196, R198) (log 50). -/
def tilthPoint (s : State) (e : Echo) (range az el : Nat) (angle : Bool) : State × Nat × Nat :=
  let cls := fun (none : Bool) (n : Nat) => classOf s none n e.width e.intensity e.light
  match s.tilt.poses.find? (fun p => p.frame = e.frame) with
  | none => (finc (fon s R.TT_STAT F.TT_STAT_OLD_FRAME) R.TT_CNT_C F.TT_CNT_C_OLD_FRAME, 0, cls true 0)
  | some p =>
    if !flag s R.TT_CTRL F.TT_CTRL_EN ∨ range = 0 ∨ s.tilt.rmax * 4000 < range then (s, 0, cls true 0)
    else if flag s R.TT_STAT F.TT_STAT_CLR_BUSY then (s, 0, cls false 0)
    else
      match ttUpdate s p (e.frame % 65536) range az el e.intensity e.width angle with
      | (s, n, none) => (s, n, cls false n)
      | (s, n, some (a, w)) => (ttWrite s a w (cls false n), n, cls false n)

/-- Channel A receives a point of a SAFETY row; a point with ANGLE makes the frame invalid (R252, R253). -/
def toChannelA (s : State) (x : Slice) (p : Point) : State :=
  if x.row.safety then
    let s := { s with saf := { s.saf with frames := s.saf.frames.map (fun f =>
      if f.no = x.frame then { f with pts := f.pts ++ [⟨p.range, p.az, p.el, p.persist, p.cls⟩] } else f) } }
    if bitOf p.flags 0 then markBadA s x.frame else s
  else s

/-- Removes a pending echo: its credit returns (log 43). -/
def dropEcho (s : State) (i : Nat) : State := { s with ps := { s.ps with echoes := s.ps.echoes.eraseIdx i } }

/-- The echo's silt queue takes no point: it is dropped to a POINT_CREDIT gap record (R354, R140). DEDUCED (log 43). -/
def creditLost (s : State) (x : Slice) (e : Echo) : State :=
  let s := if x.allGap e.ch then s
    else gapAdd s Gap.pointCredit (e.ch / 16) (2 ^ (e.ch % 16)) e.row e.frame 0 x.row.depth 0xFFFFFFFF
  histLoss (finc s (R.CL_LAT e.cl.val) F.CL_LAT_OUT_DROP) e.cl.val F.ENP_STAT_OUT_DROP

/-- Forms the point of an echo whose angles are given and delivers it; of a closed slice only channel A takes it (R180, R182). -/
def formPoint (s : State) (x : Slice) (e : Echo) (ref : Nat) (tx ty : Theta) : State :=
  let em := frameReg s (R.PS_EMIT x.row.emitter)
  let dir := frameReg s (R.PS_CHDIR e.ch)
  let gain := rd s (R.SCN_GAIN x.row.scanner)
  let az := angleSum (getFld em F.PS_EMIT_AZ0) (getFld dir F.PS_CHDIR_DAZ) (getFld gain F.SCN_GAIN_GX) tx
  let el := angleSum (getFld em F.PS_EMIT_EL0) (getFld dir F.PS_CHDIR_DEL) (getFld gain F.SCN_GAIN_GY) ty
  let range := rangeOf e.time (getFld e.chofs F.PS_CHOFS_OFS)
  let stale := tx.stale || ty.stale
  let old := tx.old || ty.old
  let (s1, persist, cls) := tilthPoint s e range az el (stale || old)
  let p : Point :=
    { range := range, az := az, el := el, flags := flagsOf e (stale || old), cls := cls,
      conf := confOf cls persist e.snr (stale || old || e.biasMove), persist := persist,
      tofs := (ref / 128 - x.frameTick - x.row.start) / 1250 % 65536, refTick := ref / 128 % 2 ^ 32 }
  let bs := p.bytes e x.ext
  if (sliceOf s x.row.num x.frame).isNone then toChannelA (psLate s1) x p
  else match slqItem s1 x.queue.val x.row.num x.frame bs false with
  | (s2, true) =>
    let s2 := finc (finc s2 R.PS_POINTS F.PS_POINTS_POINTS) (R.CLS_CNT cls) F.CLS_CNT_COUNT
    let s2 := if stale then
        raise (finc (fon s2 R.PS_STAT F.PS_STAT_ANG_STALE) R.PS_CNT_B F.PS_CNT_B_ANG_STALE_CNT) Ev.angleDegraded else s2
    let s2 := if old then
        raise (finc (fon s2 R.PS_STAT F.PS_STAT_ANG_OLD) R.PS_CNT_B F.PS_CNT_B_ANG_OLD_CNT) Ev.angleDegraded else s2
    toChannelA (modSlice s2 x.row.num x.frame (fun y => { y with points := y.points + 1 })) x p
  | (_, false) => creditLost (slqItem s x.queue.val x.row.num x.frame bs false).1 x e

/-- Whether both axes of an echo's scanner have a later valid sample. -/
def anglesHere (s : State) (c ref : Nat) : Bool :=
  !scnEn s c || ((angAfter s (fget s (R.SCN_CFG c) F.SCN_CFG_AX_AZ) ref).isSome &&
    (angAfter s (fget s (R.SCN_CFG c) F.SCN_CFG_AX_EL) ref).isSome)

/-- A pending echo may leave: its slice has closed, its row has no reference, or its angles are here; `wait` also
takes one whose angle wait has ended. -/
def echoReady (s : State) (wait : Bool) (e : Echo) : Bool :=
  match (sliceOf s e.row e.frame).or (shutOf s e.row e.frame) with
  | none => true
  | some x => match x.refFor e with
    | none => false
    | some none => true
    | some (some ref) => anglesHere s x.row.scanner ref ||
        (wait && decide (e.doneAt + ticksUs (max 1 (fget s R.PS_CTRL F.PS_CTRL_ANG_WAIT)) ≤ now s))

/-- Pairs the pending echo at place i with its angles (R173, R174). -/
def pairEcho (s : State) (i : Nat) (e : Echo) : State :=
  let s := dropEcho s i
  match (sliceOf s e.row e.frame).or (shutOf s e.row e.frame) with
  | none => psLate s
  | some x => match x.refFor e with
    | some (some ref) =>
      if scnEn s x.row.scanner then
        let old := fun (y : DecSample) => decide (128 * y.stamp ≤ ref)
        let s := angleUes s (fget s (R.SCN_CFG x.row.scanner) F.SCN_CFG_AX_AZ) old
        let s := angleUes s (fget s (R.SCN_CFG x.row.scanner) F.SCN_CFG_AX_EL) old
        let (tx, s) := thetaAt s (fget s (R.SCN_CFG x.row.scanner) F.SCN_CFG_AX_AZ) ref
        let (ty, s) := thetaAt s (fget s (R.SCN_CFG x.row.scanner) F.SCN_CFG_AX_EL) ref
        formPoint s x e ref tx ty
      else formPoint s x e ref ⟨0, 1, false, false⟩ ⟨0, 1, false, false⟩
    | _ => if (sliceOf s e.row e.frame).isNone then psLate s else s

/-- The first pending echo that may leave, with its place. -/
def firstReady (s : State) (wait : Bool) : Option (Nat × Echo) :=
  ((s.ps.echoes.zipIdx).find? (fun p => echoReady s wait p.1)).map (fun p => (p.2, p.1))

/-- ANGLE_PAIRING (R173): the first pending echo whose angle samples have arrived becomes a point. -/
def execAnglePairing (s : State) : Host.Outcome State Fault Refusal :=
  .next (done (match firstReady s false with
    | some (i, e) => pairEcho s i e
    | none => s))

/-- ANGLE_WAIT_TIMEOUT (R174): the first pending echo whose angle wait has ended uses an older sample. -/
def execAngleWaitTimeout (s : State) : Host.Outcome State Fault Refusal :=
  .next (done (match firstReady s true with
    | some (i, e) => pairEcho s i e
    | none => s))

/-- SUM_SLOT_AGE_OUT (R168). -/
def execSumSlotAgeOut (i : BitVec 16) (s : State) : Host.Outcome State Fault Refusal :=
  .next (done (match lookup s.ps.slots i.toNat with
    | some x =>
      if x.landed + ticksUs (100 * max 1 (fget s R.PS_SUM F.PS_SUM_SUM_AGE)) ≤ now s then
        finc { s with ps := { s.ps with slots := eraseKey s.ps.slots i.toNat } } R.PS_CNT_C F.PS_CNT_C_SUM_UNUSED
      else s
    | none => s))

end Sys2Proof.Machine
end

