-- ==== Sys2Proof/Machine/Crypto.lean ====
section
/-! DEFINITION. SHA-384, HMAC-SHA-384 and HKDF-SHA-384, which R436, R437 and R441 name and the spec does not print (FIPS 180-4,
RFC 2104, RFC 5869), and the DER of a certification request (R450). PRESUMED (log 93). -/

namespace Sys2Proof.Machine

/-! ### SHA-384 -/

/-- The round constants. -/
def shaK : List (BitVec 64) :=
  [0x428A2F98D728AE22#64, 0x7137449123EF65CD#64, 0xB5C0FBCFEC4D3B2F#64, 0xE9B5DBA58189DBBC#64, 0x3956C25BF348B538#64,
   0x59F111F1B605D019#64, 0x923F82A4AF194F9B#64, 0xAB1C5ED5DA6D8118#64, 0xD807AA98A3030242#64, 0x12835B0145706FBE#64] ++
  [0x243185BE4EE4B28C#64, 0x550C7DC3D5FFB4E2#64, 0x72BE5D74F27B896F#64, 0x80DEB1FE3B1696B1#64, 0x9BDC06A725C71235#64,
   0xC19BF174CF692694#64, 0xE49B69C19EF14AD2#64, 0xEFBE4786384F25E3#64, 0x0FC19DC68B8CD5B5#64, 0x240CA1CC77AC9C65#64] ++
  [0x2DE92C6F592B0275#64, 0x4A7484AA6EA6E483#64, 0x5CB0A9DCBD41FBD4#64, 0x76F988DA831153B5#64, 0x983E5152EE66DFAB#64,
   0xA831C66D2DB43210#64, 0xB00327C898FB213F#64, 0xBF597FC7BEEF0EE4#64, 0xC6E00BF33DA88FC2#64, 0xD5A79147930AA725#64] ++
  [0x06CA6351E003826F#64, 0x142929670A0E6E70#64, 0x27B70A8546D22FFC#64, 0x2E1B21385C26C926#64, 0x4D2C6DFC5AC42AED#64,
   0x53380D139D95B3DF#64, 0x650A73548BAF63DE#64, 0x766A0ABB3C77B2A8#64, 0x81C2C92E47EDAEE6#64, 0x92722C851482353B#64] ++
  [0xA2BFE8A14CF10364#64, 0xA81A664BBC423001#64, 0xC24B8B70D0F89791#64, 0xC76C51A30654BE30#64, 0xD192E819D6EF5218#64,
   0xD69906245565A910#64, 0xF40E35855771202A#64, 0x106AA07032BBD1B8#64, 0x19A4C116B8D2D0C8#64, 0x1E376C085141AB53#64] ++
  [0x2748774CDF8EEB99#64, 0x34B0BCB5E19B48A8#64, 0x391C0CB3C5C95A63#64, 0x4ED8AA4AE3418ACB#64, 0x5B9CCA4F7763E373#64,
   0x682E6FF3D6B2B8A3#64, 0x748F82EE5DEFB2FC#64, 0x78A5636F43172F60#64, 0x84C87814A1F0AB72#64, 0x8CC702081A6439EC#64] ++
  [0x90BEFFFA23631E28#64, 0xA4506CEBDE82BDE9#64, 0xBEF9A3F7B2C67915#64, 0xC67178F2E372532B#64, 0xCA273ECEEA26619C#64,
   0xD186B8C721C0C207#64, 0xEADA7DD6CDE0EB1E#64, 0xF57D4F7FEE6ED178#64, 0x06F067AA72176FBA#64, 0x0A637DC5A2C898A6#64] ++
  [0x113F9804BEF90DAE#64, 0x1B710B35131C471B#64, 0x28DB77F523047D84#64, 0x32CAAB7B40C72493#64, 0x3C9EBE0A15C9BEBC#64,
   0x431D67C49C100D4C#64, 0x4CC5D4BECB3E42B6#64, 0x597F299CFC657E2A#64, 0x5FCB6FAB3AD6FAEC#64, 0x6C44198C4A475817#64]

/-- The initial hash value. -/
def shaInit : List (BitVec 64) :=
  [0xCBBB9D5DC1059ED8#64, 0x629A292A367CD507#64, 0x9159015A3070DD17#64, 0x152FECD8F70E5939#64,
   0x67332667FFC00B31#64, 0x8EB44A8768581511#64, 0xDB0C2E0D64F98FA7#64, 0x47B5481DBEFA4FA4#64]

/-- The 8 bytes of a word, most significant first. -/
def beWord (v : BitVec 64) : List Byte := (leBytes 8 v.toNat).reverse

/-- The message padded to whole blocks of 128 bytes. -/
def shaPad (m : List Byte) : List Byte :=
  m ++ [0x80#8] ++ List.replicate ((239 - m.length % 128) % 128) 0#8 ++ (leBytes 16 (8 * m.length)).reverse

/-- The words of a block. -/
def shaWords (b : List Byte) : List (BitVec 64) :=
  (List.range 16).map (fun i => BitVec.ofNat 64 (ofLeBytes ((b.drop (8 * i)).take 8).reverse))

/-- One further word of the schedule, held newest first. -/
def shaExtend (w : List (BitVec 64)) : List (BitVec 64) :=
  let g := fun (i : Nat) => w.getD i 0#64
  let s0 := (g 14).rotateRight 1 ^^^ (g 14).rotateRight 8 ^^^ (g 14 >>> 7)
  let s1 := (g 1).rotateRight 19 ^^^ (g 1).rotateRight 61 ^^^ (g 1 >>> 6)
  (s1 + g 6 + s0 + g 15) :: w

/-- The 80 words of the schedule. -/
def shaSchedule (b : List Byte) : List (BitVec 64) :=
  ((List.range 64).foldl (fun w _ => shaExtend w) (shaWords b).reverse).reverse

/-- One round on the working variables a to h. -/
def shaRound (v : List (BitVec 64)) (k w : BitVec 64) : List (BitVec 64) :=
  match v with
  | [a, b, c, d, e, f, g, h] =>
    let t1 := h + (e.rotateRight 14 ^^^ e.rotateRight 18 ^^^ e.rotateRight 41) + ((e &&& f) ^^^ (~~~e &&& g)) + k + w
    let t2 := (a.rotateRight 28 ^^^ a.rotateRight 34 ^^^ a.rotateRight 39) + ((a &&& b) ^^^ (a &&& c) ^^^ (b &&& c))
    [t1 + t2, a, b, c, d + t1, e, f, g]
  | l => l

/-- One block. -/
def shaBlock (h : List (BitVec 64)) (b : List Byte) : List (BitVec 64) :=
  let v := (shaK.zip (shaSchedule b)).foldl (fun v p => shaRound v p.1 p.2) h
  (h.zip v).map (fun p => p.1 + p.2)

/-- SHA-384: 48 bytes. -/
def sha384 (m : List Byte) : List Byte :=
  let p := shaPad m
  let h := (List.range (p.length / 128)).foldl (fun h i => shaBlock h ((p.drop (128 * i)).take 128)) shaInit
  (h.take 6).flatMap beWord

/-! ### HMAC and HKDF -/

/-- HMAC-SHA-384. -/
def hmac384 (key m : List Byte) : List Byte :=
  let k := if 128 < key.length then sha384 key else key
  let k := k ++ List.replicate (128 - k.length) 0#8
  sha384 (k.map (· ^^^ 0x5C#8) ++ sha384 (k.map (· ^^^ 0x36#8) ++ m))

/-- HKDF-SHA-384 with at most 48 bytes of output. -/
def hkdf384 (ikm salt info : List Byte) (n : Nat) : List Byte := (hmac384 (hmac384 salt ikm) (info ++ [1#8])).take n

/-! ### DER -/

/-- A length of DER. -/
def derLen (n : Nat) : List Byte :=
  if n < 128 then leBytes 1 n else if n < 256 then leBytes 1 0x81 ++ leBytes 1 n else leBytes 1 0x82 ++ (leBytes 2 n).reverse

/-- A value of DER under a tag. -/
def der (tag : Nat) (l : List Byte) : List Byte := leBytes 1 tag ++ derLen l.length ++ l

/-- A non-negative integer of DER from its bytes, most significant first. -/
def derInt (l : List Byte) : List Byte :=
  let l := l.dropWhile (fun b => b == 0#8)
  der 2 (if l.isEmpty ∨ 128 ≤ (l.headD 0#8).toNat then 0#8 :: l else l)

/-- The algorithm ecdsa-with-SHA384. -/
def derEcdsa : List Byte := der 0x30 (der 6 [0x2A, 0x86, 0x48, 0xCE, 0x3D, 0x04, 0x03, 0x03])

/-- A P-384 public key. -/
def derKey (pub : List Byte) : List Byte :=
  der 0x30 (der 0x30 (der 6 [0x2A, 0x86, 0x48, 0xCE, 0x3D, 0x02, 0x01] ++ der 6 [0x2B, 0x81, 0x04, 0x00, 0x22]) ++ der 3 (0#8 :: pub))

/-- The digits of a number in upper-case hexadecimal, 8 of them. -/
def hexText (v : Nat) : List Byte :=
  (List.range 8).map (fun i => let d := v / 16 ^ (7 - i) % 16; BitVec.ofNat 8 (if d < 10 then 0x30 + d else 0x37 + d))

/-- A name with subject serialNumber. -/
def derName (serial : Nat) : List Byte :=
  der 0x30 (der 0x31 (der 0x30 (der 6 [0x55, 0x04, 0x05] ++ der 0x13 (hexText serial))))

/-- What a PKCS#10 request signs: version 0, the name, the key, no attribute. -/
def csrInfo (serial : Nat) (pub : List Byte) : List Byte := der 0x30 (der 2 [0#8] ++ derName serial ++ derKey pub ++ der 0xA0 [])

/-- A PKCS#10 request with the signature r, s. -/
def csrBytes (serial : Nat) (pub sig : List Byte) : List Byte :=
  der 0x30 (csrInfo serial pub ++ derEcdsa ++
    der 3 (0#8 :: der 0x30 (derInt (sig.take 48) ++ derInt (sig.drop 48))))

end Sys2Proof.Machine
end

