-- ==== Sys2Proof/Machine/Ecdsa.lean ====
section
/-! DEFINITION. ECDSA on P-384 with SHA-384 and the X.509 certificates that R437, R438, R450 and R451 name and the spec does not
print (FIPS 186, SP 800-186, RFC 5280). PRESUMED (log 93). -/

namespace Sys2Proof.Machine

/-! ### The curve -/

/-- The prime of the field, the order of the base point, the coefficient b (a is −3), and the base point. -/
def ecP : Nat := 2 ^ 384 - 2 ^ 128 - 2 ^ 96 + 2 ^ 32 - 1
def ecN : Nat := 0xffffffffffffffffffffffffffffffffffffffffffffffffc7634d81f4372ddf581a0db248b0a77aecec196accc52973
def ecB : Nat := 0xb3312fa7e23ee7e4988e056be3f82d19181d9c6efe8141120314088f5013875ac656398d8a2ed19d2a85c8edd3ec2aef
def ecGx : Nat := 0xaa87ca22be8b05378eb1c71ef320ad746e1d3b628ba79b9859f741e082542a385502f25dbf55296c3a545e3872760ab7
def ecGy : Nat := 0x3617de4a96262c6f5d9e98bf9292dc29f8f41dbd289a147ce9da3113b5f0b8c00a60b1ce1d7e819d7a431d7c90ea0e5f

/-- A point in Jacobian coordinates; z = 0 is the point at infinity. -/
structure EcPoint where
  x : Nat
  y : Nat
  z : Nat
  deriving DecidableEq, Repr

def ecMulP (a b : Nat) : Nat := a * b % ecP
def ecSubP (a b : Nat) : Nat := (a + ecP - b % ecP) % ecP

/-- b ^ e modulo m, for exponents below 2 ^ 384. -/
def powMod (b e m : Nat) : Nat :=
  (List.range 384).reverse.foldl (fun r i => let r := r * r % m; if e.testBit i then r * b % m else r) (1 % m)

def ecDouble (p : EcPoint) : EcPoint :=
  if p.z = 0 then p
  else
    let d := ecMulP p.z p.z
    let g := ecMulP p.y p.y
    let b := ecMulP p.x g
    let a := ecMulP 3 (ecMulP (ecSubP p.x d) ((p.x + d) % ecP))
    let x := ecSubP (ecMulP a a) (8 * b)
    ⟨x, ecSubP (ecMulP a (ecSubP (4 * b % ecP) x)) (8 * ecMulP g g), ecMulP 2 (ecMulP p.y p.z)⟩

def ecAdd (p q : EcPoint) : EcPoint :=
  if p.z = 0 then q
  else if q.z = 0 then p
  else
    let z1 := ecMulP p.z p.z
    let z2 := ecMulP q.z q.z
    let u1 := ecMulP p.x z2
    let s1 := ecMulP p.y (ecMulP z2 q.z)
    let h := ecSubP (ecMulP q.x z1) u1
    let r := ecSubP (ecMulP q.y (ecMulP z1 p.z)) s1
    if h = 0 then (if r = 0 then ecDouble p else ⟨1, 1, 0⟩)
    else
      let h2 := ecMulP h h
      let h3 := ecMulP h2 h
      let v := ecMulP u1 h2
      let x := ecSubP (ecMulP r r) (h3 + 2 * v)
      ⟨x, ecSubP (ecMulP r (ecSubP v x)) (ecMulP s1 h3), ecMulP h (ecMulP p.z q.z)⟩

/-- k times a point, for k below 2 ^ 384. -/
def ecTimes (k : Nat) (p : EcPoint) : EcPoint :=
  (List.range 384).reverse.foldl (fun r i => let r := ecDouble r; if k.testBit i then ecAdd r p else r) ⟨1, 1, 0⟩

/-- The affine coordinates of a point other than infinity. -/
def ecAffine (p : EcPoint) : Nat × Nat :=
  let i := powMod p.z (ecP - 2) ecP
  let i2 := ecMulP i i
  (ecMulP p.x i2, ecMulP p.y (ecMulP i2 i))

/-- A number from bytes, most significant first, and back. -/
def beNat (l : List Byte) : Nat := ofLeBytes l.reverse
def beBytes (n v : Nat) : List Byte := (leBytes n v).reverse

/-- The point of an uncompressed public key of 97 bytes; none where it is no point of the curve. -/
def ecOfKey (key : List Byte) : Option EcPoint :=
  let x := beNat ((key.drop 1).take 48)
  let y := beNat (key.drop 49)
  if key.length = 97 ∧ key.headD 0#8 = 4#8 ∧ x < ecP ∧ y < ecP ∧
      ecMulP y y = (ecMulP x (ecMulP x x) + ecB + 3 * (ecP - x)) % ecP then some ⟨x, y, 1⟩ else none

/-- The public key of a private key. -/
def ecPublic (d : Nat) : List Byte := let q := ecAffine (ecTimes d ⟨ecGx, ecGy, 1⟩); 4#8 :: (beBytes 48 q.1 ++ beBytes 48 q.2)

/-! ### ECDSA -/

/-- The signature r, s over a message verifies under a public key. -/
def ecdsaOk (key msg : List Byte) (r s : Nat) : Bool :=
  match ecOfKey key with
  | none => false
  | some q =>
    let w := powMod s (ecN - 2) ecN
    let p := ecAdd (ecTimes (beNat (sha384 msg) * w % ecN) ⟨ecGx, ecGy, 1⟩) (ecTimes (r * w % ecN) q)
    decide (0 < r) && decide (r < ecN) && decide (0 < s) && decide (s < ecN) && decide (p.z ≠ 0) && decide ((ecAffine p).1 % ecN = r)

/-- The signature r, s over a message with a private key and a secret number k: 48 bytes each. -/
def ecdsaSign (d : Nat) (msg : List Byte) (k : Nat) : List Byte :=
  let r := (ecAffine (ecTimes k ⟨ecGx, ecGy, 1⟩)).1 % ecN
  let s := powMod k (ecN - 2) ecN * ((beNat (sha384 msg) + r * d) % ecN) % ecN
  beBytes 48 r ++ beBytes 48 s

/-! ### Reading DER -/

/-- One value of DER: its tag, its content, all its bytes, and what follows it. -/
def derRead (l : List Byte) : Option (Nat × List Byte × List Byte × List Byte) :=
  let (h, n) := match l with
    | _ :: a :: r =>
      if a.toNat < 128 then (2, a.toNat)
      else if a.toNat = 0x81 then (3, beNat (r.take 1))
      else if a.toNat = 0x82 then (4, beNat (r.take 2))
      else (0, 0)
    | _ => (0, 0)
  if h = 0 ∨ l.length < h + n then none else some ((l.headD 0#8).toNat, (l.drop h).take n, l.take (h + n), l.drop (h + n))

/-- The values that stand one after another, at most `k`: tag, content, all bytes. -/
def derAll : Nat → List Byte → List (Nat × List Byte × List Byte)
  | 0, _ => []
  | k + 1, l =>
    match derRead l with
    | some (t, c, w, r) => (t, c, w) :: derAll k r
    | none => []

/-! ### Certificates -/

/-- What a certificate says: its signed part, issuer, subject, public key and signature. -/
structure Cert where
  tbs : List Byte
  issuer : List Byte
  subject : List Byte
  key : List Byte
  r : Nat
  s : Nat
  deriving DecidableEq, Repr

/-- An X.509 v3 certificate with a P-384 key and an ecdsa-with-SHA384 signature (R438). -/
def certOf (l : List Byte) : Option Cert :=
  match derAll 1 l with
  | [(0x30, body, _)] =>
    match derAll 4 body with
    | [(0x30, tbs, tbsAll), (0x30, _, alg), (3, bits, _)] =>
      match derAll 16 tbs, derAll 1 (bits.drop 1) with
      | (0xA0, ver, _) :: (2, _, _) :: (0x30, _, alg2) :: (0x30, _, iss) :: (0x30, _, _) :: (0x30, _, sub) :: (0x30, spki, spkiAll) :: _,
        [(0x30, sig, _)] =>
        let key := ((derAll 2 spki).getD 1 (0, [], [])).2.1.drop 1
        if ver = [2, 1, 2] ∧ alg = derEcdsa ∧ alg2 = derEcdsa ∧ spkiAll = derKey key then
          match derAll 3 sig with
          | [(2, r, _), (2, s, _)] => some ⟨tbsAll, iss, sub, key, beNat r, beNat s⟩
          | _ => none
        else none
      | _, _ => none
    | _ => none
  | _ => none

/-- A certificate is signed by the holder of a key. -/
def signedBy (c : Cert) (key : List Byte) : Bool := ecdsaOk key c.tbs c.r c.s

/-- The certificates of a chain, signer first; none where one of them is not as R438 asks. -/
def chainOf (l : List Byte) : Option (List Cert) := ((derAll 16 l).map (fun v => v.2.2)).mapM certOf

/-- Each certificate is signed by the next one, the last one by the anchor's key (R438). -/
def chainSigned (anchor : List Byte) : List Cert → Bool
  | [] => false
  | [c] => signedBy c anchor
  | c :: d :: l => signedBy c d.key && decide (c.issuer = d.subject) && chainSigned anchor (d :: l)

end Sys2Proof.Machine
end

