-- ==== Sys2Proof/Machine/Signed.lean ====
section
/-! DEFINITION. The boot flash, the keys that BOOT derives, signed objects and records (R436 to R441). -/

namespace Sys2Proof.Machine

/-! ### Boot flash (R440) -/

/-- A byte of the flash; an erased one reads 0xFF (log 92). -/
def flashGet (s : State) (a : Nat) : Byte := tget 0xFF#8 s.sec.flash a

def flashBytes (s : State) (a n : Nat) : List Byte := (List.range n).map (fun i => flashGet s (a + i))

/-- Bytes are programmed from an offset upwards. -/
def flashPut (s : State) (a : Nat) (l : List Byte) : State :=
  { s with sec := { s.sec with flash := l.zipIdx.foldl (fun m p => tput 0xFF#8 m (a + p.2) p.1) s.sec.flash } }

/-- n bytes from an offset are erased. -/
def flashErase (s : State) (a n : Nat) : State :=
  { s with sec := { s.sec with flash := s.sec.flash.filter (fun p => decide (p.1 < a) || decide (a + n ≤ p.1)) } }

/-- The bytes of an object, by offset and length. -/
abbrev Reader := Nat → Nat → List Byte

def flashReader (s : State) (base : Nat) : Reader := fun o n => flashBytes s (base + o) n
def listReader (l : List Byte) : Reader := fun o n => (l.drop o).take n

/-- The 32-bit word at an offset of an object. -/
def wordAt (r : Reader) (o : Nat) : Nat := ofLeBytes (r o 4)

/-- Where an image bank lies. -/
def bankBase (k : Nat) : Nat := 0x100000 + 0x800000 * k

/-- Size of an image bank (R440). -/
abbrev bankSize := 0x800000

/-! ### Boot header (R440, R442) -/

/-- a is the higher of two SEQ values (R441). -/
def seqHigher (a b : Nat) : Bool :=
  let d := (a + 2 ^ 32 - b % 2 ^ 32) % 2 ^ 32
  decide (1 ≤ d) && decide (d < 2 ^ 31)

/-- Copy k of the boot header, where its MAGIC and CRC are right. -/
def hdrAt (s : State) (k : Nat) : Option BootHdr :=
  let r := flashReader s (0x1000 * k)
  let w := wordAt r 8
  if wordAt r 0 / 0x10000 = 0x4248 ∧ wordAt r 12 = (crc32c (r 0 12)).toNat then
    some ⟨wordAt r 4, w / 2 ^ 31, decide (w / 2 ^ 30 % 2 = 1), w % 16⟩
  else none

/-- The valid boot header copy with the higher SEQ (R442), and its number. -/
def bootHdrAt (s : State) : Option (Nat × BootHdr) :=
  match hdrAt s 0, hdrAt s 1 with
  | some a, some b => some (if seqHigher b.seq a.seq then (1, b) else (0, a))
  | some a, none => some (0, a)
  | none, some b => some (1, b)
  | none, none => none

def bootHdr (s : State) : Option BootHdr := (bootHdrAt s).map (·.2)

/-- The bytes of a boot header copy. -/
def hdrBytes (h : BootHdr) : List Byte :=
  let l := leBytes 4 0x42480000 ++ leBytes 4 h.seq ++ leBytes 4 (h.active % 2 * 2 ^ 31 + b2n h.trial * 2 ^ 30 + h.tries % 16)
  l ++ leBytes 4 (crc32c l).toNat

/-- A new boot header with the next SEQ goes into the other copy, whose subsector is erased (R440, R442). DEDUCED (log 95). -/
def hdrWrite (s : State) (f : BootHdr → BootHdr) : State :=
  let (k, h) := (bootHdrAt s).getD (1, ⟨0, 0, false, 0⟩)
  let n := { f h with seq := (h.seq + 1) % 2 ^ 32 }
  flashPut (flashErase s (0x1000 * (1 - k)) 0x1000) (0x1000 * (1 - k)) (hdrBytes n)

/-! ### Keys (R436) -/

/-- The serial number as R436 and the token of R453 carry it. -/
def serialBytes : List Byte := leBytes 4 Config.serial.toNat

/-- The keys that the ROM derives at every boot: the ASCII labels are "code", "rec" and "wrap". -/
def deriveKeys (s : State) : State :=
  let d := hkdf384 (leBytes 32 Config.deviceSecret) serialBytes
  { s with sec := { s.sec with
    codeKey := d [0x63, 0x6F, 0x64, 0x65] 16, recKey := d [0x72, 0x65, 0x63] 48, wrapKey := d [0x77, 0x72, 0x61, 0x70] 32 } }

/-! ### Signed objects (R437 to R439) -/

/-- The anti-rollback counter (R439). -/
def arcOf (s : State) : Nat := fget s R.SEC_OTP F.SEC_OTP_ARC

/-- SVN of the signature block behind n signed bytes. -/
def svnAt (r : Reader) (n : Nat) : Nat := wordAt r (n + 8) % 64

/-- The chain's bytes. -/
def chainAt (r : Reader) (n : Nat) : List Byte := r (n + 0xA0) (wordAt r (n + 4))

/-- The digest in OTP that the anchor of an object of a KIND must have (R438): the Kelestuno root, or the current owner. -/
def anchorDigest (s : State) (kind : Nat) : Option (List Byte) :=
  if kind = 1 ∨ kind = 2 then some s.sec.otpRoot
  else if kind = 8 then s.sec.owners.getLast?
  else some (s.sec.owners.getLast?.getD s.sec.otpRoot)

/-- The public key of that anchor: of the root certificate, or of the owner's certificate in the identity area (log 93). -/
def anchorKey (s : State) (kind : Nat) : List Byte :=
  if kind = 1 ∨ kind = 2 ∨ s.sec.owners = [] then s.sec.rootKey
  else ((s.sec.anchors.getLast?.bind certOf).map (·.key)).getD []

/-- A chain ends at the anchor of a KIND (R438). -/
def chainEnds (s : State) (kind : Nat) (l : List Cert) : Bool :=
  decide (anchorDigest s kind = some (sha384 (anchorKey s kind))) && chainSigned (anchorKey s kind) l

/-- ERR of the signature block of an object of a KIND with n signed bytes (R437 to R439, R444), 0 when it is good: first the block,
then the chain, whose signer must be meant for the KIND, then the SVN, then digest and signature (log 93). -/
def signedErr (s : State) (kind : Nat) (r : Reader) (n : Nat) (purpose : List Byte) : Nat :=
  let w := fun (o : Nat) => wordAt r (n + o)
  let signed := r 0 (n + 16)
  if n % 64 ≠ 0 ∨ w 0 ≠ 0x4B530001 + 0x100 * kind ∨ 4096 < w 4 then 2
  else match chainOf (chainAt r n) with
    | some (c :: l) =>
      if !chainEnds s kind (c :: l) || !purpose.contains (BitVec.ofNat 8 kind) then 3
      else if (kind = 1 ∨ kind = 2) ∧ svnAt r n < arcOf s then 5
      else if r (n + 0x10) 48 ≠ sha384 signed ∨ ecdsaOk c.key signed (beNat (r (n + 0x40) 48)) (beNat (r (n + 0x70) 48)) = false then 4
      else 0
    | _ => 3

/-- The bytes of a signature block, its chain included. -/
def blockBytes (r : Reader) (n : Nat) : List Byte := r n 0xA0 ++ chainAt r n

/-! ### Firmware images (R440) -/

/-- What the header of an image says beside what its signature block says. -/
def infoAt (r : Reader) : ImageInfo :=
  let n := wordAt r 4
  ⟨svnAt r n, wordAt r 0x18 / 0x10000, sha384 (r 0 (n + 16)), wordAt r 0x1C, wordAt r 0x08, wordAt r 0x0C, wordAt r 0x10, wordAt r 0x14⟩

/-- The header of an image in so many bytes of room is wrong: FORMAT, SIZE, places, HDR_CRC. -/
def imageHdrBad (r : Reader) (room : Nat) : Bool :=
  let n := wordAt r 4
  decide (wordAt r 0 / 0x10000 ≠ 3) || decide (wordAt r 0x3C ≠ (crc32c (r 0 0x3C)).toNat) || decide (n % 64 ≠ 0) || decide (n < 0x40) ||
    decide (room < n + 0xA0) || decide (786432 < wordAt r 0x0C) || decide (n < wordAt r 0x08 + wordAt r 0x0C) ||
    decide (n < wordAt r 0x10 + wordAt r 0x14)

/-- ERR of an image (R437 to R440, R442): 0 when it is good. DEDUCED (log 93). -/
def imageErr (s : State) (r : Reader) (room : Nat) (purpose : List Byte) : Nat :=
  if imageHdrBad r room then 2 else signedErr s 1 r (wordAt r 4) purpose

/-- The image in a bank. -/
def bankReader (s : State) (k : Nat) : Reader := flashReader s (bankBase k)
def bankErr (s : State) (k : Nat) (purpose : List Byte) : Nat := imageErr s (bankReader s k) bankSize purpose

/-! ### Records (R441) -/

/-- Where the record area of a KIND begins: board 5, delay supplement 6, safety 3, emission 4. -/
def areaBase (kind : Nat) : Nat := match kind with | 5 => 0x1100000 | 6 => 0x1120000 | 3 => 0x1140000 | _ => 0x1160000

/-- The record is one that the device writes, with a tag. -/
def tagged (kind : Nat) : Bool := decide (kind = 4) || decide (kind = 6)

/-- SEQ and payload of a slot that is valid: its header, and its tag under the "rec" key or its signature block. -/
def slotRead (s : State) (kind k : Nat) (purpose : List Byte) : Option (Nat × List Byte) :=
  let r := flashReader s (areaBase kind + 0x10000 * k)
  let n := wordAt r 8
  let auth :=
    if tagged kind then decide (r (0x10 + n) 48 = hmac384 s.sec.recKey (r 0 (0x10 + n)))
    else decide (signedErr s kind (fun o l => r (0x10 + o) l) n purpose = 0)
  if wordAt r 0 = 0x52430001 + 0x100 * kind ∧ wordAt r 12 = (crc32c (r 0 12)).toNat ∧ n % 64 = 0 ∧ n ≤ 61248 ∧ auth then
    some (wordAt r 4, r 0x10 n)
  else none

/-- The slot in force of a record: number, SEQ and payload. -/
def recFind (s : State) (kind : Nat) (p0 p1 : List Byte) : Option (Nat × Nat × List Byte) :=
  match slotRead s kind 0 p0, slotRead s kind 1 p1 with
  | some a, some b => some (if seqHigher b.1 a.1 then (1, b) else (0, a))
  | some a, none => some (0, a)
  | none, some b => some (1, b)
  | none, none => none

/-- BOOT reads a record; the slot that is in force is known from then on. -/
def recLoad (s : State) (kind : Nat) (p0 p1 : List Byte) : State × Option (List Byte) :=
  match recFind s kind p0 p1 with
  | some (k, q, l) => ({ s with sec := { s.sec with inForce := insertKey (eraseKey s.sec.inForce kind) kind (k, q) } }, some l)
  | none => ({ s with sec := { s.sec with inForce := eraseKey s.sec.inForce kind } }, none)

/-- The payload padded to whole 64 bytes (log 95). -/
def recPad (l : List Byte) : List Byte := l ++ List.replicate ((64 - l.length % 64) % 64) 0#8

/-- The bytes of a record: header, payload, tag or signature block. -/
def recBytes (s : State) (kind seq : Nat) (payload block : List Byte) : List Byte :=
  let h := leBytes 4 (0x52430001 + 0x100 * kind) ++ leBytes 4 seq ++ leBytes 4 payload.length
  let l := h ++ leBytes 4 (crc32c h).toNat ++ payload
  l ++ (if tagged kind then hmac384 s.sec.recKey l else block)

/-- A record is written into the slot that is not in force, with SEQ + 1 (R441) (log 95). -/
def recWrite (s : State) (kind : Nat) (payload block : List Byte) : State :=
  let (k, q) := (lookup s.sec.inForce kind).getD (1, 0)
  let a := areaBase kind + 0x10000 * (1 - k)
  let q := (q + 1) % 2 ^ 32
  let b := recBytes s kind q (recPad payload) block
  let s := flashPut (flashErase s a 0x10000) a b
  { s with sec := { s.sec with inForce := insertKey (eraseKey s.sec.inForce kind) kind (1 - k, q), flashAt := now s } }

end Sys2Proof.Machine
end

