-- ==== Sys2Proof/Machine/SafConfig.lean ====
section
/-! DEFINITION. The safety configuration image (R278 to R280), its verification (R269) and the geometry that both
channels compute from it (R258, R259). -/

namespace Sys2Proof.Machine

/-- An image, by byte offset; an unlisted byte is 0. -/
abbrev SafImage := List (Nat × Byte)

/-- Bytes of the image. -/
def safImageSize : Nat := 0x6740

def imgBytes (m : SafImage) (o n : Nat) : List Byte := (List.range n).map (fun i => tget 0#8 m (o + i))

/-- The 32-bit word at an offset. -/
def imgW (m : SafImage) (o : Nat) : Nat := ofLeBytes (imgBytes m o 4)

/-- Bits of the word at an offset. -/
def imgF (m : SafImage) (o hi lo : Nat) : Nat := bitsOf (imgW m o) hi lo

/-! ### Fields of the global block (R279) -/

def cfgNms (m : SafImage) : Nat := imgF m 0x40 31 24
def cfgPers (m : SafImage) : Nat := imgF m 0x40 23 16
def cfgXcLim (m : SafImage) : Nat := imgF m 0x40 15 8
def cfgMinPts (m : SafImage) : Nat := imgF m 0x40 7 0
def cfgFrameMax (m : SafImage) : Nat := imgF m 0x44 31 16
def cfgAgeB (m : SafImage) : Nat := imgF m 0x44 15 0
def cfgHitB (m : SafImage) : Nat := imgF m 0x48 31 24
def cfgTotMin (m : SafImage) : Nat := imgF m 0x48 23 12
def cfgPbDr (m : SafImage) : Nat := imgF m 0x48 11 0
def cfgScnUse (m : SafImage) : Nat := imgF m 0x4C 31 30
def cfgSetValid (m : SafImage) : Nat := imgF m 0x4C 15 0
def cfgBankScn (m : SafImage) : Nat := imgF m 0x5C 15 0
def cfgRole (m : SafImage) (i : Nat) : Nat := imgF m (0x60 + 4 * i) 31 29
def cfgAnti (m : SafImage) (i : Nat) : Bool := decide (imgF m (0x60 + 4 * i) 28 28 = 1)
def cfgDisc (m : SafImage) (i : Nat) : Nat := imgF m (0x60 + 4 * i) 24 16
def cfgFilt (m : SafImage) (i : Nat) : Nat := imgF m (0x60 + 4 * i) 12 8
def cfgManual (m : SafImage) (p : Nat) : Bool := decide (imgF m (0x80 + 4 * p) 31 31 = 1)
def cfgRstDly (m : SafImage) (p : Nat) : Nat := imgF m (0x80 + 4 * p) 15 0
/-- CH_X and CH_Y of a scanner. -/
def cfgChX (m : SafImage) (s : Nat) : Nat := if s = 0 then imgF m 0x90 6 4 else imgF m 0x90 14 12
def cfgChY (m : SafImage) (s : Nat) : Nat := if s = 0 then imgF m 0x90 2 0 else imgF m 0x90 10 8

/-! ### Fields (R280) -/

/-- Offset of field f of set k; the fields are numbered 4 × set + field. -/
def fieldAt (i : Nat) : Nat := 0x140 + 0x110 * i
def fieldRole (m : SafImage) (i : Nat) : Nat := imgF m (fieldAt i) 31 30
def fieldNv (m : SafImage) (i : Nat) : Nat := imgF m (fieldAt i) 22 16
def fieldZlo (m : SafImage) (i : Nat) : Int := signed 16 (imgF m (fieldAt i + 4) 31 16)
def fieldZhi (m : SafImage) (i : Nat) : Int := signed 16 (imgF m (fieldAt i + 4) 15 0)

/-- The vertices of a field. -/
def fieldVerts (m : SafImage) (i : Nat) : List (Int × Int) :=
  (List.range (fieldNv m i)).map (fun v =>
    (signed 16 (imgF m (fieldAt i + 0x10 + 4 * v) 31 16), signed 16 (imgF m (fieldAt i + 0x10 + 4 * v) 15 0)))

/-- The used fields of the sets in SET_VALID (R259). -/
def usedFields (m : SafImage) : List Nat :=
  (bitList 16 (cfgSetValid m)).flatMap (fun k => ((List.range 4).map (4 * k + ·)).filter (fun i => fieldRole m i ≠ 0))

/-! ### Geometry -/

/-- The edges of a polygon. -/
def polyEdges (l : List (Int × Int)) : List ((Int × Int) × (Int × Int)) :=
  match l with
  | [] => []
  | v :: _ => l.zip (l.drop 1 ++ [v])

/-- Twice the signed area of the triangle a, b, c. -/
def orient (a b c : Int × Int) : Int := (b.1 - a.1) * (c.2 - a.2) - (b.2 - a.2) * (c.1 - a.1)

/-- c lies on the segment from a to b. -/
def onSegment (a b c : Int × Int) : Bool :=
  decide (orient a b c = 0) && decide (min a.1 b.1 ≤ c.1) && decide (c.1 ≤ max a.1 b.1) && decide (min a.2 b.2 ≤ c.2) &&
    decide (c.2 ≤ max a.2 b.2)

/-- Two segments share a point. -/
def segMeet (e f : (Int × Int) × (Int × Int)) : Bool :=
  let sg := fun (x : Int) => if x < 0 then (-1 : Int) else if x = 0 then 0 else 1
  (decide (sg (orient e.1 e.2 f.1) * sg (orient e.1 e.2 f.2) < 0) && decide (sg (orient f.1 f.2 e.1) * sg (orient f.1 f.2 e.2) < 0)) ||
    onSegment e.1 e.2 f.1 || onSegment e.1 e.2 f.2 || onSegment f.1 f.2 e.1 || onSegment f.1 f.2 e.2

/-- An edge folds back on the edge before it (log 62). -/
def foldsBack (e f : (Int × Int) × (Int × Int)) : Bool :=
  decide (orient e.1 e.2 f.2 = 0) &&
    decide ((e.2.1 - e.1.1) * (f.2.1 - f.1.1) + (e.2.2 - e.1.2) * (f.2.2 - f.1.2) ≤ 0)

/-- Edges that cross (R269): edges that are not neighbours share a point, or an edge folds back. -/
def polyCrosses (l : List (Int × Int)) : Bool :=
  let es := (polyEdges l).zipIdx
  let n := es.length
  es.any (fun e => es.any (fun f =>
    if (e.2 + 1) % n = f.2 then foldsBack e.1 f.1
    else decide (e.2 < f.2) && decide ((f.2 + 1) % n ≠ e.2) && segMeet e.1 f.1))

/-- Twice the signed area of a polygon. -/
def polyArea (l : List (Int × Int)) : Int := ((polyEdges l).map (fun e => e.1.1 * e.2.2 - e.2.1 * e.1.2)).sum

/-- (x, y) lies inside a polygon by the crossing rule, or on its boundary (R258). -/
def inPoly (l : List (Int × Int)) (x y : Int) : Bool :=
  (polyEdges l).any (fun e => onSegment e.1 e.2 (x, y)) ||
    (polyEdges l).foldl (fun c e =>
      let a := e.1
      let b := e.2
      if decide (y < a.2) ≠ decide (y < b.2) ∧
          (if b.2 < a.2 then (b.1 - a.1) * (y - a.2) < (x - a.1) * (b.2 - a.2) else (x - a.1) * (b.2 - a.2) < (b.1 - a.1) * (y - a.2))
      then !c else c) false

/-- A head position lies inside a field. -/
def inField (m : SafImage) (i : Nat) (p : Int × Int × Int) : Bool :=
  decide (fieldZlo m i ≤ p.2.2) && decide (p.2.2 ≤ fieldZhi m i) && inPoly (fieldVerts m i) p.1 p.2.1

/-- A head position in 2 mm of a point or position in a channel (R258), within ±2 units of the exact value. -/
def headXyz (m : SafImage) (ch range az el : Nat) : Int × Int × Int :=
  let one : Int := 2 ^ 60
  let x : Int := range * cosFix el * cosFix az
  let y : Int := range * cosFix el * sinFix az
  let z : Int := range * sinFix el * one
  let r := imgF m 0x58 15 0
  let p := imgF m 0x58 31 16
  let w := imgF m 0x54 15 0
  let (x, y, z) := (x * one, y * cosFix r - z * sinFix r, y * sinFix r + z * cosFix r)
  let (x, y, z) := (x * cosFix p + z * sinFix p, y * one, z * cosFix p - x * sinFix p)
  let (x, y, z) := (x * cosFix w - y * sinFix w, x * sinFix w + y * cosFix w, z * one)
  let near := fun (v : Int) (axis : Nat) => v / 2 ^ 303 - 1 + (Config.safErr ch range az el axis % 4 : Nat)
  (near x 0 + signed 16 (imgF m 0x50 31 16), near y 1 + signed 16 (imgF m 0x50 15 0), near z 2 + signed 16 (imgF m 0x54 31 16))

/-! ### Verification (R269) -/

/-- Check 6: a field outside its stated range, reserved bits and bytes included. DEDUCED (log 62). -/
def safRangeBad (m : SafImage) : Bool :=
  let out := fun (v lo hi : Nat) => decide (v < lo) || decide (hi < v)
  let used := fun (o bits : Nat) => ((BitVec.ofNat 32 (imgW m o)) &&& ~~~(BitVec.ofNat 32 bits)) != 0#32
  let zero := fun (o n : Nat) => (imgBytes m o n).any (fun b => b != 0#8)
  decide (imgF m 0 15 0 = 0) || zero 0x0C 0x30 || zero 0x94 0xAC ||
  out (cfgNms m) 2 16 || out (cfgPers m) 0 8 || out (cfgXcLim m) 2 64 || out (cfgMinPts m) 1 16 ||
  out (cfgFrameMax m) 1000 50000 || out (cfgAgeB m) 1 1000 || out (cfgHitB m) 1 16 || out (cfgPbDr m) 1 1000 ||
  used 0x4C 0xC000FFFF || used 0x5C 0xFFFF || used 0x90 0x7777 ||
  (List.range 8).any (fun i => out (cfgDisc m i) 4 500 || out (cfgFilt m i) 0 20 || used (0x60 + 4 * i) 0xF1FF1F00) ||
  (List.range 2).any (fun p => used (0x80 + 4 * p) 0x8000FFFF) ||
  (List.range 64).any (fun i =>
    used (fieldAt i) 0xC07F0000 || zero (fieldAt i + 8) 8 || (decide (fieldRole m i = 0) && decide (fieldNv m i ≠ 0)) ||
    zero (fieldAt i + 0x10 + 4 * min 64 (fieldNv m i)) (4 * (64 - min 64 (fieldNv m i)))) ||
  (List.range 1024).any (fun n => used (0x4740 + 8 * n) 0xFFFF)

/-- Check 7 (log 62). -/
def safPolyBad (m : SafImage) : Bool :=
  (List.range 64).any (fun i => decide (fieldRole m i ≠ 0) &&
    (decide (fieldNv m i < 3) || decide (64 < fieldNv m i) || decide (polyArea (fieldVerts m i) = 0) || polyCrosses (fieldVerts m i) ||
     decide (fieldZhi m i < fieldZlo m i)))

/-- Check 8: BANK_SCN differs from SCN of the governor's active BANK_CFG. -/
def safBankBad (s : State) (m : SafImage) : Bool :=
  (List.range 16).any (fun b => decide (b2n (bitOf (cfgBankScn m) b) ≠ bankScanner s b))

/-- Checks 2 and 3 (log 62). -/
def safHdrBad (m : SafImage) : Bool :=
  decide (imgF m 0 31 16 ≠ 2) || decide (imgW m 4 ≠ safImageSize) || decide (imgW m 0x3C ≠ (crc32c (imgBytes m 0 0x3C)).toNat)
def safBodyBad (m : SafImage) : Bool := decide (imgW m 8 ≠ (crc32c (imgBytes m 0x40 (safImageSize - 0x40))).toNat)

end Sys2Proof.Machine
end

