-- ==== Sys2Proof/Machine/Island.lean ====
section
/-! DEFINITION. The safety island (R249 to R275): pair permits and outputs, latched faults, inputs and seals, channel A
and channel B, occupancy and comparison, the commit. -/

namespace Sys2Proof.Machine

/-- A configuration is active on a device with an island. -/
def safActive (s : State) : Bool := flag s R.SAF_STAT F.SAF_STAT_ACTIVE && !s.variantAN

/-! ### Outputs (R250, R264) -/

def ossd (s : State) (o : Nat) : Ossd := tget Ossd.init s.saf.outs o
def modOssd (s : State) (o : Nat) (f : Ossd → Ossd) : State :=
  { s with saf := { s.saf with outs := tmod Ossd.init s.saf.outs o f } }
def safPair (s : State) (p : Nat) : SafPair := tget SafPair.init s.saf.pairs p
def modPair (s : State) (p : Nat) (f : SafPair → SafPair) : State :=
  { s with saf := { s.saf with pairs := tmod SafPair.init s.saf.pairs p f } }

/-- The level of an output. -/
def Ossd.high (x : Ossd) : Bool := x.on && x.pulse.isNone

/-- An output goes low; within a test pulse the demand is kept (R265). -/
def ossdOff (s : State) (o : Nat) : State :=
  modOssd s o (fun x => if x.on then { x with on := false, since := now s, demand := x.pulse.isSome, ended := none } else x)

/-! ### Inputs (R266, R267) -/

/-- State code of input i: 0 INACTIVE, 1 ACTIVE, 2 PENDING, 3 FAULT (log 63). -/
def inState (s : State) (i : Nat) : Nat := fget s R.SAF_INSTATE F.SAF_INSTATE_STATE / 4 ^ i % 4

def setInState (s : State) (i v : Nat) : State :=
  let w := fget s R.SAF_INSTATE F.SAF_INSTATE_STATE
  let s := fset s R.SAF_INSTATE F.SAF_INSTATE_STATE (w - inState s i * 4 ^ i + v * 4 ^ i)
  fset s R.SAF_INPUTS F.SAF_INPUTS_FUNC (setBitN (fget s R.SAF_INPUTS F.SAF_INPUTS_FUNC) i (decide (v = 1)))

/-- Inputs of a role, rising. -/
def roleInputs (s : State) (r : Nat) : List Nat := (List.range 8).filter (fun i => cfgRole s.saf.cfg i = r)

/-- The set number that the SELECT inputs give (R259) (log 63). -/
def selectedSet (s : State) : Nat :=
  ((roleInputs s 6).zipIdx.map (fun p => if inState s p.1 = 1 then 2 ^ p.2 else 0)).sum

/-- SET_BAD (R259). -/
def setBad (s : State) : Bool :=
  safActive s && (!(decide (selectedSet s < 16) && bitOf (cfgSetValid s.saf.cfg) (selectedSet s)) ||
    (roleInputs s 6).any (fun i => decide (2 ≤ inState s i)))

/-! ### Pair permits (R262, R263) -/

def occupied (l : List (Nat × Bool)) (i : Nat) : Bool := tget true l i

/-- The protective fields of pair p in the active set. -/
def pairFields (s : State) (p : Nat) : List Nat :=
  ((List.range 4).map (4 * s.saf.setNo + ·)).filter (fun i => fieldRole s.saf.cfg i = p + 1)

/-- Every condition of R262 but the restart. -/
def pairCond (s : State) (p : Nat) : Bool :=
  decide (modeOf s = .scan) && s.sys.target.isNone && safActive s && !safFaulted s && !flag s R.SAF_FAULT F.SAF_FAULT_CFG_LOAD &&
    !setBad s && s.sys.reset.isNone && !s.sys.withdrawn &&
    (pairFields s p).all (fun i => !occupied s.saf.occA i && !occupied s.saf.occB i) &&
    (roleInputs s (p + 1) ++ roleInputs s 3).all (fun i => decide (inState s i = 1)) &&
    (bitList 2 (cfgScnUse s.saf.cfg)).all (fun c => flag s (R.SCN_STAT c) F.SCN_STAT_EMIT_OK)

/-- A field of SAF_OSSD of a pair. -/
def pairFld (p : Nat) : Fld := if p = 0 then F.SAF_OSSD_PAIR0 else F.SAF_OSSD_PAIR1

/-- SAF_OSSD, SET_BAD and SAF_FIELDS follow the island's state. -/
def safShow (s : State) : State :=
  if s.variantAN then s
  else
    let s := (List.range 2).foldl (fun s p =>
      let a := ossd s p
      let b := ossd s (2 + p)
      fset s R.SAF_OSSD (pairFld p) (b2n (safPair s p).on * 128 + b2n a.high * 64 + b2n b.high * 32 + b2n a.rb * 16 + b2n b.rb * 8 +
        b2n (!(safPair s p).on && (safPair s p).okSince.isSome) * 4)) s
    let four := fun (l : List (Nat × Bool)) => ((List.range 4).map (fun f => b2n (occupied l (4 * s.saf.setNo + f)) * 2 ^ f)).sum
    let s := fset s R.SAF_FIELDS F.SAF_FIELDS_SET s.saf.setNo
    let s := fset (fset s R.SAF_FIELDS F.SAF_FIELDS_OCC_A (four s.saf.occA)) R.SAF_FIELDS F.SAF_FIELDS_OCC_B (four s.saf.occB)
    let bad := setBad s
    let s := if bad && !flag s R.SAF_STAT F.SAF_STAT_SET_BAD then raise s 540 else s
    fsetB s R.SAF_STAT F.SAF_STAT_SET_BAD bad

/-- A pair is switched off: DEMAND (R262, R282). -/
def pairOff (s : State) (p : Nat) : State :=
  let s := if (safPair s p).on then
      flagRaise (finc s R.SAF_CNT_A F.SAF_CNT_A_DEMANDS) R.SAF_STAT F.SAF_STAT_DEMAND 536
    else s
  modPair (ossdOff (ossdOff s p) (2 + p)) p (fun _ => SafPair.init)

/-- A pair is switched on; a pulse of one of its outputs delays it (R265). -/
def pairOn (s : State) (p : Nat) : State :=
  if (safPair s p).on || (ossd s p).pulse.isSome || (ossd s (2 + p)).pulse.isSome then s
  else
    let up := fun (s : State) (o : Nat) => modOssd s o (fun x => { x with on := true, since := now s, ended := none, demand := false })
    modPair (up (up s p) (2 + p)) p (fun x => { x with on := true, pulseAt := none })

/-- PAIR_PERMIT (R262, R263) for pair p. -/
def pairStep (s : State) (p : Nat) : State :=
  if pairCond s p then
    let s := modPair s p (fun x => { x with okSince := some (x.okSince.getD (now s)) })
    if !cfgManual s.saf.cfg p && decide ((safPair s p).okSince.getD 0 + ticksMs (cfgRstDly s.saf.cfg p) ≤ now s) then pairOn s p
    else s
  else pairOff s p

/-- The supervisor checks both permits (R262) (log 63). -/
def safCheck (s : State) : State := if s.variantAN then s else safShow (pairStep (pairStep s 0) 1)

/-- Both permits are withdrawn (R318, R466, R274). -/
def safWithdraw (s : State) : State := if s.variantAN then s else safShow (pairOff (pairOff s 0) 1)

/-! ### Latched faults (R273, R274, R275) -/

/-- FAULT_LATCH (R274). -/
def latchFault (s : State) (f : Fld) : State :=
  if s.variantAN then s
  else safeHold (safWithdraw (raise (fon s R.SAF_FAULT f) 537))

/-- WDOG (R273). -/
def execWdog (s : State) : Host.Outcome State Fault Refusal := .next (done (latchFault s F.SAF_FAULT_WDOG))
/-- LOCKSTEP (R273). -/
def execLockstep (s : State) : Host.Outcome State Fault Refusal := .next (done (latchFault s F.SAF_FAULT_LOCKSTEP))
/-- CLOCK_DEVIATION (R273). -/
def execClockDeviation (s : State) : Host.Outcome State Fault Refusal := .next (done (latchFault s F.SAF_FAULT_CLOCK))
/-- ISLAND_SUPPLY_TRIP (R496, R273). -/
def execIslandSupplyTrip (s : State) : Host.Outcome State Fault Refusal := .next (done (latchFault s F.SAF_FAULT_SUPPLY))

/-- Every readback agrees with its output. -/
def readbacksAgree (s : State) : Bool := (List.range 4).all (fun o => (ossd s o).rb == (ossd s o).high)

/-- CLR_FAULT (R275): in SAFE_HOLD the faults that need no reset clear once their cause has ended. DEDUCED (log 63). -/
def clrFault (s : State) : State :=
  if modeOf s = .safeHold ∧ s.variantAN = false then
    let s := { s with saf := { s.saf with xcRun := [] } }
    let s := foff (foff (foff s R.SAF_FAULT F.SAF_FAULT_CHB_TEST) R.SAF_FAULT F.SAF_FAULT_XCOMP) R.SAF_FAULT F.SAF_FAULT_SCN_OVR
    if readbacksAgree s then foff (foff s R.SAF_FAULT F.SAF_FAULT_OSSD_RB) R.SAF_FAULT F.SAF_FAULT_CROSS else s
  else s

def execClrFault (s : State) : Host.Outcome State Fault Refusal := .next (done (clrFault s))

/-! ### Test pulses and readbacks (R264, R265) -/

/-- Where the 20 ms cycle would begin for a pulse of output o that starts now: 0, 5, 10 or 15 ms into it (R264). -/
def pulsePhaseOf (s : State) (o : Nat) : Nat := (now s + ticksMs 20 - ticksMs (5 * o)) % ticksMs 20

/-- The pulse of output o falls at its place in the cycle (R264) (log 64). -/
def pulseDue (s : State) (o : Nat) : Bool := s.saf.pulsePhase.all (fun p => decide (p = pulsePhaseOf s o))

/-- OSSD_TEST_PULSE (R264): an output that is on is pulsed low at its place in the cycle (log 64). -/
def execOssdTestPulse (o : Fin 4) (s : State) : Host.Outcome State Fault Refusal :=
  .next (done (
    if (ossd s o.val).on && (List.range 4).all (fun k => (ossd s k).pulse.isNone) && pulseDue s o.val then
      let s := { s with saf := { s.saf with pulsePhase := some (pulsePhaseOf s o.val) } }
      safShow (modOssd s o.val (fun x => { x with pulse := some (now s), ended := none, demand := false }))
    else s))

/-- OSSD_TEST_PULSE_END (R264, R265): after 200 µs the output returns high unless an off demand has come. -/
def execOssdTestPulseEnd (o : Fin 4) (s : State) : Host.Outcome State Fault Refusal :=
  .next (done (match (ossd s o.val).pulse with
    | some t =>
      if t + ticksUs 200 ≤ now s then
        safShow (modOssd s o.val (fun x => { x with pulse := none, ended := if x.on then some (now s) else none, demand := false }))
      else s
    | none => s))

/-- The first, second, fourth and fifth checks of R264 on output o that reads `rb`. -/
def readbackBad (s : State) (o : Nat) (rb : Bool) : Bool :=
  let x := ossd s o
  if x.on then
    match x.pulse, x.ended with
    | some t, _ => decide (t + ticksUs 100 ≤ now s) && rb
    | none, some t => decide (t + ticksUs 500 ≤ now s) && !rb
    | none, none => decide (x.since + ticksUs 500 ≤ now s) && !rb
  else decide (x.since + ticksUs 100 ≤ now s) && rb

/-- The third check of R264: during a pulse of another output, the readback of an output that is on stays high. DEDUCED (log 64). -/
def crossBad (s : State) (o : Nat) (rb : Bool) : Bool :=
  let x := ossd s o
  (List.range 4).any (fun k => decide (k ≠ o) && (ossd s k).pulse.isSome) && x.on && x.pulse.isNone &&
    decide (x.since + ticksUs 500 ≤ now s) && (match x.ended with | some t => decide (t + ticksUs 500 ≤ now s) | none => true) && !rb

/-- READBACK_CHECK (R264): the readbacks have the levels `r` at a deadline (log 64). -/
def execReadbackCheck (r : BitVec 4) (s : State) : Host.Outcome State Fault Refusal :=
  .next (done (
    if s.variantAN || s.sys.held.isSome then s
    else
      let rb := fun (o : Nat) => r.getLsbD o
      let bad := (List.range 4).any (fun o => readbackBad s o (rb o))
      let cross := (List.range 4).any (fun o => crossBad s o (rb o))
      let s := (List.range 4).foldl (fun s o => modOssd s o (fun x => { x with
        rb := rb o,
        ended := match x.ended with | some t => if t + ticksUs 500 ≤ now s then none else some t | none => none })) s
      let s := if bad then latchFault s F.SAF_FAULT_OSSD_RB else s
      safShow (if cross then latchFault s F.SAF_FAULT_CROSS else s)))

/-! ### Input samples (R266, R267) -/

def safInput (s : State) (i : Nat) : SafInput := tget SafInput.init s.saf.inputs i
def modInput (s : State) (i : Nat) (f : SafInput → SafInput) : State :=
  { s with saf := { s.saf with inputs := tmod SafInput.init s.saf.inputs i f } }

/-- A sample of the two channels of input i passes the filter. -/
def inputFilter (s : State) (i : Nat) (a b : Bool) : State :=
  let f := if safActive s then ticksMs (cfgFilt s.saf.cfg i) else 0
  let s := modInput s i (fun x => { x with
    rawA := a, rawB := b, sinceA := if x.rawA = a then x.sinceA else now s, sinceB := if x.rawB = b then x.sinceB else now s })
  let s := modInput s i (fun x => { x with
    lvA := if x.sinceA + f ≤ now s then a else x.lvA, lvB := if x.sinceB + f ≤ now s then b else x.lvB })
  let x := safInput s i
  let s := fset s R.SAF_INPUTS F.SAF_INPUTS_LIVE_A (setBitN (fget s R.SAF_INPUTS F.SAF_INPUTS_LIVE_A) i x.lvA)
  fset s R.SAF_INPUTS F.SAF_INPUTS_LIVE_B (setBitN (fget s R.SAF_INPUTS F.SAF_INPUTS_LIVE_B) i x.lvB)

/-- The table of R267 for input i, after its sample. -/
def inputStep (s : State) (i : Nat) : State :=
  let x := safInput s i
  let a := x.lvA
  let b := if cfgAnti s.saf.cfg i then !x.lvB else x.lvB
  let go := fun (v : Nat) (t : Option Nat) => modInput (setInState s i v) i (fun x => { x with discAt := t })
  match inState s i with
  | 0 => if a && b then go 1 none else if a || b then go 2 (some (now s)) else s
  | 1 => if a && b then s else if a || b then go 2 (some (now s)) else go 0 none
  | 2 => if a && b then go 1 none else if !a && !b then go 0 none else s
  | _ => if !a && !b then go 0 none else s

/-- The RESTART input of pair p is ACTIVE. -/
def restartActive (s : State) (p : Nat) : Bool := (roleInputs s (4 + p)).any (fun i => decide (inState s i = 1))

/-- Restart pulses of pair p (R263): `was` is the input before the sample. -/
def restartPulse (was : Bool) (s : State) (p : Nat) : State :=
  let is := restartActive s p
  let x := safPair s p
  if !was && is then
    (if x.okSince.isSome && !x.on then modPair s p (fun x => { x with pulseAt := some (now s) }) else s)
  else if was && !is then
    match x.pulseAt with
    | some t =>
      let s := modPair s p (fun x => { x with pulseAt := none })
      if cfgManual s.saf.cfg p && pairCond s p && decide (t + ticksMs 100 ≤ now s) && decide (now s ≤ t + ticksMs 5000) then pairOn s p
      else s
    | none => s
  else s

/-- SAFETY_INPUT_SAMPLE (R266): the levels of SIN_A and SIN_B. -/
def execSafetyInputSample (x y : BitVec 8) (s : State) : Host.Outcome State Fault Refusal :=
  .next (done (
    let s := (List.range 8).foldl (fun s i => inputFilter s i (x.getLsbD i) (y.getLsbD i)) s
    if !safActive s then safCheck s
    else
      let w0 := restartActive s 0
      let w1 := restartActive s 1
      let s := (List.range 8).foldl inputStep s
      safCheck (restartPulse w1 (restartPulse w0 s 0) 1)))

/-- DISC_TIMEOUT (R267). -/
def execDiscTimeout (i : Fin 8) (s : State) : Host.Outcome State Fault Refusal :=
  .next (done (match (safInput s i.val).discAt with
    | some t =>
      if safActive s && decide (inState s i.val = 2) && decide (t + ticksMs (cfgDisc s.saf.cfg i.val) ≤ now s) then
        safCheck (raise (finc (modInput (setInState s i.val 3) i.val (fun x => { x with discAt := none }))
          R.SAF_CNT_B F.SAF_CNT_B_DISC_CNT) 538)
      else s
    | none => s))

/-- RESTART_DELAY_END (R263). -/
def execRestartDelayEnd (p : Fin 2) (s : State) : Host.Outcome State Fault Refusal :=
  .next (done (if s.variantAN then s else safShow (pairStep s p.val)))

/-! ### Seals (R268) -/

/-- SEAL_SAMPLE (R268): whether SEAL_A and SEAL_B read open. -/
def execSealSample (x y : Bool) (s : State) : Host.Outcome State Fault Refusal :=
  let s := { s with
    pins := { s.pins with sealA := x, sealB := y },
                    saf := { s.saf with sealSince := if x = y then none else some (s.saf.sealSince.getD (now s)) } }
  .next (done (fsetB (fsetB s R.SAF_STAT F.SAF_STAT_SEAL_A x) R.SAF_STAT F.SAF_STAT_SEAL_B y))

/-- SEAL_DISC (R268): a disagreement has lasted longer than 500 ms. -/
def execSealDisc (s : State) : Host.Outcome State Fault Refusal :=
  .next (done (match s.saf.sealSince with
    | some t => if s.variantAN = false ∧ t + ticksMs 500 < now s then flagRaise s R.SAF_STAT F.SAF_STAT_SEAL_DISC 543 else s
    | none => s))

/-! ### Channel A (R252, R253) -/

/-- Ticks of a frame as the island sees it (log 60). -/
def SafFrame.length (f : SafFrame) : Nat := f.next.getD f.start - f.start

/-- More than `perUs` items per µs on average over the frame. DEDUCED (log 60). -/
def SafFrame.tooMany (f : SafFrame) (n perUs : Nat) : Bool := decide (perUs * f.length < 1250 * n)

/-- The frame is invalid in channel A (log 60). -/
def invalidA (s : State) (f : SafFrame) : Bool :=
  let pers := cfgPers s.saf.cfg
  f.badA || decide (max 1 (fget s R.TT_AGE F.TT_AGE_P_MAX) < pers + 1) || f.tooMany f.pts.length 16 ||
    s.ps.slices.any (fun x => x.row.safety && decide (x.frame = f.no))

/-- The points that channel A counts. -/
def countedA (s : State) (f : SafFrame) : List (Int × Int × Int) :=
  let pers := cfgPers s.saf.cfg
  (f.pts.filter (fun p => decide (pers = 0) || decide (pers + 1 ≤ p.persist) || decide (p.cls = 0))).map (fun p =>
    headXyz s.saf.cfg 0 p.range p.az p.el)

/-! ### Channel B (R254 to R257) -/

/-- The first echo of a shot on channel n: its range (R254). DEDUCED (log 61). -/
def firstEcho (m : SafImage) (b : BShot) (n : Nat) : Option Nat :=
  let min := cfgTotMin m
  let rs := (b.recs.filter (fun r => decide (r.1 = n))).map (·.2)
  let sp : Int := 128 * codeTicks b.code
  let rs := (rs.filter (fun r => decide (min ≤ r.tot)))
  match rs.find? (fun r => rs.any (fun q =>
      decide (r.time < q.time) && decide (((q.time : Int) - r.time - sp).natAbs ≤ 32))) with
  | none => none
  | some r =>
    let t := (r.time : Int) - b.ofs - signed 16 (imgF m (0x4740 + 8 * n) 15 0)
    if t < 0 then none else some (roundDiv (t * 149896229) 40000000).toNat

/-- The angle of channel B: the latest valid sample stamped at or before a time in 1/128 tick, unless it is older than
AGE_B (log 61). -/
def angleB (s : State) (c ref : Nat) : Option Int :=
  match ((decChan s c).hist ++ (decChan s c).past).find? (fun x => !x.invalid && decide (128 * x.stamp ≤ ref)) with
  | some x => if ref ≤ 128 * (x.stamp + ticksUs (cfgAgeB s.saf.cfg)) then some x.value else none
  | none => none

/-- What a row gives channel B on channel n: none where it is not covered, else its position, if any (R255, R256) (log 61). -/
def rowB (s : State) (r : SafRow) (n : Nat) : Option (Option (Nat × Nat × Nat)) :=
  let m := s.saf.cfg
  let bs := s.saf.bshots.filter (fun b => decide (b.row = r.row) && decide (b.frame = r.frame) && b.ok)
  let mine := bs.filter (fun b => b.armed.contains n)
  let hit := cfgHitB m
  let c := b2n (bitOf (cfgBankScn m) (r.emitter / 8))
  match bs.getLast? with
  | none => none
  | some last =>
    match angleB s (cfgChX m c) (128 * last.fire + last.ofs), angleB s (cfgChY m c) (128 * last.fire + last.ofs) with
    | some tx, some ty =>
      if mine.length < hit then none
      else
        let es := (mine.filterMap (fun b => firstEcho m b n)).foldl (fun l x => l.filter (· ≤ x) ++ x :: l.filter (x < ·)) []
        if es.length < hit then some none
        else
          let g := imgW m (0x88 + 4 * c)
          let az := unsigned 16 ((imgF m (0x4540 + 4 * r.emitter) 31 16 : Int) + imgF m (0x4744 + 8 * n) 31 16 +
            roundDiv (signed 16 (bitsOf g 31 16) * tx) 4096)
          let el := unsigned 16 ((imgF m (0x4540 + 4 * r.emitter) 15 0 : Int) + imgF m (0x4744 + 8 * n) 15 0 +
            roundDiv (signed 16 (bitsOf g 15 0) * ty) 4096)
          some (some (es.getD (hit - 1) 0, az, el))
    | _, _ => none

/-- Row channels of a frame (log 61). -/
def rowChans (s : State) (f : SafFrame) : List (SafRow × Nat) :=
  (s.saf.rows.filter (fun r => decide (r.frame = f.no))).flatMap (fun r => (listenChans r.listen).map (fun n => (r, n)))

/-- The frame is invalid in channel B (log 61). -/
def invalidB (s : State) (f : SafFrame) : Bool :=
  f.badB || (rowChans s f).any (fun p => (rowB s p.1 p.2).isNone) || f.tooMany (rowChans s f).length 16 ||
    f.tooMany (s.saf.bshots.filter (fun b => decide (b.frame = f.no))).length 4

/-- The positions of a frame by channel: channel, range, AZ, EL (log 61). -/
def positionsB (s : State) (f : SafFrame) : List (Nat × Nat × Nat × Nat) :=
  (rowChans s f).filterMap (fun p => match rowB s p.1 p.2 with | some (some x) => some (p.2, x) | _ => none)

/-- Channel B's runs after the frame (R257). -/
def updateRuns (s : State) (ps : List (Nat × Nat × Nat × Nat)) : State :=
  let near := ps.foldl (fun (l : List (Nat × Nat)) p =>
    match lookup l p.1 with
    | some r => insertKey (eraseKey l p.1) p.1 (min r p.2.1)
    | none => insertKey l p.1 p.2.1) []
  let dr := 40 * cfgPbDr s.saf.cfg
  let runs := near.map (fun p =>
    (p.1, match lookup s.saf.bPos p.1 with
      | some r => if ((p.2 : Int) - r).natAbs ≤ dr then min 8 (tget 0 s.saf.bRun p.1 + 1) else 1
      | none => 1))
  { s with saf := { s.saf with bRun := runs, bPos := near } }

/-- The positions that count. -/
def countedB (s : State) (ps : List (Nat × Nat × Nat × Nat)) : List (Int × Int × Int) :=
  let pers := cfgPers s.saf.cfg
  (ps.filter (fun p => decide (pers = 0) || decide (pers + 1 ≤ tget 0 s.saf.bRun p.1))).map (fun p =>
    headXyz s.saf.cfg 1 p.2.1 p.2.2.1 p.2.2.2)

/-! ### Occupancy and comparison (R260, R261) -/

/-- Occupancy and run of one field after a frame with or without an intrusion. -/
def occStep (nms : Nat) (intr occ : Bool) (run : Nat) : Bool × Nat :=
  if intr = occ then (occ, 0) else if nms ≤ run + 1 then (intr, 0) else (occ, run + 1)

/-- The comparison of one field (R261). -/
def crossCompare (s : State) (i : Nat) (a b : Bool) : State :=
  let run := if a = b then 0 else tget 0 s.saf.xcRun i + 1
  let s := { s with saf := { s.saf with xcRun := tput 0 s.saf.xcRun i run } }
  let s := fmax s R.SAF_CNT_B F.SAF_CNT_B_XC_MAX run
  if cfgXcLim s.saf.cfg < run then latchFault (fset s R.SAF_FAULT F.SAF_FAULT_XC_FIELD i) F.SAF_FAULT_XCOMP else s

/-- One field at an EVAL. -/
def fieldEval (s : State) (ia ib : Bool) (as bs : List (Int × Int × Int)) (i : Nat) : State :=
  let m := s.saf.cfg
  let a := ia || decide (cfgMinPts m ≤ (as.filter (inField m i)).length)
  let b := ib || bs.any (inField m i)
  let (oa, ra) := occStep (cfgNms m) a (occupied s.saf.occA i) (tget 0 s.saf.runA i)
  let (ob, rb) := occStep (cfgNms m) b (occupied s.saf.occB i) (tget 0 s.saf.runB i)
  let s := { s with saf := { s.saf with
    occA := tput true s.saf.occA i oa, runA := tput 0 s.saf.runA i ra, occB := tput true s.saf.occB i ob, runB := tput 0 s.saf.runB i rb } }
  let s := if i / 4 = s.saf.setNo then
      fset (fset s R.SAF_FIELDS F.SAF_FIELDS_INTR_A (setBitN (fget s R.SAF_FIELDS F.SAF_FIELDS_INTR_A) (i % 4) a))
        R.SAF_FIELDS F.SAF_FIELDS_INTR_B (setBitN (fget s R.SAF_FIELDS F.SAF_FIELDS_INTR_B) (i % 4) b)
    else s
  crossCompare s i a b

/-- Every field starts OCCUPIED (R260). -/
def occupyAll (s : State) : State :=
  { s with saf := { s.saf with occA := [], occB := [], runA := [], runB := [], xcRun := [] } }

/-- The evaluation of a frame. -/
def evalFrame (s : State) (f : SafFrame) : State :=
  let ia := invalidA s f
  let ib := invalidB s f
  let ps := positionsB s f
  let as := countedA s f
  let s := updateRuns s ps
  let bs := countedB s ps
  let s := { s with saf := { s.saf with setNo := if selectedSet s < 16 then selectedSet s else s.saf.setNo } }
  let s := fset (fset s R.SAF_FIELDS F.SAF_FIELDS_INTR_A 0) R.SAF_FIELDS F.SAF_FIELDS_INTR_B 0
  let s := (usedFields s.saf.cfg).foldl (fun s i => fieldEval s ia ib as bs i) s
  let s := if ia then finc (fon s R.SAF_STAT F.SAF_STAT_INVALID_A) R.SAF_CNT_A F.SAF_CNT_A_INVALID_A else s
  let s := if ib then finc (fon s R.SAF_STAT F.SAF_STAT_INVALID_B) R.SAF_CNT_B F.SAF_CNT_B_INVALID_B else s
  let s := if ia || ib then raise s 539 else s
  let s := fset (fsetB (fsetB s R.SAF_EVAL F.SAF_EVAL_VALID_A (!ia)) R.SAF_EVAL F.SAF_EVAL_VALID_B (!ib)) R.SAF_EVAL F.SAF_EVAL_FRAME f.no
  safCheck s

/-- SAFETY_EVAL (R251): the oldest frame whose EVAL has come, 2.8 ms after the start of the next. -/
def execSafetyEval (s : State) : Host.Outcome State Fault Refusal :=
  .next (done (match s.saf.frames with
    | [] => s
    | f :: l => match f.next with
      | none => s
      | some t =>
        if now s < t + ticksUs 2800 then s
        else
          let s := if safActive s then evalFrame s f else s
          { s with saf := { s.saf with
            frames := l, rows := s.saf.rows.filter (fun r => decide (f.no < r.frame)),
            bshots := s.saf.bshots.filter (fun b => decide (f.no < b.frame)) } }))

/-- A frame start reaches the island (R251) (log 59). -/
def safFrameStart (s : State) (no : Nat) : State :=
  let lim := ticksUs (cfgFrameMax s.saf.cfg)
  { s with saf := { s.saf with
    maxAt := now s
    frames := s.saf.frames.map (fun f => if f.next.isSome then f
        else { f with next := some (now s), badA := f.badA || decide (f.start + lim < now s), badB := f.badB || decide (f.start + lim < now s) })
      ++ [⟨no, now s, none, false, false, []⟩] } }

/-- FRAME_MAX_TIMEOUT (R251): FRAME_MAX has elapsed in SCAN without a frame start. The first time the present frame is
the invalid one. DEDUCED (log 59). -/
def execFrameMaxTimeout (s : State) : Host.Outcome State Fault Refusal :=
  .next (done (
    if safActive s && decide (modeOf s = .scan) && decide (s.saf.maxAt + ticksUs (cfgFrameMax s.saf.cfg) < now s) then
      let s := { s with saf := { s.saf with maxAt := s.saf.maxAt + ticksUs (cfgFrameMax s.saf.cfg) } }
      if s.saf.frames.any (fun f => f.next.isNone) then
        { s with saf := { s.saf with frames := s.saf.frames.map (fun f =>
          if f.next.isNone then { f with next := some s.saf.maxAt, badA := true, badB := true } else f) } }
      else
        { s with saf := { s.saf with frames := s.saf.frames ++
          [⟨(rd s R.SHT_FRAME_NO).toNat, s.saf.maxAt, some s.saf.maxAt, true, true, []⟩] } }
    else s))

/-! ### Commit (R269) -/

/-- SAF_COMMIT (R269): COMMIT starts the verification. -/
def safCommit (s : State) : State :=
  if s.variantAN || flag s R.SAF_STAT F.SAF_STAT_CMT_BUSY then s
  else
    fon (fon { s with saf := { s.saf with commitAt := some (now s), commitMode := decide (modeOf s = .standby) } }
      R.SAF_CTRL F.SAF_CTRL_COMMIT) R.SAF_STAT F.SAF_STAT_CMT_BUSY

/-- SAF_COMMIT: COMMIT is RWS, so the write needs both seals open (R10, R268, R269); the -AN ignores it (R281). -/
def execSafCommit (s : State) : Host.Outcome State Fault Refusal :=
  .next (done (if s.variantAN then s else if sealsOpen s then safCommit s else raise s Ev.rwsDiscard))

/-- The image of the staging window. -/
def stagedImage (s : State) : SafImage := s.saf.stage.filter (fun p => decide (p.1 < safImageSize))

/-- Checks 2 to 8 on an image: the first that fails, or 0. At BOOT there is no expected CRC to compare. -/
def safVerify (s : State) (m : SafImage) (sig boot : Bool) : Nat :=
  if safHdrBad m then 2
  else if safBodyBad m then 3
  else if boot = false ∧ (rd s R.SAF_EXP_CRC).toNat ≠ imgW m 0x3C then 4
  else if !sig then 5
  else if safRangeBad m then 6
  else if safPolyBad m then 7
  else if safBankBad s m then 8
  else 0

/-- Both channels take a configuration; the inputs keep the states that their table has given them (R267), and the active set is the one
that they select (R259). -/
def safTake (s : State) (m : SafImage) : State :=
  let s := occupyAll { s with saf := { s.saf with cfg := m, bRun := [], bPos := [] } }
  let n := selectedSet s
  let s := { s with saf := { s.saf with setNo := if n < 16 then n else 0 } }
  let s := foff (fon s R.SAF_STAT F.SAF_STAT_ACTIVE) R.SAF_FAULT F.SAF_FAULT_CFG_LOAD
  let s := wr s R.SAF_ACT_CRC (BitVec.ofNat 32 (imgW m 0x3C))
  let s := fset s R.SAF_ACT F.SAF_ACT_CFG_ID (imgF m 0 15 0)
  let s := fset (fset s R.SAF_ACT F.SAF_ACT_N_MS (cfgNms m)) R.SAF_ACT F.SAF_ACT_PERS (cfgPers m)
  safShow (pairOff (pairOff s 0) 1)

/-- The staging window as bytes. -/
def stageReader (s : State) : Reader := fun o n => imgBytes s.saf.stage o n

/-- SAF_COMMIT_DONE (R269, R438): the signature block stands behind the image in the staging window; `ack` and `flash` are the outcomes of
the checks that no register shows. -/
def execSafCommitDone (purpose : List Byte) (ack flash : Bool) (s : State) : Host.Outcome State Fault Refusal :=
  .next (done (match s.saf.commitAt with
    | none => s
    | some _ =>
      let m := stagedImage s
      let r := stageReader s
      let err := if !s.saf.commitMode then 1
        else match safVerify s m (decide (signedErr s 3 r safImageSize purpose = 0)) false with
          | 0 => if !ack then 9 else if !flash then 10 else 0
          | e => e
      let s := foff (foff { s with saf := { s.saf with commitAt := none } } R.SAF_CTRL F.SAF_CTRL_COMMIT) R.SAF_STAT F.SAF_STAT_CMT_BUSY
      let s := fset s R.SAF_STAT F.SAF_STAT_ERR err
      if err = 0 then raise (safTake (recWrite s 3 (r 0 safImageSize) (blockBytes r safImageSize)) m) 541
      else flagRaise s R.SAF_STAT F.SAF_STAT_CFG_ERR 542))

/-- CFG_LOAD latches (R269), with its event (R282). -/
def cfgLoadLatch (s : State) : State := raise (fon s R.SAF_FAULT F.SAF_FAULT_CFG_LOAD) 537

/-- The image that a payload holds. -/
def imageOf (l : List Byte) : SafImage := l.zipIdx.foldl (fun m p => tput 0#8 m p.2 p.1) []

/-- The island loads its record in BOOT (R269, R442): the payload of the slot in force, whose signature has verified (log 63). -/
def safLoadRecord (s : State) (payload : Option (List Byte)) : State :=
  if s.variantAN then s
  else match payload with
    | some l =>
      if l.length = safImageSize ∧ safVerify s (imageOf l) true true = 0 then safTake s (imageOf l) else cfgLoadLatch s
    | none => cfgLoadLatch s

/-- Entry to SCAN: every field starts OCCUPIED, check 8 is repeated and FRAME_MAX counts from now (R260, R269). -/
def safScanEntry (s : State) : State :=
  let s := occupyAll { s with saf := { s.saf with maxAt := now s, frames := s.saf.frames.filter (fun f => f.next.isSome) } }
  let s := if safActive s && safBankBad s s.saf.cfg then cfgLoadLatch s else s
  safCheck s

end Sys2Proof.Machine
end

