-- ==== Sys2Proof/Machine/ClockBase.lean ====
section
/-! DEFINITION. Holdover and the choice of the reference (R391, R473, R474, R483, R484), and the node identity
(R390). -/

namespace Sys2Proof.Machine

/-- The presence bit of a reference: 0 REFCLK, 1 port U, 2 port D. -/
def refOkFld (r : Nat) : Fld :=
  if r = 0 then F.CLK_STAT_REFCLK_OK else if r = 1 then F.CLK_STAT_FWD_U_OK else F.CLK_STAT_FWD_D_OK

/-- Shows the reference in use in both registers. -/
def refShow (s : State) (v : Nat) : State :=
  fset (fset s R.CLK_STAT F.CLK_STAT_SRC v) R.RING_STAT F.RING_STAT_REF v

/-- Entry to holdover (R474, R484): no clock stops and the timebase counts on. A follower is no longer ALIGNED. -/
def holdover (s : State) : State :=
  if flag s R.CLK_STAT F.CLK_STAT_HOLDOVER then { s with ring := { s.ring with pullIn := false } }
  else
    let s := refShow (fon s R.CLK_STAT F.CLK_STAT_HOLDOVER) 3
    let s := foff s R.RING_STAT F.RING_STAT_ALIGNED
    let s := { s with ring := { s.ring with pullIn := false, good := 0, n := 0, thetaSum := 0, delaySum := 0 } }
    raise (finc s R.CLK_CNT F.CLK_CNT_HOLD_CNT) 364

/-- Reference r is absent (R474, R483). -/
def refGone (s : State) (r : Nat) : State :=
  let s := foff s R.CLK_STAT (refOkFld r)
  let s := if r = 0 then wr s R.CLK_OFS 0x80000000#32 else s
  if s.ring.refSel.val = r then holdover (fon s R.CLK_STAT F.CLK_STAT_REF_LOST) else s

/-- Standalone (R388): RING_EN = 0. -/
def standalone (s : State) : Bool := !flag s R.RING_CFG F.RING_CFG_RING_EN

/-- RSTATE of RING_STAT. -/
def rstate (s : State) : Nat := fget s R.RING_STAT F.RING_STAT_RSTATE

/-- NODE_ID and NODE_VALID (R390), shown in RING_STAT and SHT_NODE. A follower's ring ID is the one of the last
ENUM, which NODE_ID holds. -/
def nodeShow (s : State) : State :=
  let alone := standalone s
  let own := alone || flag s R.RING_STAT F.RING_STAT_MASTER
  let id := if own then fget s R.RING_CFG F.RING_CFG_RING_ID else fget s R.RING_STAT F.RING_STAT_NODE_ID / 32
  let pos := if own then 0 else s.ring.pos.getD (fget s R.RING_STAT F.RING_STAT_NODE_ID % 32)
  let valid := alone || (s.ring.pos.isSome && (decide (rstate s = 2) || decide (rstate s = 3)))
  let s := fset s R.RING_STAT F.RING_STAT_NODE_ID (32 * id + pos)
  let s := fset s R.SHT_NODE F.SHT_NODE_NODE_ID (32 * id + pos)
  fsetB s R.RING_STAT F.RING_STAT_NODE_VALID valid

/-- A change of the reference is allowed: not in SCAN (R391, R395). -/
def refMayChange (s : State) : Bool := decide (modeOf s ≠ .scan)

/-- The modes in which a follower first takes port U (R391). -/
def refFirstMay (s : State) : Bool :=
  match modeOf s with | .boot | .standby | .calibrate => true | _ => false

/-- The reference becomes r: the PLL pulls in to it (R391, R395, R474, R484). -/
def clkTake (s : State) (r : Fin 3) : State :=
  let s := { s with ring := { s.ring with refSel := r, pullIn := flag s R.CLK_STAT F.CLK_STAT_HOLDOVER,
                                          n := 0, thetaSum := 0, delaySum := 0, good := 0, t1 := none } }
  let s := if flag s R.CLK_STAT F.CLK_STAT_HOLDOVER then s else refShow s r.val
  raise s 363

/-- R391: a follower whose ring has been UP takes the forwarded clock of port U at the first allowed moment. -/
def refFirst (s : State) : State :=
  if ringFollower s && s.ring.everUp && decide (s.ring.refSel = 0) && refFirstMay s &&
     flag s R.CLK_STAT F.CLK_STAT_FWD_U_OK then clkTake s 1 else s

end Sys2Proof.Machine
end

