-- ==== Sys2Proof/Machine/RingBase.lean ====
section
/-! DEFINITION. The ring seen from a port: breaks, WRAP and UNWRAP notices, RING_MAP (R389, R394, R396). -/

namespace Sys2Proof.Machine

/-- RSTATE takes a value; outside UP and WRAPPED no position takes part, and SIZE and RING_MAP read 0 (R402) (log 88). -/
def setRstate (s : State) (v : Nat) : State :=
  let s := fset s R.RING_STAT F.RING_STAT_RSTATE v
  nodeShow (if v = 2 ∨ v = 3 then s else wr (fset s R.RING_STAT F.RING_STAT_SIZE 0) R.RING_MAP 0)

/-- Devices of the ring. -/
def ringSize (s : State) : Nat := fget s R.RING_STAT F.RING_STAT_SIZE

/-- The VC0 frames that wait at a lost cascade port are turned back out through the other one (R394, WRAP). -/
def turnBack (s : State) (p : Nat) : State :=
  let fs := (vcOf s p 0).out
  modVc (modVc s p 0 (fun x => { x with out := [] })) (3 - p) 0 (fun x => { x with out := x.out ++ fs })

/-- The link at port p of position k, as the pair of positions along the D direction (log 88). -/
def linkAt (s : State) (p k : Nat) : Nat × Nat :=
  let n := max 1 (ringSize s)
  if p = 2 then (k, (k + 1) % n) else ((k + n - 1) % n, k)

/-- Positions that position 0 reaches along D over unbroken links (log 88). -/
def reachD (s : State) : Nat → Nat → List Nat
  | 0, _ => []
  | fuel + 1, k =>
    let l := linkAt s 2 k
    if s.ring.breaks.contains l ∨ l.2 = 0 then [k] else k :: reachD s fuel l.2

/-- Positions that position 0 reaches along U over unbroken links (log 88). -/
def reachU (s : State) : Nat → Nat → List Nat
  | 0, _ => []
  | fuel + 1, k =>
    let l := linkAt s 1 k
    if s.ring.breaks.contains l ∨ l.1 = 0 then [k] else k :: reachU s fuel l.1

/-- RING_MAP on the master: the positions that take part (R402). DEDUCED (log 88). -/
def mapShow (s : State) : State :=
  if flag s R.RING_STAT F.RING_STAT_MASTER then
    let ps := reachD s 32 0 ++ reachU s 32 0
    wr s R.RING_MAP (BitVec.ofNat 32 (((List.range 32).filter (fun p => ps.contains p)).foldl (fun v p => v + 2 ^ p) 0))
  else s

/-- A link is known to be broken: WRAPPED (R389) (log 88). -/
def breakAdd (s : State) (l : Nat × Nat) : State :=
  if s.ring.breaks.contains l then s
  else
    let s := mapShow { s with ring := { s.ring with breaks := s.ring.breaks ++ [l] } }
    if rstate s = 2 then raise (finc (setRstate s 3) R.RING_CNT F.RING_CNT_WRAPS) 359 else s

/-- A broken link is whole again: UP once no break is left (R389) (log 88). -/
def breakDel (s : State) (l : Nat × Nat) : State :=
  if s.ring.breaks.contains l then
    let s := mapShow { s with ring := { s.ring with breaks := s.ring.breaks.filter (· ≠ l) } }
    if rstate s = 3 ∧ s.ring.breaks = [] then raise (setRstate s 2) 360 else s
  else s

/-- A cascade port of a ranked device leaves ACTIVE: internal bypass, WRAP notice (R389, R394). -/
def ringPortDown (s : State) (p : Nat) : State :=
  match s.ring.pos with
  | some k =>
    if p ≠ 0 ∧ standalone s = false ∧ (rstate s = 2 ∨ rstate s = 3) then
      let l := linkAt s p k
      castRing (breakAdd (if laneUp s (3 - p) then turnBack s p else s) l) 2 l.1 l.2 0 0 0
    else s
  | none => s

/-- A cascade port of a ranked device is ACTIVE again: UNWRAP notice (R389). -/
def ringPortUp (s : State) (p : Nat) : State :=
  match s.ring.pos with
  | some k =>
    let l := linkAt s p k
    if p ≠ 0 ∧ standalone s = false ∧ s.ring.breaks.contains l then
      castRing (breakDel s l) 3 l.1 l.2 0 0 0
    else s
  | none => s

end Sys2Proof.Machine
end

