-- ==== Sys2Proof/Machine/Lanes.lean ====
section
/-! DEFINITION. Lane ports (R374 to R386): port states, training, low power, PRBS, taps, framing, replay. Port p is
0 H, 1 U, 2 D. -/

namespace Sys2Proof.Machine

/-! ### Port states (R378) -/

abbrev lnDisabled := 0
abbrev lnDetect := 1
abbrev lnClock := 2
abbrev lnLock := 3
abbrev lnDeskew := 4
abbrev lnParam := 5
abbrev lnActive := 6
abbrev lnStandby := 7
abbrev lnDeep := 8
abbrev lnPrbs := 9

def lnState (s : State) (p : Nat) : Nat := fget s (R.LN_STAT p) F.LN_STAT_STATE

/-- Data lanes of a port. -/
def laneCount (p : Nat) : Nat := if p = 0 then 8 else 4

/-- Raises event k of port p (R403, R425). -/
def lnEv (s : State) (p k : Nat) : State := raise s (320 + 12 * p + k)

/-- Per-lane bits of a port that a change of state resets. DEDUCED (log 81). -/
def lnLanes (s : State) (p : Nat) (f : State → Nat → State) : State := (List.range (laneCount p)).foldl f s

/-- STATE takes a value. LANES shows the lanes in use while frames can pass; the lanes hold word lock from LOCK
to STANDBY. Entry to DETECT makes a check at once, and PARAM is skipped only on the way straight out of DEEP (R378) (log 81). -/
def lnSet (s : State) (p st : Nat) : State :=
  let s := fset s (R.LN_STAT p) F.LN_STAT_STATE st
  let s := fset s (R.LN_STAT p) F.LN_STAT_LANES (if st = lnActive ∨ st = lnStandby then laneCount p else 0)
  let s := if lnDeskew ≤ st ∧ st ≤ lnStandby then s
    else lnLanes s p (fun s l => foff s (R.LN_RX p l) F.LN_RX_LOCKED)
  let s := if st = lnPrbs then s else lnLanes s p (fun s l => foff s (R.LN_PRBS p l) F.LN_PRBS_PLOCK)
  modLane s p (fun x => { x with
    since := now s, check := if st = lnDetect then now s else x.check, lp := none,
    deep := x.deep && decide (st ≠ lnDisabled) && decide (st ≠ lnDetect) })

/-- A port that carried frames stops: its credits lapse, and a cascade port in a ring applies the bypass (log 78). -/
def lnLeave (s : State) (p st : Nat) : State :=
  let up := laneUp s p
  let s := lnSet s p st
  let s := modLane s p (fun x => { x with vcs := x.vcs.map (fun v => (v.1, { v.2 with credit := 0, owe := 0, ackDue := false })) })
  if up then ringPortDown s p else s

/-- The fall to DETECT with DOWN (R378) (log 81). -/
def lnDown (s : State) (p : Nat) : State :=
  let s := finc (fon s (R.LN_STAT p) F.LN_STAT_DOWN) (R.LN_CNT_B p) F.LN_CNT_B_DOWN_CNT
  lnEv (lnLeave s p lnDetect) p 1

/-- Receive buffer of a virtual channel in 64 B units (R383). -/
def vcUnits (v : Nat) : Nat := if v = 0 then 128 else if v = 2 then 1024 else 512

/-- Virtual channels of a port. -/
def portVcs (p : Nat) : List Nat := if p = 0 then [0, 1, 2] else [0, 2, 3]

/-! ### Frames (R382, R386) -/

/-- 64 B units of a frame. DEDUCED (log 78). -/
def frameUnits (f : LaneFrame) : Nat := ceilDiv (16 + f.body.length) 64

/-- The header's acknowledgement and the trailer's grant: the first virtual channel that owes one. -/
def stampFrame (s : State) (p : Nat) (f : LaneFrame) : State × LaneFrame :=
  let a := ((portVcs p).find? (fun v => (vcOf s p v).ackDue)).getD 0
  let g := ((portVcs p).find? (fun v => decide (0 < (vcOf s p v).owe))).getD 0
  let n := min (vcOf s p g).owe 0xFFFF
  let f := { f with ackVc := Fin.ofNat 4 a, ack := BitVec.ofNat 12 (vcOf s p a).rx, grantVc := Fin.ofNat 4 g, grant := BitVec.ofNat 16 n }
  let s := modVc s p a (fun x => { x with ackDue := false })
  let s := modVc s p g (fun x => { x with owe := x.owe - n })
  (modLane s p (fun x => { x with lastAck := now s }), f)

/-- The 56-bit header of a frame (R382). -/
def frameHead (f : LaneFrame) : Nat :=
  b2n f.nak * 2 ^ 52 + f.ackVc.val * 2 ^ 50 + f.ack.toNat * 2 ^ 38 + f.queue.toNat * 2 ^ 30 + f.body.length / 8 % 1024 * 2 ^ 20 +
    f.seq.toNat * 2 ^ 8 + b2n f.last * 2 ^ 6 + f.type.val * 2 ^ 2 + f.vc.val

/-- The bytes of a frame: the SOF block with the header in bytes 1 to 7, the payload, and the trailer with the CRC-32C over both and the
grant (R374, R382). DEDUCED (log 79). -/
def frameWire (f : LaneFrame) : List Byte :=
  let h := leBytes 7 (frameHead f)
  0x2D#8 :: h ++ f.body ++ leBytes 4 (crc32c (h ++ f.body)).toNat ++ leBytes 2 f.grant.toNat ++ [BitVec.ofNat 8 f.grantVc.val, 0]

/-- A frame leaves port p as it stands. -/
def laneTx (p : Nat) (f : LaneFrame) : TxItem := .lane p f (frameWire f)

/-- A frame leaves the port. -/
def sendFrame (s : State) (p : Nat) (f : LaneFrame) : State :=
  let r := stampFrame s p f
  send r.1 (laneTx p r.2)

/-- An unsequenced VC0 frame (R384). -/
def sendPlain (s : State) (p type : Nat) (body : List Byte) : State := sendFrame s p (rawFrame 0 type 0 false body)

/-- Frames of VC0 and VC1 in the port's retry buffer. -/
def retryHeld (s : State) (p : Nat) : Nat := (vcOf s p 0).unacked.length + (vcOf s p 1).unacked.length

/-- Sends a new sequenced frame if credit suffices. -/
def sendNew (s : State) (p v : Nat) (f : LaneFrame) : State :=
  let x := vcOf s p v
  let f := { f with seq := BitVec.ofNat 12 x.next }
  let s := modVc s p v (fun x => { x with
    next := (x.next + 1) % 4096, credit := x.credit - frameUnits f,
    unacked := if v = 3 then x.unacked else x.unacked ++ [if v = 2 then { f with body := [] } else f],
    rewound := x.rewound.drop 1,
    sentAt := if x.unacked = [] then now s else x.sentAt })
  sendFrame s p f

/-- Credit for a frame (log 78). -/
def hasCredit (s : State) (p v : Nat) (f : LaneFrame) : Bool := decide (frameUnits f ≤ (vcOf s p v).credit)

/-- The unit that the sink reads next and the offset of RD in it. -/
def unitAt (rd : Nat) : Nat → List SlqUnit → Option (SlqUnit × Nat)
  | _, [] => none
  | start, u :: l =>
    if !u.closed then none
    else if rd < start + u.bytes.length then some (u, rd - start)
    else unitAt rd (start + u.bytes.length) l

/-- What one frame carries next of a queue: the unit, the offset and the number of its bytes, at most 520 words, and whether
they end it (log 80). -/
def slqHead (x : SlqQueue) : Option (SlqUnit × Nat × Nat × Bool) :=
  (unitAt x.rd x.start x.units).map (fun p =>
    let rest := p.1.bytes.length - p.2
    (p.1, p.2, min 4160 rest, decide (rest ≤ 4160)))

/-- The port that a queue's SINK names (R370). -/
def sinkPort (s : State) (q : Nat) : Nat :=
  match fget s (R.SLQ_CFG q) F.SLQ_CFG_SINK with | 1 => 1 | 2 => 2 | _ => 0

/-- A VC2 frame of a queue: MARK unless its start is a held mark, then READ of what its head buffer and segments hold
(R356, R386); frames that a rewind sends again go in their first order; a read that meets an error forces a reset of the queue (R357).
DEDUCED (log 80). -/
def sendStream (s : State) (p q : Nat) (ue : Bool) : State :=
  let x := slqQueue s q
  match slqHead x with
  | none => s
  | some (u, o, n, last) =>
    if flag s (R.SLQ_CFG q) F.SLQ_CFG_EN && decide (sinkPort s q = p) && decide (x.marks.length < 32 ∨ x.rd ∈ x.marks) &&
       (vcOf s p 2).rewound.head?.all (fun g => decide (g.queue.toNat = q)) then
      let pad := (8 - n % 8) % 8
      let a := x.rd - o
      let f := rawFrame 2 0 q last ((List.range n).map (fun i => sinkByte s x a u (o + i)) ++ List.replicate pad 0)
      if !hasCredit s p 2 f then s
      else if ue then slqReset s q 2
      else match sinkBad s x a u o n with
      | some a => slqReset (if poisoned s a 1 then ueRecord s a else s) q 2
      | none =>
        let s := if x.rd ∈ x.marks then s else slqMark s q
        sendNew (slqRead s q n) p 2 f
    else s

/-- The cascade port of the shorter way round to a position, D when both are equally long (R398) (log 85). -/
def exportPort (s : State) (pos : Nat) : Nat :=
  let n := max 1 (ringSize s)
  let k := s.ring.pos.getD 0
  if (pos + n - k) % n ≤ (k + n - pos) % n then 2 else 1

/-- An export that cannot pass a break is dropped and counted (R394). -/
def exportDrop (s : State) : State := raise (finc s R.RING_CNT F.RING_CNT_EXPORT_DROP) 366

/-- The next VC3 frame of a port: one that it forwards, else one of the device's own exports (R398) (log 85). -/
def nextExport (s : State) (p : Nat) : Option (LaneFrame × State) :=
  match (vcOf s p 3).out with
  | f :: l => some (f, modVc s p 3 (fun x => { x with out := l }))
  | [] =>
    match s.pool.exports.find? (fun e => decide (exportPort s e.1 = p)) with
    | some e => some (rawFrame 3 0 e.1 false e.2, { s with pool := { s.pool with exports := s.pool.exports.erase e } })
    | none => none

/-- A VC3 frame leaves in ACTIVE, or is dropped while its port is lost; in STANDBY it waits. -/
def sendExport (s : State) (p : Nat) : State :=
  match nextExport s p with
  | none => s
  | some (f, s') =>
    if laneUp s p then (if hasCredit s p 3 f && decide (lnState s p = lnActive) then sendNew s' p 3 f else s)
    else exportDrop s'

/-- A VC0 or VC1 frame: first the frames of the retry buffer that a replay resends, then a waiting one. -/
def sendBuffered (s : State) (p v : Nat) : State :=
  let x := vcOf s p v
  if 0 < x.resend then
    match x.unacked[x.unacked.length - x.resend]? with
    | some f => sendFrame (modVc s p v (fun x => { x with resend := x.resend - 1 })) p f
    | none => modVc s p v (fun x => { x with resend := 0 })
  else match x.out with
    | [] => s
    | f :: l =>
      if hasCredit s p v f && decide (retryHeld s p < 64) then sendNew (modVc s p v (fun x => { x with out := l })) p v f
      else s

/-- LANE_FRAME_SEND (R382, R383, R386). -/
def execLaneFrameSend (p : Fin 3) (vc : Fin 4) (q : Fin 256) (ue : Bool) (s : State) : Host.Outcome State Fault Refusal :=
  .next (done (
    if !(portVcs p).contains vc.val then s
    else if vc.val = 3 then sendExport s p
    else if lnState s p ≠ lnActive then s
    else if vc.val = 2 then sendStream s p q ue
    else sendBuffered s p vc))

/-! ### Acknowledgement and replay (R385, R386) -/

/-- A frame of queue q that a rewind would send again has been delivered: the queue passes it. -/
def streamSkip (s : State) (q : Nat) : State :=
  match slqHead (slqQueue s q) with
  | none => s
  | some (_, _, n, _) =>
    let s := if (slqQueue s q).rd ∈ (slqQueue s q).marks then s else slqMark s q
    slqRelease (slqRead s q n) q 1

/-- Frames of a virtual channel up to SEQ are acknowledged, those that a rewind sends again too; each of VC2 releases a mark of its queue
(log 79). -/
def ackApply (s : State) (p v seq : Nat) : State :=
  let x := vcOf s p v
  match (x.unacked ++ x.rewound).findIdx? (fun f => f.seq.toNat = seq) with
  | none => s
  | some i =>
    let gone := x.unacked.take (i + 1)
    let passed := x.rewound.take (i + 1 - x.unacked.length)
    let s := modVc s p v (fun x => { x with
      acked := seq, unacked := x.unacked.drop (i + 1), rewound := x.rewound.drop passed.length,
      next := (x.next + passed.length) % 4096, resend := min x.resend (x.unacked.length - (i + 1)), replays := 0, sentAt := now s })
    if v = 2 then passed.foldl (fun s f => streamSkip s f.queue.toNat) (gone.foldl (fun s f => slqRelease s f.queue.toNat 1) s) else s

/-- Credit granted by the partner (log 78). -/
def grantApply (s : State) (p v n : Nat) : State := modVc s p v (fun x => { x with credit := x.credit + n })

/-- Each queue with unacknowledged frames on the port goes back to its oldest one; numbering resumes after the
last acknowledged SEQ. -/
def rewindStreams (s : State) (p : Nat) : State :=
  let qs := ((vcOf s p 2).unacked.map (fun f => f.queue.toNat)).eraseDups
  let s := qs.foldl (fun s q => slqRewind s q 0) s
  modVc s p 2 (fun x => { x with unacked := [], rewound := x.unacked ++ x.rewound, next := (x.acked + 1) % 4096 })

/-- A replay (R386): REPLAY_CNT, the event, VC0 and VC1 resent, the queues rewound (log 78) (log 79). -/
def replay (s : State) (p : Nat) : State :=
  let s := finc s (R.LN_CNT_A p) F.LN_CNT_A_REPLAY_CNT
  let s := [0, 1, 2].foldl (fun s v => modVc s p v (fun x => { x with
    resend := x.unacked.length, replays := if x.unacked = [] then 0 else x.replays + 1, sentAt := now s })) s
  lnEv (rewindStreams s p) p 4

/-- REPLAY_MAX replays of one frame without progress: REPLAY_FAIL, the port retrains (R378). -/
def replayFail (s : State) (p : Nat) : State :=
  let s := lnEv (fon s (R.LN_STAT p) F.LN_STAT_REPLAY_FAIL) p 5
  lnEv (lnLeave s p lnDetect) p 1

/-- ACK_RX (R386). -/
def execAckRx (p : Fin 3) (vc : Fin 4) (seq : BitVec 12) (gvc : Fin 4) (grant : BitVec 16) (s : State) :
    Host.Outcome State Fault Refusal :=
  .next (done (if laneUp s p then grantApply (ackApply s p vc seq.toNat) p gvc grant.toNat else s))

/-- A NAK or a timeout: a replay, or a retrain after REPLAY_MAX of them. -/
def replayOrFail (s : State) (p v : Nat) : State :=
  if max 1 (fget s (R.LN_CFG p) F.LN_CFG_REPLAY_MAX) ≤ (vcOf s p v).replays then replayFail s p else replay s p

/-- NAK_RX (R386) (log 79). -/
def execNakRx (p : Fin 3) (vc : Fin 4) (seq : BitVec 12) (gvc : Fin 4) (grant : BitVec 16) (s : State) :
    Host.Outcome State Fault Refusal :=
  .next (done (
    if laneUp s p then replayOrFail (grantApply (ackApply s p vc seq.toNat) p gvc grant.toNat) p vc else s))

/-- REPLAY_TIMEOUT (R378, R386) (log 79). -/
def execReplayTimeout (p : Fin 3) (vc : Fin 4) (s : State) : Host.Outcome State Fault Refusal :=
  let x := vcOf s p vc
  .next (done (
    if laneUp s p && decide (vc.val < 3 ∧ x.unacked ≠ []) &&
       decide (x.sentAt + ticksUs (max 1 (fget s (R.LN_CFG p) F.LN_CFG_REPLAY_TO)) ≤ now s) then replayOrFail s p vc
    else s))

/-- ACK_SEND (R382): an acknowledgement or a grant is due and none has left for ACK_DLY. DEDUCED (log 79). -/
def execAckSend (p : Fin 3) (s : State) : Host.Outcome State Fault Refusal :=
  let due := (portVcs p).any (fun v => (vcOf s p v).ackDue || decide (0 < (vcOf s p v).owe))
  .next (done (
    if decide (lnState s p = lnActive) && due &&
       decide ((lanePort s p).lastAck + 125 * max 1 (fget s (R.LN_CFG p) F.LN_CFG_ACK_DLY) ≤ now s) then sendPlain s p 0 []
    else s))

/-- A frame that is not accepted draws a NAK with the last SEQ accepted (R385). -/
def sendNak (s : State) (p v : Nat) : State :=
  let f := rawFrame 0 0 0 false []
  send s (laneTx p { f with nak := true, ackVc := Fin.ofNat 4 v, ack := BitVec.ofNat 12 (vcOf s p v).rx })

/-- A frame failed its CRC. -/
def crcFail (s : State) (p : Nat) : State :=
  lnEv (finc (fon s (R.LN_STAT p) F.LN_STAT_CRC_ERR) (R.LN_CNT_A p) F.LN_CNT_A_CRC_CNT) p 3

/-- A TYPE of VC0 that is unsequenced: ACK, PARAM, LP, TIME (R384). -/
def unsequenced (f : LaneFrame) : Bool :=
  decide (f.vc.val = 0) && (decide (f.type.val = 0) || decide (f.type.val = 1) || decide (f.type.val = 2) || decide (f.type.val = 4))

/-- The device passes what port p receives on through its other cascade port: in a ring it holds no position (R394, PASS). -/
def passing (s : State) (p : Nat) : Bool :=
  decide (p ≠ 0) && !standalone s && s.pins.bypHold && s.ring.pos.isNone

/-- An ENUM broadcast, which an unranked device takes. -/
def isEnum (f : LaneFrame) : Bool := decide (f.vc.val = 0) && decide (f.type.val = 3) && decide ((f.body.getD 0 0).toNat % 16 = 0)

/-- LANE_FRAME_RX (R383 to R385): acceptance of a VC0, VC1 or VC2 frame. The acceptance of a VC3 frame belongs to
EXPORT_RX; credit for an RD returns at HOST_READ and for VC2 at the append. A device in PASS sends the frame on (R394) (log 85) (log 86). -/
def execLaneFrameRx (p : Fin 3) (f : LaneFrame) (crcOk : Bool) (s : State) : Host.Outcome State Fault Refusal :=
  let v := f.vc.val
  .next (done (
    if passing s p && !isEnum f then send s (.pass (3 - p.val) f)
    else if !laneUp s p || decide (v = 3) || !(portVcs p).contains v then s
    else if !crcOk then (let s := crcFail s p; if unsequenced f then s else sendNak s p v)
    else
      let take := fun (s : State) => grantApply (ackApply s p f.ackVc f.ack.toNat) p f.grantVc f.grant.toNat
      if unsequenced f then take s
      else if f.seq.toNat ≠ ((vcOf s p v).rx + 1) % 4096 then sendNak s p v
      else
        let back := if v = 2 ∨ (v = 1 ∧ f.type.val = 2) then 0 else frameUnits f
        take (modVc s p v (fun x => { x with rx := f.seq.toNat, ackDue := true, owe := x.owe + back }))))

/-! ### Training (R378, R379, R384) -/

/-- LANE_ENABLE (R378). -/
def execLaneEnable (p : Fin 3) (s : State) : Host.Outcome State Fault Refusal :=
  let s := fon s (R.LN_CTRL p) F.LN_CTRL_EN
  .next (done (
    if lnState s p = lnDisabled then
      modLane (lnSet s p lnDetect) p (fun x => { x with
        missed := false, vcs := x.vcs.map (fun v => (v.1, { v.2 with rx := 0xFFF, ackDue := false })) })
    else s))

/-- LANE_DISABLE (R378). -/
def execLaneDisable (p : Fin 3) (s : State) : Host.Outcome State Fault Refusal :=
  .next (done (lnLeave (foff s (R.LN_CTRL p) F.LN_CTRL_EN) p lnDisabled))

/-- The forwarded clock of a cascade port is present (R483). -/
def fwdClock (s : State) (p : Nat) (present : Bool) : State :=
  if p = 0 then s else if present then fon s R.CLK_STAT (refOkFld p) else refGone s p

/-- DETECT_CHECK (R378). -/
def execDetectCheck (p : Fin 3) (present : Bool) (s : State) : Host.Outcome State Fault Refusal :=
  .next (done (
    if lnState s p = lnDetect ∧ (lanePort s p).check ≤ now s then
      let s := fwdClock s p present
      if present then lnSet s p lnClock
      else
        let first := !(lanePort s p).missed
        let s := modLane s p (fun x => { x with check := now s + ticksMs 100, missed := true })
        if first then lnEv (fon s (R.LN_STAT p) F.LN_STAT_ABSENT) p 0 else s
    else s))

/-- TRACKERS_SETTLED (R375, R378): the phase of each lane. -/
def execTrackersSettled (p : Fin 3) (phases : List Byte) (s : State) : Host.Outcome State Fault Refusal :=
  .next (done (
    if lnState s p = lnClock then
      lnSet (lnLanes s p (fun s l => fset (foff s (R.LN_RX p l) F.LN_RX_FROZEN) (R.LN_RX p l) F.LN_RX_PHASE
        (phases.getD l 0).toNat)) p lnLock
    else s))

/-- WORD_LOCK (R378): every lane shows 64 valid sync headers; the slips of each. -/
def execWordLock (p : Fin 3) (slips : List Byte) (s : State) : Host.Outcome State Fault Refusal :=
  .next (done (
    if lnState s p = lnLock then
      let s := lnSet s p lnDeskew
      lnLanes s p (fun s l => fset (fon s (R.LN_RX p l) F.LN_RX_LOCKED) (R.LN_RX p l) F.LN_RX_SLIPS (slips.getD l 0).toNat)
    else s))

/-- The PARAM payload (R384). DEDUCED (log 82). -/
def paramBytes (s : State) (p : Nat) : List Byte :=
  let w0 := p + laneCount p * 2 ^ 4 + b2n (lanePort s p).seen * 2 ^ 8
    + b2n (flag s R.RING_CFG F.RING_CFG_RING_EN && flag s R.RING_STAT F.RING_STAT_MASTER) * 2 ^ 9
    + fget s R.RING_STAT F.RING_STAT_NODE_ID * 2 ^ 16
  let w1 := (List.range 4).foldl (fun a v => a + (vcOf s p v).rx * 2 ^ (12 * v)) 0
  leBytes 8 w0 ++ leBytes 8 w1

/-- A PARAM frame is sent; the next one 10 µs later (log 82). -/
def paramSend (s : State) (p : Nat) : State :=
  modLane (sendPlain s p 1 (paramBytes s p)) p (fun x => { x with paramAt := now s + ticksUs 10 })

/-- Units of the VC1 receive buffer that a held frame occupies. -/
def heldUnits : HeldReq → Nat
  | .read .. => 1
  | .write _ _ _ d => ceilDiv (24 + d.length) 64
  | .response .. => 1

/-- The port is ACTIVE: credits are advertised (R378) (log 78). -/
def lnUp (s : State) (p : Nat) : State :=
  let s := lnSet s p lnActive
  let s := modLane s p (fun x => { x with missed := false, deep := false, lastAck := now s })
  let held := ((lanePort s p).held.map frameUnits).sum
  let wait := (s.host.held.map heldUnits).sum
  let s := (portVcs p).foldl (fun s v => modVc s p v (fun x => { x with
    owe := vcUnits v - (if v = 2 then held else if v = 1 then wait else 0), sentAt := now s })) s
  ringPortUp (lnEv s p 2) p

/-- DESKEW_DONE (R378): PARAM, which a port that leaves DEEP skips. -/
def execDeskewDone (p : Fin 3) (s : State) : Host.Outcome State Fault Refusal :=
  .next (done (
    if lnState s p = lnDeskew then
      if (lanePort s p).deep then lnUp s p
      else paramSend (modLane (lnSet s p lnParam) p (fun x => { x with seen := false })) p
    else s))

/-- PARAM_SEND (R378): every 10 µs in PARAM. -/
def execParamSend (p : Fin 3) (s : State) : Host.Outcome State Fault Refusal :=
  .next (done (if lnState s p = lnParam ∧ (lanePort s p).paramAt ≤ now s then paramSend s p else s))

/-- Pairings that R378 calls incompatible (log 82). -/
def paramBad (p kind lanes : Nat) : Bool :=
  (decide (p ≠ 0) && decide (kind = p)) || (decide (p = 0) && (decide (kind = 1) || decide (kind = 2))) ||
  (decide (p ≠ 0) && decide (kind = 0)) || decide (lanes ≠ laneCount p)

/-- Renumbers frames from a SEQ on (log 82). -/
def renumber : Nat → List LaneFrame → List LaneFrame
  | _, [] => []
  | n, f :: l => { f with seq := BitVec.ofNat 12 n } :: renumber ((n + 1) % 4096) l

/-- A virtual channel resumes with the frame after the SEQ that the partner has delivered (R386). -/
def resumeVc (s : State) (p v delivered : Nat) : State :=
  let s := ackApply s p v delivered
  if v = 2 then rewindStreams (modVc s p 2 (fun x => { x with acked := delivered })) p
  else modVc s p v (fun x => { x with
    acked := delivered, unacked := renumber ((delivered + 1) % 4096) x.unacked, resend := x.unacked.length,
    next := (delivered + 1 + x.unacked.length) % 4096, replays := 0 })

/-- PARAM_RX (R378, R384, R386) (log 82). -/
def execParamRx (p : Fin 3) (w0 w1 : BitVec 64) (s : State) : Host.Outcome State Fault Refusal :=
  let w := w0.toNat
  .next (done (
    if lnState s p = lnParam then
      if paramBad p (w % 4) (bitsOf w 7 4) then
        lnEv (lnLeave (fon s (R.LN_STAT p) F.LN_STAT_PARAM_ERR) p lnDisabled) p 10
      else
        let s := modLane s p (fun x => { x with seen := true, partner := some (w % 4, bitsOf w 31 16, bitOf w 9) })
        if bitOf w 8 then
          let s := paramSend s p
          lnUp ((portVcs p).foldl (fun s v => resumeVc s p v (bitsOf w1.toNat (12 * v + 11) (12 * v))) s) p
        else s
    else s))

/-- Longest stay in a training state (R378). -/
def trainLimit (st : Nat) : Nat :=
  ticksMs (if st = lnLock then 2 else if st = lnParam then 10 else 1)

/-- TRAINING_TIMEOUT (R378). -/
def execTrainingTimeout (p : Fin 3) (s : State) : Host.Outcome State Fault Refusal :=
  let st := lnState s p
  .next (done (
    if lnClock ≤ st ∧ st ≤ lnParam ∧ (lanePort s p).since + trainLimit st ≤ now s then
      lnLeave (finc (fon s (R.LN_STAT p) F.LN_STAT_TRAIN_TO) (R.LN_CNT_B p) F.LN_CNT_B_RETRAINS) p lnDetect
    else s))

/-- PARTNER_CLOCK_LOST (R378, R394): absent for 2 µs. -/
def execPartnerClockLost (p : Fin 3) (s : State) : Host.Outcome State Fault Refusal :=
  let s := fwdClock s p false
  let st := lnState s p
  .next (done (if lnClock ≤ st ∧ st ≤ lnStandby then lnDown s p else s))

/-- SYNC_HEADER_ERRORS (R378): not checked while the data lanes are idle. -/
def execSyncHeaderErrors (p : Fin 3) (s : State) : Host.Outcome State Fault Refusal :=
  let st := lnState s p
  .next (done (if lnClock ≤ st ∧ st ≤ lnActive then lnDown s p else s))

/-- LANE_REINIT (R378): rung 2; DISABLED, then DETECT with EN set. -/
def execLaneReinit (p : Fin 3) (s : State) : Host.Outcome State Fault Refusal :=
  let s := fon (lnLeave s p lnDisabled) (R.LN_CTRL p) F.LN_CTRL_EN
  let s := modLane (lnSet s p lnDetect) p (fun x => { x with missed := false })
  .next (done (reinitOn s (0x50 + p.val)))

/-! ### Low power (R380, R384) -/

/-- Every frame of both directions is acknowledged and nothing waits. -/
def lnIdle (s : State) (p : Nat) : Bool :=
  (portVcs p).all (fun v =>
    let x := vcOf s p v
    decide (x.unacked = []) && decide (x.out = []) && !x.ackDue) &&
  (decide (p ≠ 0) || (decide (s.host.cpls = []) && decide (s.host.held = []))) &&
  s.pool.exports.all (fun e => decide (p = 0) || decide (exportPort s e.1 ≠ p)) &&
  (List.range 256).all (fun q => !(flag s (R.SLQ_CFG q) F.SLQ_CFG_EN && decide (sinkPort s q = p) && (slqHead (slqQueue s q)).isSome))

/-- The port refuses DEEP (R380) (log 83). -/
def refusesDeep (s : State) (p : Nat) : Bool :=
  decide (p ≠ 0) && (decide (rstate s ≠ 0) || decide (s.ring.refSel.val = p))

/-- LP_DENIED is set and the port stays ACTIVE (log 83). -/
def lpDenied (s : State) (p : Nat) : State :=
  lnEv (modLane (fon s (R.LN_STAT p) F.LN_STAT_LP_DENIED) p (fun x => { x with lp := none })) p 9

/-- Entry to STANDBY or DEEP (R378, R380). DEDUCED (log 83). -/
def lpEnter (s : State) (p target : Nat) : State :=
  if target = 2 then lnEv (lnLeave s p lnDeep) p 8 else lnEv (lnSet s p lnStandby) p 8

def lpSend (s : State) (p o target : Nat) : State := sendPlain s p 2 (leBytes 8 (o + 4 * target))

/-- LP_REQ (R380): the field is written; a request goes out while nothing is in flight. -/
def execLpReq (p : Fin 3) (target : BitVec 2) (s : State) : Host.Outcome State Fault Refusal :=
  let t := target.toNat
  let s := fset s (R.LN_CTRL p) F.LN_CTRL_LP_REQ t
  .next (done (
    if lnState s p = lnActive ∧ (t = 1 ∨ t = 2) then
      if t = 2 ∧ refusesDeep s p then lpDenied s p
      else
        let s := modLane s p (fun x => { x with lp := some (t, now s, now s) })
        if lnIdle s p then lpSend s p 0 t else s
    else s))

/-- LP_REQ_RESEND (R384): every 10 µs until the partner answers. -/
def execLpReqResend (p : Fin 3) (s : State) : Host.Outcome State Fault Refusal :=
  .next (done (match (lanePort s p).lp with
    | some (t, a, b) =>
      if lnState s p = lnActive ∧ b + ticksUs 10 ≤ now s then
        let s := modLane s p (fun x => { x with lp := some (t, a, now s) })
        if lnIdle s p then lpSend s p 0 t else s
      else s
    | none => s))

/-- LP_REQ_TIMEOUT (R384): no answer for 100 µs (log 83). -/
def execLpReqTimeout (p : Fin 3) (s : State) : Host.Outcome State Fault Refusal :=
  .next (done (match (lanePort s p).lp with
    | some (_, a, _) => if lnState s p = lnActive ∧ a + ticksUs 100 ≤ now s then lpDenied s p else s
    | none => s))

/-- LP_RX (R380, R384): a request is accepted or refused; an answer completes the exchange (log 83). -/
def execLpRx (p : Fin 3) (o target : BitVec 2) (s : State) : Host.Outcome State Fault Refusal :=
  let t := target.toNat
  .next (done (
    if lnState s p = lnActive ∧ (t = 1 ∨ t = 2) then
      if o.toNat = 0 then
        if t = 2 ∧ refusesDeep s p then lpDenied (lpSend s p 2 t) p
        else if lnIdle s p then lpEnter (lpSend s p 1 t) p t
        else lpSend s p 2 t
      else match (lanePort s p).lp with
        | some (r, _, _) => if r ≠ t then s else if o.toNat = 1 then lpEnter s p t else if o.toNat = 2 then lpDenied s p else s
        | none => s
    else s))

/-- The port is ACTIVE again out of STANDBY. -/
def standbyExit (s : State) (p : Nat) : State := if lnState s p = lnStandby then lnSet s p lnActive else s

/-- STANDBY_EXIT (R378): a frame to send, or the partner's exit (log 83). -/
def execStandbyExit (p : Fin 3) (s : State) : Host.Outcome State Fault Refusal := .next (done (standbyExit s p))

/-- DEEP_EXIT (R378): the port restarts its forwarded clock into CLOCK; PARAM is skipped. -/
def execDeepExit (p : Fin 3) (s : State) : Host.Outcome State Fault Refusal :=
  .next (done (
    if lnState s p = lnDeep then modLane (lnSet s p lnClock) p (fun x => { x with deep := true }) else s))

/-! ### PRBS, trackers, taps, markers (R375 to R377, R381) -/

/-- The exponents of the polynomial that PRBS_SEL selects (R381, R401). -/
def prbsPoly (sel : Nat) : Nat × Nat := if sel = 0 then (7, 6) else if sel = 1 then (15, 14) else (31, 28)

/-- Every data lane of a port in PRBS sends the selected sequence (R381). -/
def prbsSend (s : State) (p : Nat) : State :=
  if lnState s p = lnPrbs then
    let x := prbsPoly (fget s (R.LN_CTRL p) F.LN_CTRL_PRBS_SEL)
    send s (.prbs p x.1 x.2)
  else s

/-- PRBS_ENABLE (R378, R381). -/
def execPrbsEnable (p : Fin 3) (sel : BitVec 2) (s : State) : Host.Outcome State Fault Refusal :=
  let s := fset (fon s (R.LN_CTRL p) F.LN_CTRL_PRBS_EN) (R.LN_CTRL p) F.LN_CTRL_PRBS_SEL sel.toNat
  .next (done (prbsSend (if lnState s p = lnDisabled then lnSet s p lnPrbs else s) p))

/-- PRBS_DISABLE (R378). -/
def execPrbsDisable (p : Fin 3) (s : State) : Host.Outcome State Fault Refusal :=
  let s := foff s (R.LN_CTRL p) F.LN_CTRL_PRBS_EN
  .next (done (if lnState s p = lnPrbs then lnSet s p lnDisabled else s))

/-- PRBS_CHECKER_SYNC (R381). -/
def execPrbsCheckerSync (p : Fin 3) (l : Fin 8) (s : State) : Host.Outcome State Fault Refusal :=
  .next (done (
    if lnState s p = lnPrbs ∧ l.val < laneCount p then fon s (R.LN_PRBS p l) F.LN_PRBS_PLOCK else s))

/-- PRBS_BIT_ERROR (R381, R403). -/
def execPrbsBitError (p : Fin 3) (l : Fin 8) (s : State) : Host.Outcome State Fault Refusal :=
  .next (done (
    if lnState s p = lnPrbs ∧ flag s (R.LN_PRBS p l) F.LN_PRBS_PLOCK then
      lnEv (finc s (R.LN_PRBS p l) F.LN_PRBS_ERRORS) p 6
    else s))

/-- The trackers of a port follow its data lanes: the received clock is there and the lanes are not idle (R375, R380).
DEDUCED (log 84). -/
def trackerRuns (s : State) (p : Nat) : Bool :=
  let st := lnState s p
  (decide (lnClock ≤ st) && decide (st ≤ lnActive)) || decide (st = lnPrbs)

/-- TRACKER_WINDOW (R375): fewer than 64 transitions freeze the tracker. DEDUCED (log 84). -/
def execTrackerWindow (p : Fin 3) (l : Fin 8) (transitions : BitVec 11) (phase : Byte) (s : State) :
    Host.Outcome State Fault Refusal :=
  .next (done (
    if decide (laneCount p ≤ l.val) || !trackerRuns s p then s
    else if transitions.toNat < 64 then
      let s := fon (fon s (R.LN_RX p l) F.LN_RX_FROZEN) (R.LN_STAT p) F.LN_STAT_FROZEN
      lnEv (finc s (R.LN_CNT_B p) F.LN_CNT_B_FRZ_CNT) p 7
    else
      let s := if flag s (R.LN_RX p l) F.LN_RX_FROZEN then s else fset s (R.LN_RX p l) F.LN_RX_PHASE phase.toNat
      foff s (R.LN_RX p l) F.LN_RX_FROZEN))

/-- TAP_WRITE (R376): taps that sum to more than 63 leave LN_TX unchanged and set TAP_ERR. -/
def execTapWrite (p : Fin 3) (l : Fin 8) (v : Word) (s : State) : Host.Outcome State Fault Refusal :=
  let a := R.LN_TX p l
  let pre := getFld v F.LN_TX_C_PRE
  let main := getFld v F.LN_TX_C_MAIN
  let post := getFld v F.LN_TX_C_POST
  .next (done (
    if laneCount p ≤ l.val then s
    else
      let s := if getFld v F.LN_TX_TAP_ERR = 1 then foff s a F.LN_TX_TAP_ERR else s
      if 63 < pre + main + post then lnEv (fon s a F.LN_TX_TAP_ERR) p 11
      else fset (fset (fset s a F.LN_TX_C_PRE pre) a F.LN_TX_C_MAIN main) a F.LN_TX_C_POST post))

/-- MARK_ROW (R377): after 16,384 rows in ACTIVE, after 16 in DESKEW. -/
def execMarkRow (p : Fin 3) (s : State) : Host.Outcome State Fault Refusal :=
  .next (done (if lnState s p = lnActive ∨ lnState s p = lnDeskew then send s (.mark p.val) else s))

/-! ### Forwarded streams (R399) -/

/-- A VC2 frame joins its ring-receive queue: the port's open unit, or a new one, grows by its bytes, and LAST closes
it. False when the queue cannot have the segments. -/
def streamTake (s : State) (p : Nat) (f : LaneFrame) : State × Bool :=
  let q := f.queue.toNat
  let x := slqQueue s q
  let key := some (0x10000 + p, 0)
  let mine := fun (u : SlqUnit) => decide (u.key = key) && !u.closed
  let u := (x.units.find? mine).getD ⟨key, false, [], [], [], 0⟩
  let len := u.bytes.length + f.body.length
  match slqTake s q false (max 1 (ceilDiv len 1024) - (u.segs.length + u.freed)) x.segs with
  | none => (s, false)
  | some (s, l) =>
    let v := { u with bytes := u.bytes ++ f.body, items := u.items ++ [len], segs := u.segs ++ l, closed := f.last }
    let s := modQueue s q (fun x => { x with
      units := if x.units.any mine then x.units.map (fun w => if mine w then v else w) else x.units ++ [v] })
    let s := slqFlush s v (u.bytes.length / 64) (if v.closed then ceilDiv len 64 else len / 64)
    let s := if v.closed then headFill s q else s
    (slqShow (modVc s p 2 (fun x => { x with owe := x.owe + frameUnits f })) q, true)

/-- The queue of a VC2 frame is enabled for ring receive (R352). -/
def streamQueue (s : State) (q : Nat) : Bool := flag s (R.SLQ_CFG q) F.SLQ_CFG_EN && flag s (R.SLQ_CFG q) F.SLQ_CFG_SRC

/-- A frame for a queue that is not so enabled. -/
def streamDiscard (s : State) (p : Nat) (f : LaneFrame) : State :=
  modVc (finc s R.RING_CNT_B F.RING_CNT_B_VC2_DISCARD) p 2 (fun x => { x with owe := x.owe + frameUnits f })

/-- STREAM_RX (R399): discarded with VC2_DISCARD, appended, or held in order behind what is held already. -/
def execStreamRx (p : Fin 3) (f : LaneFrame) (s : State) : Host.Outcome State Fault Refusal :=
  .next (done (
    if !laneUp s p then s
    else if !streamQueue s f.queue.toNat then
      streamDiscard s p f
    else if (lanePort s p).held ≠ [] then modLane s p (fun x => { x with held := x.held ++ [f] })
    else
      let r := streamTake s p f
      if r.2 then r.1 else modLane r.1 p (fun x => { x with held := x.held ++ [f] })))

/-- STREAM_APPEND (R399): the first held frame is appended once its queue can take it, or discarded once its queue is no longer enabled. -/
def execStreamAppend (p : Fin 3) (s : State) : Host.Outcome State Fault Refusal :=
  .next (done (match (lanePort s p).held with
    | [] => s
    | f :: l =>
      if !streamQueue s f.queue.toNat then modLane (streamDiscard s p f) p (fun x => { x with held := l })
      else
      let r := streamTake s p f
      if r.2 then modLane r.1 p (fun x => { x with held := l }) else r.1))

end Sys2Proof.Machine
end

