-- ==== Sys2Proof/Machine/SecBase.lean ====
section
/-! DEFINITION. Identity and updates: verdicts on signed objects, boot headers, the hitless switch, and the commit of
the emission record (R437 to R441, R446, R242). -/

namespace Sys2Proof.Machine

/-- An image or record is rejected: REJECT, REJECTS and the event (R442) (log 93). -/
def secReject (s : State) (ev : Nat) : State :=
  raise (finc (fon s R.SECU_STAT F.SECU_STAT_REJECT) R.SEC_CNT F.SEC_CNT_REJECTS) ev

/-- Bank running. -/
def fwBank (s : State) : Nat := fget s R.SECU_STAT F.SECU_STAT_BANK

/-- An image runs: BANK, TRIAL, SVN and the digest of ATTEST. -/
def imageRuns (s : State) (bank : Nat) (trial : Bool) (i : ImageInfo) : State :=
  let s := fsetB (fset s R.SECU_STAT F.SECU_STAT_BANK bank) R.SECU_STAT F.SECU_STAT_TRIAL trial
  let s := fset s R.SEC_OTP F.SEC_OTP_SVN i.svn
  { s with sec := { s.sec with running := i } }

/-- The four cores switch to the new image, and the boot header names its bank in trial (R446, steps 2 and 3); an image below ARC never
starts (R447) (log 95). -/
def coreSwitch (s : State) (i : ImageInfo) : State :=
  if i.svn < arcOf s then secReject { s with sec := { s.sec with switch := none } } 556
  else
    let b := 1 - fwBank s
    let s := imageRuns s b true i
    let s := { s with sec := { s.sec with switch := none, verified := none, buf := [], erased := [], codeBank := 1 - s.sec.codeBank } }
    raise (hdrWrite s (fun h => { h with active := b, trial := true, tries := 0 })) 557

/-- CORE_SWITCH at a frame start, or once SCAN is left (R446). -/
def coreSwitchFrame (s : State) : State :=
  match s.sec.switch with
  | some i => coreSwitch s i
  | none => s

/-- The payload of the emission record: the words of the active set in the order of R242 (R441). -/
def emgPayload (s : State) : List Byte := sealedRegs.flatMap (fun a => leBytes 4 (tget (regReset a) s.emg.act a).toNat)

/-- The words of the sealed set that a payload holds. -/
def emgWords (l : List Byte) : List (Nat × Word) :=
  sealedRegs.zipIdx.map (fun p => (p.1, BitVec.ofNat 32 (ofLeBytes ((l.drop (4 * p.2)).take 4))))

/-- EMG_COMMIT (R242, R441): discarded under R12 unless both seals read open. -/
def execEmgCommit (s : State) : Host.Outcome State Fault Refusal :=
  .next (done (
    if !sealsOpen s then raise s Ev.rwsDiscard
    else if !govTurn s 5 then s
    else if modeOf s = .standby ∧ rd s R.EMG_EXP_CRC = stagedCrc s then
      let s := govDid (emgCopy s) 5
      recWrite s 4 (emgPayload s) []
    else emgCapErr s))

end Sys2Proof.Machine
end

