-- ==== Sys2Proof/Machine/Decimation.lean ====
section
/-! DEFINITION. The decimation chain (R295 to R302): restarts, outputs, linearisation, the angle history, the
detectors. -/

namespace Sys2Proof.Machine

def modDec (s : State) (c : Nat) (f : DecChan → DecChan) : State := { s with dec := tmod DecChan.init s.dec c f }

/-- K in force, 5 to 12. -/
def decK (w : Word) : Nat := max 5 (min 12 (getFld w F.DEC_CFG_K))

/-- Output period in ticks (R295). -/
def decPeriod (w : Word) : Nat := 125 * 2 ^ (decK w - 1)

/-- D in ticks (R296). -/
def decDelay (w : Word) : Nat := if getFld w F.DEC_CFG_HB = 1 then decPeriod w * 19 / 4 else decPeriod w * 4

/-- INVALID outputs after a restart (R296). -/
def decInvalid (w : Word) : Nat := if getFld w F.DEC_CFG_HB = 1 then 8 else 6

/-- The channel forms outputs: EN = 1 and its first restart has come. -/
def decRuns (s : State) (c : Nat) : Bool := flag s (R.DEC_CFG c) F.DEC_CFG_EN && !(decChan s c).silent

/-- The restart instant of a cause at present: the first multiple of 125 ticks at least 16 ticks later (R297) (log 55). -/
def restartInstant (s : State) : Nat := ceilDiv (now s + 16) 125 * 125

/-- Schedules a restart of channel c that puts its DEC_CFG in force. -/
def scheduleRestart (s : State) (c : Nat) : State :=
  modDec s c (fun x => { x with restarts := x.restarts ++ [(restartInstant s, rd s (R.DEC_CFG c))] })

/-- The settings of channel c: those in force, or before its first restart those that it will put in force. -/
def decCfgNow (s : State) (c : Nat) : Word := if (decChan s c).silent then rd s (R.DEC_CFG c) else (decChan s c).cfg

/-- The modulator of channel c. -/
def decSrc (s : State) (c : Nat) : Nat := getFld (decCfgNow s c) F.DEC_CFG_SRC

/-- DEC_OUT.OVL shows whether the channel's modulator is overloaded (R306). -/
def decOvlShow (s : State) (c : Nat) : State :=
  fsetB s (R.DEC_OUT c) F.DEC_OUT_OVL (s.modOvl.contains (decSrc s c))

/-- A write of DEC_CFG (R297). -/
def decCfgWrite (s : State) (c : Nat) (v : Word) : State :=
  let old := rd s (R.DEC_CFG c)
  let s := wr s (R.DEC_CFG c) (v &&& 0xFFFC0000#32)
  let chg := fun f => decide (getFld old f ≠ getFld v f)
  if getFld v F.DEC_CFG_EN = 0 then modDec s c (fun x => { x with restarts := [], silent := true, ended := false })
  else if getFld old F.DEC_CFG_EN = 0 then scheduleRestart (modDec s c (fun x => { x with silent := true })) c
  else if chg F.DEC_CFG_HB || chg F.DEC_CFG_K || chg F.DEC_CFG_SRC then scheduleRestart s c
  else s

def decCfgSet (s : State) (c : Nat) (v : Word) : State := decOvlShow (decCfgWrite s c v) c

/-- DEC_CFG_WRITE (R297). -/
def execDecCfgWrite (c : Fin 8) (v : Word) (s : State) : Host.Outcome State Fault Refusal := .next (done (decCfgSet s c.val v))

/-- DEC_SYNC (R297): every enabled channel of SYNC_MASK restarts at a common edge. -/
def execDecSync (s : State) : Host.Outcome State Fault Refusal :=
  .next (done ((bitList 8 (fget s R.DEC_CTRL F.DEC_CTRL_SYNC_MASK)).foldl (fun s c =>
    if flag s (R.DEC_CFG c) F.DEC_CFG_EN then scheduleRestart s c else s) s))

/-! ### Detectors (R301, R302) -/

/-- The axis whose period marks close the envelope window of channel c: the lowest-numbered one that is not off and
has the channel as feedback. DEDUCED (log 55). -/
def envAxis (s : State) (c : Nat) : Option Nat :=
  (List.range 4).find? (fun a =>
    let ty := fget s (R.AX_CFG a) F.AX_CFG_TYPE
    (decide (ty = 1) || decide (ty = 2)) && decide (fget s (R.AX_CFG a) F.AX_CFG_FB_CH = c))

/-- A window with one more output `v`; `d` over 2 to the `e` is v − m. -/
def DetWin.add (w : DetWin) (v : Int) (invalid : Bool) (d : Int) (e : Nat) : DetWin :=
  let w := { w with count := w.count + 1, inv := w.inv || invalid }
  if invalid then w
  else
    let k := max w.sqExp (2 * e)
    { w with valid := w.valid + 1, top := if w.valid = 0 then v else max w.top v, bot := if w.valid = 0 then v else min w.bot v,
             sqNum := w.sqNum * 2 ^ (k - w.sqExp) + (d * d).toNat * 2 ^ (k - 2 * e), sqExp := k }

/-- The square root of a quotient; which neighbour an inexact one takes is open (log 7). DESIGN CHOICE (log 54). -/
def openSqrt (s : State) (a b : Nat) : Nat × State :=
  let r := isqrt (a / b)
  if r * r * b = a then (r, s) else (r + b2n (openBool s).1, (openBool s).2)

/-- Closes the peak and RMS window of channel c (log 54). -/
def closeDet (s : State) (c : Nat) : State :=
  let w := (decChan s c).det
  let s := modDec s c (fun x => { x with det := .init })
  let s := fset (fset s (R.DEC_PK c) F.DEC_PK_MAX (unsigned 16 w.top)) (R.DEC_PK c) F.DEC_PK_MIN (unsigned 16 w.bot)
  let (r, s) := if w.valid = 0 then (0, s) else openSqrt s w.sqNum (2 ^ w.sqExp * w.valid)
  fset s (R.DEC_RMS c) F.DEC_RMS_RMS (satN 16 r)

/-- Closes the envelope window of channel c (log 54). -/
def closeEnv (s : State) (c : Nat) : State :=
  let w := (decChan s c).env
  let s := modDec s c (fun x => { x with env := .init })
  let (v, s) := openDivI s (w.top - w.bot) 2
  fsetB (fset s (R.DEC_ENV c) F.DEC_ENV_ENV v.toNat) (R.DEC_ENV c) F.DEC_ENV_INV w.inv

/-- A mark of axis a closes the envelope window that the axis has opened and opens the next; outputs from before its first
mark lie in no window (R302). -/
def envMark (s : State) (c a : Nat) : State :=
  let s := if (decChan s c).envBy = some a then closeEnv s c else s
  modDec s c (fun x => { x with env := .init, envBy := some a })

/-- The same for the peak and RMS window. -/
def detMark (s : State) (c a : Nat) : State :=
  let s := if (decChan s c).detBy = some a then closeDet s c else s
  modDec s c (fun x => { x with det := .init, detBy := some a })

/-- A period mark of axis a closes the windows that it bounds (R302). -/
def periodMark (s : State) (a : Nat) : State :=
  (List.range 8).foldl (fun s c =>
    let s := if envAxis s c = some a then envMark s c a else s
    if flag s (R.DEC_DET c) F.DEC_DET_WSRC ∧ fget s (R.DEC_DET c) F.DEC_DET_AX = a then
      let s := detMark s c a
      if (envAxis s c).isNone then envMark s c a else s
    else s) s

/-- A write of DEC_DET: a change of WSRC, AX or WIN discards the open window (R302). -/
def decDetSet (s : State) (c : Nat) (v : Word) : State :=
  let old := rd s (R.DEC_DET c)
  let s := wr s (R.DEC_DET c) (v &&& 0xBF000000#32)
  if old = v &&& 0xBF000000#32 then s
  else modDec s c (fun x => { x with
    det := .init, detBy := none, env := if (envAxis s c).isNone then .init else x.env,
    envBy := if (envAxis s c).isNone then none else x.envBy })

/-- DEC_RESTART (R297): the first restart of channel c that is due; its open windows are discarded (R302) (log 55). -/
def execDecRestart (c : Fin 8) (s : State) : Host.Outcome State Fault Refusal :=
  .next (done (match (decChan s c.val).restarts with
    | [] => s
    | (t, w) :: l =>
      if now s < t then s
      else
        let s := modDec s c.val (fun x => { x with
          restarts := l, cfg := w, silent := false, fresh := true, invLeft := decInvalid w, ended := x.ended && !l.isEmpty,
          det := .init, detBy := none, env := .init, envBy := none })
        decOvlShow (fset s (R.DEC_OUT c.val) F.DEC_OUT_INV_LEFT (decInvalid w)) c.val))

/-! ### Overload (R300) -/

/-- Every channel shows the overload of its modulator (R306). -/
def ovlShow (s : State) : State := (List.range 8).foldl decOvlShow s

/-- MOD_OVERLOAD_START (R300). -/
def execModOverloadStart (m : Fin 8) (s : State) : Host.Outcome State Fault Refusal :=
  let l := if s.modOvl.contains m.val then s.modOvl else s.modOvl.filter (· < m.val) ++ m.val :: s.modOvl.filter (m.val < ·)
  .next (done (ovlShow { s with modOvl := l }))

/-- MOD_OVERLOAD_END (R300): the cause of a restart of every enabled channel of the modulator, also of one whose first restart has not
come (R297). -/
def execModOverloadEnd (m : Fin 8) (s : State) : Host.Outcome State Fault Refusal :=
  .next (done (if s.modOvl.contains m.val then
      (List.range 8).foldl (fun s c =>
        if flag s (R.DEC_CFG c) F.DEC_CFG_EN && decide (decSrc s c = m.val) then scheduleRestart (modDec s c (fun x => { x with ended := true })) c
        else s) (ovlShow { s with modOvl := s.modOvl.filter (· ≠ m.val) })
    else s))

/-! ### Outputs (R296, R298, R299) -/

/-- Coefficient i of channel c: c00, c10, c01, c20, c11, c02, c30, c21, c12, c03. -/
def decCoef (s : State) (c i : Nat) : Int :=
  signed 16 (fget s (R.DEC_C c (i / 2)) (if i % 2 = 0 then F.DEC_C_LO else F.DEC_C_HI))

/-- LINEARISE (R298): v and whether it saturated (log 54). -/
def linearise (s : State) (c : Nat) (x y : Int) : Int × Bool :=
  if !flag s (R.DEC_LIN c) F.DEC_LIN_LIN_EN then (x, false)
  else
    let k := decCoef s c
    let sum := k 0 * 2 ^ 45 + (k 1 * x + k 2 * y) * 2 ^ 30 + (k 3 * x * x + k 4 * x * y + k 5 * y * y) * 2 ^ 15 +
      k 6 * x * x * x + k 7 * x * x * y + k 8 * x * y * y + k 9 * y * y * y
    let v := roundDiv (sum * 2 ^ fget s (R.DEC_LIN c) F.DEC_LIN_LSH) (2 ^ 45)
    let r := clampInt (-32768) 32767 v
    (r, decide (r ≠ v))

/-- The partner of channel c (log 56). -/
def decPart (s : State) (c : Nat) : Nat := fget s (R.DEC_LIN c) F.DEC_LIN_PART

/-- PART mismatch (R298) (log 56). -/
def partErr (s : State) (c : Nat) : Bool :=
  let p := decPart s c
  let x := decCfgNow s p
  let w := decCfgNow s c
  decide (p ≠ c) &&
    (decide (fget s (R.DEC_CFG p) F.DEC_CFG_EN ≠ fget s (R.DEC_CFG c) F.DEC_CFG_EN) || decide (decK x ≠ decK w) ||
      decide (getFld x F.DEC_CFG_HB ≠ getFld w F.DEC_CFG_HB))

/-- An own cause of invalidity of the next output of channel c (R298). -/
def ownCause (s : State) (c : Nat) : Bool :=
  let x := decChan s c
  decide (x.invLeft ≠ 0) || x.ended || s.modOvl.contains (decSrc s c) || partErr s c

/-- Whether the partner's output at this instant has an own cause: the one already formed, else the coming one. DEDUCED (log 56). -/
def partCause (s : State) (c : Nat) : Bool :=
  let p := decPart s c
  if p = c then false
  else match (decChan s p).hist with
    | h :: _ => if h.outAt = now s then h.own else ownCause s p
    | [] => ownCause s p

/-- The 16 bytes of a history entry (R299). -/
def DecSample.bytes (x : DecSample) : List Byte :=
  leBytes 8 x.stamp ++ leBytes 2 (unsigned 16 x.value) ++ leBytes 2 (unsigned 16 x.raw) ++
    leBytes 4 (b2n x.restart * 8 + b2n x.ovl * 4 + b2n x.clip * 2 + b2n x.invalid)

/-- Channel B of the island may yet take the angle for a shot that it has not evaluated (R256). -/
def angleOwed (s : State) (x : DecSample) : Bool :=
  s.saf.bshots.any (fun b => decide (b.fire ≤ x.stamp + ticksUs (cfgAgeB s.saf.cfg)))

/-- An output of channel c is delivered: history, registers, counters, DC estimate and windows. -/
def decDeliver (s : State) (c : Nat) (x : DecSample) : State :=
  let d := decChan s c
  let w := rd s (R.DEC_CFG c)
  let sh := max 4 (getFld w F.DEC_CFG_DCB_SH)
  let (mn, me) := if x.invalid || decide (getFld w F.DEC_CFG_FREEZE = 1) then (d.mNum, d.mExp)
    else (d.mNum * (2 ^ sh - 1) + x.value * 2 ^ d.mExp, d.mExp + sh)
  let s := blockWrite s (histAddr s c x.idx) x.bytes
  let dif := x.value * 2 ^ me - mn
  let s := modDec s c (fun d => { d with
    hist := (x :: d.hist).take 2048, past := ((x :: d.hist).drop 2048 ++ d.past).filter (angleOwed s),
    invN := d.invN + b2n x.invalid, fresh := false, invLeft := d.invLeft - 1, mNum := mn, mExp := me,
    det := d.det.add x.value x.invalid dif me, env := d.env.add x.value x.invalid 0 0, count := d.count + 1 })
  let (dc, s) := openDivI s mn (2 ^ me)
  let s := fset s (R.DEC_RMS c) F.DEC_RMS_DC (unsigned 16 dc)
  let s := wr s (R.DEC_OUT c) (BitVec.ofNat 32 (unsigned 16 x.value * 65536 + b2n x.invalid * 32768 + b2n x.clip * 16384 +
    b2n x.ovl * 8192 + (decChan s c).invLeft))
  let s := fwrap s (R.DEC_IDX c) F.DEC_IDX_OUTPUTS
  let s := fset s (R.DEC_IDX c) F.DEC_IDX_WIDX ((x.idx + 1) % 2048)
  let s := if x.invalid then finc s (R.DEC_CNT c) F.DEC_CNT_INV_CNT else s
  let s := if x.clip then flagRaise (finc s (R.DEC_CNT c) F.DEC_CNT_CLIP_CNT) R.DEC_STAT F.DEC_STAT_CLIP 479 else s
  let s := if x.ovl then flagRaise (finc s (R.DEC_CNT c) F.DEC_CNT_OVL_CNT) R.DEC_STAT F.DEC_STAT_OVL 478 else s
  let s := if partErr s c then flagRaise s R.DEC_STAT F.DEC_STAT_PART_ERR 480 else s
  let det := rd s (R.DEC_DET c)
  if getFld det F.DEC_DET_WSRC = 0 ∧ (decChan s c).det.count = 2 ^ max 4 (getFld det F.DEC_DET_WIN) then
    let s := closeDet s c
    if (envAxis s c).isNone then closeEnv s c else s
  else s

/-- The raw output of channel p at the present instant that a partner has used or that stands in the history (R298). -/
def rawKnown (s : State) (p : Nat) : Option Int :=
  match (decChan s p).raw.filter (fun r => decide (r.1 = now s)) with
  | some r => some r.2
  | none => ((decChan s p).hist.head?.filter (fun h => decide (h.outAt = now s))).map (·.raw)

/-- Two channels filter one bitstream with one setting and have both passed their restart: their raw outputs are one (R295) (log 142). -/
def decTwins (s : State) (c d : Nat) : Bool :=
  let key := fun (x : Nat) => (decSrc s x, decK (decCfgNow s x), getFld (decCfgNow s x) F.DEC_CFG_HB)
  decide (key c = key d) && decRuns s c && decRuns s d && decide ((decChan s c).invLeft = 0) && decide ((decChan s d).invLeft = 0)

/-- The raw output of channel p at the present instant: the one that is known, else that of a channel with the same filters, else `x`
(R295, R298). -/
def rawNow (s : State) (p : Nat) (x : BitVec 16) : Int :=
  match rawKnown s p with
  | some v => v
  | none => ((List.range 8).findSome? (fun d => if d ≠ p ∧ decTwins s p d then rawKnown s d else none)).getD (signed 16 x.toNat)

/-- DEC_OUTPUT (R296): `x` is the raw output of the channel's filters, `y` that of channel PART at the same
instant, where it is not known yet (log 56). -/
def execDecOutput (c : Fin 8) (x y : BitVec 16) (s : State) : Host.Outcome State Fault Refusal :=
  let d := decChan s c.val
  .next (done (
    if decRuns s c.val = false ∨ now s % decPeriod d.cfg ≠ 0 then s
    else
      let p := decPart s c.val
      let raw := rawNow s c.val x
      let (v, clip) := linearise s c.val raw (if p = c.val then raw else rawNow s p y)
      let s := modDec (modDec s p (fun q => { q with raw := some (now s, rawNow s p y) })) c.val (fun q => { q with raw := some (now s, raw) })
      let own := ownCause s c.val
      let ext := signed 16 (fget s (R.DEC_DLY c.val) F.DEC_DLY_EXT_DLY)
      decDeliver s c.val
        { idx := d.count % 2048, outAt := now s, stamp := ((now s : Int) - decDelay d.cfg - ext).toNat, value := v, raw := raw,
          restart := d.fresh, ovl := s.modOvl.contains (decSrc s c.val), clip := clip, invalid := own || partCause s c.val,
          own := own }))

end Sys2Proof.Machine
end

