-- ==== Sys2Proof/Machine/Steering.lean ====
section
/-! DEFINITION. Beam steering (09_beam_steering.md): the axis programs, coefficient banks and swaps, trajectories,
the park generator, the scanner states, stall and sensor faults. -/

namespace Sys2Proof.Machine

def axis (s : State) (a : Nat) : Axis := tget Axis.init s.ctl.axes a
def modAxis (s : State) (a : Nat) (f : Axis → Axis) : State :=
  { s with ctl := { s.ctl with axes := tmod Axis.init s.ctl.axes a f } }
def scanner (s : State) (c : Nat) : Scanner := tget Scanner.init s.ctl.scns c
def modScanner (s : State) (c : Nat) (f : Scanner → Scanner) : State :=
  { s with ctl := { s.ctl with scns := tmod Scanner.init s.ctl.scns c f } }

/-! ### Configuration -/

/-- TYPE, 11 read as off (R225). -/
def axType (s : State) (a : Nat) : Nat :=
  if fget s (R.AX_CFG a) F.AX_CFG_TYPE = 3 then 0 else fget s (R.AX_CFG a) F.AX_CFG_TYPE

/-- Sample period in half ticks (R205) (log 65). -/
def axPeriod (s : State) (a : Nat) : Nat := 5 * max 2500 (fget s (R.AX_CFG a) F.AX_CFG_PERIOD)

/-- The fast axis of scanner c (R218). -/
def fastAxis (s : State) (c : Nat) : Nat := 2 * c + fget s (R.SCN_CTRL c) F.SCN_CTRL_FAST_AX

/-- The other axis of a scanner. -/
def otherAxis (a : Nat) : Nat := 4 * (a / 2) + 1 - a

/-- Scanner states (R224). -/
abbrev scnOff := 0
abbrev scnSweep := 1
abbrev scnRamp := 2
abbrev scnRun := 3
abbrev scnPark := 4
abbrev scnFault := 5

def scnState (s : State) (c : Nat) : Nat := fget s (R.SCN_STAT c) F.SCN_STAT_STATE

/-- SWEEP, RAMP or RUN. -/
def scnMoving (s : State) (c : Nat) : Bool := decide (1 ≤ scnState s c) && decide (scnState s c ≤ 3)

/-- PARK_MS, START_TO, A_RAMP and SWEEP, of which 0 acts as 1. -/
def parkTicks (s : State) (c : Nat) : Nat := ticksMs (max 1 (fget s (R.SCN_PARK c) F.SCN_PARK_PARK_MS))
def startToTicks (s : State) (c : Nat) : Nat := ticksMs (10 * max 1 (fget s (R.SCN_START c) F.SCN_START_START_TO))
def aRamp (s : State) (c : Nat) : Nat := max 1 (fget s (R.SCN_START c) F.SCN_START_A_RAMP)
def sweepRate (s : State) (c : Nat) : Nat := max 1 (fget s (R.SCN_START c) F.SCN_START_SWEEP)

/-- PARK of an axis. -/
def parkOut (s : State) (a : Nat) : Int := signed 16 (fget s (R.AX_DRV a) F.AX_DRV_PARK)

/-- Supply factor KS, unsigned 2.14 (R207). -/
def axKs (s : State) (a : Nat) : Nat := fget s (R.AX_FF a) F.AX_FF_KS

/-! ### Coefficient banks and trajectories (R209, R210, R215, R222) -/

/-- The active bank. -/
def axBank (s : State) (a : Nat) : Nat := fget s (R.AX_SWAP a) F.AX_SWAP_BANK

/-- `n` little-endian bytes at an offset of the active bank. -/
def coefN (s : State) (a off n : Nat) : Nat :=
  ofLeBytes ((List.range n).map (fun i => tget 0#8 (axis s a).banks (128 * axBank s a + off + i)))

/-- An INTEGER16 of the active bank. -/
def coef (s : State) (a off : Nat) : Int := signed 16 (coefN s a off 2)

abbrev cKP := 0x40
abbrev cKI := 0x42
abbrev cKA := 0x44
abbrev cKB := 0x46
abbrev cILO := 0x48
abbrev cIHI := 0x4A
abbrev cUMIN := 0x4C
abbrev cUMAX := 0x4E
abbrev cKPA := 0x50
abbrev cKIA := 0x52
abbrev cKPP := 0x54
abbrev cKIP := 0x56
abbrev cAMP := 0x58
abbrev cPH := 0x5A

def sectEn (s : State) (a : Nat) : Nat := coefN s a 0x5C 2 % 16
def fMin (s : State) (a : Nat) : Nat := coefN s a 0x60 4
def fMax (s : State) (a : Nat) : Nat := coefN s a 0x64 4

/-- Offsets of a bank that are reserved and stay zero. -/
def coefReserved (off : Nat) : Bool :=
  (decide (off < 0x40) && decide (12 ≤ off % 16)) || decide (off = 0x5E) || decide (off = 0x5F) || decide (0x68 ≤ off)

/-- Sum of C/P over the axes as numerator and denominator, the largest C, the smallest P (R212). -/
def loadTerms (s : State) : List (Nat × Nat) :=
  ((List.range 4).filter (fun a => decide (axType s a ≠ 0))).map (fun a =>
    let kb := if coef s a cKB ≠ 0 then 24 else 0
    let sup := if fget s (R.SCN_CTRL (a / 2)) F.SCN_CTRL_SUP_SEL ≠ 0xFF then 24 else 0
    let own := if axType s a = 1 then 24 + 48 * popCount 4 (sectEn s a) + 40 + (if coef s a cKA ≠ 0 then 24 else 0)
      else 48 + 160 + 200
    (120 + own + kb + sup + 40, axPeriod s a / 5))

/-- CTL_LOAD brought up to date (R212); a load that comes to exceed 1,024 sets LOAD_WARN. -/
def ctlLoad (s : State) : State :=
  let ts := loadTerms s
  let pmin := (ts.map (·.2)).foldl min 0xFFFF
  let cmax := (ts.map (·.1)).foldl max 0
  let sum := (ts ++ [(cmax, pmin)]).foldl (fun (q : Nat × Nat) t => (q.1 * t.2 + t.1 * q.2, q.2 * t.2)) (0, 1)
  let load := if ts.isEmpty then 0 else satN 16 ((2 * 1024 * sum.1 + sum.2) / (2 * sum.2))
  let old := fget s R.CTL_LOAD F.CTL_LOAD_LOAD
  let s := fset s R.CTL_LOAD F.CTL_LOAD_LOAD load
  if 1024 < load ∧ load ≠ old then fon s R.CTL_STAT F.CTL_STAT_LOAD_WARN else s

/-- A write of a word of a coefficient bank (R215). -/
def coefWrite (s : State) (a b w : Nat) (v : Word) : State :=
  if axBank s a = b then fon s R.CTL_STAT F.CTL_STAT_WPROT
  else
    (List.range 4).foldl (fun s i =>
      let off := 4 * w + i
      if coefReserved off then s
      else modAxis s a (fun x => { x with
        banks := tput 0#8 x.banks (128 * b + off) (BitVec.ofNat 8 (v.toNat / 256 ^ i)) })) s

/-- COEFF_BANK_WRITE (R215). -/
def execCoeffBankWrite (a : Fin 4) (b : Fin 2) (w : Fin 32) (v : Word) (s : State) : Host.Outcome State Fault Refusal :=
  .next (done (coefWrite s a.val b.val w.val v))

/-- Word w of a bank, as a read returns it. -/
def coefRead (s : State) (a b w : Nat) : Nat :=
  ofLeBytes ((List.range 4).map (fun i => tget 0#8 (axis s a).banks (128 * b + 4 * w + i)))

/-- BASE and LEN as written (R209). -/
def trjRange (s : State) (a : Nat) : Nat × Nat :=
  (fget s (R.AX_TRJ a) F.AX_TRJ_BASE, max 1 (min 2048 (fget s (R.AX_TRJ a) F.AX_TRJ_LEN)))

/-- The entry lies in the active range of the axis of a scanner in SWEEP, RAMP or RUN (R210). -/
def trjProtected (s : State) (a i : Nat) : Bool :=
  decide (axType s a = 1) && scnMoving s (a / 2) && decide ((i + 2048 - (axis s a).base) % 2048 < (axis s a).len)

/-- A write of a trajectory entry (R210). -/
def trjWrite (s : State) (a i : Nat) (v : Word) : State :=
  if trjProtected s a i then fon s R.CTL_STAT F.CTL_STAT_WPROT
  else modAxis s a (fun x => { x with traj := tput 0 x.traj i v.toNat })

/-- TRAJECTORY_WRITE (R210). -/
def execTrajectoryWrite (a : Fin 4) (i : Fin 2048) (v : Word) (s : State) : Host.Outcome State Fault Refusal :=
  .next (done (trjWrite s a.val i.val v))

/-- POS and ACC of the entry at an offset from BASE. -/
def trjEntry (s : State) (a i : Nat) : Int × Int :=
  let w := tget 0 (axis s a).traj (((axis s a).base + i) % 2048)
  (signed 16 (w / 65536), signed 16 w)

/-! ### Arithmetic (R204) -/

/-- A saturation of axis a. -/
def satNote (s : State) (a : Nat) : State :=
  flagRaise (finc s (R.AX_CNT a) F.AX_CNT_SAT_CNT) R.CTL_STAT F.CTL_STAT_SAT (489 + 4 * a)

/-- A result rounded to nearest and saturated to Q15 (log 66). -/
def satQ (s : State) (a : Nat) (num : Int) (den : Nat) : Int × State :=
  let v := roundDiv num den
  if -32768 ≤ v ∧ v ≤ 32767 then (v, s) else (clampInt (-32768) 32767 v, satNote s a)

/-- BASE and LEN take effect and TRJ_AMP is computed (R209, R210). -/
def trjLatch (s : State) (a : Nat) : State :=
  let r := trjRange s a
  let s := modAxis s a (fun x => { x with base := r.1, len := r.2 })
  let ps := (List.range r.2).map (fun i => (trjEntry s a i).1)
  let p0 := (trjEntry s a 0).1
  let (v, s) := satQ s a (ps.foldl max p0 - ps.foldl min p0) 2
  fset s (R.AX_FF a) F.AX_FF_TRJ_AMP v.toNat

/-! ### Sines and angles (R211, R217) -/

/-- The cosine of π n/d for n up to d, in 2 to the −60. -/
def cosHalf (n d : Nat) : Int :=
  let m := if 2 * n ≤ d then d - 2 * n else 2 * n - d
  let x := m * pi80 / (2 * d)
  let v : Int := if m = d then 2 ^ 60 else sinSeries (x * x / 2 ^ 80) 14 1 x 0 / 2 ^ 20
  if 2 * n ≤ d then v else -v

/-- The raised cosine of R217 from `u0` to `u1` at n/d of its time; its rounding is open (log 7). -/
def genMove (s : State) (u0 u1 : Int) (n d : Nat) : Int × State :=
  if d ≤ n then (u1, s) else openDivI s (u1 * 2 ^ 61 + (u0 - u1) * (2 ^ 60 + cosHalf n d)) (2 ^ 61)

/-- Entry i of the sine table, in Q15 (R204, R211). -/
def sinEntry (i : Nat) : Int := clampInt (-32768) 32767 (roundDiv (sinFix (64 * i)) (2 ^ 45))

/-- Sine of 2π·phi/2^32 in Q15, interpolated between the entries of the 1,024-entry table and rounded (R204, R211). DEDUCED
(log 66). -/
def tableSin (phi : Nat) : Int :=
  let i := phi / 2 ^ 22 % 1024
  let f : Int := phi % 2 ^ 22
  roundDiv (sinEntry i * (2 ^ 22 - f) + sinEntry (i + 1) * f) (2 ^ 22)

/-- The largest n of the first quadrant, in π/32,768, whose direction the vector (x, y) has reached. -/
def atanSearch (x y : Int) : Nat → Nat → Nat
  | 0, n => n
  | k + 1, n =>
    let m := n + 2 ^ k
    atanSearch x y k (if m ≤ 16384 ∧ 0 ≤ cosFix m * y - sinFix m * x then m else n)

/-- The direction n of the first quadrant, moved up where the vector (x, y) has reached the middle of the step above it. -/
def atanRound (x y : Int) (n : Nat) : Nat :=
  if n < 16384 ∧ 0 ≤ cosHalf (2 * n + 1) 65536 * y - cosHalf (32767 - 2 * n) 65536 * x then n + 1 else n

/-- atan2(q, i)/π in Q15, rounded to nearest (R204); of the zero vector an open value (log 66). -/
def openAtan (s : State) (q i : Int) : Int × State :=
  if q = 0 ∧ i = 0 then (signed 16 (openVal s).1.toNat, (openVal s).2)
  else
    let x := (i.natAbs : Int)
    let y := (q.natAbs : Int)
    let n := atanRound x y (atanSearch x y 15 0)
    let t : Int := if i < 0 then 32768 - n else n
    (if q < 0 then -t else t, s)

/-- The square root of a number, rounded to nearest. -/
def nearRoot (m : Nat) : Nat := let r := isqrt m; if r * r + r < m then r + 1 else r

/-! ### Park generator and scanner states (R217, R218, R221) -/

/-- A scanner leaves SWEEP, RAMP or RUN for PARK with a cause (R218). -/
def enterPark (s : State) (c cause : Nat) : State :=
  if scnMoving s c = false then s
  else
    let ran := decide (scnState s c = scnRun)
    let start := fun (s : State) (a : Nat) => modAxis s a (fun x => { x with
      u0 := if axType s a = 2 then clampInt (-32768) 32767 (roundDiv (axKs s a * x.amp) (2 ^ 14)) else signed 16 (fget s (R.AX_LIVE a) F.AX_LIVE_U), play := none })
    let s := start (start s (2 * c)) (2 * c + 1)
    let s := modScanner s c (fun x => { x with parkAt := now s })
    let s := if c = 0 then { s with sht := { s.sht with marks := [] } } else s
    let s := fset (fset s (R.SCN_STAT c) F.SCN_STAT_STATE scnPark) (R.SCN_STAT c) F.SCN_STAT_CAUSE cause
    let s := foff s (R.SCN_STAT c) F.SCN_STAT_EMIT_OK
    if ran then
      let s := if flag s (R.SCN_MARK c) F.SCN_MARK_MARK_EN then raise s (507 + 4 * c) else s
      safCheck s
    else s

/-- PARK_COMPLETE (R217, R218). -/
def execParkComplete (c : Fin 2) (s : State) : Host.Outcome State Fault Refusal :=
  .next (done (
    if scnState s c.val = scnPark ∧ (scanner s c.val).parkAt + parkTicks s c.val ≤ now s then
      let s := foff s (R.SCN_STAT c.val) F.SCN_STAT_MIR_EN
      if fget s (R.SCN_STAT c.val) F.SCN_STAT_CAUSE = 0 then fset s (R.SCN_STAT c.val) F.SCN_STAT_STATE scnOff
      else raise (fset s (R.SCN_STAT c.val) F.SCN_STAT_STATE scnFault) (505 + 4 * c.val)
    else s))

/-- START (R218). -/
def scnStart (s : State) (c : Nat) : State :=
  let f := fastAxis s c
  let o := otherAxis f
  let st := scnState s c
  let md := modeOf s
  if (st = scnOff ∨ st = scnFault) ∧ flag s R.CTL_CTRL F.CTL_CTRL_EN ∧ (md = .calibrate ∨ md = .scan ∨ md = .safeHold) ∧
      axType s f ≠ 0 ∧ axType s o ≠ 2 then
    let fresh := fun (s : State) (a : Nat) =>
      let s := modAxis s a (fun x => { x with
        sect := [], integ := 0, side := 0, iq := 0, qq := 0, ip := 0, ia := 0, play := none, u0 := parkOut s a })
      let s := foff s (R.AX_SWAP a) F.AX_SWAP_PRESET_OUT
      if axType s a = 1 then trjLatch s a else s
    let s := fresh (fresh s (2 * c)) (2 * c + 1)
    let s := modScanner s c (fun x => { x with startAt := now s, rampAt := now s, lockRun := 0, counting := false, good := 0, below := 0 })
    let s := fon s (R.SCN_STAT c) F.SCN_STAT_MIR_EN
    if axType s f = 2 then
      let s := wr s (R.AX_FREQ f) (BitVec.ofNat 32 (fMax s f))
      let s := modAxis s f (fun x => { x with amp := roundDiv (coef s f cAMP) 8 })
      fset s (R.SCN_STAT c) F.SCN_STAT_STATE scnSweep
    else fset s (R.SCN_STAT c) F.SCN_STAT_STATE scnRamp
  else s

/-- SCN_START (R218) (log 106). -/
def execScnStart (c : Fin 2) (s : State) : Host.Outcome State Fault Refusal := .next (done (scnStart s c.val))

/-- SCN_STOP (R218). -/
def execScnStop (c : Fin 2) (s : State) : Host.Outcome State Fault Refusal := .next (done (enterPark s c.val 0))

/-- START_TIMEOUT (R218). -/
def execStartTimeout (c : Fin 2) (s : State) : Host.Outcome State Fault Refusal :=
  .next (done (
    if (scnState s c.val = scnSweep ∨ scnState s c.val = scnRamp) ∧ (scanner s c.val).startAt + startToTicks s c.val ≤ now s then
      enterPark s c.val 4
    else s))

/-- Both scanners park for a mode change (R218). -/
def parkAll (s : State) : State := enterPark (enterPark s 0 0) 1 0

/-- No scanner is moving or parking. -/
def scannersStill (s : State) : Bool :=
  (List.range 2).all (fun c => decide (scnState s c = scnOff) || decide (scnState s c = scnFault))

/-! ### Periods, envelope and stall (R209, R218, R219) -/

/-- Target of the fast axis: AMP_TGT of the active bank, or TRJ_AMP. -/
def fastTarget (s : State) (c : Nat) : Int :=
  let f := fastAxis s c
  if axType s f = 2 then coef s f cAMP else (fget s (R.AX_FF f) F.AX_FF_TRJ_AMP : Int)

/-- Every move from PARK of the scanner has completed at half-tick t; a resonant axis makes none (R218). -/
def movesDone (s : State) (c t : Nat) : Bool :=
  (decide (axType s (2 * c) ≠ 1) && decide (axType s (2 * c + 1) ≠ 1)) || decide (2 * ((scanner s c).startAt + parkTicks s c) ≤ t)

/-- The ramped amplitude target at half-tick t, and whether it has reached AMP_TGT (R218). -/
def rampTarget (s : State) (c a t : Nat) : Int × Bool :=
  let tgt := coef s a cAMP
  let h := t - 2 * (scanner s c).rampAt
  let k := 256 * 2500000 + 8 * aRamp s c * h
  if 2048 * 2500000 ≤ k then (tgt, true) else (roundDiv (tgt * k) (2048 * 2500000), false)

/-- A scanner enters RUN (R218). -/
def enterRun (s : State) (c : Nat) : State :=
  let s := fset (fon s (R.SCN_STAT c) F.SCN_STAT_EMIT_OK) (R.SCN_STAT c) F.SCN_STAT_STATE scnRun
  let s := finc s (R.SCN_CNT c) F.SCN_CNT_START_CNT
  let s := modScanner s c (fun x => { x with below := 0, stalled := false })
  safCheck (raise (stallClear s c) (506 + 4 * c))

/-- The end of a fast-axis period at half-tick t. A period in which the feedback channel delivered an INVALID output counts as below
80 %, also where a restart has discarded the detector's window (R219). -/
def fastPeriod (s : State) (c t : Nat) : State :=
  if scnMoving s c = false then s
  else
    let ch := fget s (R.AX_CFG (fastAxis s c)) F.AX_CFG_FB_CH
    let env := fget s (R.DEC_ENV ch) F.DEC_ENV_ENV
    let inv := decide ((decChan s ch).invN ≠ (scanner s c).invSeen)
    let s := modScanner s c (fun x => { x with invSeen := (decChan s ch).invN })
    let tgt := fastTarget s c
    let (share, s) := if 0 < tgt then openQuot s (env * 512) tgt.toNat else ((openVal s).1.toNat % 1024, (openVal s).2)
    let s := fset s (R.SCN_STAT c) F.SCN_STAT_ENV (satN 10 share)
    let x := scanner s c
    if scnState s c = scnRamp then
      if x.counting then
        let ok := decide (20 * ((env : Int) - tgt) ≤ tgt) && decide (20 * (tgt - env) ≤ tgt)
        let s := modScanner s c (fun x => { x with good := if ok then x.good + 1 else 0 })
        if (scanner s c).good = 16 then enterRun s c else s
      else
        let f := fastAxis s c
        let ready := movesDone s c t && (decide (axType s f = 1) || (rampTarget s c f t).2)
        modScanner s c (fun x => { x with counting := ready, good := 0 })
    else if scnState s c = scnRun then
      let low := inv || decide (5 * (env : Int) < 4 * tgt)
      let s := modScanner s c (fun x => { x with below := if low then x.below + 1 else 0 })
      if (scanner s c).below = 2 then
        let s := modScanner s c (fun x => { x with stalled := true })
        enterPark (flagRaise (finc s (R.SCN_CNT c) F.SCN_CNT_STALL_CNT) R.CTL_STAT F.CTL_STAT_STALL (504 + 4 * c)) c 1
      else s
    else s

/-- The mark axis of scanner 0 (R209). -/
def markAxis (s : State) : Option Nat :=
  let f := fastAxis s 0
  if axType s f = 1 then some f else if axType s (otherAxis f) = 1 then some (otherAxis f) else none

/-- A period of axis a ends at half-tick t: detector windows, frame mark, envelope check. -/
def periodEnd (s : State) (a t : Nat) : State :=
  let s := periodMark s a
  let s := if a < 2 ∧ markAxis s = some a ∧ scnState s 0 = scnRun ∧ flag s (R.SCN_MARK 0) F.SCN_MARK_MARK_EN then
      { s with sht := { s.sht with marks := s.sht.marks ++ [ceilDiv t 2 + fget s (R.SCN_MARK 0) F.SCN_MARK_MARK_OFS] } }
    else s
  if fastAxis s (a / 2) = a then fastPeriod s (a / 2) t else s

/-! ### Swaps (R215, R216) -/

/-- The other bank becomes active. -/
def bankToggle (s : State) (a : Nat) : State :=
  let s := modAxis s a (fun x => { x with swap := none })
  let s := fset (foff s (R.AX_SWAP a) F.AX_SWAP_PEND) (R.AX_SWAP a) F.AX_SWAP_BANK (1 - axBank s a)
  ctlLoad (raise (finc s (R.AX_SWAP a) F.AX_SWAP_SWAPS) (491 + 4 * a))

/-- A write of AX_SWAP (R215) (log 66). -/
def swapWrite (s : State) (a : Nat) (swap frame : Bool) : State :=
  let s := fsetB s (R.AX_SWAP a) F.AX_SWAP_AT_FRAME frame
  if swap = false ∨ (axis s a).swap.isSome then s
  else if axType s a = 0 then bankToggle s a
  else fon (modAxis s a (fun x => { x with swap := some frame })) (R.AX_SWAP a) F.AX_SWAP_PEND

/-- AXIS_SWAP (R215). -/
def execAxisSwap (a : Fin 4) (frame : Bool) (s : State) : Host.Outcome State Fault Refusal := .next (done (swapWrite s a.val true frame))

/-- A frame start releases the swaps that wait for it (R215). -/
def swapFrame (s : State) : State :=
  (List.range 4).foldl (fun s a => if (axis s a).swap = some true then modAxis s a (fun x => { x with swap := some false }) else s) s

/-! ### The axis programs (R208, R211) -/

/-- One filter section of axis a on (x, state). -/
def sectStep (a : Nat) (p : Int × State) (k : Nat) : Int × State :=
  let (x, s) := p
  if bitOf (sectEn s a) k = false then (x, s)
  else
    let c := fun i => coef s a (16 * k + 2 * i)
    let z := tget Sect.init (axis s a).sect k
    let sum := c 0 * x + c 1 * z.x1 + c 2 * z.x2 - c 3 * z.y1 - c 4 * z.y2
    let sh := c 5
    let (y, s) := if 0 ≤ sh ∧ sh ≤ 3 then satQ s a (sum * 2 ^ sh.toNat) (2 ^ 15)
      else (signed 16 (openVal s).1.toNat, (openVal s).2)
    (y, modAxis s a (fun ax => { ax with sect := tput Sect.init ax.sect k ⟨x, z.x1, y, z.y1⟩ }))

/-- The integrator of R208 with an increment `d`, in 2 to the −30, under the limits and PRESET_OUT (R216) (log 66). -/
def integStep (s : State) (a : Nat) (d : Int) : State :=
  let x := axis s a
  let lo := coef s a cILO * 2 ^ 15
  let hi := coef s a cIHI * 2 ^ 15
  let d := if (x.side = 1 ∧ 0 < d) ∨ (x.side = -1 ∧ d < 0) then 0 else d
  if flag s (R.AX_SWAP a) F.AX_SWAP_PRESET_OUT then
    if hi < x.integ then
      let i := x.integ + min d 0
      if hi < i then modAxis s a (fun x => { x with integ := i })
      else foff (modAxis s a (fun x => { x with integ := clampInt lo hi i })) (R.AX_SWAP a) F.AX_SWAP_PRESET_OUT
    else if x.integ < lo then
      let i := x.integ + max d 0
      if i < lo then modAxis s a (fun x => { x with integ := i })
      else foff (modAxis s a (fun x => { x with integ := clampInt lo hi i })) (R.AX_SWAP a) F.AX_SWAP_PRESET_OUT
    else foff (modAxis s a (fun x => { x with integ := clampInt lo hi (x.integ + d) })) (R.AX_SWAP a) F.AX_SWAP_PRESET_OUT
  else modAxis s a (fun x => { x with integ := clampInt lo hi (x.integ + d) })

/-- The output clamp: u from KS × `sum`, `sum` in 2 to the −30; it records the side of a clamp (log 66). -/
def axOutput (s : State) (a : Nat) (sum : Int) : Int × State :=
  let num := (axKs s a : Int) * sum
  let v := roundDiv num (2 ^ 29)
  let (q, s) := satQ s a num (2 ^ 29)
  let lo := coef s a cUMIN
  let hi := coef s a cUMAX
  (clampInt lo hi q, modAxis s a (fun x => { x with side := if hi < v then 1 else if v < lo then -1 else 0 }))

/-- The quasi-static program (R208) on feedback `y` and acceleration `acc`; `swapped` at a swap boundary. The integrator is read after
rounding (R204); a preset that R216 keeps outside −1.0 to 1.0 is read as it is, so that the swap is bumpless. DEDUCED (log 66). -/
def quasiStatic (s : State) (a : Nat) (y acc : Int) (swapped : Bool) : Int × State :=
  let (r, ta) := trjEntry s a ((axis s a).play.getD 0)
  let (e, s) := satQ s a (r - y) 1
  let (v, s) := (List.range 4).foldl (sectStep a) (e, s)
  let ff := coef s a cKA * ta + coef s a cKB * acc
  let kp := coef s a cKP * v
  let s :=
    if swapped then
      let ut := clampInt (coef s a cUMIN) (coef s a cUMAX) (signed 16 (fget s (R.AX_LIVE a) F.AX_LIVE_U))
      let i := roundDiv (ut * 2 ^ 29) (axKs s a) - kp - ff
      fsetB (modAxis s a (fun x => { x with integ := i })) (R.AX_SWAP a) F.AX_SWAP_PRESET_OUT
        (decide (i < coef s a cILO * 2 ^ 15) || decide (coef s a cIHI * 2 ^ 15 < i))
    else integStep s a (coef s a cKI * e)
  let i := roundDiv (axis s a).integ (2 ^ 15)
  let (u, s) := axOutput s a (kp + i * 2 ^ 15 + ff)
  (u, modAxis s a (fun x => { x with play := x.play.map (· + 1) }))

/-- The demodulator: Iq, Qq, AMP and e_p. -/
def demodulate (s : State) (a : Nat) (y sn cs : Int) : Int × State :=
  let step := fun (s : State) (q k : Int) => satQ s a (63 * q * 2 ^ 15 + y * k) (64 * 2 ^ 15)
  let (i, s) := step s (axis s a).iq cs
  let (q, s) := step s (axis s a).qq sn
  let s := modAxis s a (fun x => { x with iq := i, qq := q })
  let (amp, s) := satQ s a (nearRoot (4 * (i * i + q * q)).toNat) 1
  let (t, s) := openAtan s q i
  let (ep, s) := satQ s a (t - coef s a cPH) 1
  (ep, fset (fset s (R.AX_RES a) F.AX_RES_AMP (unsigned 16 amp)) (R.AX_RES a) F.AX_RES_PH_ERR (unsigned 16 ep))

def axAmp (s : State) (a : Nat) : Int := signed 16 (fget s (R.AX_RES a) F.AX_RES_AMP)
def ftw (s : State) (a : Nat) : Nat := (rd s (R.AX_FREQ a)).toNat
def setFtw (s : State) (a : Nat) (v : Int) : State := wr s (R.AX_FREQ a) (BitVec.ofNat 32 v.toNat)

/-- Presets Ip so that FTW keeps its value within F_MIN to F_MAX, and Ia so that A keeps its value within 0 to
UMAX, for the phase error `ep` and the amplitude error `ea` (R216, R218). -/
def presetLoops (s : State) (a : Nat) (ep ea : Int) : State :=
  let f := clampInt (fMin s a) (fMax s a) (ftw s a)
  let amp := clampInt 0 (coef s a cUMAX) (axis s a).amp
  let ip := roundDiv (f * 2 ^ 14 - (fMin s a + fMax s a : Nat) * 2 ^ 13 - coef s a cKPP * ep) (2 ^ 15)
  let ia := roundDiv (amp * 2 ^ 15 - coef s a cKPA * ea) (2 ^ 15)
  setFtw (modAxis s a (fun x => { x with
    ip := clampInt (-32768) 32767 ip, ia := clampInt (-32768) 32767 ia, amp := amp })) a f

/-- The phase and amplitude loops at half-tick t, over the real values of the Q15 numbers (R204, R211). DEDUCED (log 66). -/
def lockLoops (s : State) (c a t : Nat) (ep : Int) (swapped : Bool) : State :=
  let tgt := if scnState s c = scnRamp then (rampTarget s c a t).1 else coef s a cAMP
  let (ea, s) := satQ s a (tgt - axAmp s a) 1
  if swapped then presetLoops s a ep ea
  else
    let x := axis s a
    let f := roundDiv ((fMin s a + fMax s a : Nat) * 2 ^ 13 + coef s a cKPP * ep + x.ip * 2 ^ 15) (2 ^ 14)
    let (amp, s) := satQ s a (coef s a cKPA * ea + x.ia * 2 ^ 15) (2 ^ 15)
    let (ip, s) := satQ s a (x.ip * 2 ^ 15 + coef s a cKIP * ep) (2 ^ 15)
    let (ia, s) := satQ s a (x.ia * 2 ^ 15 + coef s a cKIA * ea) (2 ^ 15)
    let s := setFtw s a (clampInt (fMin s a) (fMax s a) f)
    modAxis s a (fun x => { x with amp := clampInt 0 (coef s a cUMAX) amp, ip := ip, ia := ia })

/-- FTW of SWEEP at half-tick t: F_MAX less SWEEP × 0.1 Hz per ms. DEDUCED (log 66). -/
def sweepFtw (s : State) (c a t : Nat) : Int × State :=
  let h := t - 2 * (scanner s c).startAt
  let (d, s) := openQuot s (sweepRate s c * h * 2 ^ 32 * (axPeriod s a / 5)) (10 * 2500000 * 500000000)
  ((fMax s a : Int) - d, s)

/-- SWEEP after the sample: lock, or the end of the sweep (R218). -/
def sweepEnd (s : State) (c a t : Nat) (ep : Int) : State :=
  let s := modScanner s c (fun x => { x with lockRun := if ep.natAbs < 2048 then x.lockRun + 1 else 0 })
  if (scanner s c).lockRun = 8 then
    let s := modScanner s c (fun x => { x with rampAt := t / 2, counting := false, good := 0 })
    let s := fset s (R.SCN_STAT c) F.SCN_STAT_STATE scnRamp
    let (ea, s) := satQ s a ((rampTarget s c a t).1 - axAmp s a) 1
    presetLoops s a ep ea
  else
    let (f, s) := sweepFtw s c a t
    if f ≤ fMin s a then enterPark (setFtw s a (fMin s a)) c 3 else setFtw s a f

/-- The resonant program (R211) at half-tick t, phi being advanced already. -/
def resonant (s : State) (a t : Nat) (y acc : Int) (swapped : Bool) : Int × State :=
  let c := a / 2
  let sn := tableSin (axis s a).phi
  let cs := tableSin ((axis s a).phi + 2 ^ 30)
  let (ep, s) := demodulate s a y sn cs
  let sweep := decide (scnState s c = scnSweep)
  let s := if sweep then modAxis s a (fun x => { x with amp := roundDiv (coef s a cAMP) 8 }) else lockLoops s c a t ep swapped
  let (u, s) := axOutput s a ((axis s a).amp * sn + coef s a cKB * acc)
  (u, if sweep then sweepEnd s c a t ep else s)

/-! ### Samples (R205, R213 to R215, R220) -/

/-- The instants of axis a that have come since the one last taken: the first of them, and their number. -/
def axInstants (s : State) (a : Nat) : Nat × Nat :=
  let p := axPeriod s a
  let base := 2 * s.ctl.enAt
  let k := (max base (axis s a).last - base) / p
  (base + (k + 1) * p, (2 * now s - base) / p - k)

/-- The control engine and its drive interfaces work. -/
def ctlRuns (s : State) (a : Nat) : Bool :=
  flag s R.CTL_CTRL F.CTL_CTRL_EN && decide (axType s a ≠ 0) && s.sys.held.isNone && decide (modeOf s ≠ .bypass)

/-- The drive word of an output (R213). -/
def driveWord (s : State) (a : Nat) (u : Int) : Nat :=
  let d := unsigned 16 u
  fget s (R.AX_DRV a) F.AX_DRV_CMD * 2 ^ 20 + fget s (R.AX_DRV a) F.AX_DRV_ADDR * 2 ^ 16 +
    (if flag s (R.AX_DRV a) F.AX_DRV_FMT then (d + 0x8000) % 0x10000 else d)

/-- The drive interface sends the word of the previous sample. -/
def sendWord (s : State) (a : Nat) : State :=
  match (axis s a).word with
  | some w => send (modAxis s a (fun x => { x with sent := w })) (.drive a w)
  | none => s

/-- phi advances over `n` instants (R211); whether it wrapped. -/
def phiStep (s : State) (a n : Nat) : State × Bool :=
  if axType s a = 2 then
    let p := (axis s a).phi + n * ftw s a
    (modAxis s a (fun x => { x with phi := p % 2 ^ 32 }), decide (2 ^ 32 ≤ p))
  else (s, false)

/-- The latest valid output of channel ch stamped at or before half-tick t (log 65). -/
def validAt (s : State) (ch t : Nat) : Option DecSample :=
  (decChan s ch).hist.find? (fun h => decide (2 * h.stamp ≤ t) && !h.invalid)

/-- The feedback of axis a at half-tick t: FB_LATE, FB_AGE and the counts of R220. -/
def feedback (s : State) (a t : Nat) : Int × State :=
  let cfg := rd s (R.AX_CFG a)
  let ch := getFld cfg F.AX_CFG_FB_CH
  let x := axis s a
  let new := validAt s ch t
  let late := match (decChan s ch).hist.find? (fun h => decide (2 * h.stamp ≤ t)) with
    | some h => h.invalid
    | none => false
  let isNew := match new, x.fb with
    | some h, some (_, st) => decide (h.stamp ≠ st)
    | some _, none => true
    | none, _ => false
  let fb := match new with
    | some h => some (h.value, h.stamp)
    | none => x.fb
  let s := if late then fon s R.CTL_STAT F.CTL_STAT_FB_LATE else s
  let differ := match validAt s (getFld cfg F.AX_CFG_CHK_CH) t, fb with
    | some h, some (v, _) => decide (16 * 2 ^ getFld cfg F.AX_CFG_CHK_LIM < (h.value - v).natAbs)
    | _, _ => false
  let s := modAxis s a (fun x => { x with
    fb := fb, miss := if isNew then 0 else x.miss + 1,
    dis := if differ && decide (getFld cfg F.AX_CFG_CHK_EN = 1) then x.dis + 1 else 0 })
  match fb with
  | some (v, st) =>
    let (age, s) := openQuot s (t - 2 * st) 2
    (v, fset s (R.AX_DLY a) F.AX_DLY_FB_AGE (satN 16 age))
  | none => (signed 16 (openVal s).1.toNat, (openVal s).2)

/-- A sensor fault of axis a: declared at the 64th sample without a valid output and at the 8th disagreement (R220), and again at the
first sample of a scanner that starts while the condition stands (DESIGN CHOICE, log 66); it parks a moving scanner (R218). -/
def sensorCheck (s : State) (a : Nat) : State :=
  let x := axis s a
  let moving := scnMoving s (a / 2)
  let s := if x.dis = 8 ∨ (8 ≤ x.dis ∧ moving = true) then fon s R.CTL_STAT F.CTL_STAT_SENS_DIS else s
  if x.dis = 8 ∨ x.miss = 64 ∨ ((8 ≤ x.dis ∨ 64 ≤ x.miss) ∧ moving = true) then enterPark (raise s (490 + 4 * a)) (a / 2) 5 else s

/-- The output of axis a at half-tick t, and whether a trajectory wrap ends a period. -/
def axCompute (s : State) (a t : Nat) (y acc : Int) (swapped : Bool) : Int × Bool × State :=
  let c := a / 2
  let st := scnState s c
  if st = scnOff ∨ st = scnFault then (parkOut s a, false, s)
  else if st = scnPark then
    let n := t - 2 * (scanner s c).parkAt
    let d := 2 * parkTicks s c
    if axType s a = 1 then
      let (u, s) := genMove s (axis s a).u0 (parkOut s a) n d
      (u, false, s)
    else if d ≤ n then (parkOut s a, false, s)
    else
      let sn := tableSin (axis s a).phi
      let (cen, s) := genMove s 0 (parkOut s a) n d
      let (v, s) := openDivI s ((axis s a).u0 * sn * (d - n : Nat)) (2 ^ 15 * d)
      let (u, s) := satQ s a (v + cen) 1
      (u, false, s)
  else if axType s a = 2 then
    let (u, s) := resonant s a t y acc swapped
    (u, false, s)
  else if movesDone s c t = false then
    let (u, s) := genMove s (axis s a).u0 (trjEntry s a 0).1 (t - 2 * (scanner s c).startAt) (2 * parkTicks s c)
    (u, false, s)
  else
    let (wrapped, s) := match (axis s a).play with
      | none => (false, modAxis s a (fun x => { x with play := some 0 }))
      | some i => if (axis s a).len ≤ i then (true, modAxis (trjLatch s a) a (fun x => { x with play := some 0 })) else (false, s)
    let (u, s) := quasiStatic s a y acc swapped
    (u, wrapped, s)

/-- The park generator, not the axis program, forms the output of axis a at half-tick t (R217, R221). -/
def genRuns (s : State) (a t : Nat) : Bool :=
  !scnMoving s (a / 2) || (decide (axType s a = 1) && !movesDone s (a / 2) t)

/-- The sample of axis a at half-tick t overruns (R214): the program changes nothing and the word that stands is sent again; an
output of the park generator goes on (R217). -/
def overrun (s : State) (a t : Nat) : State :=
  let s := sendWord (modAxis s a (fun x => { x with last := t })) a
  let (s, wrap) := phiStep s a 1
  let s := if genRuns s a t then
      let r := axCompute s a t 0 0 false
      fset (modAxis r.2.2 a (fun x => { x with word := some (driveWord r.2.2 a r.1) })) (R.AX_LIVE a) F.AX_LIVE_U (unsigned 16 r.1)
    else s
  let run := fget s (R.AX_CNT a) F.AX_CNT_OVR_RUN
  let s := finc s (R.AX_CNT a) F.AX_CNT_OVR_TOTAL
  let s := fset s (R.AX_CNT a) F.AX_CNT_OVR_RUN (min 4 (run + 1))
  let s := flagRaise s R.CTL_STAT F.CTL_STAT_OVERRUN (488 + 4 * a)
  let s := if wrap then periodEnd s a t else s
  if run = 3 then
    let s := enterPark s (a / 2) 2
    if safActive s && bitOf (cfgScnUse s.saf.cfg) (a / 2) then latchFault s F.SAF_FAULT_SCN_OVR else s
  else s

/-- Axes with a sample instant that has come and is not yet taken. -/
def axesDue (s : State) : List Nat := (List.range 4).filter (fun a => ctlRuns s a && decide (0 < (axInstants s a).2))

/-- Of some axes the one with the earliest next sample instant, ties to the lower number (R212). -/
def pickOf (s : State) (l : List Nat) : Option Nat :=
  l.foldl (fun b a => match b with
    | none => some a
    | some b => if (axInstants s a).1 + axPeriod s a < (axInstants s b).1 + axPeriod s b then some a else some b) none

/-- The axis whose sample the engine computes (R212): the one it took when it last became free, else the pick of those whose
instant came first. DEDUCED (log 65). -/
def enginePick (s : State) : Option Nat :=
  match s.ctl.cur.filter (fun a => (axesDue s).contains a) with
  | some a => some a
  | none =>
    let l := axesDue s
    let first := (l.map (fun a => (axInstants s a).1)).foldl min (2 * now s)
    pickOf s (l.filter (fun a => decide ((axInstants s a).1 = first)))

/-- The engine is free and takes the next pending sample. -/
def engineFree (s : State) : State := let p := pickOf s (axesDue s); { s with ctl := { s.ctl with cur := p } }

/-- LOAD exceeds 1,024: axes may overrun (R212). -/
def overloaded (s : State) : Bool := decide (1024 < fget s R.CTL_LOAD F.CTL_LOAD_LOAD)

/-- Weight k of a third-order sinc filter of ratio 16 (R206). -/
def sincWeight (k : Nat) : Nat :=
  let tri := fun (n : Nat) => n * (n + 1) / 2
  tri (k + 1) + 3 * tri (k + 1 - 32) - 3 * tri (k + 1 - 16)

/-- The decimated value of a bitstream from its last 46 bits (R206). -/
def sincValue (bits : Nat) : Int :=
  clampInt (-32768) 32767
    (8 * ((List.range 46).map (fun k => if bitOf bits k then (sincWeight k : Int) else -(sincWeight k : Int))).sum)

/-- At half-tick t the decimated values of ACC_IN are those of the present decimation period: new ones, from the streams' last
46 bits, once it has begun (R206) (log 137). -/
def accLatch (s : State) (t : Nat) (bits : BitVec 184) : State :=
  if t / 16000 = s.ctl.accAt then s
  else
    let v := (List.range 4).map (fun i => sincValue (bits.toNat / 2 ^ (46 * i) % 2 ^ 46))
    { s with ctl := { s.ctl with accAt := t / 16000, acc := v } }

/-- AXIS_SAMPLE (R205, R206, R212 to R214): the engine completes the pending sample of axis a, once it is the one it computes; under
LOAD above 1,024 the samples whose next instant has come have overrun. `acc`: the last 46 bits of each ACC_IN stream.
DEDUCED (log 65). -/
def execAxisSample (a : Fin 4) (acc : BitVec 184) (s : State) : Host.Outcome State Fault Refusal :=
  let a := a.val
  let (t0, n) := axInstants s a
  .next (done (
    if ctlRuns s a = false ∨ n = 0 ∨ enginePick s ≠ some a then s
    else
      let k := if overloaded s then n - 1 else 0
      let t := t0 + k * axPeriod s a
      let s := (List.range k).foldl (fun s i => overrun s a (t0 + i * axPeriod s a)) s
      let s := sendWord (modAxis s a (fun x => { x with last := t })) a
      let s := accLatch s t acc
      let (s, wrap) := phiStep s a 1
      let swapped := decide ((axis s a).swap = some false)
      let s := if swapped then bankToggle s a else s
      let (y, s) := feedback s a t
      let (u, wrapped, s) := axCompute s a t y (s.ctl.acc.getD (fget s (R.AX_CFG a) F.AX_CFG_ACC_SEL) 0) swapped
      let s := modAxis s a (fun x => { x with word := some (driveWord s a u) })
      let s := fset (fset s (R.AX_LIVE a) F.AX_LIVE_Y (unsigned 16 y)) (R.AX_LIVE a) F.AX_LIVE_U (unsigned 16 u)
      let s := foff s (R.AX_CNT a) F.AX_CNT_OVR_RUN
      let s := if wrap || wrapped then periodEnd s a t else s
      engineFree (sensorCheck s a)))

/-- AXIS_OVERRUN (R214): under LOAD above 1,024 the sample of the earliest instant not yet taken had not completed at the next
one (log 65). -/
def execAxisOverrun (a : Fin 4) (s : State) : Host.Outcome State Fault Refusal :=
  let a := a.val
  let (t, n) := axInstants s a
  .next (done (
    if ctlRuns s a = false ∨ n < 2 ∨ overloaded s = false then s
    else
      let mine := decide (enginePick s = some a)
      let s := overrun s a t
      if mine then engineFree s else s))

/-! ### Drive pins (R213, R221) -/

/-- The levels between two words of DRV_SCK, DRV_SDO, DRV_LD_N and DRV_SYNC_N of axis a: in reset and in BYPASS the levels of
R221, else an idle interface that holds the last word's last bit (R213) (log 138). -/
def drvPins (s : State) (a : Nat) : Bool × Bool × Bool × Bool :=
  if s.sys.held.isSome || decide (modeOf s = .bypass) then (false, false, false, true)
  else (false, bitOf ((axis s a).sent) 0, true, true)

/-! ### Register writes -/

/-- A write of CTL_CTRL: EN turning 1 fixes the phase of the sample instants (R205). -/
def ctlEnSet (s : State) (en : Bool) : State :=
  let was := flag s R.CTL_CTRL F.CTL_CTRL_EN
  let s := fsetB s R.CTL_CTRL F.CTL_CTRL_EN en
  if en && !was then
    let s := { s with ctl := { s.ctl with enAt := now s } }
    (List.range 4).foldl (fun s a => modAxis s a (fun x => { x with last := 2 * now s, word := none })) s
  else s

/-- AX_CFG has been written: CTL_LOAD follows, and an axis whose TYPE leaves off takes the sample instants from now on (R205, R212). -/
def axCfgDone (s0 s : State) (a : Nat) : State :=
  ctlLoad (if axType s0 a = 0 ∧ axType s a ≠ 0 then modAxis s a (fun x => { x with last := 2 * now s, word := none }) else s)

/-- After a write of the RWM fields of SCN_CTRL: KS with SUP_SEL = 0xFF, and CTL_LOAD (R207, R212). -/
def scnCfgDone (s : State) (c : Nat) : State :=
  let s := if fget s (R.SCN_CTRL c) F.SCN_CTRL_SUP_SEL = 0xFF then
      fset (fset s (R.AX_FF (2 * c)) F.AX_FF_KS 0x4000) (R.AX_FF (2 * c + 1)) F.AX_FF_KS 0x4000
    else s
  ctlLoad s

end Sys2Proof.Machine
end

