-- ==== Sys2Proof/Machine/Frames.lean ====
section
/-! DEFINITION. Frame starts (R92, R93, R182, R397) and everything that takes effect at one. -/

namespace Sys2Proof.Machine

/-- FRAME_SRC. -/
def frameSrc (s : State) : Nat := fget s R.SHT_CTRL F.SHT_CTRL_FRAME_SRC

/-- FRAME_LEN in ticks. -/
def frameLen (s : State) : Nat := (rd s R.SHT_FRAME_LEN).toNat

/-! ### The ring master's marks (R397) -/

/-- A frame start is scheduled, behind those that are due no later (R397). -/
def startPlan (s : State) (t : Nat) : State :=
  { s with ring := { s.ring with startAt := s.ring.startAt.filter (· ≤ t) ++ t :: s.ring.startAt.filter (t < ·) } }

/-- A frame mark of the ring master at the present tick: FRAME_START is broadcast, and with FRAME_SRC = 11 the
master's own frame follows FS_LEAD later. -/
def ringMark (s : State) : State :=
  if ringTalks s && flag s R.RING_STAT F.RING_STAT_MASTER && (decide (rstate s = 2) || decide (rstate s = 3)) then
    let s := castRing s 4 0 0 0 0 (now s)
    let s := if frameSrc s = 3 then startPlan s (now s + fget s R.RING_CFG F.RING_CFG_FS_LEAD) else s
    { s with ring := { s.ring with fsAt := now s } }
  else s

/-- A mark of source `src`, coded as RING_FSRC. -/
def ringMarkOf (s : State) (src : Nat) : State :=
  if fget s R.RING_CFG F.RING_CFG_RING_FSRC = src then ringMark s else s

/-! ### The frame header (R182) -/

/-- An entry of the frame header (log 91). -/
def hdrEntry (s : State) (u : Nat) : List Byte := leBytes 2 u ++ [0, 0] ++ leBytes 4 (unitWord s u).toNat

/-- The frame header of the present frame, and whether it is full. DEDUCED (log 91). -/
def frameHeader (s : State) : List Byte :=
  let no := (rd s R.SHT_FRAME_NO).toNat
  let full := s.ps.fullNext || decide (no % max 1 (fget s R.PS_CTRL F.PS_CTRL_FULL_EVERY) = 0)
  let us := unitList.filter (fun u => full || decide (unitWord s u ≠ tget 0#32 s.ps.lastWords u))
  leBytes 4 (0x46000000 + b2n full * 2 ^ 23 + us.length) ++ leBytes 4 no ++ leBytes 8 (now s)
    ++ leBytes 4 (fget s R.ENP_KINFO F.ENP_KINFO_SET_ACT * 2 ^ 16 + fget s R.SHT_NODE F.SHT_NODE_NODE_ID)
    ++ leBytes 4 (frameLen s) ++ leBytes 4 (unitWord s 0xA0).toNat ++ leBytes 4 (unitWord s 0xA1).toNat
    ++ us.flatMap (hdrEntry s)

/-- The header is enqueued in every enabled queue of the point stage (R352) (log 91). -/
def emitHeader (s : State) : State :=
  let h := frameHeader s
  let s := (List.range 256).foldl (fun s q => if slqPoint s q then slqRecord s q h else s) s
  { s with ps := { s.ps with lastWords := s.units, fullNext := false } }

/-! ### A frame starts (R93) -/

/-- PS_EMIT, PS_CHOFS, PS_CHDIR and PS_CHPAR take effect (R183). -/
def psLatch (s : State) : State :=
  { s with ps := { s.ps with frameRegs := s.regs.filter (fun p =>
      (decide (R.PS_EMIT 0 ≤ p.1) && decide (p.1 < R.PS_EMIT 128)) ||
      (decide (R.PS_CHOFS 0 ≤ p.1) && decide (p.1 < R.PS_CHOFS 1024)) ||
      (decide (R.PS_CHPAR 0 ≤ p.1) && decide (p.1 < R.PS_CHPAR 1024))) } }

/-- The pending range becomes active (R90, R93). -/
def rangeSwitch (s : State) : State :=
  match s.sht.pendRange with
  | some (a, b) =>
    let s := fset (fset s R.SHT_ACT F.SHT_ACT_FIRST a) R.SHT_ACT F.SHT_ACT_LAST b
    foff { s with sht := { s.sht with pendRange := none } } R.SHT_VAL F.SHT_VAL_PENDING
  | none => s

/-- A frame starts now. `chb`: the channel B test pattern meets its golden value (R273) (log 48). A start that R78 postpones has its
header when the relock ends. -/
def frameStart (s : State) (chb : Bool) : State :=
  if !firing s || modeBusy s then s
  else
    let s := rangeSwitch (fwrap (cutSlots s) R.SHT_FRAME_NO F.SHT_FRAME_NO_FRAME_NO)
    let no := (rd s R.SHT_FRAME_NO).toNat
    let kept := s.ps.frameTicks.filter (fun p => decide ((no + 2 ^ 32 - p.1) % 2 ^ 32 < 65536) && decide (p.1 ≠ no))
    let s : State := { s with ps := { s.ps with frameTicks := insertKey kept no (now s) } }
    let s : State := { s with sht := { s.sht with
      frameTick := some (now s), markLost := false, nextRow := some (fget s R.SHT_ACT F.SHT_ACT_FIRST) } }
    let s := if s.tdc.clk = .waitFrame then clkSwitch s else s
    let s := (List.range 64).foldl repSelect s
    let s := swapFrame (kswapSwitch (slqLatchRoute (psLatch s)))
    let s := ttFrame (egoUpdate (biasLoops s) no)
    let s := { s with emg := { s.emg with band := bandOf s } }
    let s := coreSwitchFrame (safFrameStart s no)
    let s := if chb then s else latchFault s F.SAF_FAULT_CHB_TEST
    let s := if s.tdc.frameHeld then s else emitHeader s
    if frameSrc s = 0 then ringMarkOf s 0 else s

/-- RELOCK ends; the frame start that it held has its header now, with this tick (R78, R92, R182) (log 91). -/
def relockHeader (s : State) : State :=
  let held := s.tdc.frameHeld && s.sht.frameTick.isSome && firing s
  let s := relockEnd s
  if held then emitHeader s else s

/-- RELOCK_DONE (R77): every DLL has locked. -/
def execRelockDone (s : State) : Host.Outcome State Fault Refusal :=
  .next (done (if s.tdc.clk = .relock then relockHeader s else s))

/-- RELOCK_TIMEOUT (R77, R79): 100 µs have elapsed; the units named are still unlocked. -/
def execRelockTimeout (still : List (Fin 65)) (s : State) : Host.Outcome State Fault Refusal :=
  .next (done (
    if s.tdc.clk = .relock ∧ s.tdc.relockAt + ticksUs 100 ≤ now s then
      still.foldl (fun s u => dllUnlock s u.val) (relockHeader s)
    else s))

/-- A frame mark arrives (R92): early marks are ignored (log 90). -/
def frameMark (s : State) (chb : Bool) : State :=
  let early := match s.sht.frameTick with
    | some t => decide (now s < t + frameLen s)
    | none => false
  if !firing s then s
  else if early then finc (fon s R.SHT_STAT F.SHT_STAT_EARLY_MARK) R.SHT_CNT_A F.SHT_CNT_A_EARLY_CNT
  else frameStart s chb

/-- Start of the next frame under FRAME_SRC = 00 (R92) (log 90). -/
def nextFrameAt (s : State) : Nat :=
  match s.sht.frameTick with
  | some t => t + frameLen s
  | none => ceilDiv (s.sht.refTick + 1250000) (max 1 (frameLen s)) * frameLen s

/-- A mark of scanner 0, in RUN, that is due (R209) (log 90). -/
def scanMarkDue (s : State) : Bool := decide (scnState s 0 = scnRun) && match s.sht.marks with | t :: _ => decide (t ≤ now s) | [] => false

/-- A frame start that a FRAME_START has scheduled is due (R397) (log 90). -/
def castDue (s : State) : Bool := match s.ring.startAt with | t :: _ => decide (t ≤ now s) | [] => false

/-- The mark of scanner 0 is taken: by the ring master under RING_FSRC = 01 and by the scheduler under
FRAME_SRC = 01. -/
def scanMark (s : State) (chb : Bool) : State :=
  let s := ringMarkOf { s with sht := { s.sht with marks := s.sht.marks.drop 1 } } 1
  if frameSrc s = 1 then frameMark s chb else s

/-- The first scheduled start is taken under FRAME_SRC = 11. -/
def castMark (s : State) (chb : Bool) : State :=
  let s := { s with ring := { s.ring with startAt := s.ring.startAt.drop 1 } }
  if frameSrc s = 3 then frameMark s chb else s

/-- FRAME_START (R92): the frame start that is due. -/
def execFrameStart (chb : Bool) (s : State) : Host.Outcome State Fault Refusal :=
  .next (done (
    if frameSrc s = 0 then (if firing s && decide (nextFrameAt s ≤ now s) then frameStart s chb else s)
    else if scanMarkDue s && decide (frameSrc s = 1) then scanMark s chb
    else if castDue s then castMark s chb
    else s))

/-- SYNC_IO rises: a mark for the scheduler and for the ring master, and a capture trigger (R92, R105, R397). -/
def syncIo (s : State) (chb : Bool) : State :=
  let s := ringMarkOf (capTrigger s 1) 2
  if frameSrc s = 2 then frameMark s chb else s

/-- FRAME_MARK (R92, R397): a mark of source `src`. Source 00 is the master's own FRAME_LEN timer. DEDUCED (log 90). -/
def execFrameMark (src : Fin 4) (chb : Bool) (s : State) : Host.Outcome State Fault Refusal :=
  .next (done (match src.val with
    | 0 => if s.ring.fsAt + frameLen s ≤ now s then ringMarkOf s 0 else s
    | 1 => if scanMarkDue s then scanMark s chb else s
    | 2 => if frameSrc s = 2 then frameMark s chb else s
    | _ => if castDue s then castMark s chb else s))

/-- FRAME_MARK_LOST (R92). -/
def execFrameMarkLost (s : State) : Host.Outcome State Fault Refusal :=
  .next (done (
    if firing s && decide (frameSrc s ≠ 0) && !s.sht.markLost &&
       decide (s.sht.frameTick.getD s.sht.refTick + 2 * frameLen s ≤ now s) then
      flagRaise { s with sht := { s.sht with markLost := true } } R.SHT_STAT F.SHT_STAT_MARK_LOST Ev.frameMarkLost
    else s))

/-- SYNC_IO_EDGE (R92, R105). -/
def execSyncIoEdge (chb : Bool) (s : State) : Host.Outcome State Fault Refusal := .next (done (syncIo s chb))

end Sys2Proof.Machine
end

