-- ==== Sys2Proof/Machine/Ring.lean ====
section
/-! DEFINITION. Rings (R388 to R398): enumeration, broadcasts, timing exchanges, alignment, exports. -/

namespace Sys2Proof.Machine

/-! ### Broadcasts (R394, R396) -/

/-- A broadcast goes on in the direction it travels (log 86). -/
def castOn (s : State) (fromD : Bool) (b : Bcast) : State := laneOut s (ringOut s (if fromD then 1 else 2)) 0 3 b.bytes

/-- A broadcast has arrived: of its originator the latest 128 are remembered, as BSEQ comes round after 256. DESIGN CHOICE (log 86). -/
def seenAdd (seen : List (Nat × Nat)) (origin bseq : Nat) : List (Nat × Nat) :=
  (origin, bseq) :: seen.filter (fun x => decide (x.1 ≠ origin) || decide (x ∈ (seen.filter (fun y => decide (y.1 = origin))).take 127))

/-- A broadcast arrives at a ranked device: acted upon at its first arrival and forwarded. Its originator takes it
off the ring when it comes back at port U; one that a wrapped ring has turned back passes on. DEDUCED (log 86). -/
def castIn (s : State) (fromD : Bool) (b : Bcast) (act : State → State) : State :=
  if !ringRanked s then s
  else if s.ring.pos = some b.origin then (if fromD then castOn s fromD b else s)
  else if s.ring.seen.contains (b.origin, b.bseq) then castOn s fromD b
  else
    act (castOn { s with ring := { s.ring with seen := seenAdd s.ring.seen b.origin b.bseq } } fromD b)

/-- A broadcast without further fields (log 86). -/
def plainCast (kind : Nat) (origin : Fin 32) (bseq : Byte) (value : Nat) : Bcast :=
  ⟨kind, origin.val, bseq.toNat, 0, 0, 0, 0, value⟩

/-! ### Enumeration (R389, R390) -/

/-- The ring leaves UP or WRAPPED for a state in which it does not serve (log 87). -/
def ringDown (s : State) : State := if rstate s = 2 ∨ rstate s = 3 then raise s 357 else s

/-- ERROR with its cause. -/
def ringError (s : State) (err : Nat) : State :=
  raise (fset (setRstate (ringDown s) 4) R.RING_STAT F.RING_STAT_ERR err) 358

/-- The master enumerates: every position is assigned afresh (log 87). -/
def enumGo (s : State) : State :=
  let s := ringDown s
  let s := { s with ring := { s.ring with seen := [], pos := some 0, breaks := [], enumAt := now s, enumSeq := s.ring.bseq } }
  let s := fset (setRstate s 1) R.RING_STAT F.RING_STAT_ERR 0
  castRing s 0 0 0 0 (fget s R.RING_CFG F.RING_CFG_RING_ID) (now s)

def ringMaster (s : State) : Bool := flag s R.RING_CFG F.RING_CFG_RING_EN && flag s R.RING_STAT F.RING_STAT_MASTER

/-- Ports U and D are ACTIVE. -/
def portsActive (s : State) : Bool := decide (lnState s 1 = lnActive) && decide (lnState s 2 = lnActive)

/-- ENUM_START (R389). -/
def execEnumStart (s : State) : Host.Outcome State Fault Refusal :=
  .next (done (if ringMaster s && portsActive s && decide (rstate s = 0) then enumGo s else s))

/-- The ring is UP for this device. A follower at port D returns to port U where that change is allowed (R391, R395) (log 144). -/
def ringUp (s : State) (size : Nat) : State :=
  let s := fset s R.RING_STAT F.RING_STAT_SIZE size
  let s := { s with ring := { s.ring with everUp := true, first := true, breaks := [] } }
  let s := raise (setRstate s 2) 356
  if s.ring.refSel = 2 ∧ refMayChange s = true then clkTake s 1 else refFirst s

/-- ENUM returns to the master with count N − 1 (R389, R392) (log 87). -/
def enumClose (s : State) (count value : Nat) : State :=
  let s := if now s < value then tbStep s (BitVec.ofNat 64 (value + 1250000 - now s)) else s
  let s := mapShow (ringUp s (count + 1))
  castRing s 1 0 0 (count + 1) 0 (rd s R.RING_MAP).toNat

/-- ENUM_RX (R389): a follower takes its position; the master completes the ring with its own ENUM, or meets another
master's; one of its own that an earlier attempt sent is not counted. DEDUCED (log 87). -/
def execEnumRx (fromD : Bool) (sender : EnumSender) (bseq : Byte) (count : Fin 32) (id : BitVec 11) (value : BitVec 64) (s : State) :
    Host.Outcome State Fault Refusal :=
  .next (done (
    if standalone s || fromD then s
    else if ringMaster s then
      if !sender.own then ringError s 3
      else if rstate s = 1 ∧ bseq.toNat = s.ring.enumSeq ∧ id.toNat = fget s R.RING_CFG F.RING_CFG_RING_ID then
        enumClose s count.val value.toNat
      else s
    else if s.ring.seen.head? = some (sender.origin.val, bseq.toNat) ∧ rstate s = 1 then s
    else if count.val = 31 then
      ringError { s with ring := { s.ring with pos := none, enumAt := now s } } 2
    else
      let s := ringDown s
      let s := { s with ring := { s.ring with seen := [(sender.origin.val, bseq.toNat)], pos := some (count.val + 1), breaks := [], enumAt := now s } }
      let s := fset s R.RING_STAT F.RING_STAT_NODE_ID (32 * id.toNat)
      let s := fset (setRstate s 1) R.RING_STAT F.RING_STAT_ERR 0
      castOn s false ⟨0, sender.origin.val, bseq.toNat, count.val + 1, 0, 0, id.toNat, max value.toNat (now s)⟩))

/-- The position of a device that joins lies between those of its two neighbours, as their PARAM frames gave them, along the D direction
(R390) (log 87). -/
def joinFits (s : State) (size : Nat) : Bool :=
  match s.ring.pos, (lanePort s 1).partner, (lanePort s 2).partner with
  | some k, some (_, u, _), some (_, d, _) =>
    let n := max 1 size
    let gap := (d % 32 + n - u % 32 % n) % n
    let at_ := (k + n - u % 32 % n) % n
    decide (k < n) && decide (0 < at_) && decide (at_ < if gap = 0 then n else gap)
  | _, _, _ => false

/-- RING_UP_RX (R389, R390): a follower that was enumerated is UP; a device that joins takes back its position where
the map shows it absent between its neighbours, and is unranked otherwise (log 87). -/
def execRingUpRx (fromD : Bool) (origin : Fin 32) (bseq : Byte) (size : BitVec 6) (map : Word) (s : State) :
    Host.Outcome State Fault Refusal :=
  let b : Bcast := ⟨1, origin.val, bseq.toNat, 0, 0, size.toNat, 0, map.toNat⟩
  .next (done (castIn s fromD b (fun s =>
    if rstate s = 1 then ringUp s size.toNat
    else if rstate s = 0 then
      if bitOf map.toNat (s.ring.pos.getD 0) || !joinFits s size.toNat then nodeShow { s with ring := { s.ring with pos := none } }
      else raise (ringUp s size.toNat) 367
    else s)))

/-- WRAP_RX (R389, R396). -/
def execWrapRx (fromD : Bool) (origin : Fin 32) (bseq : Byte) (p1 p2 : Fin 32) (s : State) : Host.Outcome State Fault Refusal :=
  .next (done (castIn s fromD ⟨2, origin.val, bseq.toNat, p1.val, p2.val, 0, 0, 0⟩ (fun s =>
    if rstate s = 2 ∨ rstate s = 3 then breakAdd s (p1.val, p2.val) else s)))

/-- UNWRAP_RX (R389, R396). -/
def execUnwrapRx (fromD : Bool) (origin : Fin 32) (bseq : Byte) (p1 p2 : Fin 32) (s : State) : Host.Outcome State Fault Refusal :=
  .next (done (castIn s fromD ⟨3, origin.val, bseq.toNat, p1.val, p2.val, 0, 0, 0⟩ (fun s => breakDel s (p1.val, p2.val))))

/-- FRAME_START_RX (R397): the start tick is T + FS_LEAD; a late one starts the frame at once (log 90). -/
def execFrameStartRx (fromD : Bool) (origin : Fin 32) (bseq : Byte) (t : BitVec 64) (chb : Bool) (s : State) :
    Host.Outcome State Fault Refusal :=
  .next (done (castIn s fromD (plainCast 4 origin bseq t.toNat) (fun s =>
    let at_ := t.toNat + fget s R.RING_CFG F.RING_CFG_FS_LEAD
    if frameSrc s ≠ 3 then s
    else if now s ≤ at_ then startPlan s at_
    else frameMark (raise (finc s R.RING_CNT_B F.RING_CNT_B_LATE_BCAST) 365) chb)))

/-- TB_LOAD_RX (R392): the master's offset is applied as a load of the follower's own. -/
def execTbLoadRx (fromD : Bool) (origin : Fin 32) (bseq : Byte) (d : BitVec 64) (s : State) : Host.Outcome State Fault Refusal :=
  .next (done (castIn s fromD (plainCast 5 origin bseq d.toNat) (fun s => tbStep s d)))

/-- CAP_ARM_RX (R105): a received arm. -/
def execCapArmRx (fromD : Bool) (origin : Fin 32) (bseq : Byte) (s : State) : Host.Outcome State Fault Refusal :=
  .next (done (castIn s fromD (plainCast 6 origin bseq 0) (fun s =>
    if capState s = 0 ∧ 0 < (rd s R.CAP_LEN).toNat then capStart s else s)))

/-- CAP_DISARM_RX (R105). -/
def execCapDisarmRx (fromD : Bool) (origin : Fin 32) (bseq : Byte) (s : State) : Host.Outcome State Fault Refusal :=
  .next (done (castIn s fromD (plainCast 7 origin bseq 0) (fun s => setCap s 0)))

/-- CAP_FIRE_RX (R105): a fire with its tick; in SETTLE the smallest tick counts. -/
def execCapFireRx (fromD : Bool) (origin : Fin 32) (bseq : Byte) (tick : BitVec 64) (s : State) : Host.Outcome State Fault Refusal :=
  .next (done (castIn s fromD (plainCast 8 origin bseq tick.toNat) (fun s =>
    if capState s = 1 then
      let s := setCap s 2
      { s with sht := { s.sht with capT := tick.toNat, capEnd := now s + (rd s R.RING_RTT).toNat + ticksUs 1 } }
    else if capState s = 2 then { s with sht := { s.sht with capT := min s.sht.capT tick.toNat } }
    else s)))

/-- ENUM_TIMEOUT (R389) (log 87). -/
def execEnumTimeout (s : State) : Host.Outcome State Fault Refusal :=
  .next (done (if rstate s = 1 ∧ s.ring.enumAt + ticksMs 100 ≤ now s then ringError s 1 else s))

/-- RING_RETRY (R389): at least 1 s after the last ENUM. -/
def execRingRetry (s : State) : Host.Outcome State Fault Refusal :=
  .next (done (
    if ringMaster s && portsActive s && decide (rstate s = 4) && decide (fget s R.RING_STAT F.RING_STAT_ERR = 1) &&
       decide (s.ring.enumAt + ticksMs 1000 ≤ now s) then enumGo s
    else s))

/-- REFORM written on the master (R389). -/
def ringReform (s : State) : State := if ringMaster s then enumGo s else s

/-- REFORM (R389). -/
def execReform (s : State) : Host.Outcome State Fault Refusal := .next (done (ringReform s))

/-- RING_RTT_MEASURE (R396): the master measures at RING_UP and every 100 ms. -/
def execRingRttMeasure (rtt : Word) (s : State) : Host.Outcome State Fault Refusal :=
  .next (done (
    if ringMaster s && (decide (rstate s = 2) || decide (rstate s = 3)) then
      wr s R.RING_RTT rtt
    else s))

/-! ### Timing exchanges and alignment (R391, R392, R395) -/

/-- An instant in 1/128 tick, as the 64 bits of R384. -/
def instant (s : State) (fine : Fin 128) : Nat := (now s * 128 + fine.val) % 2 ^ 64

/-- TIME_REQUEST (R391): a request on the reference port, followed by a MARK row. -/
def execTimeRequest (fine : Fin 128) (s : State) : Host.Outcome State Fault Refusal :=
  let p := s.ring.refSel.val
  .next (done (
    if ringFollower s && decide (p ≠ 0) && laneUp s p && decide (s.ring.reqAt + ticksUs 100 ≤ now s) then
      let n := (s.ring.number + 1) % 256
      let s := send (sendPlain (standbyExit s p) p 4 (leBytes 8 (n * 256))) (.mark p)
      { s with ring := { s.ring with number := n, t1 := some (instant s fine), reqAt := now s } }
    else s))

/-- TIME_REQUEST_RX (R384): the answer, preceded by a MARK row whose send instant is t3. -/
def execTimeRequestRx (p : Fin 3) (number : Byte) (t2 : BitVec 64) (fine : Fin 128) (s : State) : Host.Outcome State Fault Refusal :=
  .next (done (
    if standalone s || !laneUp s p then s
    else
      let s := send (standbyExit s p) (.mark p.val)
      let w := 1 + 2 * b2n (flag s R.CLK_STAT F.CLK_STAT_HOLDOVER) + 4 * b2n (flag s R.RING_STAT F.RING_STAT_ALIGNED)
        + 8 * b2n (ringMaster s) + 16 * fget s R.RING_STAT F.RING_STAT_REF + 256 * number.toNat
      sendPlain s p 4 (leBytes 8 w ++ leBytes 8 t2.toNat ++ leBytes 8 (instant s fine))))

/-- ASYM of the reference port in ps (R391). DEDUCED (log 89). -/
def asymOf (s : State) : Int :=
  signed 16 (if s.ring.refSel = 2 then fget s R.RING_ASYM F.RING_ASYM_ASYM_D else fget s R.RING_ASYM F.RING_ASYM_ASYM_U)

/-- Difference of two instants of 64 bits (log 89). -/
def instDiff (a b : Nat) : Int := signed 64 (a + 2 ^ 64 - b % 2 ^ 64)

/-- The correction after 64 exchanges (R392). Sums are in 1/8 ps (log 89). -/
def alignCorrect (s : State) : State :=
  let sum := s.ring.thetaSum
  let s := fset s R.RING_ALIGN F.RING_ALIGN_THETA (unsigned 16 (clampInt (-32768) 32767 (roundDiv sum 3200)))
  let s := fset s R.RING_ALIGN F.RING_ALIGN_DELAY (satN 16 (roundDiv s.ring.delaySum 3200).toNat)
  let first := s.ring.first
  let s := { s with ring := { s.ring with n := 0, thetaSum := 0, delaySum := 0, first := false } }
  if sum.natAbs ≤ 64 * 12800 then
    let good := if sum.natAbs ≤ 64 * 400 then s.ring.good + 1 else 0
    let s := { s with ring := { s.ring with steps := - roundDiv sum 3200, good := good } }
    if 3 ≤ good ∧ flag s R.RING_STAT F.RING_STAT_ALIGNED = false then raise (fon s R.RING_STAT F.RING_STAT_ALIGNED) 361 else s
  else
    let whole := sum.natAbs / (64 * 6400)
    let rest := if 0 ≤ sum then sum - (whole * 64 * 6400 : Nat) else sum + (whole * 64 * 6400 : Nat)
    let s := foff s R.RING_STAT F.RING_STAT_ALIGNED
    let s := { s with ring := { s.ring with steps := - roundDiv rest 3200, good := 0, hold := if 0 ≤ sum then whole else 0 } }
    let s := if 0 ≤ sum then s else tbStep s (BitVec.ofNat 64 whole)
    if first then s else raise (finc s R.RING_CNT F.RING_CNT_ALIGN_LOST) 362

/-- TIME_REPLY_RX (R391, R392, R395): an offset sample; a partner that has lost its reference puts the follower into
holdover, and one that has it back starts the pull-in (log 89). -/
def execTimeReplyRx (p : Fin 3) (number : Byte) (refLost aligned master : Bool) (t2 t3 t4 : BitVec 64) (s : State) :
    Host.Outcome State Fault Refusal :=
  .next (done (match s.ring.t1 with
    | some t1 =>
      if s.ring.refSel.val = p.val ∧ number.toNat = s.ring.number ∧ ringFollower s = true then
        let s := { s with ring := { s.ring with t1 := none } }
        if refLost then holdover s
        else if flag s R.CLK_STAT F.CLK_STAT_HOLDOVER then
          if flag s R.CLK_STAT (refOkFld p.val) then { s with ring := { s.ring with pullIn := true } } else s
        else if master || aligned then
          let a := instDiff t4.toNat t3.toNat
          let rtt := instDiff t4.toNat t1 - instDiff t3.toNat t2.toNat
          let d := 25 * rtt + 4 * asymOf s
          let s := { s with ring := { s.ring with
            n := s.ring.n + 1, thetaSum := s.ring.thetaSum + 50 * a - d, delaySum := s.ring.delaySum + d } }
          if 64 ≤ s.ring.n then alignCorrect s else s
        else s
      else s
    | none => s))

/-- ALIGN_STEP (R392): one step of 6.25 ps, at most one per 10 µs (log 89). -/
def execAlignStep (s : State) : Host.Outcome State Fault Refusal :=
  .next (done (
    if s.ring.steps ≠ 0 ∧ s.ring.stepAt + ticksUs 10 ≤ now s then
      let d : Int := if 0 < s.ring.steps then 1 else -1
      { s with ring := { s.ring with steps := s.ring.steps - d, phase := s.ring.phase + d, stepAt := now s } }
    else s))

/-- REF_CHANGE (R395): a follower in holdover takes the port whose partner is the master, or has its reference from
the far side. From port D it returns to port U only at a REFORM. -/
def execRefChange (toD : Bool) (ref : BitVec 2) (s : State) : Host.Outcome State Fault Refusal :=
  let p : Fin 3 := if toD then 2 else 1
  let partner := match (lanePort s p).partner with | some (_, _, m) => m | none => false
  .next (done (
    if ringFollower s && flag s R.CLK_STAT F.CLK_STAT_HOLDOVER && refMayChange s && decide (s.ring.refSel ≠ p) &&
       (toD || decide (s.ring.refSel ≠ 2)) && (partner || decide (ref.toNat = p.val)) && flag s R.CLK_STAT (refOkFld p) then
      clkTake s p
    else s))

/-! ### Exports (R385, R394, R398, R168) -/

/-- The slot that a received histogram takes: a free one, else the oldest. -/
def sumSlotFor (s : State) : Nat × Bool :=
  let n := fget s R.PS_SUM F.PS_SUM_SUM_SLOTS
  match (List.range n).find? (fun i => (lookup s.ps.slots i).isNone) with
  | some i => (i, false)
  | none =>
    ((s.ps.slots.foldl (fun (acc : Option (Nat × Nat)) p =>
      match acc with
      | some (_, o) => if p.2.order < o then some (p.1, p.2.order) else acc
      | none => some (p.1, p.2.order)) none).elim 0 (·.1), true)

/-- A histogram lands in a summation slot (R168) (log 85). -/
def sumLand (s : State) (bs : List Byte) : State :=
  if fget s R.PS_SUM F.PS_SUM_SUM_SLOTS = 0 then s
  else
    let (i, lost) := sumSlotFor s
    let s := if lost then raise (finc (fon s R.PS_STAT F.PS_STAT_SUM_OVW) R.PS_CNT_D F.PS_CNT_D_SUM_OVW) Ev.sumLoss else s
    let s := blockWrite s (sumAddr s i) (bs.take 4160)
    { s with ps := { s.ps with
        slots := insertKey (eraseKey s.ps.slots i) i ⟨now s, s.ps.slotOrder⟩, slotOrder := s.ps.slotOrder + 1 } }

/-- EXPORT_RX (R385, R398): skipped and bad frames are counted; a good one lands at its destination or goes on in the
same direction. DEDUCED (log 85). -/
def execExportRx (p : Fin 3) (f : LaneFrame) (crcOk : Bool) (s : State) : Host.Outcome State Fault Refusal :=
  .next (done (
    if passing s p then send s (.pass (3 - p.val) f)
    else if p.val = 0 ∨ laneUp s p = false then s
    else if !crcOk then exportDrop (crcFail s p)
    else
      let s := grantApply (ackApply s p f.ackVc f.ack.toNat) p f.grantVc f.grant.toNat
      let skipped := (f.seq.toNat + 2 * 4096 - (vcOf s p 3).rx - 1) % 4096
      let s := if skipped = 0 then s else raise (fadd s R.RING_CNT F.RING_CNT_EXPORT_DROP skipped) 366
      let s := modVc s p 3 (fun x => { x with rx := f.seq.toNat, owe := x.owe + frameUnits f })
      if !ringRanked s then s
      else if s.ring.pos = some (f.queue.toNat % 32) then sumLand s f.body
      else
        let o := 3 - p.val
        if laneUp s o then modVc s o 3 (fun x => { x with out := x.out ++ [f] }) else exportDrop s))

end Sys2Proof.Machine
end

