-- ==== Sys2Proof/Machine/Reinit.lean ====
section
/-! DEFINITION. Re-initialising one function (R467, R468): the shared start and end, and what it clears in a tile, a CAN
controller and an axis. -/

namespace Sys2Proof.Machine

/-! ### Tile (R48, R120, R468 KIND 1) -/

/-- A buffer of channel n as a tile reset leaves it: its unfetched histogram, and the one that waits for the buffer, are
reported CHANNEL_OFF; a fetch in progress completes. -/
def tileBufReset (s : State) (n f : Nat) : State :=
  let h := (gtChan s n).buf f
  let s := match h.nextRow with | some x => histGap s n Gap.channelOff x.1 | none => s
  match h.st with
  | .held => modBuf s n f (fun h => { h with nextRow := none })
  | .filling => bufFree (modBuf (histGap s n Gap.channelOff h.hr) n f (fun h => { h with nextRow := none })) n f
  | .posted => bufFree (modBuf (histGap s n Gap.channelOff h.hr) n f (fun h => { h with nextRow := none })) n f
  | _ => bufFree (modBuf s n f (fun h => { h with nextRow := none })) n f

/-- One channel of a re-initialised tile: its buffers, background and adaptive state; the channel turns OFF and
FE_CFG and FE_ACT take their reset values (R48, R468) (log 99). -/
def tileChanReset (s : State) (n : Nat) : State :=
  let t := n / 16
  let k := n % 16
  let s := modFe s n (fun c => { c with wins := c.wins.map (fun w => { w with recs := [], gap := true, never := w.never || decide (now s < winOpen w.msg) }),
                                        gainNew := false, settle := false, exitPend := false, cmpOff := false, missRun := 0, stagedAt := none,
                                        cfgWrote := none, rewrite := some (c.rewrite.getD (rd s (R.FE_CFG t k))) })
  let s := tileBufReset (tileBufReset s n 0) n 1
  let s := modGt s n (fun c => { c with bgRate := 0 })
  let s := fset (foff s (R.GT_OCC t k) F.GT_OCC_COINC_ON) (R.GT_BG t k) F.GT_BG_BG_RATE 0
  let sparse := decide (fget s (R.GT_CTRL t) F.GT_CTRL_REP_MODE = 2)
  let s := fsetB s (R.GT_OCC t k) F.GT_OCC_REP sparse
  let s := fset s (R.GT_MODEMAP t) F.GT_MODEMAP_SPARSE (setBitN (fget s (R.GT_MODEMAP t) F.GT_MODEMAP_SPARSE) k sparse)
  wr (wr (setFeState s n feOff) (R.FE_ACT t k) (regReset (R.FE_ACT t k))) (R.FE_CFG t k) (regReset (R.FE_CFG t k))

/-- The firmware writes FE_CFG of channel n again from the value last written (R468). -/
def feRewrite (s : State) (n : Nat) : State :=
  match (feChan s n).rewrite with
  | some v => feCfgSet s n v
  | none => s

/-- Tile t after KIND 1 of R468; the bias loop of its group starts again from RED 0 (R187). DEDUCED (log 99) (log 136). -/
def tileReset (s : State) (t : Nat) : State :=
  let s := setRed (setPost s t []) (t / 4) 0
  let s := (List.range 16).foldl (fun s k => tileChanReset s (16 * t + k)) s
  { s with
    gt := { s.gt with repMode := tput 1 s.gt.repMode t (fget s (R.GT_CTRL t) F.GT_CTRL_REP_MODE) }
    tdc := { s.tdc with
      tabs := s.tdc.tabs.filter (fun p => decide (p.1 / 32 ≠ t))
      newTabs := s.tdc.newTabs.filter (fun p => decide (p.1 / 32 ≠ t)) } }

/-! ### Axis (R468 KIND 6) -/

/-- Filter states, integrator, OVR_RUN and a pending swap of an axis are cleared. -/
def axisClear (s : State) (a : Nat) : State :=
  let s := modAxis s a (fun x => { x with sect := [], integ := 0, side := 0, iq := 0, qq := 0, ip := 0, ia := 0, swap := none })
  foff (fset s (R.AX_CNT a) F.AX_CNT_OVR_RUN 0) (R.AX_SWAP a) F.AX_SWAP_PEND

/-- The scanner of an axis is OFF or FAULT (R467). -/
def axisIdle (s : State) (a : Nat) : Bool :=
  decide (scnState s (a / 2) = scnOff) || decide (scnState s (a / 2) = scnFault)

/-! ### The shared start and end (R467) -/

/-- The state that a command of the block leads to. -/
def after (o : Host.Outcome State Fault Refusal) (s : State) : State :=
  match o with
  | .next s' => s'
  | _ => s

/-- The unit of function INDEX of KIND (R419, R468). -/
def reinitUnit (kind i : Nat) : Nat :=
  match kind with
  | 0 => 0x50 + i | 1 => i | 2 => 0x40 + i | 3 => 0x60 + i | 4 => 0x70 + i | 5 => 0x80 + i | _ => 0x90 + i

/-- Functions of a KIND (R468) (log 99). -/
def reinitCount (kind : Nat) : Nat :=
  match kind with
  | 0 => 3 | 1 => 64 | 2 => 16 | 3 => 16 | 4 => 16 | 5 => 2 | 6 => 4 | _ => 0

/-- What a re-initialisation does to its function (R468). -/
def reinitAct (s : State) (kind i : Nat) : State :=
  match kind with
  | 0 => after (execLaneReinit (Fin.ofNat 3 i) s) s
  | 1 => reinitOn (tileReset s i) i
  | 2 => after (execClusterReinit (Fin.ofNat 16 i) s) s
  | 3 => after (execDmaReinit (Fin.ofNat 16 i) s) s
  | 4 => after (execSlqGroupReinit (Fin.ofNat 16 i) s) s
  | 5 => reinitOn (canClear s i) (0x80 + i)
  | _ => reinitOn (axisClear s i) (0x90 + i)

/-- GO of SYS_REINIT (R467): the state, and whether it was refused. -/
def reinitStart (s : State) (kind i : Nat) : State × Bool :=
  if flag s R.SYS_REINIT F.SYS_REINIT_BUSY || decide (reinitCount kind ≤ i) || decide (modeOf s = .boot) ||
      (decide (kind = 6) && !axisIdle s i) then (fon s R.SYS_REINIT F.SYS_REINIT_REFUSED, true)
  else
    let s := { s with sys := { s.sys with reinit := some (kind, i, now s) } }
    (reinitAct (fon s R.SYS_REINIT F.SYS_REINIT_BUSY) kind i, false)

/-- TILE_REINIT (R467, R468) (log 99). -/
def execTileReinit (t : Fin 64) (s : State) : Host.Outcome State Fault Refusal := .next (done (reinitStart s 1 t.val).1)

/-- CAN_REINIT (R467, R468). -/
def execCanReinit (c : Fin 2) (s : State) : Host.Outcome State Fault Refusal := .next (done (reinitStart s 5 c.val).1)

/-- AXIS_REINIT (R467, R468). -/
def execAxisReinit (a : Fin 4) (s : State) : Host.Outcome State Fault Refusal := .next (done (reinitStart s 6 a.val).1)

/-- The function of unit u has completed what its re-initialisation waits for: a tile's fetches and clearing, a
cluster's engines, a DMA channel's responses (R120, R146, R365). -/
def reinitReady (s : State) (u : Nat) : Bool :=
  if u < 64 then
    (List.range 16).all (fun k => [0, 1].all (fun f =>
      decide (((gtChan s (16 * u + k)).buf f).st ≠ .held) && decide (((gtChan s (16 * u + k)).buf f).st ≠ .clearing)))
  else if u < 0x50 then !flag s (R.CL_STAT (u - 0x40)) F.CL_STAT_REINIT_BUSY
  else if 0x60 ≤ u ∧ u < 0x70 then decide ((dmaChan s (u - 0x60)).outs = [])
  else true

/-- FUNC_REINIT_DONE (R467): the firmware writes a tile's FE_CFG again (R468), the unit leaves class REINIT and EV FUNC_REINIT is raised. -/
def execFuncReinitDone (u : Byte) (s : State) : Host.Outcome State Fault Refusal :=
  let u := u.toNat
  .next (done (
    if s.reinit.contains u && reinitReady s u then
      let s := reinitOff s u
      let s := if 0x70 ≤ u ∧ u < 0x80 then
          fset s R.SLQ_GRP F.SLQ_GRP_REINIT_BUSY (setBitN (fget s R.SLQ_GRP F.SLQ_GRP_REINIT_BUSY) (u - 0x70) false)
        else if u = 0x80 ∨ u = 0x81 then canBootUp s (u - 0x80)
        else if u < 64 then (List.range 16).foldl (fun s k => feRewrite s (16 * u + k)) s else s
      let s := match s.sys.reinit with
        | some (k, i, _) =>
          if reinitUnit k i = u then foff { s with sys := { s.sys with reinit := none } } R.SYS_REINIT F.SYS_REINIT_BUSY else s
        | none => s
      raise s Ev.funcReinit
    else s))

/-- NMT_COMMAND (R411): acts on the CANopen communication layer only. Reset node and reset communication re-initialise
the CAN controllers. -/
def execNmtCommand (c : Fin 2) (cs node : Byte) (s : State) : Host.Outcome State Fault Refusal :=
  .next (done (
    if canServed s c.val ∧ (node = 0#8 ∨ node.toNat = nodeId s c.val) then
      let s := canCount s c.val 1
      let cs' := if redundant s then [0, 1] else [c.val]
      let each := fun (f : State → Nat → State) => cs'.foldl f s
      match cs.toNat with
      | 1 => each (fun s c => if nmtOf s c = 3 then s else setNmt s c 1)
      | 2 => each (fun s c => if nmtOf s c = 3 then s else setNmt s c 2)
      | 128 => each (fun s c => if nmtOf s c = 3 then s else setNmt s c 0)
      | 129 => each (fun s c => reinitOn (canClear s c) (0x80 + c))
      | 130 => each (fun s c => reinitOn (canClear s c) (0x80 + c))
      | _ => s
    else s))

end Sys2Proof.Machine
end

