-- ==== Sys2Proof/Machine/Clocks.lean ====
section
/-! DEFINITION. The root PLL's references and the gating of the clock domains (R473 to R479, R483, R484). -/

namespace Sys2Proof.Machine

/-! ### References (R474, R475) -/

/-- REF_LOST (R474): a reference is lost. -/
def execRefLost (r : Fin 3) (s : State) : Host.Outcome State Fault Refusal := .next (done (refGone s r.val))

/-- REFERENCE_RETURN (R474): a reference is available again. The PLL pulls in to it when it is the selected one and lies
within 40 ppm of the held frequency; what CLK_OFS then shows of another reference against REFCLK is open. DESIGN CHOICE (log 101). -/
def execReferenceReturn (r : Fin 3) (near : Bool) (s : State) : Host.Outcome State Fault Refusal :=
  let s := fon s R.CLK_STAT (refOkFld r.val)
  let s :=
    if r.val = 0 then
      if s.ring.refSel = 0 then wr s R.CLK_OFS 0
      else
        let (v, s) := openVal s
        wr s R.CLK_OFS (BitVec.ofNat 32 v.toNat)
    else s
  let s :=
    if flag s R.CLK_STAT F.CLK_STAT_HOLDOVER ∧ s.ring.refSel.val = r.val ∧ near then
      { s with ring := { s.ring with pullIn := true } }
    else s
  .next (done (refFirst s))

/-- PULL_IN_DONE (R474): HOLDOVER clears (log 101). -/
def execPullInDone (s : State) : Host.Outcome State Fault Refusal :=
  .next (done (
    if flag s R.CLK_STAT F.CLK_STAT_HOLDOVER ∧ s.ring.pullIn then
      let s := { s with ring := { s.ring with pullIn := false } }
      refShow (foff s R.CLK_STAT F.CLK_STAT_HOLDOVER) s.ring.refSel.val
    else s))

/-- LOCK_LOST (R475): a loss of lock while the selected reference is present is handled as holdover (log 101). -/
def execLockLost (s : State) : Host.Outcome State Fault Refusal :=
  .next (done (
    if flag s R.CLK_STAT (refOkFld s.ring.refSel.val) then
      let s := holdover (finc (fon s R.CLK_STAT F.CLK_STAT_LOCK_LOST) R.CLK_CNT F.CLK_CNT_LOCK_CNT)
      { s with ring := { s.ring with pullIn := true } }
    else s))

/-! ### Gating (R477 to R479) -/

/-- CLK_GATE_WRITE (R478): CLK_GATE0 is RWM. DEDUCED (log 100). -/
def execClkGateWrite (v : Word) (s : State) : Host.Outcome State Fault Refusal :=
  .next (done (withRwm s fun s => wr s R.CLK_GATE0 v))

/-- The boot flash is in use, or was within the last 1 ms (R477) (log 100). -/
def flashUsed (s : State) : Bool :=
  decide (modeOf s = .boot) || decide (s.sec.buf ≠ []) || s.sec.run.isSome || s.saf.commitAt.isSome ||
    decide (now s < s.sec.flashAt + ticksMs 1)

/-- Domain d is to run under R477. -/
def domainOn (s : State) (d : Nat) : Bool :=
  let up := decide (modeOf s ≠ .bypass)
  let lane := fun (p : Nat) => decide (lnState s p ≠ lnDisabled) && decide (lnState s p ≠ lnDeep)
  let decOn := (List.range 8).any (fun c => flag s (R.DEC_CFG c) F.DEC_CFG_EN)
  if d < 6 then lane (d / 2)
  else if d < 22 then up && !bitOf (fget s R.CLK_GATE0 F.CLK_GATE0_GATE_TG) (d - 6)
  else if d < 38 then up && !bitOf (fget s R.CLK_GATE0 F.CLK_GATE0_GATE_CL) (d - 22)
  else match d with
    | 40 => up
    | 41 => up
    | 44 => up && decOn
    | 45 => decide (fget s R.DRC_STAT F.DRC_STAT_STATE ≠ 0)
    | 46 => decide (fget s R.DRC_STAT F.DRC_STAT_STATE ≠ 0)
    | 48 => up && flag s R.CTL_CTRL F.CTL_CTRL_EN
    | 51 => flag s (R.ETH_CFG 0) F.ETH_CFG_EN
    | 52 => flag s (R.ETH_CFG 1) F.ETH_CFG_EN
    | 53 => flag s (R.CAN_CFG 0) F.CAN_CFG_EN
    | 54 => flag s (R.CAN_CFG 1) F.CAN_CFG_EN
    | 55 => up && decOn
    | 58 => flashUsed s
    | _ => true

/-- Domain d runs, as CLK_ACT0 and CLK_ACT1 show it (log 100). -/
def domainRuns (s : State) (d : Nat) : Bool :=
  if d < 32 then bitOf (rd s R.CLK_ACT0).toNat d else bitOf (rd s R.CLK_ACT1).toNat (d - 32)

def showDomain (s : State) (d : Nat) (on : Bool) : State :=
  if d < 32 then wr s R.CLK_ACT0 (BitVec.ofNat 32 (setBitN (rd s R.CLK_ACT0).toNat d on))
  else wr s R.CLK_ACT1 (BitVec.ofNat 32 (setBitN (rd s R.CLK_ACT1).toNat (d - 32) on))

/-- The gating of domain d follows R477: an ungated tile group returns as after KIND 1, an ungated cluster as after
REINIT (R478) (log 100). -/
def gateApply (s : State) (d : Nat) : State :=
  let on := domainOn s d
  if on = domainRuns s d then s
  else
    let s := showDomain s d on
    if 6 ≤ d ∧ d < 22 ∧ on then (List.range 4).foldl (fun s j => tileReset s (4 * (d - 6) + j)) s
    else if 22 ≤ d ∧ d < 38 then
      if on then reinitOff (clusterReinit s (d - 22)) (0x40 + (d - 22)) else clShow s (d - 22)
    else s

/-- GATE_APPLY (R479): takes effect at a 1 µs mark. -/
def execGateApply (d : Fin 60) (s : State) : Host.Outcome State Fault Refusal :=
  .next (done (if now s % 1250 = 0 then gateApply s d.val else s))

end Sys2Proof.Machine
end

