-- ==== Sys2Proof/Machine/DramTemp.lean ====
section
/-! DEFINITION. HOT of the SDRAM controller and the reports behind it (R342). -/

namespace Sys2Proof.Machine

/-- HOT and DRAM_HOT brought up to date; EV SDRAM_HOT when HOT turns 1 (R342, R350). -/
def drcHot (s : State) : State :=
  let src := fget s R.DRC_CTRL F.DRC_CTRL_TSRC
  let dram := (decide (src = 0 ∨ src = 2) && flag s R.DRC_TEMP F.DRC_TEMP_HOT_MPR) ||
    (decide (src = 1 ∨ src = 2) && flag s R.DRC_TEMP F.DRC_TEMP_HOT_HK)
  let band := fget s R.THM_STAT F.THM_STAT_BAND
  let hot := dram || s.drc.lost || decide (3 ≤ band)
  let was := flag s R.DRC_STAT F.DRC_STAT_HOT
  let s := fsetB (fsetB s R.DRC_STAT F.DRC_STAT_DRAM_HOT dram) R.DRC_STAT F.DRC_STAT_HOT hot
  if hot && !was then raise s 448 else s

/-- A valid report arrives. -/
def drcReport (s : State) : State :=
  fon { s with drc := { s.drc with reportAt := some (now s), lost := false } } R.DRC_TEMP F.DRC_TEMP_VALID

/-- A clean result of sequencer entry i with bits 23:8 `mid` (R342): a report where TSRC and HK_ENTRY select it. -/
def drcHkReport (s : State) (i : Nat) (mid : Int) : State :=
  let src := fget s R.DRC_CTRL F.DRC_CTRL_TSRC
  if (src = 1 ∨ src = 2) ∧ fget s R.DRC_CTRL F.DRC_CTRL_HK_ENTRY = i then
    drcHot (fsetB (drcReport s) R.DRC_TEMP F.DRC_TEMP_HOT_HK
      (decide (signed 16 (fget s R.DRC_CTRL F.DRC_CTRL_HOT_CODE) < mid)))
  else s

end Sys2Proof.Machine
end

