-- ==== Sys2Proof/Machine/Housekeeping.lean ====
section
/-! DEFINITION. The housekeeping sequencer (R284 to R294) and the supply factor of the control engine (R207). -/

namespace Sys2Proof.Machine

def hkEntry (s : State) (i : Nat) : HkEntry := tget HkEntry.init s.hk.entries i
def modHk (s : State) (i : Nat) (f : HkEntry → HkEntry) : State :=
  { s with hk := { s.hk with entries := tmod HkEntry.init s.hk.entries i f } }

/-- A source that R284 names. -/
def srcNamed (src : Nat) : Bool := decide (src < 0x32) || decide (src = 0x40)

/-- EXC and OW_EN in effect: both are ignored for SRC 0x20 and above (R284). -/
def excOf (cfg : Word) : Nat := if getFld cfg F.HKS_CFG_SRC < 0x20 then getFld cfg F.HKS_CFG_EXC else 0
def owOf (cfg : Word) : Bool := decide (getFld cfg F.HKS_CFG_SRC < 0x20) && decide (getFld cfg F.HKS_CFG_OW_EN = 1)

/-- A sensor capture entry (R293). -/
def isCapture (cfg : Word) : Bool := decide (getFld cfg F.HKS_CFG_SRC = 0x40)

/-! ### Writes (R291) -/

/-- The fields of HKS_CFG and HKS_TIME whose change marks the next result SETTLE: SRC, GAIN, AUTO, EXC, EXP, IEXC and
T_INT, RLOCK, RIP_N, DELAY. -/
def settleMask : Word × Word := (0x7BFF807F#32, 0xFFF0FFFF#32)

/-- Two settings of an entry differ in a field that R291 names. -/
def settleDiff (c t c' t' : Word) : Bool := decide ((c ^^^ c') &&& settleMask.1 ≠ 0) || decide ((t ^^^ t') &&& settleMask.2 ≠ 0)

/-- A write of word w (0 CFG, 1 TIME, 2 LIM) of entry i. -/
def hksSet (s : State) (i w : Nat) (v : Word) : State :=
  let c := rd s (R.HKS_CFG i)
  let t := rd s (R.HKS_TIME i)
  let l := rd s (R.HKS_LIM i)
  let cyc := now s / 125 + 1
  let s := modHk s i (fun x => if x.wroteAt = cyc then x else { x with wroteAt := cyc, prev := (c, t, l, x.settle, x.regain) })
  let s := match w with
    | 0 => wr s (R.HKS_CFG i) (v &&& 0xFFFFF07F#32)
    | 1 => wr s (R.HKS_TIME i) (v &&& 0xFFF0FFFF#32)
    | _ => wr s (R.HKS_LIM i) v
  if settleDiff c t (rd s (R.HKS_CFG i)) (rd s (R.HKS_TIME i)) = false then s
  else modHk s i (fun x => { x with settle := true, regain := true })

/-- The next result of entry i carries SETTLE, also where a word of the entry was written in the present cycle: only that write belongs
to the following break (R291). -/
def settleMark (s : State) (i : Nat) : State :=
  modHk s i (fun x => { x with settle := true, prev := (x.prev.1, x.prev.2.1, x.prev.2.2.1, true, x.prev.2.2.2.2) })

/-- A change of VEXC_EN marks every entry with EXC = 11 (R291). -/
def vexcSet (s : State) (b : Bool) : State :=
  if flag s R.HK_CTRL F.HK_CTRL_VEXC_EN = b then s
  else (List.range 64).foldl (fun s i => if excOf (rd s (R.HKS_CFG i)) = 3 then settleMark s i else s)
    (fsetB s R.HK_CTRL F.HK_CTRL_VEXC_EN b)

/-! ### Running (R293) -/

/-- HK_RUN (R293): the sequencer starts at entry 0; the first conversion of every entry carries SETTLE. -/
def hkRun (s : State) : State :=
  if s.hk.phase = .stopped then
    let s := (List.range 64).foldl settleMark (fon s R.HK_CTRL F.HK_CTRL_RUN)
    { s with hk := { s.hk with phase := .ready, next := 0 } }
  else s

def execHkRun (s : State) : Host.Outcome State Fault Refusal := .next (done (hkRun s))

/-- HK_STOP (R293): the conversion is abandoned and the excitation is off. -/
def hkStop (s : State) : State :=
  foff (foff { s with hk := { s.hk with phase := .stopped, exc := none } } R.HK_CTRL F.HK_CTRL_RUN) R.HK_STAT F.HK_STAT_RUNNING

def execHkStop (s : State) : Host.Outcome State Fault Refusal := .next (done (hkStop s))

/-- A word of entry i was written in the present housekeeping clock cycle (R291). -/
def hkFresh (s : State) (i : Nat) : Bool := decide ((hkEntry s i).wroteAt = now s / 125 + 1)

/-- HKS_CFG of entry i as a break at present takes it: a write of the same cycle belongs to the following break (R291). -/
def hkCfgNow (s : State) (i : Nat) : Word := if hkFresh s i then (hkEntry s i).prev.1 else rd s (R.HKS_CFG i)

/-- Entry i runs in the present round (R293). -/
def hkDue (s : State) (i : Nat) : Bool :=
  let c := hkCfgNow s i
  decide (getFld c F.HKS_CFG_EN = 1) && decide ((rd s R.HK_ROUND).toNat % 2 ^ getFld c F.HKS_CFG_EVERY = 0)

/-- The next entry to execute from `is` on; an entry with a reserved SRC is skipped (R284). -/
def hkScan : List Nat → State → State × Option Nat
  | [], s => (s, none)
  | i :: l, s =>
    if !hkDue s i then hkScan l s
    else if srcNamed (getFld (hkCfgNow s i) F.HKS_CFG_SRC) then (s, some i)
    else hkScan l (flagRaise s R.HK_STAT F.HK_STAT_SRC_ERR 477)

/-- The next entry to execute, over rounds that take no time (R293). While no entry is enabled, ROUND stands. The
fuel covers the longest EVERY. -/
def hkSearch : Nat → State → State × Option Nat
  | 0, s => (s, none)
  | fuel + 1, s =>
    match hkScan ((List.range 64).drop s.hk.next) s with
    | (s, some i) => (s, some i)
    | (s, none) =>
      if (List.range 64).any (fun i => decide (getFld (hkCfgNow s i) F.HKS_CFG_EN = 1)) then
        hkSearch fuel (wr { s with hk := { s.hk with next := 0 } } R.HK_ROUND (rd s R.HK_ROUND + 1))
      else ({ s with hk := { s.hk with next := 0 } }, none)

/-! ### An entry (R286 to R288) -/

/-- T in 1.6 µs and whether the integration is locked, at the break (R288). -/
def hkPeriod (s : State) (time : Word) : Nat × Bool :=
  let fall := max 1 (min 100 (getFld time F.HKS_TIME_T_INT)) * 625
  let a := fget s R.HK_CTRL F.HK_CTRL_RIP_CH
  let p := (rd s (R.AUX_PER_INT a)).toNat * 65536 + fget s (R.AUX_PER_FRAC a) F.AUX_PER_FRAC_PER_FRAC
  if getFld time F.HKS_TIME_RLOCK = 0 ∨ fget s (R.AUX_CFG a) F.AUX_CFG_MODE ≠ 1 ∨ flag s (R.AUX_STAT a) F.AUX_STAT_VALID = false ∨
      p = 0 ∨ 125000000 * 65536 < p then (fall, false)
  else
    let n := max (max 1 (getFld time F.HKS_TIME_RIP_N)) (ceilDiv (1250000 * 65536) p)
    let n := min n (125000000 * 65536 / p)
    ((roundDiv (n * p : Nat) (2000 * 65536)).toNat, true)

/-- The break of entry i: its settings are latched (R286, R291, R292). A write in the same housekeeping clock cycle belongs to the
following break, which it alone marks; what was pending before it is spent on this one. -/
def hkBreak (s : State) (i : Nat) : State :=
  let e := hkEntry s i
  let same := hkFresh s i
  let (cfg, time, lim, settle, regain) := if same then e.prev
    else (rd s (R.HKS_CFG i), rd s (R.HKS_TIME i), rd s (R.HKS_LIM i), e.settle, e.regain)
  let (t, locked) := hkPeriod s time
  let rlock := decide (getFld time F.HKS_TIME_RLOCK = 1)
  let top := getFld cfg F.HKS_CFG_GAIN
  let auto := decide (getFld cfg F.HKS_CFG_AUTO = 1)
  let gain := if regain || !auto then top else min top e.gain
  let conv : HkConv :=
    { entry := Fin.ofNat 64 i, cfg := cfg, time := time, lim := lim, breakAt := now s, t := t, gain := gain, round := (rd s R.HK_ROUND).toNat % 256,
      settle := settle || (rlock && decide (e.locked = some (!locked))), ranged := e.ranged && !regain,
      ripfb := rlock && !locked, locked := locked, code := 0, ovr := false, clamp := false }
  let s := modHk s i (fun x => { x with
    settle := same && settleDiff cfg time (rd s (R.HKS_CFG i)) (rd s (R.HKS_TIME i)),
    regain := same && settleDiff cfg time (rd s (R.HKS_CFG i)) (rd s (R.HKS_TIME i)), gain := gain, ranged := false,
    locked := if rlock then some locked else x.locked })
  let s := fset (fon s R.HK_STAT F.HK_STAT_RUNNING) R.HK_STAT F.HK_STAT_CUR i
  { s with hk := { s.hk with phase := if isCapture cfg then .integrating else .atBreak, next := i + 1, conv := conv } }

/-- HK_BREAK (R286, R293): the next entry begins. -/
def execHkBreak (s : State) : Host.Outcome State Fault Refusal :=
  .next (done (if s.hk.phase = .ready then
      match hkSearch 130 s with
      | (s, some i) => hkBreak s i
      | (s, none) => foff s R.HK_STAT F.HK_STAT_RUNNING
    else s))

/-- The excitation that an entry selects (R285). -/
def hkExcOf (cfg : Word) : Option HkExc :=
  let n := max 1 (min 100 (getFld cfg F.HKS_CFG_IEXC))
  match excOf cfg with
  | 1 => some (.pin (getFld cfg F.HKS_CFG_SRC) n)
  | 2 => some (.out (getFld cfg F.HKS_CFG_EXP) n)
  | 3 => some .ratio
  | _ => none

/-- HK_MAKE (R286): 5 µs after the break the source is connected and the excitation is on. -/
def execHkMake (s : State) : Host.Outcome State Fault Refusal :=
  .next (done (if s.hk.phase = .atBreak ∧ s.hk.conv.breakAt + ticksUs 5 ≤ now s then
      { s with hk := { s.hk with phase := .made, exc := hkExcOf s.hk.conv.cfg } } else s))

/-- Start of the integration of the present conversion. -/
def hkStartAt (c : HkConv) : Nat :=
  if isCapture c.cfg then c.breakAt else c.breakAt + ticksUs (5 + getFld c.time F.HKS_TIME_DELAY)

/-- HK_INTEGRATION_START (R286). -/
def execHkIntegrationStart (s : State) : Host.Outcome State Fault Refusal :=
  .next (done (if s.hk.phase = .made ∧ hkStartAt s.hk.conv ≤ now s then
      { s with hk := { s.hk with phase := .integrating } } else s))

/-- The amplifier's input in pV: the shorted inputs and the internal reference give their own (R284) (log 57). -/
def hkVin (cfg : Word) (vin : Int) : Int :=
  match getFld cfg F.HKS_CFG_SRC with
  | 0x30 => 0
  | 0x31 => 625000000000
  | _ => vin

/-- The code of a conversion (R285, R287) from the mean input voltage and VEXC in pV, and whether the integrator passed
full scale; with an internal source it does so only where the mean lies beyond it. DEDUCED (log 57). -/
def hkCode (s : State) (c : HkConv) (v : Int) (vexc : Nat) (beyond : Bool) : Int × Bool :=
  let vin := hkVin c.cfg v
  let past := beyond && decide (getFld c.cfg F.HKS_CFG_SRC < 0x30)
  let rail : Int := if vin < 0 then -8388608 else 8388607
  let ratio := decide (excOf c.cfg = 3)
  if ratio && (!flag s R.HK_CTRL F.HK_CTRL_VEXC_EN || decide (vexc = 0)) then (rail, true)
  else
    let code := if ratio then roundDiv (vin * 2 ^ c.gain * 2 ^ 24) vexc else roundDiv (vin * 2 ^ c.gain * 2 ^ 23) 1250000000000
    if past ∨ code < -8388608 ∨ 8388607 < code then (rail, true) else (code, false)

/-- HK_INTEGRATION_END (R287): `vin` is the mean input voltage and `vexc` VEXC, in pV; `past` says that the integrator
passed full scale at some time, `clamp` that an input clamp engaged (log 57). -/
def execHkIntegrationEnd (vin : Int) (vexc : Nat) (past clamp : Bool) (s : State) : Host.Outcome State Fault Refusal :=
  let c := s.hk.conv
  .next (done (if s.hk.phase = .integrating ∧ hkStartAt c + 2000 * c.t ≤ now s then
      let (code, ovr) := if isCapture c.cfg then (0, false) else hkCode s c vin vexc past
      let s := { s with hk := { s.hk with phase := .checking, exc := none, conv :=
        { c with code := code, ovr := ovr, clamp := clamp && !isCapture c.cfg } } }
      if getFld c.time F.HKS_TIME_RLOCK = 1 then
        fset (fsetB s R.HK_RIP F.HK_RIP_LOCKED c.locked) R.HK_RIP F.HK_RIP_T_LAST c.t
      else s
    else s))

/-! ### Results (R289 to R292) -/

/-- SUPPLY_FACTOR_UPDATE (R207): KS of every scanner whose SUP_SEL names the entry, rounded to nearest (R204, worked case of
12_housekeeping.md). A quotient without a positive value, of a rail of 0 V or of another sign, is limited as it stands. DESIGN CHOICE
(log 58). -/
def supplyFactor (s : State) (i : Nat) (vmeas : Int) : State :=
  (List.range 2).foldl (fun s c =>
    if fget s (R.SCN_CTRL c) F.SCN_CTRL_SUP_SEL = i then
      let vnom := signed 16 (fget s (R.SCN_CTRL c) F.SCN_CTRL_VNOM)
      let k := if vmeas = 0 then 0x7FFF else roundDiv (if vmeas < 0 then -(vnom * 16384) else vnom * 16384) vmeas.natAbs
      let k := (clampInt 0x2000 0x7FFF k).toNat
      fset (fset s (R.AX_FF (2 * c)) F.AX_FF_KS k) (R.AX_FF (2 * c + 1)) F.AX_FF_KS k
    else s) s

/-- AUTORANGE (R292). -/
def autorange (s : State) (c : HkConv) (wire : Bool) : State :=
  let top := getFld c.cfg F.HKS_CFG_GAIN
  if getFld c.cfg F.HKS_CFG_AUTO = 0 ∨ c.clamp ∨ wire then s
  else if (c.ovr = true ∨ 0x700000 ≤ c.code.natAbs) ∧ 0 < c.gain then
    modHk s c.entry.val (fun x => { x with gain := c.gain - 1, ranged := true })
  else if c.code.natAbs < 0x300000 ∧ c.ovr = false ∧ c.gain < top then
    modHk s c.entry.val (fun x => { x with gain := c.gain + 1, ranged := true })
  else s

/-- A flag of a result that HK_STAT repeats, counts and raises. -/
def hkFlag (s : State) (on : Bool) (f cnt : Fld) (ev : Nat) : State :=
  if on then flagRaise (finc s R.HK_CNT cnt) R.HK_STAT f ev else s

/-- End of the present entry. -/
def hkEndAt (c : HkConv) : Nat :=
  if isCapture c.cfg then hkStartAt c + 2000 * c.t
  else hkStartAt c + 2000 * c.t + ticksUs (if owOf c.cfg then 22 else 2)

/-- TS and INFO of entry i stand in its registers (R294). -/
def hksShow (s : State) (i : Nat) : State :=
  match lookup s.hk.res i with
  | some (ts, info) =>
    wr (wr (wr s (R.HKS_TS_LO i) (BitVec.ofNat 32 ts)) (R.HKS_TS_HI i) (BitVec.ofNat 32 (ts / 2 ^ 32))) (R.HKS_INFO i) info
  | none => s

/-- HK_RESULT (R286, R289 to R292): `wire` says that the open-wire check found the input changed by more than
0.25 V (log 57). -/
def execHkResult (wire : Bool) (s : State) : Host.Outcome State Fault Refusal :=
  let c := s.hk.conv
  .next (done (if s.hk.phase = .checking ∧ hkEndAt c ≤ now s then
      let cap := isCapture c.cfg
      let wire := wire && owOf c.cfg
      let mid := unsigned 16 (c.code / 256)
      let lim := decide (signed 16 (getFld c.lim F.HKS_LIM_LIM_HI) < signed 16 mid) ||
        decide (signed 16 mid < signed 16 (getFld c.lim F.HKS_LIM_LIM_LO))
      let rec2 := decide (0 < s.hk.recovery) && decide (getFld c.time F.HKS_TIME_DELAY ≤ 1000)
      let flags := if cap then 0 else b2n c.ovr * 128 + b2n c.clamp * 64 + b2n wire * 32 + b2n c.settle * 16 + b2n c.ranged * 8 +
        b2n rec2 * 4 + b2n c.ripfb * 2 + b2n lim
      let s := wr s (R.HKS_RES c.entry.val) (BitVec.ofNat 32 (flags * 2 ^ 24 + unsigned 24 c.code))
      let info := BitVec.ofNat 32 (c.round * 2 ^ 24 + c.gain * 2 ^ 21 + c.t)
      let s := { s with hk := { s.hk with
        phase := .ready, res := insertKey (eraseKey s.hk.res c.entry.val) c.entry.val (hkStartAt c + 1000 * c.t, info),
        recovery := if c.ovr || c.clamp then 2 else s.hk.recovery - 1 } }
      let s := if s.hk.latch = some c.entry.val then s else hksShow s c.entry.val
      if cap then s
      else
        let s := hkFlag s c.ovr F.HK_STAT_OVR F.HK_CNT_OVR_CNT 472
        let s := hkFlag s c.clamp F.HK_STAT_CLAMP F.HK_CNT_CLAMP_CNT 473
        let s := hkFlag s wire F.HK_STAT_OPEN F.HK_CNT_OPEN_CNT 474
        let s := hkFlag s lim F.HK_STAT_LIMIT F.HK_CNT_LIMIT_CNT 475
        let s := if c.ripfb then flagRaise s R.HK_STAT F.HK_STAT_RIPFB 476 else s
        let s := if c.ovr || c.clamp || wire || c.settle || c.ranged then s
          else drcHkReport (supplyFactor s c.entry.val (signed 16 mid)) c.entry.val (signed 16 mid)
        autorange s c wire
    else s))

/-- HKS_RES_READ (R294): the entry's TS and INFO are latched, and another entry's latch ends. -/
def hksRead (s : State) (i : Nat) : State :=
  let s := match s.hk.latch with | some j => hksShow s j | none => s
  hksShow { s with hk := { s.hk with latch := some i } } i

def execHksResRead (i : Fin 64) (s : State) : Host.Outcome State Fault Refusal := .next (done (hksRead s i.val))

end Sys2Proof.Machine
end

