-- ==== Sys2Proof/Machine/Thermal.lean ====
section
/-! DEFINITION. Temperature sensing and thermal management (13_thermal.md): captures, plausibility, the control
temperature, the staircase, recalibration. The orderly stop and the analogue trip stand in Machine/Modes.lean. -/

namespace Sys2Proof.Machine

/-- HYST, 0 acting as 1. -/
def thmHyst (s : State) : Nat := max 1 (fget s R.THM_CTRL F.THM_CTRL_HYST)

/-- The non-ignored sensors. -/
def liveSensors (s : State) : List Nat := (List.range 28).filter (fun i => !sensorIgnored s i)

/-! ### Plausibility (R312) -/

/-- Sensor i becomes ignored. -/
def ignoreSensor (s : State) (i reason : Nat) : State :=
  if sensorIgnored s i then s
  else
    let s := wr s R.THM_IGN (BitVec.ofNat 32 (setBitN (rd s R.THM_IGN).toNat i true))
    let s := fset (fon s (R.THM_SENS i) F.THM_SENS_IGN) (R.THM_SENS i) F.THM_SENS_REASON reason
    flagRaise (finc s R.THM_CNT F.THM_CNT_IGN_CNT) R.THM_STAT F.THM_STAT_IGNORED 457

/-- How far a reading stands from the mean of its non-ignored neighbours, as a numerator over the number of
neighbours (0 without one); readings in 1/`k` of 1/16 °C. -/
def neighbourGap (s : State) (t : Nat → Int) (i : Nat) : Nat × Nat :=
  let ns := (sensorNeighbours i).filter (fun n => !sensorIgnored s n)
  (((ns.length : Int) * t i - (ns.map t).sum).natAbs, ns.length)

/-- The sensor that differs most from its neighbours, beyond 15 °C. -/
def worstSensor (s : State) (t : Nat → Int) (k : Nat) : Option Nat :=
  ((liveSensors s).filter (fun i => let g := neighbourGap s t i; decide (0 < g.2) && decide (240 * k * g.2 < g.1))).foldl
    (fun b i => match b with
      | none => some i
      | some j =>
        let gi := neighbourGap s t i
        let gj := neighbourGap s t j
        if gj.1 * gi.2 < gi.1 * gj.2 then some i else b) none

/-- The neighbour check: the sensor that stands out most is ignored first (log 10). -/
def neighbourCheck : Nat → State → (Nat → Int) → Nat → State
  | 0, s, _, _ => s
  | fuel + 1, s, t, k => match worstSensor s t k with
    | none => s
    | some i => neighbourCheck fuel (ignoreSensor s i 1) t k

/-- The checks of R312 on counts and readings in 1/`k` of 1/16 °C. -/
def plausible (s : State) (bad : Nat → Bool) (t : Nat → Int) (k : Nat) : State :=
  let s := (List.range 28).foldl (fun s i =>
    if bad i || decide (t i < -960 * (k : Int)) || decide (2560 * (k : Int) < t i) then ignoreSensor s i 0 else s) s
  neighbourCheck 28 s t k

/-! ### Bands (R313 to R316) -/

/-- Entry temperature of a hot step in 1/16 °C. -/
def stepEntry (k : Nat) : Int := ([0, 1520, 1600, 1680, 1760, 1920, 1952, 1984, 2000] : List Int).getD k 0

/-- The step that T_ctl (in 1/16 °C) gives from the present one (R315). DEDUCED (log 67). -/
def stairStep (cur t : Int) (hyst : Nat) : Int :=
  let h : Int := 16 * hyst
  let hot := (List.range 9).foldl (fun b k =>
    if 1 ≤ k ∧ (stepEntry k ≤ t ∨ ((k : Int) ≤ cur ∧ stepEntry k - h ≤ t)) then k else b) 0
  if 0 < hot then hot
  else if t < -480 ∨ (cur = -2 ∧ t < -480 + h) then -2
  else if t < 0 ∨ (cur < 0 ∧ t < h) then -1
  else 0

/-- Band code and THROTTLE of a step (log 67). -/
def stairBand (k : Int) : Nat × Nat :=
  if k = -2 then (0, 8) else if k = -1 then (1, 0) else if k ≤ 0 then (2, 0)
  else if k ≤ 3 then (3, k.toNat) else if k ≤ 7 then (4, k.toNat) else (5, 8)

/-- Band, THROTTLE and what follows from them take effect (R315, R316) (log 67). -/
def bandSet (s : State) (band thr : Nat) : State :=
  let old := fget s R.THM_STAT F.THM_STAT_BAND
  let s := fset (fset s R.THM_STAT F.THM_STAT_BAND band) R.THM_STAT F.THM_STAT_THROTTLE thr
  let s := fset s R.SHT_CTRL F.SHT_CTRL_THROTTLE thr
  let s := { s with pins := { s.pins with heatReq := decide (band = 0) && decide (modeOf s ≠ .bypass) } }
  let s := fsetB s R.THM_STAT F.THM_STAT_HEAT_REQ (decide (band = 0))
  if band = old then s
  else
    let s := drcHot (raise (finc s R.THM_CNT F.THM_CNT_BAND_CHG) 456)
    if band = 0 then raise s 458 else s

/-- CRIT latches, fills end and the orderly stop begins (R76, R318); in BYPASS, and during a warm reset sequence or an orderly stop,
nothing further starts (R459, R463). -/
def critLatch (s : State) : State :=
  if flag s R.THM_STAT F.THM_STAT_CRIT then s
  else
    let s := raise (fon s R.THM_STAT F.THM_STAT_CRIT) 459
    let s := fillStop { s with thm := { s.thm with stair := 8 } }
    let s := bandSet s 5 8
    let s := (List.range 16).foldl biasUpdate (resrefForce s)
    if modeOf s = .bypass ∨ s.sys.reset.isSome ∨ s.sys.orderly.isSome then s
    else
      let s := if modeOf s = .scan ∨ modeOf s = .calibrate then cutSlots s else s
      fon { s with sys := { s.sys with orderly := some (now s), withdrawn := false, target := none } } R.SYS_MODE F.SYS_MODE_BUSY

/-- The hottest non-ignored sensor, the lower number of equal ones (log 67). -/
def hottest (s : State) : Option Nat :=
  match liveSensors s with
  | [] => none
  | i :: l => some (l.foldl (fun b j => if sensorTemp16 s b < sensorTemp16 s j then j else b) i)

/-- GUARD and T_ctl follow the readings and the ignored sensors (R313). -/
def tctlShow (s : State) : State :=
  let anyIgn := decide (rd s R.THM_IGN ≠ 0)
  let s := fsetB s R.THM_STAT F.THM_STAT_GUARD anyIgn
  match hottest s with
  | none => s
  | some i =>
    fset (fset s R.THM_TCTL F.THM_TCTL_T_CTL (unsigned 16 (sensorTemp16 s i + (if anyIgn then 80 else 0)))) R.THM_TCTL F.THM_TCTL_HOTTEST i

/-- T_ctl, GUARD, hold, band and THROTTLE from the readings of a capture (R313 to R315); `ign0` are the sensors that
were ignored before it. -/
def controlTemp (s : State) (ign0 : Word) : State :=
  let s := tctlShow s
  let failed := match s.thm.hot with
    | some i => sensorIgnored s i && !bitOf ign0.toNat i
    | none => false
  let s := if failed && decide (0 < fget s R.THM_STAT F.THM_STAT_THROTTLE) then
      fon { s with thm := { s.thm with holdEnd := some (now s + ticksMs 10000) } } R.THM_STAT F.THM_STAT_HOLD
    else s
  let s := { s with thm := { s.thm with hot := hottest s } }
  let t := tCtl16 s
  if s.thm.hot.isNone ∨ 2000 ≤ t then critLatch s
  else if flag s R.THM_STAT F.THM_STAT_CRIT then s
  else
    let k := stairStep s.thm.stair t (thmHyst s)
    let (band, thr) := stairBand k
    let band := if (liveSensors s).length < 20 then max band 4 else band
    let band0 := fget s R.THM_STAT F.THM_STAT_BAND
    let thr0 := fget s R.THM_STAT F.THM_STAT_THROTTLE
    if s.thm.holdEnd.isSome then
      let s := if thr < thr0 ∨ band < band0 then s else { s with thm := { s.thm with stair := k } }
      bandSet s (max band band0) (max thr thr0)
    else bandSet { s with thm := { s.thm with stair := k } } band thr

/-- 25 °C + (N / t_g − F25) / SLOPE in 1/16 °C, for a gate in 0.1 µs (R311): a count N over it is N × 10^10 / gate in mHz. -/
def sensorTemp (i count gate : Nat) : Int :=
  let num := 16 * ((count : Int) * 10000000000 - Config.f25 i * gate)
  let den := Config.slope i * gate
  let q := num.fdiv den
  400 + (if q * den = num then q else q + b2n (Config.readsUp i count gate))

/-- A reading in 1/16 °C (R311). -/
def reading (s : State) (i count gate : Nat) : Int :=
  clampInt (-32768) 32767 (sensorTemp i count gate + signed 8 (fget s (R.THM_SENS i) F.THM_SENS_TRIM))

/-- A count that is 0 or saturated. -/
def badCount (n : Nat) : Bool := decide (n = 0) || decide (n = 2 ^ 24 - 1)

/-- The count of sensor i in a list of counts; a missing one is 0. -/
def countOf (counts : List (BitVec 24)) (i : Nat) : Nat := (counts.getD i 0).toNat

/-- A capture over a gate in 0.1 µs (R311 to R315); the tables of R75 follow the new temperatures (log 67). -/
def thmCapture (s : State) (counts : List (BitVec 24)) (gate : Nat) : State :=
  let ign0 := rd s R.THM_IGN
  let s := (List.range 28).foldl (fun s i =>
    fset s (R.THM_SENS i) F.THM_SENS_TEMP (unsigned 16 (reading s i (countOf counts i) gate))) s
  let s := plausible s (fun i => badCount (countOf counts i)) (sensorTemp16 s) 1
  staleCheck (controlTemp s ign0)

/-- THM_CAPTURE (R311): the gate of a sequencer entry with SRC = 0x40 has ended. -/
def execThmCapture (counts : List (BitVec 24)) (s : State) : Host.Outcome State Fault Refusal :=
  let c := s.hk.conv
  .next (done (
    if s.sys.held.isNone ∧ s.hk.phase ≠ .stopped ∧ isCapture c.cfg ∧ 0 < c.t ∧ c.breakAt + 2000 * c.t ≤ now s ∧ s.thm.applied ≠ some c.breakAt then
      let s := { s with thm := { s.thm with applied := some c.breakAt, autoAt := now s + ticksMs 10 } }
      thmCapture s counts (16 * c.t)
    else s))

/-- AUTOCAP (R311): the 1 ms gate of an autonomous capture has ended (log 68). -/
def execAutocap (counts : List (BitVec 24)) (s : State) : Host.Outcome State Fault Refusal :=
  .next (done (
    if s.sys.held.isNone ∧ s.thm.autoAt + ticksMs 1 ≤ now s then
      let s := { s with thm := { s.thm with autoAt := s.thm.autoAt + ticksMs 10 } }
      let s := flagRaise (finc s R.THM_CNT F.THM_CNT_AUTO_CNT) R.THM_STAT F.THM_STAT_AUTOCAP 460
      thmCapture s counts 10000
    else s))

/-- THM_HOLD_END (R314) (log 67). -/
def execThmHoldEnd (s : State) : Host.Outcome State Fault Refusal :=
  .next (done (match s.thm.holdEnd with
    | some t => if t ≤ now s then foff { s with thm := { s.thm with holdEnd := none } } R.THM_STAT F.THM_STAT_HOLD else s
    | none => s))

/-! ### Recalibration (R317) -/

/-- A write of RECAL: no sensor is ignored any more, and GUARD and T_ctl follow (R313) (log 68). -/
def recalSet (s : State) : State :=
  if (modeOf s = .standby ∨ modeOf s = .calibrate) ∧ s.thm.recal.isNone then
    let s := wr s R.THM_IGN 0
    let s := (List.range 28).foldl (fun s i => foff s (R.THM_SENS i) F.THM_SENS_IGN) s
    staleCheck (tctlShow (fon { s with thm := { s.thm with recal := some (now s) } } R.THM_CTRL F.THM_CTRL_RECAL))
  else s

/-- RECAL (R317). -/
def execRecal (s : State) : Host.Outcome State Fault Refusal := .next (done (recalSet s))

/-- Sum of the eight readings of sensor i, in 1/128 °C (log 68). -/
def recalSum (s : State) (caps : List (List (BitVec 24))) (i : Nat) : Int :=
  ((List.range 8).map (fun k => reading s i (countOf (caps.getD k []) i) 10000)).sum

/-- RECAL_DONE (R317): the eight captures act as captures, then TRIM moves each plausible sensor's mean to the common mean,
and what the newly ignored sensors change follows; the rounding of TRIM is open (log 7). DEDUCED (log 68). -/
def execRecalDone (caps : List (List (BitVec 24))) (s : State) : Host.Outcome State Fault Refusal :=
  .next (done (match s.thm.recal with
    | none => s
    | some t0 =>
      if now s < t0 + ticksMs 8 then s
      else
        let sum := recalSum s caps
        let s := (List.range 8).foldl (fun s k => thmCapture s (caps.getD k []) 10000) s
        let ign0 := rd s R.THM_IGN
        let s := plausible s (fun i => (List.range 8).any (fun k => badCount (countOf (caps.getD k []) i))) sum 8
        let live := liveSensors s
        let n : Int := live.length
        let total := (live.map sum).sum
        let s := live.foldl (fun s i =>
          let adj := total - n * sum i
          if (80 * 8 * n).natAbs < adj.natAbs then ignoreSensor s i 2
          else
            let (v, s) := openDivI s adj (8 * live.length)
            fset s (R.THM_SENS i) F.THM_SENS_TRIM
              (unsigned 8 (clampInt (-128) 127 (signed 8 (fget s (R.THM_SENS i) F.THM_SENS_TRIM) + v)))) s
        staleCheck (controlTemp (foff { s with thm := { s.thm with recal := none } } R.THM_CTRL F.THM_CTRL_RECAL) ign0)))

end Sys2Proof.Machine
end

