-- ==== Sys2Proof/Machine/Memory.lean ====
section
/-! DEFINITION. The memories (14_memory.md): scrubbers, the clay allocation check, the SDRAM controller. -/

namespace Sys2Proof.Machine

/-! ### Scrubbers (R325) -/

/-- Lines of 64 B of an on-chip region, and the address of its line l. -/
def regionLines (r : Nat) : Nat := ([131072, 262144, 229376, 32768] : List Nat).getD r 0
def regionLine (r l : Nat) : Nat :=
  match r with
  | 0 => 0x0200000000 + l / 2048 * 0x40000 + l % 2048 * 64
  | 1 => 0x0300000000 + 64 * l
  | 2 => 0x0100000000 + 64 * l
  | _ => 0x10000000 + 64 * l

def scrubOf (s : State) (r : Nat) : Nat × Nat := tget (0, 0) s.drc.scrub r
def setScrub (s : State) (r : Nat) (v : Nat × Nat) : State := { s with drc := { s.drc with scrub := tput (0, 0) s.drc.scrub r v } }

/-- The scrubber of a region is on. -/
def scrubOn (s : State) (r : Nat) : Bool := decide (r ≠ 1) && flag s (R.MEM_RCFG r) F.MEM_RCFG_SCRUB_EN

/-- The scrubber of region 0 has found a damaged word of tile memory (R326): a histogram there that is filling or being fetched is lost,
one that waits for its fetch is reclaimed, its ticket withdrawn. -/
def tileUe (s : State) (a : Nat) : State :=
  let o := a - 0x0200000000
  let n := 16 * (o / 0x40000) + o % 0x10000 / 0x1000
  let f := o % 0x40000 / 0x10000
  let h := (gtChan s n).buf f
  if 2 ≤ f then s
  else match h.st with
    | .filling | .held => modBuf s n f (fun h => { h with lost := true })
    | .posted =>
      let t := n / 16
      let s := setPost s t ((postOf s t).filter (fun k => !(decide (k.ch = n % 16) && decide (k.buf = f))))
      bufClear (histGap s n Gap.deadline h.hr) n f
    | .free | .clearing => s

/-- SCRUB_LINE (R325): the next line of region r is read; `ce` and `ue` name its words with an error. DEDUCED (log 69). -/
def execScrubLine (r : Fin 4) (ce ue : BitVec 8) (s : State) : Host.Outcome State Fault Refusal :=
  let r := r.val
  let (l, t) := scrubOf s r
  .next (done (
    if scrubOn s r = false ∨ regionLines r ≤ l then s
    else
      let a := regionLine r l
      let s := setScrub (fon s (R.MEM_RSTAT r) F.MEM_RSTAT_SCRUBBING) r (l + 1, t)
      let s := (List.range 8).foldl (fun s i =>
        let s := if ce.getLsbD i then flagRaise (finc s (R.MEM_RCNT r) F.MEM_RCNT_CE_CNT) (R.MEM_RSTAT r) F.MEM_RSTAT_CE (432 + 3 * r) else s
        if ue.getLsbD i then
          let s := ueRecord (poisonWord s (a + 8 * i)) (a + 8 * i)
          if r = 0 then tileUe s (a + 8 * i) else s
        else s) s
      if l + 1 = regionLines r then
        fwrap (foff s (R.MEM_RSTAT r) F.MEM_RSTAT_SCRUBBING) (R.MEM_RSTAT r) F.MEM_RSTAT_PASSES
      else s))

/-- SCRUB_PASS_END (R325): the period of the pass of region r ends. -/
def execScrubPassEnd (r : Fin 4) (s : State) : Host.Outcome State Fault Refusal :=
  let r := r.val
  let (l, t) := scrubOf s r
  .next (done (
    if scrubOn s r = false ∨ now s < t + ticksMs (10 * max 1 (fget s (R.MEM_RCFG r) F.MEM_RCFG_PASS)) then s
    else if l < regionLines r then
      flagRaise (setScrub s r (l, now s)) (R.MEM_RSTAT r) F.MEM_RSTAT_SCRUB_LATE (434 + 3 * r)
    else setScrub s r (0, now s)))

/-! ### Clay allocation (R330, R331) -/

/-- The regions of R331 as code, base and length; the skipped ones are absent. -/
def cmRegions (s : State) : List (Nat × Nat × Nat) :=
  let c := 0x0100000000
  let sum := fget s R.PS_SUM F.PS_SUM_SUM_SLOTS * 4160
  let cap := (rd s R.CAP_LEN).toNat
  let capIn := decide (capBase s < c + 0xE00000) && decide (c < capBase s + cap)
  [(0, ttBase s, 2 ^ ttSize s * 32), (1, schedBase s, 0x200000), (2, c + fget s R.CM_TQ_BASE F.CM_TQ_BASE_OFS, 0x40000),
   (3, c + fget s R.CM_SPILL_BASE F.CM_SPILL_BASE_OFS, fget s R.CM_SPILL_LEN F.CM_SPILL_LEN_LEN),
   (4, c + fget s R.CM_GAP_BASE F.CM_GAP_BASE_OFS, fget s R.CM_GAP_LEN F.CM_GAP_LEN_LEN),
   (5, histAddr s 0 0, 0x40000)] ++
  (if sum = 0 then [] else [(6, sumAddr s 0, sum)]) ++ (if cap = 0 ∨ capIn = false then [] else [(7, capBase s, cap)])

/-- The ranges have an address in common. -/
def rangesMeet (a b : Nat × Nat) : Bool := decide (a.1 < b.1 + b.2) && decide (b.1 < a.1 + a.2) && decide (0 < a.2) && decide (0 < b.2)

/-- ERR, REG_A and REG_B of the check; ERR 0 when it passes. DEDUCED (log 119). -/
def cmCheck (s : State) : Nat × Nat × Nat :=
  let c := 0x0100000000
  let rs := cmRegions s
  let tb := ttBase s
  let tl := 2 ^ ttSize s * 32
  let banks := (tb / 0x40000 * 0x40000, (ceilDiv (tb + tl) 0x40000 - tb / 0x40000) * 0x40000)
  match rs.find? (fun r => decide (r.1 ≤ 6) && (decide (r.2.1 < c) || decide (c + 0xE00000 < r.2.1 + r.2.2))) with
  | some r => (1, r.1, 0)
  | none =>
    if c + 0x400000 < tb + tl ∨ tb % tl ≠ 0 then (2, 0, 0)
    else match rs.find? (fun r => decide (r.1 ≠ 0) && rangesMeet banks r.2) with
      | some r => (3, r.1, 0)
      | none =>
        match rs.findSome? (fun a => (rs.find? (fun b => decide (b.1 < a.1) && rangesMeet a.2 b.2)).map (fun b => (a.1, b.1))) with
        | some (a, b) => (4, a, b)
        | none => (0, 0, 0)

/-- A write of COMMIT in CM_CHECK (R330), once its mode has been checked. -/
def cmCommit (s : State) : State :=
  if s.drc.cmAt.isSome then s
  else fon (foff { s with drc := { s.drc with cmAt := some (now s) } } R.CM_CHECK F.CM_CHECK_OK) R.CM_CHECK F.CM_CHECK_COMMIT

/-- CM_COMMIT (R330). -/
def execCmCommit (s : State) : Host.Outcome State Fault Refusal := .next (done (withRwm s cmCommit))

/-- CM_COMMIT_DONE (R331). -/
def execCmCommitDone (s : State) : Host.Outcome State Fault Refusal :=
  .next (done (if s.drc.cmAt.isSome then
      let (e, a, b) := cmCheck s
      let s := foff { s with drc := { s.drc with cmAt := none } } R.CM_CHECK F.CM_CHECK_COMMIT
      let s := fset (fset (fset s R.CM_CHECK F.CM_CHECK_ERR e) R.CM_CHECK F.CM_CHECK_REG_A a) R.CM_CHECK F.CM_CHECK_REG_B b
      fsetB s R.CM_CHECK F.CM_CHECK_OK (decide (e = 0))
    else s))

/-! ### SDRAM initialisation and training (R336, R347) -/

abbrev drcOff := 0
abbrev drcReset := 1
abbrev drcCkeWait := 2
abbrev drcMrs := 3
abbrev drcZqcl := 4
abbrev drcCheck := 5
abbrev drcReady := 6
abbrev drcSelfRef := 7
abbrev drcTrain := 8
abbrev drcError := 9

def drcState (s : State) : Nat := fget s R.DRC_STAT F.DRC_STAT_STATE

/-- The controller enters a state: DDR_RESET_N is low in RESET only, and DDR_CKE is high from MRS until self-refresh, OFF or
RESET; ERROR leaves both as they are (R336) (log 70). -/
def drcGo (s : State) (st : Nat) : State :=
  let low := st = drcOff ∨ st = drcReset ∨ st = drcCkeWait ∨ st = drcSelfRef
  let s := { s with pins := { s.pins with
    ddrResetN := if st = drcReset then false else if st = drcOff then s.pins.ddrResetN else true,
    ddrCke := if low then false else if st = drcError then s.pins.ddrCke else true } }
  fset { s with drc := { s.drc with since := now s } } R.DRC_STAT F.DRC_STAT_STATE st

/-- The level of DDR_CKE of rank r: low in self-refresh and in power-down (R336, R344). -/
def ckePin (s : State) (r : Nat) : Bool := s.pins.ddrCke && !s.dram.pd.contains r

/-- The registers that take effect at INIT (R336) (log 70). -/
def drcTimingRegs : List Nat :=
  [R.DRC_GEOM, R.DRC_TIM0, R.DRC_TIM1, R.DRC_TIM2, R.DRC_REF] ++ (List.range 7).map R.DRC_MR ++
    (List.range 2).flatMap (fun k => (List.range 9).flatMap (fun l => [R.DLY_W k l, R.DLY_R k l, R.DLY_V k l])) ++ [R.DLY_CA]

/-- Geometry, timing, modes and delays take effect. -/
def drcLatch (s : State) : State :=
  let s := { s with drc := { s.drc with timing := drcTimingRegs.foldl (fun t a => tput (regReset a) t a (rd s a)) [] } }
  fset s R.DRC_GEOM F.DRC_GEOM_CAP (drcCap (rd s R.DRC_GEOM))

/-- A written delay takes effect at once while TRAIN = 1 (R336). -/
def dlyTrain (s : State) (a : Nat) : State :=
  if flag s R.DRC_CTRL F.DRC_CTRL_TRAIN then { s with drc := { s.drc with timing := tput (regReset a) s.drc.timing a (rd s a) } } else s

/-- A write of INIT (R336). DEDUCED (log 70). -/
def drcInit (s : State) : State :=
  if drcState s = drcOff ∧ flag s R.DRC_GEOM F.DRC_GEOM_PRESENT then
    let s := mzero { s with poison := s.poison.filter (· < 0x1000000000) } 0x1000000000 0x400000000
    drcGo { drcLatch s with drc := { (drcLatch s).drc with kept := false } } drcReset
  else if drcState s = drcSelfRef then
    drcGo { drcLatch s with drc := { (drcLatch s).drc with kept := true } } drcCheck
  else s

/-- DRC_INIT (R336). -/
def execDrcInit (s : State) : Host.Outcome State Fault Refusal := .next (done (drcInit s))

/-- One timed transition of R336. -/
def drcStep (s : State) (cur wait nxt : Nat) : State :=
  if drcState s = cur ∧ s.drc.since + wait ≤ now s then drcGo s nxt else s

/-- DDR_RESET_DONE (R336). -/
def execDdrResetDone (s : State) : Host.Outcome State Fault Refusal := .next (done (drcStep s drcReset (ticksUs 200) drcCkeWait))
/-- CKE_WAIT_DONE (R336). -/
def execCkeWaitDone (s : State) : Host.Outcome State Fault Refusal := .next (done (drcStep s drcCkeWait (ticksUs 500) drcMrs))
/-- MRS_DONE (R336): the devices hold the words of DRC_MR0 to DRC_MR6. -/
def execMrsDone (s : State) : Host.Outcome State Fault Refusal :=
  .next (done (if drcState s = drcMrs then drcGo { s with drc := { s.drc with srt := false } } drcZqcl else s))
/-- ZQCL_DONE (R336): 512 clocks per rank. -/
def execZqclDone (s : State) : Host.Outcome State Fault Refusal :=
  .next (done (drcStep s drcZqcl (512 * drcRanks (drcWord s R.DRC_GEOM)) drcCheck))

/-- Writes `n` open words of 8 bytes from an address. -/
def openWords : Nat → State → Nat → State
  | 0, s, _ => s
  | n + 1, s, a =>
    let (v, s) := openVal s
    openWords n (mwr s a 8 v.toNat) (a + 8)

/-- The test pattern of CHECK in the first 256 B of each rank (R336); its bytes are open. -/
def drcPattern (s : State) : State :=
  let w := drcWord s R.DRC_GEOM
  let half := drcCap w * 2 ^ 30 / drcRanks w
  (List.range (drcRanks w)).foldl (fun s k => openWords 32 (unpoison s (0x1000000000 + k * half) 256) (0x1000000000 + k * half)) s

/-- tREFI in force in ticks, halved while HOT (R342) (log 71). -/
def drcRefi (s : State) : Nat :=
  let t := getFld (drcWord s R.DRC_REF) F.DRC_REF_TREFI
  if flag s R.DRC_STAT F.DRC_STAT_HOT then t / 2 else t

/-- CHECK_DONE (R336). -/
def execCheckDone (lanes : BitVec 9) (s : State) : Host.Outcome State Fault Refusal :=
  .next (done (
    if drcState s ≠ drcCheck then s
    else
      let s := if s.drc.kept then s else drcPattern s
      let s := fset s R.DRC_STAT F.DRC_STAT_LANE_ERR lanes.toNat
      if lanes = 0 then
        let s := drcGo s drcReady
        let d := drcRefi s
        { s with drc := { s.drc with
            refAt := (List.range (drcRanks (drcWord s R.DRC_GEOM))).map (fun k => (k, now s + d + k * (d / 2))), zqAt := now s } }
      else flagRaise (drcGo s drcError) R.DRC_STAT F.DRC_STAT_INIT_ERR 447))

/-- A write of TRAIN (R336, R347). -/
def trainSet (s : State) (b : Bool) : State :=
  if b then
    if drcState s = drcReady ∧ modeOf s = .calibrate ∧ flag s R.SHT_CTRL F.SHT_CTRL_CAL_RUN = false then
      drcGo (fon s R.DRC_CTRL F.DRC_CTRL_TRAIN) drcTrain
    else s
  else
    let s := foff s R.DRC_CTRL F.DRC_CTRL_TRAIN
    if drcState s = drcTrain then drcGo { s with drc := { s.drc with kept := false } } drcCheck else s

/-- TRAIN_START (R336). -/
def execTrainStart (s : State) : Host.Outcome State Fault Refusal := .next (done (trainSet s true))
/-- TRAIN_END (R336). -/
def execTrainEnd (s : State) : Host.Outcome State Fault Refusal := .next (done (trainSet s false))

/-- The pattern burst has ended: BUSY and PASS follow (R349). -/
def drcTestShow (s : State) : State :=
  match s.drc.test with
  | some (t, pass) =>
    if t ≤ now s then
      foff (fset { s with drc := { s.drc with test := none } } R.DRC_TEST F.DRC_TEST_PASS pass) R.DRC_TEST F.DRC_TEST_BUSY
    else s
  | none => s

/-- DRC_TEST_GO (R347, R349): one burst over the rank that RANK names; `pass` names the lanes that match in it, and none does of a rank that
is not there. How long the burst runs is open. DESIGN CHOICE (log 119). -/
def execDrcTestGo (pass : BitVec 9) (s : State) : Host.Outcome State Fault Refusal :=
  .next (done (
    let s := drcTestShow s
    if drcState s = drcTrain ∧ s.drc.test = none then
      let v := openVal s
      let hit := if fget s R.DRC_TEST F.DRC_TEST_RANK < drcRanks (drcWord s R.DRC_GEOM) then pass.toNat else 0
      fon { v.2 with drc := { v.2.drc with test := some (now s + v.1.toNat, hit) } } R.DRC_TEST F.DRC_TEST_BUSY
    else s))

/-- Whatever waits in the controller ends. -/
def drcQuiet (s : State) : State :=
  foff { s with
    drc := { s.drc with refAt := [], force := 0, alertAt := none, urgent := [], crit := [], replays := [], test := none },
    dram := .init } R.DRC_TEST F.DRC_TEST_BUSY

/-- Self-refresh entry: open rows are closed, and SRT of MR2 is set while HOT (R336). -/
def selfRefresh (s : State) : State :=
  let s := drcQuiet s
  drcGo { s with drc := { s.drc with srt := s.drc.srt || flag s R.DRC_STAT F.DRC_STAT_HOT } } drcSelfRef

/-- The controller at the start of a warm reset (R336). DEDUCED (log 73). -/
def drcWarm (s : State) : State :=
  let st := drcState s
  if st = drcReady ∨ st = drcTrain then selfRefresh s
  else if st = drcSelfRef then drcQuiet s
  else drcGo (drcQuiet s) drcOff

/-- The controller on the way into BYPASS, where the SDRAM is in self-refresh; ERROR stays (R336). DEDUCED (log 105). -/
def drcBypass (s : State) : State := if drcState s = drcReady ∨ drcState s = drcTrain then selfRefresh s else s

/-! ### Parity alerts (R336, R346) -/

/-- ALERT_FALL (R346): with PAR_EN = 1 the controller issues no more commands. -/
def execAlertFall (s : State) : Host.Outcome State Fault Refusal :=
  .next (done (if (drcState s = drcReady ∨ drcState s = drcTrain) ∧ s.drc.alertAt.isNone ∧ flag s R.DRC_CTRL F.DRC_CTRL_PAR_EN then
      { s with drc := { s.drc with alertAt := some (now s) } } else s))

/-- ALERT_STUCK (R336): ALERT_n has been low for more than 1 µs. -/
def execAlertStuck (s : State) : Host.Outcome State Fault Refusal :=
  .next (done (match s.drc.alertAt with
    | some t =>
      if drcState s = drcReady ∧ t + ticksUs 1 < now s then
        raise (fon (drcGo { s with drc := { s.drc with refAt := [] } } drcError) R.DRC_STAT F.DRC_STAT_ALERT_STUCK) 445
      else s
    | none => s))

/-- A command is abandoned (R346): the 64 bytes of a lost write are open (log 72). -/
def parAbandon (s : State) (c : DramCmd) : State :=
  let a := c.addr.toNat
  let s := if c.write then openWords 8 s (a / 64 * 64) else s
  let s := wr (wr s R.DRC_ERR_LO (BitVec.ofNat 32 a)) R.DRC_ERR_HI (BitVec.ofNat 32 (2 ^ 31 + b2n c.write * 2 ^ 30 + a / 2 ^ 32))
  flagRaise (finc s R.DRC_CNT_B F.DRC_CNT_B_PAR_UE_CNT) R.DRC_STAT F.DRC_STAT_PAR_UE 445

/-- Parity latency in clocks, by bits 2:0 of the MR5 value in force (R346). PRESUMED (log 146). -/
def parLatency (s : State) : Nat := [0, 4, 5, 6, 8].getD ((drcWord s (R.DRC_MR 5)).toNat % 8) 0

/-- The commands of the retry buffer that an alert which fell at `t` has caught, in their original order: those issued within the parity
latency before it, and of the earlier ones those that `ids` names: the alert delay is the part's (R346) (log 72). -/
def parCaught (s : State) (t : Nat) (ids : List Nat) : List DramCmd :=
  ((s.dram.cmds.filter (fun p => decide (p.1 ≤ t) && (decide (t ≤ p.1 + parLatency s) || ids.contains p.2.id))).map (·.2)).reverse

/-- ALERT_RISE (R346): the caught commands of the retry buffer are reissued in their order, but for those that three replays have not
carried through. `l` names commands issued within the alert delay. -/
def execAlertRise (l : List DramCmd) (s : State) : Host.Outcome State Fault Refusal :=
  .next (done (match s.drc.alertAt with
    | none => s
    | some t =>
      let caught := parCaught s t (l.map (·.id))
      let n := fun (c : DramCmd) => tget 0 s.drc.replays c.id
      let lost := caught.filter (fun c => decide (3 ≤ n c))
      let kept := caught.filter (fun c => decide (n c < 3))
      let rest := s.dram.cmds.filter (fun p => !caught.any (fun c => decide (c.id = p.2.id)))
      let s : State := { s with
        drc := { s.drc with alertAt := none, replays := kept.foldl (fun l c => tput 0 l c.id (n c + 1)) [] },
        dram := { s.dram with cmds := kept.reverse.map (fun c => (now s, c)) ++ rest } }
      let s := lost.foldl parAbandon s
      if kept.isEmpty then s
      else flagRaise (finc s R.DRC_CNT_B F.DRC_CNT_B_REPLAY_CNT) R.DRC_STAT F.DRC_STAT_PARITY 446))

/-! ### Refresh (R342, R343), power-down, ZQCS (R333, R344) -/

def owed (s : State) : Nat := fget s R.DRC_REF F.DRC_REF_OWED
def pulled (s : State) : Nat := fget s R.DRC_REF F.DRC_REF_PULLED

/-- While the channel is idle, `n` further refreshes are issued back to back: owed ones first, then up to PULL_MAX early (R343). -/
def refreshIdle (s : State) (n : Nat) : State :=
  let k := min n (owed s)
  let s := fset s R.DRC_REF F.DRC_REF_OWED (owed s - k)
  if owed s ≠ 0 then s
  else
    fset { s with drc := { s.drc with force := 0 } } R.DRC_REF F.DRC_REF_PULLED
      (max (pulled s) (min (min 8 (fget s R.DRC_REF F.DRC_REF_PULL_MAX)) (pulled s + (n - k))))

/-- The next refresh of rank r after the one that was due at `t`: tREFI later, with the other rank half of it away (R342). -/
def refreshNext (s : State) (r t : Nat) : State :=
  let d := drcRefi s
  { s with drc := { s.drc with refAt := s.drc.refAt.map (fun p => if p.1 = r then (r, t + d) else (p.1, t + d / 2)) } }

/-- A refresh falls due and is postponed (R343). -/
def refreshPostpone (s : State) : State :=
  let s' := fset s R.DRC_REF F.DRC_REF_OWED (min 8 (owed s + 1))
  if 7 ≤ owed s then { s' with drc := { s'.drc with force := s'.drc.force + 1 } } else s'

/-- REFRESH_DUE (R342, R343): the refresh of rank r falls due: done early before, postponed while a real-time request is there (`rt`) or
no command is issued (R346), else issued, with as many more as the channel is idle for (`idle`). DEDUCED (log 71). -/
def execRefreshDue (r : Fin 2) (rt : Bool) (idle : Nat) (s : State) : Host.Outcome State Fault Refusal :=
  .next (done (match lookup s.drc.refAt r.val with
    | none => s
    | some t =>
      if now s < t then s
      else
        let s := refreshNext s r.val t
        let busy := rt || s.drc.alertAt.isSome
        let s := if 0 < pulled s then fset s R.DRC_REF F.DRC_REF_PULLED (pulled s - 1)
          else if busy then refreshPostpone s
          else drcIssue (pdExit s r.val) (0x1000000000 + r.val * (drcCap (drcWord s R.DRC_GEOM) * 2 ^ 29)) false
        if busy then s else refreshIdle s idle))

/-- SPLIT_POINT (R338, R343): the real-time piece in progress ends, and a forced refresh is issued there. -/
def execSplitPoint (s : State) : Host.Outcome State Fault Refusal :=
  .next (done (
    let s := if s.dram.piece = none then s else { s with dram := { s.dram with piece := none } }
    if 0 < s.drc.force ∧ s.drc.alertAt.isNone then
      let s := { s with drc := { s.drc with force := s.drc.force - 1 }, dram := { s.dram with pd := [] } }
      let s := fset s R.DRC_REF F.DRC_REF_OWED (owed s - 1)
      flagRaise (finc s R.DRC_CNT_B F.DRC_CNT_B_FORCED_CNT) R.DRC_STAT F.DRC_STAT_FORCED 449
    else s))

/-- DRAM_TEMP_READ (R342): every 32 ms the MPR page 2 status of every device is read (log 73). -/
def execDramTempRead (hot valid : Bool) (s : State) : Host.Outcome State Fault Refusal :=
  let src := fget s R.DRC_CTRL F.DRC_CTRL_TSRC
  let due : Bool := match s.drc.mprAt with | some t => decide (t + ticksMs 32 ≤ now s) | none => true
  .next (done (if drcState s = drcReady ∧ (src = 0 ∨ src = 2) ∧ due then
      let s := drcIssue { s with drc := { s.drc with mprAt := some (now s) } } 0x1000000000 false
      if valid then drcHot (fsetB (drcReport s) R.DRC_TEMP F.DRC_TEMP_HOT_MPR hot) else s
    else s))

/-- TEMP_LOST (R342): no valid report for 1 s (log 73). -/
def execTempLost (s : State) : Host.Outcome State Fault Refusal :=
  let from_ := s.drc.reportAt.getD s.drc.since
  .next (done (if s.drc.lost = false ∧ from_ + ticksMs 1000 ≤ now s then
      let s := foff { s with drc := { s.drc with lost := true } } R.DRC_TEMP F.DRC_TEMP_VALID
      drcHot (fon s R.DRC_STAT F.DRC_STAT_TEMP_LOST)
    else s))

/-- AGE of DRC_TEMP: ms since the last report (log 73). -/
def tempAge (s : State) : Nat := match s.drc.reportAt with
  | some t => satN 16 ((now s - t) / 1250000)
  | none => 0xFFFF

/-- POWER_DOWN_ENTRY (R344): rank r has had no request for PD_IDLE clocks, of which 0 acts as 1 (R348). -/
def execPowerDownEntry (r : Fin 2) (s : State) : Host.Outcome State Fault Refusal :=
  let idle := max 1 (fget s R.DRC_PD F.DRC_PD_PD_IDLE)
  .next (done (if drcState s = drcReady ∧ flag s R.DRC_PD F.DRC_PD_PD_EN ∧ r.val < drcRanks (drcWord s R.DRC_GEOM) ∧
      s.dram.pd.contains r.val = false ∧ s.drc.alertAt.isNone ∧ tget s.drc.since s.dram.reqAt r.val + idle ≤ now s then
      { s with dram := { s.dram with pd := s.dram.pd ++ [r.val] } } else s))

/-- ZQCS (R333): every 128 ms. -/
def execZqcs (s : State) : Host.Outcome State Fault Refusal :=
  .next (done (if drcState s = drcReady ∧ s.drc.zqAt + ticksMs 128 ≤ now s ∧ s.drc.alertAt.isNone then
      drcIssue { s with drc := { s.drc with zqAt := now s } } 0x1000000000 false else s))

/-! ### Requests and beats (R339, R341, R345) -/

/-- A request of port p ends `lat` ticks after its arrival: LAT_MAX in 10 ns. -/
def portDone (s : State) (p lat : Nat) : State :=
  let mine := fun (x : Nat × Nat) => decide (x ≠ (p, now s - lat))
  let s := { s with drc := { s.drc with urgent := s.drc.urgent.filter mine, crit := s.drc.crit.filter mine } }
  let (v, s) := openQuot s (lat * 2) 25
  fmax s (R.DRC_PLAT p) F.DRC_PLAT_LAT_MAX v

/-- Class of a request of port p by its age (R339): 0 NORMAL, 1 URGENT, 2 CRITICAL. LAT_TGT is in 12.5 ticks. -/
def reqClass (s : State) (p arrival : Nat) : Nat :=
  let tgt := fget s (R.DRC_PORT p) F.DRC_PORT_LAT_TGT
  let age := now s - arrival
  if tgt = 0 then 0 else if 25 * tgt ≤ 2 * age then 2 else if 25 * tgt ≤ 4 * age then 1 else 0

/-- REQUEST_AGE (R339): a request becomes URGENT, or CRITICAL, which counts once (log 72). -/
def execRequestAge (p : Fin 6) (arrival : BitVec 64) (s : State) : Host.Outcome State Fault Refusal :=
  let key := (p.val, arrival.toNat)
  .next (done (
    if now s < arrival.toNat ∨ s.drc.crit.contains key then s
    else match reqClass s p.val arrival.toNat with
    | 2 => finc { s with drc := { s.drc with urgent := s.drc.urgent.filter (fun x => decide (x ≠ key)), crit := s.drc.crit ++ [key] } }
        (R.DRC_PLAT p.val) F.DRC_PLAT_CRIT_CNT
    | 1 => if s.drc.urgent.contains key then s else { s with drc := { s.drc with urgent := s.drc.urgent ++ [key] } }
    | _ => s))

/-- The controller may serve a request now (R340): no real-time piece is in progress but the one that the request goes on with, no request
of a higher class waits, and none of its own class, CRITICAL or URGENT, is older. -/
def reqTurn (s : State) (p arrival a : Nat) : Bool :=
  let c := reqClass s p arrival
  let key := (p, arrival)
  (match s.dram.piece with | some x => decide (x = a) && decide (p < 2) | none => true) &&
    s.drc.crit.all (fun x => decide (x = key) || (decide (c = 2) && decide (arrival ≤ x.2))) &&
    s.drc.urgent.all (fun x => decide (x = key) || decide (c = 2) || (decide (c = 1) && decide (arrival ≤ x.2)))

/-- A beat of a real-time port at `a`: its piece goes on up to the next 2 KiB boundary (R338). -/
def pieceStep (s : State) (p a : Nat) : State :=
  if p < 2 then { s with dram := { s.dram with piece := if (a + 8) % 2048 = 0 then none else some (a + 8) } } else s

/-- WRITE_QUEUE_ACCEPT (R337, R341): the write queue takes a line. DESIGN CHOICE (log 72). -/
def execWriteQueueAccept (p : Fin 6) (a : BitVec 40) (lat : Nat) (s : State) : Host.Outcome State Fault Refusal :=
  .next (done (
    if regionOf s a.toNat ≠ .sdram then s
    else if drcServes s = false then finc s R.DRC_CNT_A F.DRC_CNT_A_UE_CNT
    else drcUse (portDone s p.val lat) a.toNat 1 true))

/-- SDRAM_BEAT_READ (R340, R345): a beat of a read returns, once it is its request's turn; a corrected beat is written back with ECC_WB = 1,
unless a write to its line is queued. -/
def execSdramBeatRead (p : Option (Fin 6)) (a : BitVec 40) (lat : Nat) (e : BeatRead) (s : State) :
    Host.Outcome State Fault Refusal :=
  .next (done (
    if regionOf s a.toNat ≠ .sdram ∨ drcServes s = false ∨ s.drc.alertAt.isSome ∨
       (match p with | some p => reqTurn s p.val (now s - lat) a.toNat | none => true) = false then s
    else
      let s := drcUse s a.toNat 1 false
      let s := match p with
        | some p => portDone (pieceStep s p.val a.toNat) p.val lat
        | none => s
      match e with
      | .clean => s
      | .ce =>
        let s := if flag s R.DRC_CTRL F.DRC_CTRL_ECC_WB && !s.dram.wq.contains (a.toNat / 64) then drcIssue s (a.toNat / 64 * 64) true else s
        flagRaise (finc s R.DRC_CNT_A F.DRC_CNT_A_CE_CNT) R.DRC_STAT F.DRC_STAT_CE 444
      | .ue => drcUe (poisonWord s a.toNat) a.toNat))

/-- The lines of the installed capacity, and the ticks of a pass of the patrol scrubber: PASS_H hours, of which 0 acts as 1 (R345, R348). -/
def patrolLines (s : State) : Nat := drcCap (drcWord s R.DRC_GEOM) * 2 ^ 24
def patrolPass (s : State) : Nat := max 1 (fget s R.DRC_SCRUB F.DRC_SCRUB_PASS_H) * 3600 * ticksMs 1000

/-- The patrol scrubber is on, the time of its next read has come, and no request comes before a NORMAL one (R340, R345). -/
def patrolDue (s : State) : Bool :=
  decide (drcState s = drcReady) && flag s R.DRC_SCRUB F.DRC_SCRUB_EN && s.drc.alertAt.isNone && s.dram.piece.isNone &&
    s.drc.crit.isEmpty && s.drc.urgent.isEmpty &&
    decide (s.drc.patrolAt + s.drc.patrol * patrolPass s / max 1 (patrolLines s) ≤ now s)

/-- PATROL_SCRUB (R345): the patrol scrubber reads its next line; a poisoned word there is an uncorrectable beat (log 69). -/
def execPatrolScrub (s : State) : Host.Outcome State Fault Refusal :=
  .next (done (if patrolDue s then
      let a := 0x1000000000 + 64 * s.drc.patrol
      let last := decide (patrolLines s ≤ s.drc.patrol + 1)
      let s := drcUse { s with drc := { s.drc with
        patrol := if last then 0 else s.drc.patrol + 1, patrolAt := if last then now s else s.drc.patrolAt } } a 64 false
      match firstPoison s a 64 with
      | some x => drcUe s x
      | none => s
    else s))

end Sys2Proof.Machine
end

