-- ==== Sys2Proof/Machine/Modes.lean ====
section
/-! DEFINITION. Mode requests, leaving a mode, the orderly stop, and the resets (R457, R459 to R466, R318, R319). -/

namespace Sys2Proof.Machine

/-! ### Levels that follow the mode (R394, R457) -/

/-- BYP_HOLD (R394, R457) (log 105). -/
def bypShow (s : State) : State :=
  { s with pins := { s.pins with
      bypHold := flag s R.RING_CFG F.RING_CFG_RING_EN && decide (modeOf s ≠ .bypass) && s.sys.held.isNone &&
        decide (fget s R.SECU_STAT F.SECU_STAT_STAGE = 1) } }

/-- RESREF and BIASREF follow the mode (R457). -/
def refsFollow (s : State) : State := (List.range 16).foldl biasUpdate (resrefForce s)

/-- A scanner whose MIR_EN is forced low (R221) (log 105). -/
def scnForceOff (s : State) (c : Nat) : State :=
  let s := if c = 0 then { s with sht := { s.sht with marks := [] } } else s
  let s := foff (foff s (R.SCN_STAT c) F.SCN_STAT_MIR_EN) (R.SCN_STAT c) F.SCN_STAT_EMIT_OK
  if scnState s c = scnFault ∨ scnState s c = scnOff then s
  else fset s (R.SCN_STAT c) F.SCN_STAT_STATE (if fget s (R.SCN_STAT c) F.SCN_STAT_CAUSE = 0 then scnOff else scnFault)

/-- Every open slice closes with CLOSE = 2 (R318, R466) (log 102). -/
def closeSlices (s : State) : State := s.ps.slices.foldl (fun s x => sliceClose s x 2) s

/-- The permits are withdrawn (R318, R466): safety pairs, RESREF and BIASREF, and the scanners park (log 102). -/
def withdrawAll (s : State) : State := parkAll (refsFollow (safWithdraw s))

/-! ### Warm reset (R463, R464, R466) -/

/-- A warm reset source: the sequence begins; during an orderly stop it waits for BYPASS (log 103). -/
def warmStart (s : State) (cause : Nat) : State :=
  if s.sys.reset.isSome || s.sys.held.isSome then s
  else if s.sys.orderly.isSome then { s with sys := { s.sys with later := some (s.sys.later.getD cause) } }
  else
    let s := if modeOf s = .scan ∨ modeOf s = .calibrate then cutSlots s else s
    let s := { s with sys := { s.sys with reset := some (cause, now s), target := none } }
    withdrawAll (fon s R.SYS_MODE F.SYS_MODE_BUSY)

/-- WARM_RESET_REQUEST (R464): KEY 0x5752, or the firmware after a control-core memory UE, which it reports (R326, log 147) (log 103). -/
def execWarmResetRequest (fw : Bool) (s : State) : Host.Outcome State Fault Refusal :=
  .next (done (if fw then warmStart (coreReport s s 442) 5 else warmStart s 1))

/-- CORE_WATCHDOG (R464, R471) (log 103). -/
def execCoreWatchdog (s : State) : Host.Outcome State Fault Refusal :=
  .next (done (
    if s.sys.held.isNone ∧ fget s R.SECU_STAT F.SECU_STAT_STAGE = 1 ∧
        s.sys.kickAt + ticksMs (max 1 (fget s R.SYS_CFG F.SYS_CFG_WDT_MS)) ≤ now s then warmStart s 2
    else s))

/-- KICK restarts the control-core watchdog. -/
def kick (s : State) : State := { s with sys := { s.sys with kickAt := now s } }

/-- KICK (R471). -/
def execKick (s : State) : Host.Outcome State Fault Refusal := .next (done (kick s))

/-- ms remaining of the watchdog: SYS_WDT.LEFT. -/
def wdtLeft (s : State) : Nat :=
  max 1 (fget s R.SYS_CFG F.SYS_CFG_WDT_MS) - (now s - s.sys.kickAt) / ticksMs 1

/-! ### Entering BYPASS (R318, R457, R459) -/

/-- BYPASS: ports U and D DISABLED, BYP_HOLD low, MIR_EN low, RESREF and BIASREF at 0 V, SDRAM in self-refresh. A
warm reset that waited for it begins. CAL_RUN is cleared with CALIBRATE (R462). DEDUCED (log 105). -/
def enterBypass (s : State) : State :=
  let s := if modeOf s = .calibrate then foff s R.SHT_CTRL F.SHT_CTRL_CAL_RUN else s
  let s := setMode s .bypass
  let s := lnLeave (foff s (R.LN_CTRL 1) F.LN_CTRL_EN) 1 lnDisabled
  let s := lnLeave (foff s (R.LN_CTRL 2) F.LN_CTRL_EN) 2 lnDisabled
  let s := scnForceOff (scnForceOff s 0) 1
  let s := foff { s with sys := { s.sys with target := none, orderly := none, withdrawn := false } } R.SYS_MODE F.SYS_MODE_BUSY
  let s := { s with pins := { s.pins with heatReq := false } }
  let s := coreSwitchFrame (safCheck (refsFollow (bypShow (drcBypass s))))
  match s.sys.later with
  | some c => warmStart { s with sys := { s.sys with later := none } } c
  | none => s

/-- ORDERLY_STOP_WITHDRAW (R318): 2 ms after the gate's end. DEDUCED (log 102). -/
def execOrderlyStopWithdraw (s : State) : Host.Outcome State Fault Refusal :=
  .next (done (
    match s.sys.orderly with
    | some t =>
      if s.sys.withdrawn = false ∧ t + ticksMs 2 ≤ now s then
        closeSlices (withdrawAll { s with sys := { s.sys with withdrawn := true } })
      else s
    | none => s))

/-- Items of a queue that the sink has not read (log 102). -/
def unreadItems (x : SlqQueue) : Nat :=
  (x.units.foldl (fun acc u =>
    (acc.1 + u.bytes.length, acc.2 + (u.items.filter (fun o => decide (x.rd < acc.1 + o))).length)) (x.start, 0)).2

/-- Items still queued are counted in the gap counter THERMAL and discarded (R318). -/
def queuesCount (s : State) : State :=
  let n := (s.slq.queues.map (fun p => unreadItems p.2)).sum
  let s := fadd s (R.GAP_CNT (Gap.thermal - 1)) F.GAP_CNT_COUNT n
  { s with slq := { s.slq with queues := [], clay := [], sdram := [] } }

/-- ORDERLY_STOP_BYPASS (R318): between 48 and 50 ms (log 102). -/
def execOrderlyStopBypass (s : State) : Host.Outcome State Fault Refusal :=
  .next (done (
    match s.sys.orderly with
    | some t => if s.sys.withdrawn ∧ t + ticksMs 48 ≤ now s then enterBypass (queuesCount s) else s
    | none => s))

/-! ### Mode requests (R459 to R461) -/

/-- A refused request (R459). -/
def refuseMode (s : State) (reason : Nat) : State :=
  finc (fset (fon s R.SYS_MODE F.SYS_MODE_REFUSED) R.SYS_MODE F.SYS_MODE_REASON reason) R.SYS_CNT F.SYS_CNT_REFUSE_CNT

/-- Conditions 2 to 6 of R460 for SCAN: the REASON of the first that fails. -/
def scanReason (s : State) : Option Nat :=
  if !flag s R.CM_CHECK F.CM_CHECK_OK then some 2
  else if flag s R.RING_CFG F.RING_CFG_RING_EN && !flag s R.RING_STAT F.RING_STAT_NODE_VALID then some 3
  else if fget s R.SECU_STAT F.SECU_STAT_DBG = 1 then some 4
  else if flag s R.DRC_GEOM F.DRC_GEOM_PRESENT && decide (fget s R.DRC_STAT F.DRC_STAT_STATE ≠ 6) then some 5
  else if decide (modeOf s = .safeHold) && safFaulted s then some 6
  else none

/-- SCAN entry actions (R461), and the mode. -/
def enterScan (s : State) : State :=
  let s := setMode s .scan
  let s := safScanEntry (biasScanEntry (ttScanEntry (startFiring s)))
  let s := { s with ps := { s.ps with fullNext := true } }
  let auto := fget s R.SYS_CFG F.SYS_CFG_SCN_AUTO
  let s := if bitOf auto 0 then scnStart s 0 else s
  let s := if bitOf auto 1 then scnStart s 1 else s
  refsFollow s

/-- The transitions of R459 that REQ may call for. -/
def modeListed (a b : Mode) : Bool :=
  match a, b with
  | .standby, .calibrate | .standby, .scan | .calibrate, .scan | .safeHold, .scan | .standby, .bypass
  | .calibrate, .standby | .scan, .standby | .safeHold, .standby => true
  | _, _ => false

/-- The mode of a code; the codes 6 and 7 are reserved. -/
def modeOfCode (m : Nat) : Option Mode :=
  match m with
  | 0 => some .bypass | 1 => some .boot | 2 => some .standby | 3 => some .calibrate | 4 => some .scan
  | 5 => some .safeHold | _ => none

/-- The REASON for which a request fails, in the order of R460 (log 106). -/
def modeReason (s : State) (b : Mode) : Option Nat :=
  if !modeListed (modeOf s) b then some 1
  else
    let own := match b with
      | .scan => scanReason s
      | .calibrate => if flag s R.CM_CHECK F.CM_CHECK_OK then none else some 2
      | _ => none
    match own with
    | some r => some r
    | none => if modeBusy s then some 7 else none

/-- A permitted transition begins: at once, or by the leaving sequence (R459, R462). DEDUCED (log 106). Where CAL_RUN already reads 1, firing
begins with the entry to CALIBRATE, which is then the reference instant (R92, R241). DESIGN CHOICE (log 145). -/
def modeGo (s : State) (b : Mode) : State :=
  match modeOf s, b with
  | .standby, .bypass => enterBypass s
  | .standby, .scan => enterScan s
  | .safeHold, .scan => enterScan s
  | .standby, .calibrate =>
    let s := refsFollow (setMode s .calibrate)
    if flag s R.SHT_CTRL F.SHT_CTRL_CAL_RUN then startFiring s else s
  | _, _ => leaveTo s b

/-- A request of mode code m (R459): the state, and whether it was refused (log 106). -/
def modeReq (s : State) (m : Nat) : State × Bool :=
  let s := fset s R.SYS_MODE F.SYS_MODE_REQ m
  match modeOfCode m with
  | none => (refuseMode s 1, true)
  | some b =>
    if b = modeOf s then (s, false)
    else match modeReason s b with
      | some r => (refuseMode s r, true)
      | none => (modeGo s b, false)

/-- MODE_REQUEST (R459). -/
def execModeRequest (m : BitVec 3) (s : State) : Host.Outcome State Fault Refusal :=
  .next (done (modeReq s m.toNat).1)

/-- Every armed shot has fired and every window has closed (R462). -/
def shotsOver (s : State) : Bool :=
  s.sht.shots.all (fun x => x.fired || x.msg.withheld) && s.fe.chan.all (fun c => c.2.wins.all (fun w => !w.pending))

/-- The new mode takes effect (R459, R462); a switch of the cores that waits for a frame start is done outside SCAN (R446). -/
def modeLeft (s : State) (b : Mode) : State :=
  let s := if modeOf s = .calibrate then foff s R.SHT_CTRL F.SHT_CTRL_CAL_RUN else s
  let s := foff { s with sys := { s.sys with target := none } } R.SYS_MODE F.SYS_MODE_BUSY
  match b with
  | .scan => enterScan s
  | .standby => coreSwitchFrame (refFirst (safCheck (refsFollow (parkAll (setMode s .standby)))))
  | _ => coreSwitchFrame (safCheck (refsFollow (setMode s b)))

/-- MODE_LEAVE_DONE (R462). -/
def execModeLeaveDone (s : State) : Host.Outcome State Fault Refusal :=
  .next (done (
    match s.sys.target with
    | some m => if shotsOver s then modeLeft s ((modeOfCode m).getD .standby) else s
    | none => s))

/-! ### Resets (R464, R465) -/

/-- Copies a field of a register from another state. -/
def keepFld (o : State) (s : State) (a : Nat) (f : Fld) : State := fset s a f (fget o a f)

/-- Copies a register from another state (log 103). -/
def keepReg (o : State) (s : State) (a : Nat) : State := wr s a (rd o a)

/-- Registers of the SDRAM controller that a warm reset keeps whole (R465). -/
def drcKeptRegs : List Nat :=
  [R.DRC_GEOM, R.DRC_TIM0, R.DRC_TIM1, R.DRC_TIM2, R.DLY_CA] ++ (List.range 7).map R.DRC_MR ++
    [0, 1].flatMap (fun k => (List.range 9).flatMap (fun l => [R.DLY_W k l, R.DLY_R k l, R.DLY_V k l]))

/-- OTP and boot-flash facts that the SEC block shows (R454). -/
def keepOtp (o s : State) : State :=
  let s := keepFld o s R.SEC_OTP F.SEC_OTP_ARC
  let s := keepFld o s R.SECU_STAT F.SECU_STAT_OWNER
  let s := keepFld o s R.SECU_STAT F.SECU_STAT_OPK
  let s := keepFld o s R.SECU_STAT F.SECU_STAT_OPCERT
  fset s R.SECU_STAT F.SECU_STAT_DBG (if o.sec.fuse then 0 else 2)

/-! ### The test access port (R452) -/

/-- DBG reads UNLOCKED or OPEN. -/
def debugOpen (s : State) : Bool := decide (fget s R.SECU_STAT F.SECU_STAT_DBG ≠ 0)

/-- EXTEST, EXTEST_PULSE, EXTEST_TRAIN and core debug access need DBG to read UNLOCKED or OPEN (R452). -/
def tapAvailable (s : State) : TapInst → Bool
  | .extest | .extestPulse | .extestTrain | .coreDebug => debugOpen s
  | .bypass | .idcode | .samplePreload | .dbgChal | .dbgToken => true

/-- An instruction is shifted into the test access port; one that is not available selects BYPASS. PRESUMED (log 140). -/
def tapLoad (s : State) (i : TapInst) : State :=
  { s with pins := { s.pins with tap := if tapAvailable s i then i else .bypass } }

/-- A boundary cell: of one of the outputs that R452 protects, by its name there, or of another pin. -/
inductive Cell where
  | emitTrig (e : Fin 128)
  | resref (b : Fin 16)
  | biasref (g : Fin 16)
  | ossdA (p : Fin 2)
  | ossdB (p : Fin 2)
  | mirEn (c : Fin 2)
  | bypHold
  | other (pin : Nat)
  deriving DecidableEq, Repr

/-- What a boundary cell drives for the value `v` shifted into it: low, under every instruction, for a protected output (R452). -/
def cellDrive (c : Cell) (v : Bool) : Bool :=
  match c with
  | .other _ => v
  | _ => false

/-- What no reset clears: the commands that wait and what has been sent, OTP, boot flash and records, and the levels of
the inputs. -/
def resetBase (o : State) : State :=
  let r := State.reset
  keepOtp o { r with
    pending := o.pending
    variantAN := o.variantAN
    free := o.free
    tx := o.tx
    pins := { r.pins with
      sealA := o.pins.sealA, sealB := o.pins.sealB, masterSel := o.pins.masterSel, strapFl := o.pins.strapFl,
      tap := if tapAvailable (keepOtp o r) o.pins.tap then o.pins.tap else .bypass }
    sec := { r.sec with
      flash := o.sec.flash, otpRoot := o.sec.otpRoot, owners := o.sec.owners, rootKey := o.sec.rootKey, opk := o.sec.opk,
      fuse := o.sec.fuse, opcert := o.sec.opcert, anchors := o.sec.anchors } }

/-- The SDRAM address range. -/
def inSdram (a : Nat) : Bool := decide (0x1000000000 ≤ a)

/-- The registers that a warm reset keeps (R465). -/
def warmRegs (o s : State) : State :=
  let s := keepReg o s R.SYS_CAUSE
  let s := (List.range 28).foldl (fun s i => keepFld o s (R.THM_SENS i) F.THM_SENS_TRIM) s
  let s := keepFld o s R.THM_STAT F.THM_STAT_ATRIP
  let s := (List.range 16).foldl (fun s b =>
    keepFld o (keepFld o s (R.BANK_STAT b) F.BANK_STAT_INH) (R.BANK_STAT b) F.BANK_STAT_CAUSE) s
  let s := keepFld o (keepFld o s R.RING_STAT F.RING_STAT_NODE_ID) R.RING_STAT F.RING_STAT_MASTER
  let s := keepFld o (keepFld o s R.RING_STAT F.RING_STAT_REF) R.SHT_NODE F.SHT_NODE_NODE_ID
  let s := drcKeptRegs.foldl (keepReg o) s
  let s := keepFld o (keepFld o s R.DRC_STAT F.DRC_STAT_STATE) R.DRC_REF F.DRC_REF_TREFI
  let s := keepFld o (keepFld o s R.CLK_STAT F.CLK_STAT_HOLDOVER) R.CLK_STAT F.CLK_STAT_REFCLK_OK
  keepReg o (keepFld o s R.CLK_STAT F.CLK_STAT_SRC) R.CLK_OFS

/-- A warm reset is asserted (R465): `cause` as in R464. DEDUCED (log 103). -/
def warmAssert (s : State) (cause : Nat) : State :=
  let s := if s.ring.refSel = 0 then s else refGone s s.ring.refSel.val
  let o := drcWarm s
  let b := resetBase o
  let s := warmRegs o { b with
    tb := o.tb
    stepped := o.stepped
    units := o.units
    mem := o.mem.filter (fun c => inSdram c.1)
    poison := o.poison.filter inSdram
    emg := { b.emg with emit := o.emg.emit, sect := o.emg.sect, msBin := o.emg.msBin, dsBin := o.emg.dsBin,
                        presetDone := o.emg.presetDone }
    drc := { b.drc with since := o.drc.since, timing := o.drc.timing, srt := o.drc.srt }
    pins := { b.pins with ddrResetN := o.pins.ddrResetN, ddrCke := o.pins.ddrCke }
    ring := { b.ring with pos := o.ring.pos, refSel := o.ring.refSel, pullIn := o.ring.pullIn }
    sec := { b.sec with dbgFails := o.sec.dbgFails, flashMode := o.sec.flashMode }
    sys := { b.sys with held := some (now o), tripped := decide (cause = 3), por := false,
                        autoOk := decide (modeOf o ≠ .bypass) && decide (cause ≠ 3) } }
  let s := fset (fset s R.SYS_CAUSE F.SYS_CAUSE_CAUSE cause) R.SYS_CAUSE F.SYS_CAUSE_FROM (modeOf o).code
  finc s R.SYS_CAUSE F.SYS_CAUSE_WARM_CNT

/-- WARM_RESET_ASSERT (R466): from 1.0 ms open slices close; at P, the later of 1.0 ms and the end of every park and at
most 300 ms, the reset is asserted (log 103). -/
def execWarmResetAssert (s : State) : Host.Outcome State Fault Refusal :=
  .next (done (
    match s.sys.reset with
    | some (cause, t) =>
      if (t + ticksMs 1 ≤ now s ∧ scannersStill s) ∨ t + ticksMs 300 ≤ now s then warmAssert s cause
      else if t + ticksMs 1 ≤ now s then closeSlices s
      else s
    | none => s))

/-- ANALOGUE_TRIP (R319): outputs low, the ring bypass closes, the device is held in reset. -/
def execAnalogueTrip (s : State) : Host.Outcome State Fault Refusal :=
  .next (done (if s.sys.tripped then s else warmAssert (fon s R.THM_STAT F.THM_STAT_ATRIP) 3))

/-- ANALOGUE_TRIP_RELEASE (R319): 1 s after every comparator has fallen 10 °C below its threshold the reset is
released. -/
def execAnalogueTripRelease (s : State) : Host.Outcome State Fault Refusal :=
  .next (done (
    match s.sys.held with
    | some t => if s.sys.tripped ∧ t + ticksMs 1000 ≤ now s then { s with sys := { s.sys with tripped := false } } else s
    | none => s))

/-- A power-on reset is asserted (R464, R465): every block and every item. DESIGN CHOICE (log 104). -/
def powerOn (s : State) : State :=
  let b := resetBase s
  { b with pins := { b.pins with tap := .idcode }
           sys := { b.sys with held := some 0, por := true, autoOk := true } }

/-- POWER_ON_RESET (R464, R492): a supply monitor (0) or RESET_N low for 1 µs or more; a pulse shorter than 0.2 µs is
ignored, and between the two widths the response is undefined (log 104). -/
def execPowerOnReset (low : BitVec 32) (s : State) : Host.Outcome State Fault Refusal :=
  if low = 0#32 ∨ 10 ≤ low.toNat then .next (done (powerOn s))
  else if low.toNat < 2 then .next (done s)
  else .fault .resetPulseUndefined

/-- JTAG_TRST (R464): the test access port only, whose instruction becomes IDCODE. PRESUMED (log 140). -/
def execJtagTrst (s : State) : Host.Outcome State Fault Refusal :=
  .next (done { s with pins := { s.pins with tap := .idcode } })

end Sys2Proof.Machine
end

