-- ==== Sys2Proof/Machine/Security.lean ====
section
/-! DEFINITION. The commands of SEC up to their completion, and updates of the inactive bank (R443 to R453). What the
flash gives is an operand of SEC_COMMAND_DONE. -/

namespace Sys2Proof.Machine

/-- The device certificate (R435): its subject serialNumber is the serial number, its key the public key of IDK. -/
def deviceCertificate : List Byte :=
  Config.certPart 0 ++ derName Config.serial.toNat ++ Config.certPart 1 ++ derKey (ecPublic Config.identityKey) ++ Config.certPart 2

/-! ### Starting a command (R444) -/

/-- The device is in RECOVERY (R443). -/
def inRecovery (s : State) : Bool := decide (fget s R.SECU_STAT F.SECU_STAT_STAGE = 2)

/-- The mode and the seals permit command n. -/
def secPermits (s : State) (n : Nat) : Bool :=
  let run := decide (modeOf s ≠ .boot)
  let sealed := decide (modeOf s = .standby) && sealsOpen s
  match n with
  | 1 => run | 2 => run | 3 => run | 4 => run | 5 => run | 7 => run | 10 => run
  | 6 => sealed | 8 => sealed | 9 => sealed
  | 11 => true
  | 12 => decide (modeOf s = .standby) || inRecovery s
  | 13 => inRecovery s
  | _ => false

def secBusy (s : State) : Bool := flag s R.SEC_CMD_STAT F.SEC_CMD_STAT_BUSY

def secErr (s : State) (e : Nat) : State := fset s R.SEC_CMD_STAT F.SEC_CMD_STAT_ERR e

/-- The argument's address and length (log 94). -/
def secArgAt (s : State) : Nat := (rd s R.SEC_ARG_LO).toNat + fget s R.SEC_ARG_HI F.SEC_ARG_HI_ADDR * 2 ^ 32
def secArgLen (s : State) : Nat := (rd s R.SEC_LEN).toNat

/-- Command n starts with an argument; ERR reads STATE where it is not permitted. DEDUCED (log 94). -/
def secGo (s : State) (n : Nat) (arg : List Byte) : State :=
  let s := fset s R.SEC_CMD F.SEC_CMD_CMD n
  if secBusy s then s
  else if !secPermits s n then secErr s 1
  else fon { s with sec := { s.sec with run := some (n, now s), arg := arg } } R.SEC_CMD_STAT F.SEC_CMD_STAT_BUSY

/-- Command n starts with the argument that ARG and LEN name; an argument is at most 64 KiB (log 94). -/
def secStart (s : State) (n : Nat) : State :=
  if n = 1 ∨ n = 13 ∨ secBusy s ∨ secPermits s n = false then secGo s n []
  else
    let r := blockRead s (secArgAt s) (min 0x10000 (secArgLen s))
    secGo r.1 n r.2

/-- VERIFY_KSET (R448). -/
def execVerifyKset (s : State) : Host.Outcome State Fault Refusal := .next (done (secStart s 1))
/-- VERIFY_BANK (R444). -/
def execVerifyBank (s : State) : Host.Outcome State Fault Refusal := .next (done (secStart s 2))
/-- ACTIVATE (R446). -/
def execActivate (s : State) : Host.Outcome State Fault Refusal := .next (done (secStart s 3))
/-- ACTIVATE_RESET (R444). -/
def execActivateReset (s : State) : Host.Outcome State Fault Refusal := .next (done (secStart s 4))
/-- CONFIRM (R447). -/
def execConfirm (s : State) : Host.Outcome State Fault Refusal := .next (done (secStart s 5))
/-- GEN_OPK (R450). -/
def execGenOpk (s : State) : Host.Outcome State Fault Refusal := .next (done (secStart s 6))
/-- MAKE_CSR (R450). -/
def execMakeCsr (s : State) : Host.Outcome State Fault Refusal := .next (done (secStart s 7))
/-- INSTALL_OPCERT (R450). -/
def execInstallOpcert (s : State) : Host.Outcome State Fault Refusal := .next (done (secStart s 8))
/-- ENROL_OWNER (R449). -/
def execEnrolOwner (s : State) : Host.Outcome State Fault Refusal := .next (done (secStart s 9))
/-- ATTEST (R451): nonce and key selector. -/
def execAttest (nonce : List Byte) (key : Bool) (s : State) : Host.Outcome State Fault Refusal :=
  .next (done (secGo s 10 (nonce ++ leBytes 1 (b2n key))))
/-- DBG_CHALLENGE (R453). -/
def execDbgChallenge (s : State) : Host.Outcome State Fault Refusal := .next (done (secStart s 11))
/-- DBG_UNLOCK (R453). -/
def execDbgUnlock (s : State) : Host.Outcome State Fault Refusal := .next (done (secStart s 12))
/-- RECOVER_BOOT (R443). -/
def execRecoverBoot (s : State) : Host.Outcome State Fault Refusal := .next (done (secStart s 13))

/-! ### Completion of the commands, but RECOVER_BOOT (R444 to R453). Each answers the state and ERR. -/

/-- The half of the kernel-image allocation that holds the active set. -/
def activeHalf (s : State) : Nat := if (lookup s.pool.src (activeBank s)).getD 0x0100D00000 < 0x0100D40000 then 0 else 1

/-- A signed object is rejected at its check (R442, R454) (log 93). -/
def secRejectErr (s : State) (e : Nat) : State := secReject s (if e = 5 then 556 else 555)

/-- ERR of the kernel set image in bytes with n signed ones (R154, R448): its header, then its signature block (log 93). -/
def ksetErr (s : State) (r : Reader) (n : Nat) (purpose : List Byte) : Nat :=
  if 0x40000 < n ∨ n < 0x40 ∨ wordAt r 0 / 0x10000 ≠ 1 ∨ wordAt r 0x3C ≠ (crc32c (r 0 0x3C)).toNat then 2 else signedErr s 2 r n purpose

/-- VERIFY_KSET reads the image and its block at ARG, and copies a good image into the half that does not hold the active set (R448). -/
def doneKset (s : State) (v : SecVerdict) : State × Nat :=
  let a := secArgAt s
  let n := mrd s (a + 0x14) 4 + mrd s (a + 0x18) 4
  let b := blockRead s a (min n 0x40000 + 0x10A0)
  let s := b.1
  let e := ksetErr s (listReader b.2) n v.purpose
  if e ≠ 0 then (secRejectErr s e, e)
  else
    let h := 1 - activeHalf s
    let dst := 0x0100D00000 + 0x40000 * h
    let img := b.2.take n
    let s := blockWrite s dst img
    let s := { s with sec := { s.sec with ksets := insertKey (eraseKey s.sec.ksets h) h (sha384 img) } }
    (fset (wr s R.SEC_ARG_LO (BitVec.ofNat 32 dst)) R.SEC_ARG_HI F.SEC_ARG_HI_ADDR (dst / 2 ^ 32), 0)

/-- ERR of the image in the inactive bank, FLASH where the flash fails. -/
def inactiveErr (s : State) (v : SecVerdict) : Nat := if v.flash then bankErr s (1 - fwBank s) v.purpose else 10

def doneVerifyBank (s : State) (v : SecVerdict) : State × Nat :=
  let e := inactiveErr s v
  if e ≠ 0 then
    let s := { s with sec := { s.sec with verified := none } }
    (if e = 10 then s else secRejectErr s e, e)
  else ({ s with sec := { s.sec with verified := some (infoAt (bankReader s (1 - fwBank s))) } }, 0)

/-- ACTIVATE re-verifies the inactive bank and copies its code into the code bank that is not running (R446, step 1). -/
def doneActivate (s : State) (v : SecVerdict) : State × Nat :=
  match s.sec.verified with
  | none => (s, 6)
  | some _ =>
    let e := inactiveErr s v
    if e ≠ 0 then (if e = 10 then s else secRejectErr s e, e)
    else
      let r := bankReader s (1 - fwBank s)
      let i := infoAt r
      if i.stateFmt ≠ s.sec.running.stateFmt then (s, 7)
      else
        let s := blockWrite s (if s.sec.codeBank = 0 then 0x100C0000 else 0x10000000) (r i.codeOfs i.codeLen)
        let s := { s with sec := { s.sec with switch := some i } }
        (if modeOf s = .scan then s else coreSwitch s i, 0)

def doneActivateReset (s : State) (v : SecVerdict) : State × Nat :=
  match s.sec.verified with
  | none => (s, 6)
  | some _ =>
    if v.flash then
      (warmStart (hdrWrite s (fun h => { h with active := 1 - fwBank s, trial := true, tries := 0 })) 4, 0)
    else (s, 10)

def doneConfirm (s : State) (v : SecVerdict) : State × Nat :=
  if v.flash then
    let s := fmax s R.SEC_OTP F.SEC_OTP_ARC s.sec.running.svn
    let s := foff s R.SECU_STAT F.SECU_STAT_TRIAL
    (hdrWrite s (fun h => { h with active := fwBank s, trial := false }), 0)
  else (s, 10)

/-- n bytes of the random source: open values (log 111). -/
def randomBytes (s : State) (n : Nat) : State × List Byte :=
  let r := (List.range ((n + 7) / 8)).foldl (fun (r : State × List Byte) _ =>
    ((openVal r.1).2, r.2 ++ leBytes 8 (openVal r.1).1.toNat)) (s, [])
  (r.1, r.2.take n)

/-- A secret scalar of P-384. -/
def randomScalar (s : State) : State × Nat := let r := randomBytes s 48; (r.1, ofLeBytes r.2 % (ecN - 1) + 1)

/-- A fresh challenge of 32 bytes (R453). -/
def freshChallenge (s : State) : State :=
  let r := randomBytes s 32
  { r.1 with sec := { r.1.sec with challenge := some r.2 } }

/-- GEN_OPK: a new key pair; the private key is wrapped under the "wrap" key, and an earlier key and its certificate go (R450). -/
def doneGenOpk (s : State) (v : SecVerdict) : State × Nat :=
  if v.flash then
    let d := randomScalar s
    let k := randomScalar d.1
    let s := { k.1 with sec := { k.1.sec with opk := some (d.2, Config.wrapped k.1.sec.wrapKey d.2 k.2), opcert := [] } }
    (foff (fon s R.SECU_STAT F.SECU_STAT_OPK) R.SECU_STAT F.SECU_STAT_OPCERT, 0)
  else (s, 10)

/-- A signature by a private key (R450, R451). -/
def signWith (s : State) (d : Nat) (m : List Byte) : State × List Byte := let k := randomScalar s; (k.1, ecdsaSign d m k.2)

/-- MAKE_CSR: a PKCS#10 request for OPK, signed by it (R450). -/
def doneMakeCsr (s : State) : State × Nat :=
  match s.sec.opk with
  | some (d, _) =>
    let r := signWith s d (csrInfo Config.serial.toNat (ecPublic d))
    ({ r.1 with sec := { r.1.sec with csr := csrBytes Config.serial.toNat (ecPublic d) r.2 } }, 0)
  | none => (s, 9)

/-- The certificates of a chain end at the current owner (R450). -/
def ownerChain (s : State) (l : List Cert) : Bool := decide (s.sec.owners ≠ []) && chainEnds s 8 l

/-- INSTALL_OPCERT: the argument is a certificate of OPK's public key that chains to the current owner (R450). -/
def doneInstall (s : State) (v : SecVerdict) : State × Nat :=
  match s.sec.opk, chainOf s.sec.arg with
  | some (d, _), some (c :: l) =>
    if c.key ≠ ecPublic d ∨ ownerChain s (c :: l) = false then (s, 9)
    else if !v.flash then (s, 10)
    else (raise (fon { s with sec := { s.sec with opcert := s.sec.arg } } R.SECU_STAT F.SECU_STAT_OPCERT) 561, 0)
  | _, _ => (s, 9)

/-- The transfer object names this device and the new anchor's digest, and the current owner has signed it (R449) (log 92). -/
def transferOk (s : State) (digest purpose : List Byte) : Bool :=
  let r := listReader s.sec.transfer
  decide (r 0 52 = serialBytes ++ digest) && decide (signedErr s 8 r 64 purpose = 0)

/-- ENROL_OWNER: the argument is the owner's self-signed anchor certificate (R449). -/
def doneEnrol (s : State) (v : SecVerdict) : State × Nat :=
  match certOf s.sec.arg with
  | none => (s, 3)
  | some c =>
    let h := sha384 c.key
    if 4 ≤ s.sec.owners.length ∨ (s.sec.owners ≠ [] ∧ transferOk s h v.transfer = false) then (s, 8)
    else if signedBy c c.key = false then (s, 3)
    else if !v.flash then (s, 10)
    else
      let s := { s with sec := { s.sec with anchors := s.sec.anchors ++ [s.sec.arg], owners := s.sec.owners ++ [h] } }
      (raise (fset s R.SECU_STAT F.SECU_STAT_OWNER s.sec.owners.length) 561, 0)

/-- Pads or cuts to n bytes. -/
def padTo (n : Nat) (l : List Byte) : List Byte := l.take n ++ List.replicate (n - l.length) 0#8

/-- Bytes 0x00 to 0xFF of the attestation report (R451). -/
def reportBody (s : State) (nonce : List Byte) (key : Bool) : List Byte :=
  let st := rd s R.SECU_STAT
  let flags := fget s R.SEC_OTP F.SEC_OTP_SVN * 2 ^ 26 + fget s R.SEC_OTP F.SEC_OTP_ARC * 2 ^ 20 + getFld st F.SECU_STAT_BANK * 2 ^ 19 +
    getFld st F.SECU_STAT_TRIAL * 2 ^ 18 + getFld st F.SECU_STAT_DBG * 2 ^ 16 + getFld st F.SECU_STAT_OWNER * 2 ^ 13 +
    getFld st F.SECU_STAT_FALLBACK * 2 ^ 12 + b2n key * 2 ^ 11
  leBytes 4 0x41540001 ++ leBytes 4 Config.serial.toNat ++ leBytes 8 (now s) ++ padTo 32 nonce ++
    padTo 48 s.sec.running.digest ++ padTo 48 (tget [] s.sec.ksets (activeHalf s)) ++ padTo 48 s.sec.boardDigest ++
    leBytes 4 flags ++ leBytes 4 (fget s R.ENP_KINFO F.ENP_KINFO_SET_ACT * 0x10000 + fget s R.RING_STAT F.RING_STAT_NODE_ID) ++
    leBytes 4 (rd s R.SAF_ACT_CRC).toNat ++ leBytes 4 (rd s R.SAF_ACT).toNat ++ leBytes 4 (rd s R.EMG_ACT_CRC).toNat ++
    leBytes 4 (unitWord s 0xA8).toNat ++ List.replicate 0x28 0#8

/-- ATTEST: the report, signed by IDK or OPK over its first 0x100 bytes (R451). -/
def doneAttest (s : State) : State × Nat :=
  let key := decide (s.sec.arg.getD 32 0#8 = 1#8)
  match (if key then s.sec.opk.map (·.1) else some Config.identityKey) with
  | none => (s, 9)
  | some d =>
    let m := reportBody s (s.sec.arg.take 32) key
    let r := signWith s d m
    (raise { r.1 with sec := { r.1.sec with report := m ++ r.2 } } 560, 0)

/-- A token that passes the checks of R438 must hold the serial number and the challenge; one that does not fails with a code that
the spec leaves open (R453) (log 92). -/
def doneUnlock (s : State) (v : SecVerdict) : State × Nat :=
  let r := listReader s.sec.arg
  let e := signedErr s 7 r 64 v.purpose
  if 8 ≤ s.sec.dbgFails then (s, 11)
  else if e = 0 ∧ s.sec.challenge.any (fun c => decide (r 0 36 = serialBytes ++ c)) then (raise (fset s R.SECU_STAT F.SECU_STAT_DBG 1) 558, 0)
  else
    let s := { s with sec := { s.sec with dbgFails := s.sec.dbgFails + 1 } }
    let s := raise (finc s R.SEC_CNT F.SEC_CNT_DBG_DENIED) 559
    if e = 0 then ((openVal s).2, 1 + (openVal s).1.toNat % 11) else (s, e)

/-- The completion of command n other than RECOVER_BOOT (log 92). -/
def secFinish (s : State) (n : Nat) (v : SecVerdict) : State × Nat :=
  match n with
  | 1 => doneKset s v
  | 2 => doneVerifyBank s v
  | 3 => doneActivate s v
  | 4 => doneActivateReset s v
  | 5 => doneConfirm s v
  | 6 => doneGenOpk s v
  | 7 => doneMakeCsr s
  | 8 => doneInstall s v
  | 9 => doneEnrol s v
  | 10 => doneAttest s
  | 11 => (freshChallenge s, 0)
  | _ => doneUnlock s v

/-! ### The inactive bank (R445), the delay supplement (R441), the kernel-image allocation (R448) -/

/-- The update path is open: firmware runs (log 95). -/
def updateOpen (s : State) : Bool := decide (fget s R.SECU_STAT F.SECU_STAT_STAGE = 1) && s.sys.held.isNone

/-- A write of bank bytes: the state, and the abort code of a refused one (R445, R409). DEDUCED (log 96). -/
def bankWrite (s : State) (o : Nat) (d : List Byte) : State × Option Nat :=
  let n := if o = 0 then 0 else s.sec.programmed
  if bankSize < o + d.length then (s, some 0x06070012)
  else if !updateOpen s ∨ n + 0x20000 < o + d.length then (s, some 0x08000022)
  else
    let buf := (if o = 0 then [] else s.sec.buf) ++ d.zipIdx.map (fun p => (o + p.2, p.1))
    ({ s with sec := { s.sec with programmed := n, buf := buf, erased := if o = 0 then [] else s.sec.erased, verified := none, flashAt := now s } }, none)

/-- BANK_WRITE (R445). -/
def execBankWrite (o : BitVec 23) (d : List Byte) (s : State) : Host.Outcome State Fault Refusal :=
  .next (done (bankWrite s o.toNat d).1)

/-- One byte of the inactive bank programmed; its sector is erased before the first byte that falls into it (R445) (log 96). -/
def bankProgram (s : State) (p : Nat × Byte) : State :=
  let a := bankBase (1 - fwBank s) + p.1
  let k := a / 0x10000
  let s := if s.sec.erased.contains k then s
    else let s := flashErase s (0x10000 * k) 0x10000; { s with sec := { s.sec with erased := k :: s.sec.erased } }
  flashPut s a [p.2]

/-- BANK_BYTES_PROGRAMMED (R445) (log 96). -/
def execBankBytesProgrammed (n : BitVec 18) (s : State) : Host.Outcome State Fault Refusal :=
  let k := min n.toNat s.sec.buf.length
  let s := (s.sec.buf.take k).foldl bankProgram { s with sec := { s.sec with buf := s.sec.buf.drop k, programmed := s.sec.programmed + k, flashAt := now s } }
  .next (done s)

/-- The delay registers of R347 (log 96). -/
def delayRegs : List Nat :=
  [0, 1].flatMap (fun k => (List.range 9).flatMap (fun l => [R.DLY_W k l, R.DLY_R k l, R.DLY_V k l])) ++ [R.DLY_CA]

/-- SAVE_DLY (R441): the delay words in use become the supplement record (log 96). -/
def saveDly (s : State) : State := recWrite s 6 (delayRegs.flatMap (fun a => leBytes 4 (rd s a).toNat)) []

/-- SAVE_DLY (R441). -/
def execSaveDly (s : State) : Host.Outcome State Fault Refusal := .next (done (if updateOpen s then saveDly s else s))

/-- KIMAGE_WRITE (R448): a write into the kernel-image allocation by a master that reaches clay memory is discarded like a
write to a protected row; by another master it is a decode error (R29). DEDUCED (log 42). -/
def execKimageWrite (m : Master) (a : BitVec 40) (d : List Byte) (s : State) : Host.Outcome State Fault Refusal :=
  .next (done (
    if d.zipIdx.any (fun p => inKimage (a.toNat + p.2)) then
      coreSees m s (match firstOutside s m a.toNat d.length true with
        | some x => decodeErr s (x % 2 ^ 40) true
        | none => (memWrite s a.toNat d false).1) (writeError m s a.toNat d)
    else s))

end Sys2Proof.Machine
end

