-- ==== Sys2Proof/Machine/Bus.lean ====
section
/-! DEFINITION. Register accesses (R8 to R12, R28, R281, R458): the fields of a written word by access type, what a
write or a read of a particular register does besides, and the clearing of counters. -/

namespace Sys2Proof.Machine

/-! ### Clearing counters (CNT_CLR) -/

/-- Registers that hold nothing but counters of a block (log 117). -/
def cntRegs (b : CntBlock) : List Nat :=
  let each := fun (n : Nat) (f : Nat → List Nat) => (List.range n).flatMap f
  match b with
  | .feChan t k => [R.FE_CNT_A t k, R.FE_CNT_B t k]
  | .tdc => [R.TDC_CNT]
  | .aux a => [R.AUX_CNT a]
  | .sht => [R.SHT_CNT_A, R.SHT_CNT_B] ++ each 18 (fun i => [R.GAP_CNT i])
  | .tile t => [R.GT_CNT_A t, R.GT_CNT_B t, R.GT_CNT_C t, R.GT_TICKETS t] ++ each 16 (fun k => [R.GT_CH_CNT t k])
  | .enp => each 16 (fun c => [R.CL_CNT_A c, R.CL_CNT_B c, R.CL_CNT_C c, R.CL_CNT_D c, R.CL_LAT c])
  | .ps => [R.PS_CNT_A, R.PS_CNT_B, R.PS_CNT_C, R.PS_CNT_D, R.PS_POINTS]
  | .tilth => [R.TT_CNT_A, R.TT_CNT_B, R.TT_CNT_C, R.TT_CNT_D] ++ each 4 (fun k => [R.CLS_CNT k])
  | .ctl => each 2 (fun c => [R.SCN_CNT c])
  | .emg => each 5 (fun m => [R.EMG_REF m]) ++ each 16 (fun b => [R.BANK_CNT b])
  | .saf => [R.SAF_CNT_A, R.SAF_CNT_B]
  | .hk => [R.HK_CNT]
  | .dec => each 8 (fun c => [R.DEC_CNT c])
  | .thm => [R.THM_CNT]
  | .memRegion r => [R.MEM_RCNT r]
  | .drc => [R.DRC_CNT_A, R.DRC_CNT_B] ++ each 6 (fun p => [R.DRC_PLAT p])
  | .slq => each 256 (fun q => [R.SLQ_CNT q, R.SLQ_LOST q])
  | .dma n => [R.DMA_CNT n]
  | .lane p => [R.LN_CNT_A p, R.LN_CNT_B p]
  | .ring => [R.RING_CNT, R.RING_CNT_B]
  | .evt => []
  | .event _ => []
  | .can c => [R.CAN_CNT c]
  | .eth k => [R.ETH_CNT k]
  | .sec => [R.SEC_CNT]
  | .sys => []
  | .clk => [R.CLK_CNT]

/-- Counters of a block that share a register with something else (log 117). -/
def cntFlds (b : CntBlock) : List (Nat × Fld) :=
  let each := fun (n : Nat) (f : Nat → List (Nat × Fld)) => (List.range n).flatMap f
  match b with
  | .enp => each 256 (fun e => [(R.ENG_STAT e, F.ENG_STAT_ECC_CE)])
  | .ctl => each 4 (fun a => [(R.AX_CNT a, F.AX_CNT_OVR_TOTAL), (R.AX_CNT a, F.AX_CNT_OVR_RUN), (R.AX_CNT a, F.AX_CNT_SAT_CNT), (R.AX_SWAP a, F.AX_SWAP_SWAPS)])
  | .emg => each 2 (fun c => [(R.SEC_STAT c, F.SEC_STAT_STALL_STOPS)])
  | .lane p => each 8 (fun l => if l < laneCount p then [(R.LN_PRBS p l, F.LN_PRBS_ERRORS)] else [])
  | .evt => each 640 (fun n => [(R.EV_ROUTE n, F.EV_ROUTE_COUNT)])
  | .event n => [(R.EV_ROUTE n, F.EV_ROUTE_COUNT)]
  | .sys => [(R.SYS_CNT, F.SYS_CNT_DECERR_CNT), (R.SYS_CNT, F.SYS_CNT_REFUSE_CNT)]
  | _ => []

/-- What CNT_CLR leaves in a counter of the register at `a`: 1 in COUNT of an event that has been set in the same cycle, else 0
(R426) (log 128). -/
def cntLeft (s : State) (a : Nat) : Nat :=
  if R.EV_ROUTE 0 ≤ a ∧ a < R.EV_ROUTE 640 then b2n (setInCycle s ((a - R.EV_ROUTE 0) / 4)).isSome else 0

/-- The counters of a block become zero; CL_Q.PEAK starts again from the present occupancy (R149, R150). DEDUCED (log 117). -/
def cntClr (s : State) (b : CntBlock) : State :=
  let s := (cntRegs b).foldl (fun s a => wr s a 0) s
  let s := (cntFlds b).foldl (fun s p => fset s p.1 p.2 (cntLeft s p.1)) s
  if b = .enp then (List.range 16).foldl (fun s c => fset s (R.CL_Q c) F.CL_Q_PEAK (fget s (R.CL_Q c) F.CL_Q_OCC)) s
  else s

/-- CNT_CLR (R56 and the counters of every block) (log 117). -/
def execCntClr (b : CntBlock) (s : State) : Host.Outcome State Fault Refusal := .next (done (cntClr s b))

/-! ### Fields of a written word (R10, R12, R458) -/

/-- Fields whose written 1 is a command: they are not stored by the write itself. A 0 written into the load requests of
TB_CTRL withdraws them (R68). -/
def commandFld (a : Nat) (f : Fld) : Bool :=
  (decide (a = R.TB_CTRL) && (f == F.TB_CTRL_LOAD_NOW || f == F.TB_CTRL_LOAD_PPS)) ||
  (decide (a = R.CM_CHECK) && f == F.CM_CHECK_COMMIT) || (decide (a = R.EMG_CTRL) && f == F.EMG_CTRL_COMMIT) ||
  (decide (a = R.SAF_CTRL) && f == F.SAF_CTRL_COMMIT) ||
  ((List.range 16).any (fun b => decide (a = R.BANK_STAT b)) && f == F.BANK_STAT_RELEASE)

/-- A write by the control cores or by another master sets RWM fields. -/
def rwmFor (s : State) (core : Bool) : Bool := decide (modeOf s = .standby) || (core && decide (modeOf s = .boot))

/-- The write may change the field. -/
def fldOpen (s : State) (core : Bool) (f : Fld) : Bool :=
  match f.acc with
  | .rw => true
  | .rws => sealsOpen s
  | .rwm => rwmFor s core
  | _ => false

/-- The word that a write of `v` leaves, before what the register does besides. A W1C bit that hardware has set in the same
tile cycle stays set (R11). -/
def writtenWord (s : State) (core : Bool) (a : Nat) (v : Word) (fs : List Fld) : Word :=
  fs.foldl (fun w f =>
    if f.acc = .w1c then w &&& ~~~(v &&& maskOf f &&& ~~~(setNow s a))
    else if fldOpen s core f && (!commandFld a f || (decide (a = R.TB_CTRL) && decide (getFld v f = 0))) then putFld w f (getFld v f) else w) (rd s a)

/-- The write meets a field of the class that is closed to it (R10, R12, R430) (log 14). -/
def discards (s : State) (core : Bool) (fs : List Fld) (c : Access) : Bool :=
  fs.any (fun f => f.acc == c && !fldOpen s core f)

/-- A bit of a written word that the write may set. -/
def setsBit (s : State) (core : Bool) (v : Word) (f : Fld) : Bool :=
  decide (getFld v f ≠ 0) && (decide (f.acc = .w1s) || decide (f.acc = .wo) || fldOpen s core f)

/-! ### What particular registers do besides -/

/-- Index i below n with a = base + i × stride. -/
def idxOf (a base stride n : Nat) : Option Nat :=
  if base ≤ a ∧ (a - base) % stride = 0 ∧ (a - base) / stride < n then some ((a - base) / stride) else none

/-- What a register, one of `n` at `base` and a stride, does when it is written: from the state before the write, the
state with its fields written, its index, the word written, and which bits of it take effect. -/
structure Hook where
  base : Nat
  stride : Nat
  n : Nat
  act : State → State → Nat → Word → (Fld → Bool) → State

/-- Runs a command where a bit takes effect. -/
def onBit (b : Bool) (f : State → Host.Outcome State Fault Refusal) (s : State) : State := if b then after (f s) s else s

/-- Registers of one channel (R56, R126): channel n of the device. -/
def hookChan (s0 s : State) (n o : Nat) (v : Word) (on : Fld → Bool) : State :=
  if o = 0x1000 then feCfgSet s0 n v
  else if o = 0x1008 then feModeSet s0 n (rd s (R.FE_MODE (n / 16) (n % 16)))
  else if o = 0x1014 then
    (if on F.FE_STAT_CNT_CLR then cntClr s (.feChan (Fin.ofNat 64 (n / 16)) (Fin.ofNat 16 (n % 16))) else s)
  else s

/-- Registers of a tile window (R56, R57, R125). -/
def hookTile (s0 s : State) (t o : Nat) (v : Word) (on : Fld → Bool) : State :=
  if o = 0x800 then onBit (on F.FE_TILE_CTRL_AUTOTRIM) (execAutotrim (Fin.ofNat 64 t)) s
  else if o = 0x10 then (if on F.GT_STAT_CNT_CLR then cntClr s (.tile (Fin.ofNat 64 t)) else s)
  else if 0x1000 ≤ o ∧ o < 0x1400 then hookChan s0 s (16 * t + (o - 0x1000) / 0x40) (0x1000 + o % 0x40) v on
  else s

def hooksTdc : List Hook :=
  [⟨R.TDC_CTRL, 4, 1, fun _ s _ _ on => onBit (on F.TDC_CTRL_FILL_ALL) execFillAll (staleCheck s)⟩,
   ⟨R.TDC_CLK, 4, 1, fun _ s _ v _ =>
      after (execReqMode (decide (getFld v F.TDC_CLK_REQ_MODE = 1)) (decide (getFld v F.TDC_CLK_FORCE = 1)) s) s⟩,
   ⟨R.TDC_CAL_STAT, 4, 1, fun _ s _ _ on => if on F.TDC_CAL_STAT_CNT_CLR then cntClr s .tdc else s⟩,
   ⟨R.TB_CTRL, 4, 1, fun _ s _ _ on => onBit (on F.TB_CTRL_LOAD_PPS) execLoadPps (onBit (on F.TB_CTRL_LOAD_NOW) execLoadNow s)⟩,
   ⟨R.AUX_CFG 0, 0x20, 6, fun s0 _ a v _ => auxCfgSet s0 a v⟩,
   ⟨R.AUX_STAT 0, 0x20, 6, fun _ s a _ on => if on F.AUX_STAT_CNT_CLR then cntClr s (.aux (Fin.ofNat 6 a)) else s⟩,
   ⟨R.GATE_CFG, 4, 1, fun _ s _ _ _ => gateShow s⟩]

def hooksSht : List Hook :=
  [⟨R.SHT_CTRL, 4, 1, fun s0 s _ v _ =>
      let was := flag s0 R.SHT_CTRL F.SHT_CTRL_CAL_RUN
      calRunSet (fsetB s R.SHT_CTRL F.SHT_CTRL_CAL_RUN was) (decide (getFld v F.SHT_CTRL_CAL_RUN = 1))⟩,
   ⟨R.SHT_NEXT, 4, 1, fun _ s _ _ on => onBit (on F.SHT_NEXT_COMMIT) execSchedCommit s⟩,
   ⟨R.SHT_STAT, 4, 1, fun _ s _ _ on => if on F.SHT_STAT_CNT_CLR then cntClr s .sht else s⟩,
   ⟨R.SHT_BANK, 4, 1, fun _ s _ v _ => (bitList 16 (getFld v F.SHT_BANK_RESUME)).foldl bankResume s⟩,
   ⟨R.SEED 0, 4, 4, fun s0 _ m v _ => seedSet s0 m v⟩,
   ⟨R.CAP_CTRL, 4, 1, fun _ s _ _ on =>
      onBit (on F.CAP_CTRL_ARM) execCapArm (onBit (on F.CAP_CTRL_RELEASE) execCapRelease
        (onBit (on F.CAP_CTRL_FIRE) execCapFire (onBit (on F.CAP_CTRL_DISARM) execCapDisarm s)))⟩]

def hooksPool : List Hook :=
  [⟨R.ENP_CTRL, 4, 1, fun s0 s _ v _ =>
      if flag s0 R.ENP_CTRL F.ENP_CTRL_ST_EN = false ∧ getFld v F.ENP_CTRL_ST_EN = 1 then
        (List.range 16).foldl selectFirst s else s⟩,
   ⟨R.ENP_STAT, 4, 1, fun _ s _ _ on => if on F.ENP_STAT_CNT_CLR then cntClr s .enp else s⟩,
   ⟨R.ENP_KSWAP, 4, 1, fun _ s _ _ on => onBit (on F.ENP_KSWAP_CANCEL) execKswapCancel (onBit (on F.ENP_KSWAP_REQ) execKswapReq s)⟩,
   ⟨R.CL_CTRL 0, 0x20, 16, fun _ s c _ on => if on F.CL_CTRL_REINIT then clusterReinit s c else s⟩]

def hooksTil : List Hook :=
  [⟨R.PS_STAT, 4, 1, fun _ s _ _ on => if on F.PS_STAT_CNT_CLR then cntClr s .ps else s⟩,
   ⟨R.TT_STAT, 4, 1, fun _ s _ _ on =>
      onBit (on F.TT_STAT_CLEAR) execTilthClear (if on F.TT_STAT_CNT_CLR then cntClr s .tilth else s)⟩,
   ⟨R.EGO_CTRL, 4, 1, fun _ s _ _ on => onBit (on F.EGO_CTRL_COMMIT) execEgoCommit s⟩,
   ⟨R.BL_CFG 0, 0x10, 16, fun s0 _ g v _ => blCfgSet s0 g v⟩]

def hooksCtl : List Hook :=
  [⟨R.CTL_CTRL, 4, 1, fun s0 s _ _ _ =>
      ctlEnSet (fsetB s R.CTL_CTRL F.CTL_CTRL_EN (flag s0 R.CTL_CTRL F.CTL_CTRL_EN)) (flag s R.CTL_CTRL F.CTL_CTRL_EN)⟩,
   ⟨R.CTL_STAT, 4, 1, fun _ s _ _ on => if on F.CTL_STAT_CNT_CLR then cntClr s .ctl else s⟩,
   ⟨R.SCN_CTRL 0, 0x20, 2, fun _ s c _ on =>
      let s := scnCfgDone s c
      if on F.SCN_CTRL_STOP then enterPark s c 0 else if on F.SCN_CTRL_START then scnStart s c else s⟩,
   ⟨R.AX_CFG 0, 0x40, 4, fun s0 s a _ _ => axCfgDone s0 s a⟩,
   ⟨R.AX_SWAP 0, 0x40, 4, fun _ s a v on => swapWrite s a (on F.AX_SWAP_SWAP) (decide (getFld v F.AX_SWAP_AT_FRAME = 1))⟩]

def hooksEmg : List Hook :=
  [⟨R.EMG_CTRL, 4, 1, fun _ s _ _ on => onBit (on F.EMG_CTRL_COMMIT) execEmgCommit s⟩,
   ⟨R.EMG_STAT, 4, 1, fun _ s _ _ on => if on F.EMG_STAT_CNT_CLR then cntClr s .emg else s⟩,
   ⟨R.BANK_STAT 0, 0x20, 16, fun _ s b _ on => onBit (on F.BANK_STAT_RELEASE) (execBankRelease (Fin.ofNat 16 b)) s⟩,
   ⟨R.SAF_CTRL, 4, 1, fun _ s _ _ on =>
      let s := if on F.SAF_CTRL_CLR_FAULT then clrFault s else s
      if on F.SAF_CTRL_COMMIT then safCommit s else s⟩,
   ⟨R.SAF_STAT, 4, 1, fun _ s _ _ on => if on F.SAF_STAT_CNT_CLR then cntClr s .saf else s⟩]

def hooksHk : List Hook :=
  [⟨R.BIAS_REF 0, 0x10, 16, fun _ s g _ _ => biasUpdate s g⟩,
   ⟨R.BIAS_LIM 0, 0x10, 16, fun _ s g _ _ => biasUpdate s g⟩,
   ⟨R.BIAS_STAT 0, 0x10, 16, fun _ s g _ _ => biasRelease s g⟩,
   ⟨R.HK_CTRL, 4, 1, fun s0 s _ v _ =>
      let s := fsetB (fsetB s R.HK_CTRL F.HK_CTRL_RUN (flag s0 R.HK_CTRL F.HK_CTRL_RUN))
        R.HK_CTRL F.HK_CTRL_VEXC_EN (flag s0 R.HK_CTRL F.HK_CTRL_VEXC_EN)
      let s := vexcSet s (decide (getFld v F.HK_CTRL_VEXC_EN = 1))
      if getFld v F.HK_CTRL_RUN = 1 then hkRun s else hkStop s⟩,
   ⟨R.HK_STAT, 4, 1, fun _ s _ _ on => if on F.HK_STAT_CNT_CLR then cntClr s .hk else s⟩,
   ⟨R.HKS_CFG 0, 0x10, 64, fun s0 _ i v _ => hksSet s0 i 0 v⟩,
   ⟨R.HKS_TIME 0, 0x10, 64, fun s0 _ i v _ => hksSet s0 i 1 v⟩,
   ⟨R.HKS_LIM 0, 0x10, 64, fun s0 _ i v _ => hksSet s0 i 2 v⟩,
   ⟨R.DEC_CTRL, 4, 1, fun _ s _ _ on => onBit (on F.DEC_CTRL_SYNC) execDecSync s⟩,
   ⟨R.DEC_STAT, 4, 1, fun _ s _ _ on => if on F.DEC_STAT_CNT_CLR then cntClr s .dec else s⟩,
   ⟨R.DEC_CFG 0, 0x40, 8, fun s0 _ c v _ => decCfgSet s0 c v⟩,
   ⟨R.DEC_DET 0, 0x40, 8, fun s0 _ c v _ => decDetSet s0 c v⟩,
   ⟨R.THM_CTRL, 4, 1, fun _ s _ _ on => if on F.THM_CTRL_RECAL then recalSet s else s⟩,
   ⟨R.THM_STAT, 4, 1, fun _ s _ _ on => if on F.THM_STAT_CNT_CLR then cntClr s .thm else s⟩]

/-- GO of DRC_TEST: what the test finds is the part's (R347, log 3) (log 119). -/
def drcTest (s : State) : State :=
  let (v, s) := openVal s
  after (execDrcTestGo (BitVec.ofNat 9 v.toNat) s) s

def hooksMem : List Hook :=
  [⟨R.MEM_RCFG 0, 0x10, 4, fun s0 s r _ _ =>
      if r = 1 then fsetB s (R.MEM_RCFG 1) F.MEM_RCFG_SCRUB_EN (flag s0 (R.MEM_RCFG 1) F.MEM_RCFG_SCRUB_EN) else s⟩,
   ⟨R.MEM_RSTAT 0, 0x10, 4, fun _ s r _ on => if on F.MEM_RSTAT_CNT_CLR then cntClr s (.memRegion (Fin.ofNat 4 r)) else s⟩,
   ⟨R.CM_CHECK, 4, 1, fun _ s _ _ on => if on F.CM_CHECK_COMMIT then cmCommit s else s⟩,
   ⟨R.DRC_CTRL, 4, 1, fun s0 s _ v on =>
      let s := fsetB s R.DRC_CTRL F.DRC_CTRL_TRAIN (flag s0 R.DRC_CTRL F.DRC_CTRL_TRAIN)
      let s := trainSet s (decide (getFld v F.DRC_CTRL_TRAIN = 1))
      drcHot (if on F.DRC_CTRL_INIT then drcInit s else s)⟩,
   ⟨R.DRC_STAT, 4, 1, fun _ s _ _ on => if on F.DRC_STAT_CNT_CLR then cntClr s .drc else s⟩,
   ⟨R.DRC_GEOM, 4, 1, fun _ s _ _ _ =>
      if flag s R.DRC_GEOM F.DRC_GEOM_PRESENT then s else fset s R.DRC_GEOM F.DRC_GEOM_CAP 0⟩,
   ⟨R.DRC_TEST, 4, 1, fun _ s _ _ on => if on F.DRC_TEST_GO then drcTest s else s⟩,
   ⟨R.DRC_SCRUB, 4, 1, fun s0 s _ _ _ =>
      if flag s R.DRC_SCRUB F.DRC_SCRUB_EN && !flag s0 R.DRC_SCRUB F.DRC_SCRUB_EN then
        { s with drc := { s.drc with patrol := 0, patrolAt := now s } } else s⟩,
   ⟨R.DLY_W 0 0, 0x10, 9, fun _ s l _ _ => dlyTrain s (R.DLY_W 0 l)⟩, ⟨R.DLY_W 1 0, 0x10, 9, fun _ s l _ _ => dlyTrain s (R.DLY_W 1 l)⟩,
   ⟨R.DLY_R 0 0, 0x10, 9, fun _ s l _ _ => dlyTrain s (R.DLY_R 0 l)⟩, ⟨R.DLY_R 1 0, 0x10, 9, fun _ s l _ _ => dlyTrain s (R.DLY_R 1 l)⟩,
   ⟨R.DLY_V 0 0, 0x10, 9, fun _ s l _ _ => dlyTrain s (R.DLY_V 0 l)⟩, ⟨R.DLY_V 1 0, 0x10, 9, fun _ s l _ _ => dlyTrain s (R.DLY_V 1 l)⟩,
   ⟨R.DLY_CA, 4, 1, fun _ s _ _ _ => dlyTrain s R.DLY_CA⟩,
   ⟨R.SLQ_CTRL, 4, 1, fun _ s _ _ _ => fset s R.SLQ_POOL_S F.SLQ_POOL_S_FREE (sdramFree s)⟩,
   ⟨R.CM_SPILL_LEN, 4, 1, fun _ s _ _ _ => fset s R.SLQ_POOL_C F.SLQ_POOL_C_FREE (clayFree s)⟩,
   ⟨R.SLQ_STAT, 4, 1, fun _ s _ _ on => if on F.SLQ_STAT_CNT_CLR then cntClr s .slq else s⟩,
   ⟨R.SLQ_GRP, 4, 1, fun _ s _ v _ => (bitList 16 (getFld v F.SLQ_GRP_REINIT)).foldl
      (fun s g => after (execSlqGroupReinit (Fin.ofNat 16 g) s) s) s⟩]

/-- RING_BASE and RING_N accept writes only while EN = 0 (R360). -/
def dmaRingKept (s0 s : State) (n : Nat) (a : Nat) : State := if flag s0 (R.DMA_CFG n) F.DMA_CFG_EN then wr s a (rd s0 a) else s

def hooksDma : List Hook :=
  [⟨R.DMA_CFG 0, 0x40, 16, fun s0 s n _ on =>
      let s := if flag s0 (R.DMA_CFG n) F.DMA_CFG_EN then
          fset s (R.DMA_CFG n) F.DMA_CFG_RING_N (fget s0 (R.DMA_CFG n) F.DMA_CFG_RING_N) else s
      let c := Fin.ofNat 16 n
      let s := onBit (on F.DMA_CFG_SKIP) (execDmaSkip c) (onBit (on F.DMA_CFG_RESTART) (execDmaRestart c) s)
      dmaKick (onBit (on F.DMA_CFG_REINIT) (execDmaReinit c) s) n⟩,
   ⟨R.DMA_RING_LO 0, 0x40, 16, fun s0 s n _ _ => dmaRingKept s0 s n (R.DMA_RING_LO n)⟩,
   ⟨R.DMA_RING_HI 0, 0x40, 16, fun s0 s n _ _ => dmaRingKept s0 s n (R.DMA_RING_HI n)⟩,
   ⟨R.DMA_TAIL 0, 0x40, 16, fun _ s n _ _ => dmaKick s n⟩,
   ⟨R.DMA_STAT 0, 0x40, 16, fun _ s n _ on => if on F.DMA_STAT_CNT_CLR then cntClr s (.dma (Fin.ofNat 16 n)) else s⟩]

/-- A write of LN_CTRL (R378 to R381). -/
def lnCtrlSet (s0 : State) (p : Nat) (v : Word) (reinit : Bool) : State :=
  let q := Fin.ofNat 3 p
  let s := fset s0 (R.LN_CTRL p) F.LN_CTRL_PRBS_SEL (getFld v F.LN_CTRL_PRBS_SEL)
  let prbs := decide (getFld v F.LN_CTRL_PRBS_EN = 1)
  let s := if prbs = flag s (R.LN_CTRL p) F.LN_CTRL_PRBS_EN then
      (if getFld v F.LN_CTRL_PRBS_SEL = fget s0 (R.LN_CTRL p) F.LN_CTRL_PRBS_SEL then s else prbsSend s p)
    else if prbs then after (execPrbsEnable q (BitVec.ofNat 2 (getFld v F.LN_CTRL_PRBS_SEL)) s) s
    else after (execPrbsDisable q s) s
  let en := decide (getFld v F.LN_CTRL_EN = 1)
  let s := if en = flag s (R.LN_CTRL p) F.LN_CTRL_EN ∧ ¬ (en = true ∧ lnState s p = lnDisabled) then s
    else if en then after (execLaneEnable q s) s else after (execLaneDisable q s) s
  let lp := getFld v F.LN_CTRL_LP_REQ
  let s := if lp = fget s (R.LN_CTRL p) F.LN_CTRL_LP_REQ then s else after (execLpReq q (BitVec.ofNat 2 lp) s) s
  if reinit then after (execLaneReinit q s) s else s

/-- RING_EN turned off ends the ring at this device, whose reference is REFCLK from then on (R388, R389, R391); then NODE_ID, the REFORM and BYP_HOLD. -/
def ringCfgDone (s : State) (reform clr : Bool) : State :=
  let s := if standalone s && decide (rstate s ≠ 0) then
      setRstate (raise { s with ring := { s.ring with pos := none } } 357) 0 else s
  let s := if standalone s && decide (s.ring.refSel ≠ 0) && refMayChange s then clkTake s 0 else s
  let s := nodeShow s
  let s := if reform then ringReform s else s
  bypShow (if clr then cntClr s .ring else s)

def hooksLane : List Hook :=
  [⟨R.LN_CTRL 0, 0x10000, 3, fun s0 _ p v on => lnCtrlSet s0 p v (on F.LN_CTRL_REINIT)⟩,
   ⟨R.LN_STAT 0, 0x10000, 3, fun _ s p _ on => if on F.LN_STAT_CNT_CLR then cntClr s (.lane (Fin.ofNat 3 p)) else s⟩,
   ⟨R.LN_TX 0 0, 4, 8, fun s0 _ l v _ => after (execTapWrite 0 (Fin.ofNat 8 l) v s0) s0⟩,
   ⟨R.LN_TX 1 0, 4, 4, fun s0 _ l v _ => after (execTapWrite 1 (Fin.ofNat 8 l) v s0) s0⟩,
   ⟨R.LN_TX 2 0, 4, 4, fun s0 _ l v _ => after (execTapWrite 2 (Fin.ofNat 8 l) v s0) s0⟩,
   ⟨R.RING_CFG, 4, 1, fun _ s _ _ on => ringCfgDone s (on F.RING_CFG_REFORM) (on F.RING_CFG_CNT_CLR)⟩]

/-- EVT_REPUB of unit u (R420). -/
def repub (s : State) (u : Nat) : State :=
  if isUnit u then
    let w := (unitWord s u).toNat
    { s with units := tput 0#32 s.units u (BitVec.ofNat 32 ((w / 0x10000 + 1) % 0x10000 * 0x10000 + w % 0x10000)) }
  else s

/-- EVT_REPUB (R420) (log 118). -/
def execEvtRepub (u : Byte) (s : State) : Host.Outcome State Fault Refusal := .next (done (repub s u.toNat))

/-- CAN_CFG has been written: a controller that EN has just enabled initialises; one that it disables stops (log 107). -/
def canCfgDone (s0 s : State) (c : Nat) : State :=
  if canEn s0 c = canEn s c then s else if canEn s c then canBootUp (canClear s c) c else canClear s c

/-- A disabled SGMII port has no link (R433). DEDUCED (log 108). -/
def ethCfgDone (s : State) (k : Nat) : State :=
  if flag s (R.ETH_CFG k) F.ETH_CFG_EN then s
  else foff (foff s (R.ETH_STAT k) F.ETH_STAT_LINK) (R.ETH_STAT k) F.ETH_STAT_AN_DONE

def hooksEvt : List Hook :=
  [⟨R.EVT_CTRL, 4, 1, fun _ s _ _ on => if on F.EVT_CTRL_CNT_CLR then cntClr s .evt else s⟩,
   ⟨R.EVT_REPUB, 4, 1, fun _ s _ v _ => repub s (getFld v F.EVT_REPUB_UNIT)⟩,
   ⟨R.EV_FLAG 0, 4, 20, fun s0 s w v _ => emcyReset s0 ((bitList 32 v.toNat).foldl (fun s j => raiseAgain s (32 * w + j)) s)⟩,
   ⟨R.EV_ROUTE 0, 4, 640, fun s0 s n _ on =>
      let s := if evNamed n then s else wr s (R.EV_ROUTE n) (rd s0 (R.EV_ROUTE n))
      let s := if on F.EV_ROUTE_CNT_CLR then cntClr s (.event (Fin.ofNat 640 n)) else s
      emcyReset s0 s⟩,
   ⟨R.CAN_CFG 0, 0x40, 2, fun s0 s c _ _ => canCfgDone s0 s c⟩,
   ⟨R.CAN_STAT 0, 0x40, 2, fun _ s c _ on => if on F.CAN_STAT_CNT_CLR then cntClr s (.can (Fin.ofNat 2 c)) else s⟩,
   ⟨R.ETH_CFG 0, 0x100, 2, fun _ s k _ _ => ethCfgDone s k⟩,
   ⟨R.ETH_STAT 0, 0x100, 2, fun _ s k _ on => if on F.ETH_STAT_CNT_CLR then cntClr s (.eth (Fin.ofNat 2 k)) else s⟩]

def hooksSys : List Hook :=
  [⟨R.SECU_STAT, 4, 1, fun _ s _ _ on => if on F.SECU_STAT_CNT_CLR then cntClr s .sec else s⟩,
   ⟨R.SEC_CMD, 4, 1, fun _ s _ v on => if on F.SEC_CMD_GO then secStart s (getFld v F.SEC_CMD_CMD) else s⟩,
   ⟨R.SYS_MODE, 4, 1, fun _ s _ v _ => (modeReq s (getFld v F.SYS_MODE_REQ)).1⟩,
   ⟨R.SYS_RESET, 4, 1, fun _ s _ v _ => if getFld v F.SYS_RESET_KEY = 0x5752 then warmStart s 1 else s⟩,
   ⟨R.SYS_REINIT, 4, 1, fun _ s _ _ on =>
      if on F.SYS_REINIT_GO then
        (reinitStart s (fget s R.SYS_REINIT F.SYS_REINIT_KIND) (fget s R.SYS_REINIT F.SYS_REINIT_INDEX)).1 else s⟩,
   ⟨R.SYS_CNT, 4, 1, fun _ s _ _ on => if on F.SYS_CNT_CNT_CLR then cntClr s .sys else s⟩,
   ⟨R.SYS_WDT, 4, 1, fun _ s _ _ on => if on F.SYS_WDT_KICK then kick s else s⟩,
   ⟨R.CLK_STAT, 4, 1, fun _ s _ _ on => if on F.CLK_STAT_CNT_CLR then cntClr s .clk else s⟩]

/-- The registers that do something besides, but for the tile windows. -/
def hooks : List Hook :=
  hooksTdc ++ hooksSht ++ hooksPool ++ hooksTil ++ hooksCtl ++ hooksEmg ++ hooksHk ++ hooksMem ++ hooksDma ++ hooksLane ++
    hooksEvt ++ hooksSys

/-- A register of the clay allocation: its write clears OK (R330). -/
def cmListed (a : Nat) : Bool :=
  [R.TT_BASE_LO, R.TT_BASE_HI, R.SHT_TAB_BASE, R.CM_TQ_BASE, R.CM_SPILL_BASE, R.CM_SPILL_LEN, R.CM_GAP_BASE, R.CM_GAP_LEN,
   R.DEC_HIST_BASE_LO, R.DEC_HIST_BASE_HI, R.PS_SUM, R.PS_SUM_BASE_LO, R.PS_SUM_BASE_HI, R.CAP_BASE_LO, R.CAP_BASE_HI,
   R.CAP_LEN].contains a

/-- What the register at `a` does besides. -/
def runHooks (s0 s : State) (a : Nat) (v : Word) (on : Fld → Bool) : State :=
  match idxOf (a / 0x10000 * 0x10000) (blockBase 0x20) 0x10000 64 with
  | some t => hookTile s0 s t (a % 0x10000) v on
  | none =>
    match hooks.findSome? (fun h => (idxOf a h.base h.stride h.n).map (fun i => h.act s0 s i v on)) with
    | some s' => s'
    | none => s

/-! ### Windows of the register region that are no registers -/

/-- Windows: word i of the safety staging window (R281), of a coefficient bank (R222), of a trajectory (R223). -/
inductive Window where
  | stage (i : Nat)
  | coef (axis bank word : Nat)
  | traj (axis i : Nat)
  deriving DecidableEq, Repr

def windowOf (a : Nat) : Option Window :=
  if a % 4 ≠ 0 then none
  else match idxOf a (blockBase 0xC + 0x8000) 4 0x2000 with
  | some i => some (.stage i)
  | none => match idxOf a (blockBase 6 + 0x1000) 4 0x100 with
  | some i => some (.coef (i / 64) (i / 32 % 2) (i % 32))
  | none => (idxOf a (blockBase 6 + 0x8000) 4 0x2000).map (fun i => .traj (i / 2048) (i % 2048))

/-- Byte o of the staging window. -/
def stageByte (s : State) (o : Nat) : Byte := tget 0#8 s.saf.stage o

/-- Bytes of the staging window are written. -/
def stageWrite (s : State) (o : Nat) (bs : List Byte) : State :=
  { s with saf := { s.saf with stage :=
      (bs.foldl (fun (x : List (Nat × Byte) × Nat) b => (tput 0#8 x.1 x.2 b, x.2 + 1)) (s.saf.stage, o)).1 } }

def windowWrite (s : State) (w : Window) (v : Word) : State :=
  match w with
  | .stage i =>
    if s.variantAN then s
    else if sealsOpen s then stageWrite s (4 * i) (leBytes 4 v.toNat)
    else raise s Ev.rwsDiscard
  | .coef a b i => coefWrite s a b i v
  | .traj a i => trjWrite s a i v

def windowRead (s : State) (w : Window) : Word :=
  BitVec.ofNat 32 (match w with
  | .stage i => if s.variantAN then 0 else ofLeBytes ((List.range 4).map (fun j => stageByte s (4 * i + j)))
  | .coef a b i => coefRead s a b i
  | .traj a i => tget 0 (axis s a).traj i)

/-! ### Writes and reads -/

/-- On the -AN, every register of the SAF block but SAF_STAT and SAF_INPUTS reads zero, and writes are ignored
(R281). -/
def safAbsent (s : State) (a : Nat) : Bool := s.variantAN && decide (a / 0x10000 * 0x10000 = blockBase 0xC)

/-- A write of a register whose fields are `fs`. -/
def fieldWrite (core : Bool) (s : State) (a : Nat) (v : Word) (fs : List Fld) : State :=
  let s1 := if discards s core fs .rws then raise s Ev.rwsDiscard else s
  let s1 := if discards s core fs .rwm then raise s1 Ev.rwmDiscard else s1
  let s2 := wr s1 a (writtenWord s core a v fs)
  let s2 := if cmListed a && (rwmFor s core || fs.any (fun f => decide (f.acc = .rw))) then foff s2 R.CM_CHECK F.CM_CHECK_OK else s2
  runHooks s1 s2 a v (setsBit s core v)

/-- A write of the word at an address of the register region; `core` for the control cores. -/
def regWrite (core : Bool) (s : State) (a : Nat) (v : Word) : State :=
  match windowOf a with
  | some w => windowWrite s w v
  | none => match regDesc a with
  | none => decodeErr s a true
  | some fs => if safAbsent s a then s else fieldWrite core s a v fs

/-- REGISTER_WRITE (R10, R25, R29): one word written by a master: a register, or four bytes of a memory, where the master
reaches the address, and else a decode error. While the reset is held nothing is written. -/
def execRegisterWrite (m : Master) (a : BitVec 40) (v : Word) (s : State) : Host.Outcome State Fault Refusal :=
  let bs := leBytes 4 v.toNat
  .next (done (
    if s.sys.held.isSome then s
    else coreSees m s (match firstOutside s m a.toNat 4 true with
      | some x => decodeErr s (x % 2 ^ 40) true
      | none =>
        if regionOf s a.toNat = .regs then regWrite (decide (m = .core)) s a.toNat v
        else (memWrite s a.toNat bs false).1)
      (if regionOf s a.toNat = .regs ∧ windowOf a.toNat = none ∧ regDesc a.toNat = none then some Ev.decodeErr else writeError m s a.toNat bs)))

/-- CLK_OFS (R483): the root PLL against REFCLK: 0 while it follows REFCLK, the stated code while REFCLK is absent; while it follows
another clock or its held frequency the offset is open. DESIGN CHOICE (log 101). -/
def clkOfsShow (s : State) : State :=
  if !flag s R.CLK_STAT F.CLK_STAT_REFCLK_OK then wr s R.CLK_OFS 0x80000000#32
  else if decide (s.ring.refSel = 0) && !flag s R.CLK_STAT F.CLK_STAT_HOLDOVER then wr s R.CLK_OFS 0
  else
    let (v, s) := openVal s
    wr s R.CLK_OFS (BitVec.ofNat 32 v.toNat)

/-- Registers whose read changes the device, or whose value is formed when they are read. -/
def regShow (s : State) (a : Nat) : State :=
  if a = R.TB_LO then after (execTbLoRead s) s
  else if a = R.SHT_SEQ_LO then after (execSeqLoRead s) s
  else if a = R.TAB_DATA ∨ a = R.TAB_INFO then tabShow s
  else if a = R.EMG_MON_VAL then wr s a (BitVec.ofNat 32 (monVal s))
  else if a = R.DRC_TEMP then fset s a F.DRC_TEMP_AGE (tempAge s)
  else if a = R.DRC_TEST then drcTestShow s
  else if a = R.SYS_WDT then fset s a F.SYS_WDT_LEFT (wdtLeft s)
  else if a = R.CLK_OFS then clkOfsShow s
  else match idxOf (a / 0x10000 * 0x10000) (blockBase 0x20) 0x10000 64 with
  | some t => if a % 0x10000 = 0x804 then fset s a F.FE_TILE_SUM_FAULT_CH (feTileSum s t)
    else if 0x1000 ≤ a % 0x10000 ∧ a % 0x40 = 0x14 then clampShow s (16 * t + (a % 0x10000 - 0x1000) / 0x40) else s
  | none => match idxOf a (R.TDC_CD_MAP 0) 4 3 with
  | some m => wr s a (BitVec.ofNat 32 ((List.range 32).foldl (fun v j =>
      if 32 * m + j < 65 ∧ cdMapBit s (32 * m + j) then v + 2 ^ j else v) 0))
  | none => match idxOf a (R.EVT_IRQ 0) 4 2 with
  | some k => fset (fsetB s a F.EVT_IRQ_LEVEL (irqLow s k)) a F.EVT_IRQ_FIRST ((irqHolders s k).headD 0x3FF)
  | none => match idxOf a (R.UNIT_STATE 0) 4 256 with
  | some u => wr s a (unitWord s u)
  | none => match idxOf a (R.SEC_STAT 0) 0x20 2 with
  | some c => let r := fill100 s c; fset r.2 a F.SEC_STAT_FILL100 r.1
  | none => match idxOf a (R.CL_STAT 0) 0x20 16 with
  | some c => fsetB s a F.CL_STAT_URGENT (urgentHead s c)
  | none => match idxOf a (R.ENG_STAT 0) 4 256 with
  | some e => fset s a F.ENG_STAT_LAST_PASS (lastPass s e)
  | none => match idxOf a (R.HKS_RES 0) 0x10 64 with
  | some i => hksRead s i
  | none => s

/-- What a read does after its value has been taken: AUX_TS_HI steps the FIFO (R81). -/
def readAfter (s : State) (a : Nat) : State :=
  match idxOf a (R.AUX_TS_HI 0) 0x20 6 with
  | some i => after (execAuxTsHiRead (Fin.ofNat 6 i) s) s
  | none => s

/-- A read of the word at an address of the register region. -/
def regRead (s : State) (a : Nat) : State × Word :=
  match windowOf a with
  | some w => (s, windowRead s w)
  | none => match regDesc a with
  | none => (decodeErr s a false, 0)
  | some _ =>
    if safAbsent s a then
      (s, if a = R.SAF_STAT then rd s a &&& (maskOf F.SAF_STAT_SEAL_A ||| maskOf F.SAF_STAT_SEAL_B)
          else if a = R.SAF_INPUTS then rd s a &&& 0x00FFFF00#32 else 0)
    else
      let s := regShow s a
      (readAfter s a, rd s a)

end Sys2Proof.Machine
end

