-- ==== Sys2Proof/Machine/HostPort.lean ====
section
/-! DEFINITION. Host access through port H (R29, R387, R443): the two windows, their reads and writes, and the
completions. -/

namespace Sys2Proof.Machine

/-- In RECOVERY the windows reach only these addresses (R443). -/
def recoveryMay (s : State) (win : Bool) (a : Nat) : Bool :=
  if !inRecovery s then true
  else if win then decide (0x100C0000 ≤ a) && decide (a < 0x10200000)
  else decide (a / 0x10000 * 0x10000 = blockBase 0x15)

/-- Address that an offset of a window names (log 120). -/
def winAddr (s : State) (win : Bool) (ofs : Nat) : Nat :=
  if win then (rd s R.HWIN1_BASE_LO).toNat + fget s R.HWIN1_BASE_HI F.HWIN1_BASE_HI_ADDR * 2 ^ 32 + ofs
  else 0x0800000000 + ofs

/-- BYTES of a request. -/
def bytesOf (n : Nat) : Nat := if n = 0 then 4096 else n

/-- Port H refuses the access before it reaches the fabric: window 0 takes whole registers of its range (R387) (log 120). -/
def refusedEarly (win : Bool) (ofs n : Nat) : Bool :=
  !win && (decide (ofs % 4 ≠ 0) || decide (n % 4 ≠ 0) || decide (0x1000000 < ofs + n))

/-- The first address of a range that the host does not reach (log 120). -/
def firstOut (s : State) (win : Bool) (a n : Nat) (write : Bool) : Option Nat :=
  ((List.range n).map (a + ·)).find? (fun x =>
    decide (2 ^ 40 ≤ x) || !reaches .host (regionOf s x) x write || !recoveryMay s win x || (!win && decide (0x0801000000 ≤ x)))

/-- The address lies in the register region and is no whole register of an access of whole registers (log 121). -/
def brokenReg (s : State) (a n : Nat) : Bool := decide (regionOf s a = .regs) && (decide (a % 4 ≠ 0) || decide (n % 4 ≠ 0))

/-- Reads whole registers from an address: the state, the bytes, and whether each stands there. DEDUCED (log 121). -/
def regsRead : Nat → State → Nat → State × List Byte × Bool
  | 0, s, _ => (s, [], true)
  | n + 1, s, a =>
    let (s1, v) := regRead s a
    let ok := (windowOf a).isSome || (regDesc a).isSome
    let (s2, l, ok2) := regsRead n s1 (a + 4)
    (s2, leBytes 4 v.toNat ++ l, ok && ok2)

/-- Writes whole registers from an address: the state, and whether each stands there (log 121). -/
def regsWrite : Nat → State → Nat → List Byte → State × Bool
  | 0, s, _, _ => (s, true)
  | n + 1, s, a, d =>
    let ok := (windowOf a).isSome || (regDesc a).isSome
    let (s, ok2) := regsWrite n (regWrite false s a (BitVec.ofNat 32 (ofLeBytes (d.take 4)))) (a + 4) (d.drop 4)
    (s, ok && ok2)

/-- A host read: the state, the bytes, and STATUS (R387) (log 120). -/
def hostFetch (s : State) (win : Bool) (ofs n : Nat) : State × List Byte × Nat :=
  if refusedEarly win ofs n then (s, [], 1)
  else
    let a := winAddr s win ofs
    match firstOut s win a n false with
    | some x => (decodeErr s (x % 2 ^ 40) false, [], 1)
    | none =>
      if brokenReg s a n then (decodeErr s a false, [], 1)
      else if regionOf s a = .regs then
        let (s, l, ok) := regsRead (n / 4) s a
        (s, if ok then l else [], if ok then 0 else 1)
      else
        let (s, l, ok) := memRead s a n
        (s, if ok then l else [], if ok then 0 else 2)

/-- A host write: the state, and STATUS (R387) (log 120). -/
def hostStore (s : State) (win : Bool) (ofs : Nat) (d : List Byte) : State × Nat :=
  if refusedEarly win ofs d.length then (s, 1)
  else
    let a := winAddr s win ofs
    match firstOut s win a d.length true with
    | some x => (decodeErr s (x % 2 ^ 40) true, 1)
    | none =>
      if brokenReg s a d.length then (decodeErr s a true, 1)
      else if regionOf s a = .regs then
        let (s, ok) := regsWrite (d.length / 4) s a d
        (s, if ok then 0 else 1)
      else
        let (s, ok) := memWrite s a d false
        (s, if ok then 0 else 2)

/-- A completion joins those that wait for port H (log 121). -/
def cplAdd (s : State) (c : Cpl) : State := { s with host := { s.host with cpls := s.host.cpls ++ [c] } }

/-- Port H is served: reset is not held and the port carries frames. -/
def hostServed (s : State) : Bool := s.sys.held.isNone && laneUp s 0

/-- A WR is carried out; one that fails is answered. -/
def writeServe (s : State) (win : Bool) (ofs tag : Nat) (d : List Byte) : State :=
  let r := hostStore s win ofs d
  if r.2 = 0 then r.1 else cplAdd r.1 ⟨false, tag, r.2, []⟩

/-- HOST_WRITE (R387): a write that fails is answered; it waits behind a held read, as VC1 delivers in order (R383) (log 120) (log 121). -/
def execHostWrite (win : Bool) (ofs : BitVec 32) (tag : Byte) (d : List Byte) (s : State) : Host.Outcome State Fault Refusal :=
  .next (done (
    if hostServed s ∧ 1 ≤ d.length ∧ d.length ≤ 4096 then
      if s.host.held = [] then writeServe s win ofs.toNat tag.toNat d
      else holdReq s (.write win ofs.toNat tag.toNat d) (heldUnits (.write win ofs.toNat tag.toNat d))
    else s))

/-- An RD is served: its completion waits, and the credit of its frame is returned. -/
def readServe (s : State) (win : Bool) (ofs tag n : Nat) : State :=
  let r := hostFetch s win ofs n
  let s := modVc r.1 0 1 (fun x => { x with owe := x.owe + 1 })
  cplAdd s ⟨true, tag, r.2.2, r.2.1⟩

/-- RD requests outstanding. -/
def readsOut (s : State) : Nat := (s.host.cpls.filter (fun c => c.read)).length

/-- HOST_READ (R387): at most 64 RD are outstanding, a further one is held (log 120). -/
def execHostRead (win : Bool) (ofs : BitVec 32) (tag : Byte) (bytes : BitVec 13) (s : State) : Host.Outcome State Fault Refusal :=
  let n := min 4096 (bytesOf bytes.toNat)
  .next (done (
    if !hostServed s then s
    else if 64 ≤ readsOut s ∨ s.host.held ≠ [] then
      { s with host := { s.host with held := s.host.held ++ [.read win ofs.toNat tag.toNat n] } }
    else readServe s win ofs.toNat tag.toNat n))

/-- The frames held on VC1 are carried out in order up to an RD for which there is no room (log 121). -/
def heldServe : Nat → State → State
  | 0, s => s
  | fuel + 1, s =>
    match s.host.held with
    | [] => s
    | r :: l =>
      let s' : State := { s with host := { s.host with held := l } }
      let back := modVc s' 0 1 (fun x => { x with owe := x.owe + heldUnits r })
      match r with
      | .read win ofs tag n => if readsOut s < 64 then heldServe fuel (readServe s' win ofs tag n) else s
      | .write win ofs tag d => heldServe fuel (writeServe back win ofs tag d)
      | .response tag error => heldServe fuel (dmaResponse back tag error)

/-- HOST_COMPLETION (R387): the oldest completion leaves as a CPL frame (log 121). -/
def execHostCompletion (s : State) : Host.Outcome State Fault Refusal :=
  .next (done (match s.host.cpls with
    | c :: l =>
      let pad := (8 - c.data.length % 8) % 8
      let s := { s with host := { s.host with cpls := l } }
      heldServe (s.host.held.length + 1) (laneOut s 0 1 3 (leBytes 8 (c.tag % 256 * 2 ^ 40 + c.status * 2 ^ 48) ++ c.data ++ List.replicate pad 0#8))
    | [] => s))

end Sys2Proof.Machine
end

