-- ==== Sys2Proof/Machine/Boot.lean ====
section
/-! DEFINITION. BOOT (R442, R443, R458, R459): the release of a reset, verification and loading, RECOVERY, the end of a
SEC command, and the mode that BOOT leads to. -/

namespace Sys2Proof.Machine

/-! ### Steps of the firmware (R442, steps 4 to 7) -/

/-- The board parameter record is applied as the control cores write registers; without a good record the reset values
stay (R442, R458) (log 97). -/
def boardApply (s : State) (b : BootIn) : State :=
  match recLoad s 5 b.board0 b.board1 with
  | (s, some l) =>
    let s := b.board.foldl (fun s w => regWrite true s w.1.toNat w.2) s
    { s with sec := { s.sec with boardDigest := sha384 l } }
  | (s, none) => secReject (fon s R.SECU_STAT F.SECU_STAT_BOARD_BAD) 555

/-- The delay supplement overrides the delays of the board record (R442) (log 96). -/
def supplementApply (s : State) : State :=
  match recLoad s 6 [] [] with
  | (s, some l) => delayRegs.zipIdx.foldl (fun s p => wr s p.1 (BitVec.ofNat 32 (ofLeBytes ((l.drop (4 * p.2)).take 4)))) s
  | (s, none) => s

/-- CRC-32C over the words of a sealed set (R242). -/
def sealedCrc (words : List (Nat × Word)) : Word :=
  crc32c (sealedRegs.flatMap (fun a => leBytes 4 (tget (regReset a) words a).toNat))

/-- The emission record, where it verifies, becomes the active set (R242, R442); else CAP_OK stays 0. -/
def emissionLoad (s : State) : State :=
  match recLoad s 4 [] [] with
  | (s, some l) => wr (sealActivate s (emgWords l)) R.EMG_ACT_CRC (sealedCrc (emgWords l))
  | (s, none) => s

/-- The island's record (R269, R442). -/
def safetyLoad (s : State) (b : BootIn) : State := let r := recLoad s 3 b.safety0 b.safety1; safLoadRecord r.1 r.2

/-- A template of the default set: 32 taps (R155). -/
def defaultTaps : List Byte :=
  (List.range 32).flatMap (fun k => leBytes 2 (if k = 15 then 32767 else if k = 14 ∨ k = 16 then 16384 else 0))

/-- The template tables of the default set: template 0 for every BINW, templates 1 to 3 and every DELAY 0 (R155). -/
def defaultTemplates : List Byte :=
  (List.range 16).flatMap (fun _ => defaultTaps ++ List.replicate 192 0) ++ List.replicate 256 0

/-- The default set's content stands where its header places it, and its checksums cover it (R154, R155); a header that places a
block outside the image is none of a default set (log 97). -/
def defaultSet (s : State) (a : Nat) : State :=
  let n := imgSize s a
  let param := mrd s (a + 0xE) 2
  let tmpl := mrd s (a + 0x10) 2
  let walk := mrd s (a + 0x12) 2
  let fits := fun (o k : Nat) => decide (0x40 ≤ o) && decide (o + k ≤ n)
  if decide (n ≤ 24576) && fits param 16 && fits tmpl 4352 && fits walk 2048 then
    let s := mputBytes s (a + param) [0x50, 40, 16, 1]
    let s := mputBytes (mputBytes s (a + tmpl) defaultTemplates) (a + walk) (List.replicate 2048 0)
    let s := mwr s (a + 0x1C) 4 (crc32c (mbytes s (a + 0x40) (n - 0x40))).toNat
    mwr s (a + 0x3C) 4 (crc32c (mbytes s a 0x3C)).toNat
  else s

/-- The default kernel set is copied into the kernel-image allocation, from where LOAD takes it (R442, R448) (log 97). -/
def kernelPlace (s : State) (kset : List Byte) : State :=
  let s := defaultSet (blockWrite s 0x0100D00000 (kset.take 0x40000)) 0x0100D00000
  { s with pool := { s.pool with src := insertKey (eraseKey s.pool.src 0) 0 0x0100D00000 }
           sec := { s.sec with ksets := insertKey (eraseKey s.sec.ksets 0) 0 (sha384 kset) } }

/-- Port H is served from the firmware's start; U and D train where the ring is enabled (R394, R457) (log 97) (log 112). -/
def portsStart (s : State) : State :=
  let s := after (execLaneEnable 0 s) s
  if standalone s then s else let s := after (execLaneEnable 1 s) s; after (execLaneEnable 2 s) s

/-- The firmware starts: STAGE = FIRMWARE and the steps of R442 that follow, the start of the sequencer among them (R293). -/
def firmwareBoot (s : State) (b : BootIn) (kset : List Byte) : State :=
  let s := fset s R.SECU_STAT F.SECU_STAT_STAGE 1
  let s := { s with sys := { s.sys with kickAt := now s } }
  let s := hkRun (nodeShow (drcInit (supplementApply (boardApply s b))))
  bypShow (portsStart (kernelPlace (safetyLoad (emissionLoad s) b) kset))

/-! ### Release of reset (R442, R443) -/

/-- An image starts from code bank 0: its code is loaded, and the firmware boots with its default kernel set (R440, R442). -/
def imageStart (s : State) (b : BootIn) (bank : Nat) (trial : Bool) (r : Reader) : State :=
  let i := infoAt r
  let s := blockWrite (imageRuns s bank trial i) 0x10000000 (r i.codeOfs i.codeLen)
  firmwareBoot { s with sec := { s.sec with codeBank := 0 } } b (r i.ksetOfs i.ksetLen)

/-- The ROM starts the image of a bank. -/
def romStart (s : State) (b : BootIn) (bank : Nat) (trial : Bool) : State := imageStart s b bank trial (bankReader s bank)

/-- RECOVERY (R443): the device stays in BOOT and port H is served (log 97). -/
def recoveryEnter (s : State) : State :=
  let s := fset s R.SECU_STAT F.SECU_STAT_STAGE 2
  bypShow (after (execLaneEnable 0 s) s)

/-- The bank that the boot header names and whether it runs in trial, and the header as BOOT leaves it (R442). DEDUCED (log 97). -/
def bootChoice (s : State) : State × Nat × Bool :=
  match bootHdr s with
  | none => (s, 0, false)
  | some h =>
    if !h.trial then (s, h.active, false)
    else if 3 ≤ h.tries then (s, 1 - h.active, false)
    else (hdrWrite s (fun h => { h with tries := h.tries + 1 }), h.active, true)

/-- What has been put into the flash from outside, and the keys (R436, R442). -/
def romKeys (s : State) (b : BootIn) : State := deriveKeys (b.flash.foldl (fun s p => flashPut s p.1.toNat [p.2]) s)

/-- The KINDs that the signer of the image in a bank is meant for. -/
def bankPurpose (b : BootIn) (k : Nat) : List Byte := if k = 0 then b.bank0 else b.bank1

/-- The ROM verifies the chosen bank, then the other one (R442) (log 92). -/
def romBoot (s : State) (b : BootIn) : State :=
  let (s, bank, trial) := bootChoice (romKeys s b)
  let e := bankErr s bank (bankPurpose b bank)
  if e = 0 then romStart s b bank trial
  else
    let s := secRejectErr s e
    let other := 1 - bank
    let e := bankErr s other (bankPurpose b other)
    if e = 0 then
      let s := finc (fon s R.SECU_STAT F.SECU_STAT_FALLBACK) R.SEC_CNT F.SEC_CNT_FALLBACKS
      let s := hdrWrite s (fun h => { h with active := other, trial := false })
      romStart { s with sec := { s.sec with fellBack := true } } b other false
    else recoveryEnter (secRejectErr s e)

/-- The reset may be released: a power-on reset while REFCLK is present and the PLL is locked to it (R475), a warm reset after 1.0 ms,
not while the analogue trip holds it (R319, R466). -/
def releaseDue (s : State) : Bool :=
  match s.sys.held with
  | some t => !s.sys.tripped &&
      (if s.sys.por then flag s R.CLK_STAT F.CLK_STAT_REFCLK_OK && !flag s R.CLK_STAT F.CLK_STAT_HOLDOVER else decide (t + ticksMs 1 ≤ now s))
  | none => decide (modeOf s = .boot) && decide (fget s R.SECU_STAT F.SECU_STAT_STAGE = 0)

/-- The read mode that STRAP_FL selects (R492). -/
def flashModeOf (v : BitVec 2) : FlashMode :=
  match v.toNat with | 1 => .octal118 | 2 => .octal888 | _ => .quad114

/-- Release: a power-on reset starts the timebase at 0 and samples MASTER_SEL and STRAP_FL (R65, R388, R492) (log 98) (log 104). -/
def releaseReset (s : State) : State :=
  let s := if s.sys.por then
      let s := { s with tb := 0#64, stepped := 0, sec := { s.sec with flashMode := flashModeOf s.pins.strapFl } }
      fsetB s R.RING_STAT F.RING_STAT_MASTER s.pins.masterSel
    else s
  { s with sys := { s.sys with held := none, kickAt := now s }
           thm := { s.thm with autoAt := now s + ticksMs 10 } }

/-- RESET_RELEASE (R442). -/
def execResetRelease (b : BootIn) (s : State) : Host.Outcome State Fault Refusal :=
  .next (done (if releaseDue s then romBoot (releaseReset s) b else s))

/-! ### The end of a SEC command (R443, R444) -/

/-- The image that the host wrote into the window of RECOVERY (R443). -/
def windowReader (s : State) : Reader := fun o n => mbytes s (0x100C0000 + o) n

/-- RECOVER_BOOT: SEC verifies the image that the host wrote, and starts it (R443) (log 97). -/
def doneRecover (s : State) (v : SecVerdict) (b : BootIn) : State × Nat :=
  let e := imageErr s (windowReader s) 0x140000 v.purpose
  if e ≠ 0 then (secRejectErr s e, e) else (imageStart s b (fwBank s) false (windowReader s), 0)

/-- A good GEN_OPK that 0x5803.01 started is followed by MAKE_CSR (R455). -/
def csrFollows (s : State) (n e : Nat) : State := if n = 6 ∧ e = 0 ∧ s.sec.arg = [1#8] then secGo s 7 [] else s

/-- SEC_COMMAND_DONE (R444): BUSY clears and ERR is set. DESIGN CHOICE (log 92). -/
def execSecCommandDone (v : SecVerdict) (b : BootIn) (s : State) : Host.Outcome State Fault Refusal :=
  .next (done (
    match s.sec.run with
    | some (n, _) =>
      let s := foff { s with sec := { s.sec with run := none, flashAt := now s } } R.SEC_CMD_STAT F.SEC_CMD_STAT_BUSY
      let r := if n = 13 then doneRecover s v b else secFinish s n v
      csrFollows (secErr r.1 r.2) n r.2
    | none => s))

/-! ### The end of BOOT (R459) -/

/-- Every engine of the clusters that run has loaded its kernel set, or is retired (R442) (log 98). -/
def enginesLoaded (s : State) : Bool :=
  (List.range 256).all (fun e => !clusterRuns s (e / 16) || decide (engState s e ≠ engLoad))

/-- BOOT may end: the firmware runs and its loading is complete. -/
def bootOver (s : State) : Bool :=
  decide (modeOf s = .boot) && decide (fget s R.SECU_STAT F.SECU_STAT_STAGE = 1) && s.sys.held.isNone && !modeBusy s && enginesLoaded s

/-- The mode after BOOT (R459): BYPASS at 110 °C or more; SCAN where AUTO is applicable and the SCAN conditions hold;
otherwise STANDBY, refused where AUTO was applicable (log 98). -/
def bootMode (s : State) : State :=
  if 1760 ≤ tCtl16 s then enterBypass s
  else if flag s R.SYS_CFG F.SYS_CFG_AUTO && s.sys.autoOk then
    match scanReason s with
    | none => enterScan s
    | some r =>
      let s := fset (fon s R.SYS_MODE F.SYS_MODE_REFUSED) R.SYS_MODE F.SYS_MODE_REASON r
      refFirst (refsFollow (setMode s .standby))
  else refFirst (refsFollow (setMode s .standby))

/-- Events of the end of BOOT (R319, R425, R442). -/
def bootEvents (s : State) : State :=
  let s := if s.sys.por then s else raise s Ev.warmReset
  let s := if !s.sys.por ∧ fget s R.SYS_CAUSE F.SYS_CAUSE_CAUSE = 3 then raise s 461 else s
  if s.sec.fellBack then raise { s with sec := { s.sec with fellBack := false } } 554 else s

/-- BOOT_COMPLETE (R459). DEDUCED (log 98). -/
def execBootComplete (s : State) : Host.Outcome State Fault Refusal :=
  .next (done (if bootOver s then canBootUp (canBootUp (bootEvents (bootMode s)) 0) 1 else s))

end Sys2Proof.Machine
end

