-- ==== Sys2Proof/Machine/Dict.lean ====
section
/-! DEFINITION. The object dictionary (R3, R14, R406, R409, R412, R413 and the object tables of the chapters): which
objects there are, their access classes and sizes, and what reading and writing one does. -/

namespace Sys2Proof.Machine

/-- Access classes of CANopen and of R14. -/
inductive ObjAcc where
  | ro | wo | rw | const | rws | rwm
  deriving DecidableEq, Repr

/-- Objects of a fixed size that no register holds. -/
inductive ObjFn where
  | errReg | errCount | err (i : Nat) | serial | product | sdoServer (i : Nat) | timebase | auxTick (a : Nat) | auxFine (a : Nat)
  | period (a : Nat) | scnCmd (c : Nat) | clrFault | variant | view (u : Nat) | full (g : Nat) | ptp (i : Nat)
  | resetKey | reinit (k i : Nat) | genOpk | secCmd | programmed | saveDly
  deriving DecidableEq, Repr

/-- DOMAIN objects. -/
inductive ObjDom where
  | coef (a b : Nat) | traj (a : Nat) | stage | cert (i : Nat) | opcert | csr | nonce | report | bank | challenge | token
  | anchor | transfer
  deriving DecidableEq, Repr

/-- What stands behind an object: a register, a LO and HI pair of registers, a constant number, a string, a communication
object of R412, a function, or a DOMAIN. -/
inductive ObjBody where
  | reg (a : Nat) | pair (lo hi : Nat) | num (size v : Nat) | text (l : List Byte) | od (size : Nat) | fn (size : Nat) (f : ObjFn)
  | dom (d : ObjDom)
  deriving DecidableEq, Repr

/-- A row of an object table: `n` indices from `base` and `m` subindices from `sub`. -/
structure ObjRow where
  base : Nat
  n : Nat
  sub : Nat
  m : Nat
  acc : ObjAcc
  body : Nat → Nat → ObjBody

/-! ### The object tables -/

def arrRow (b n sub m : Nat) (acc : ObjAcc) (f : Nat → Nat → Nat) : ObjRow := ⟨b, n, sub, m, acc, fun i j => .reg (f i j)⟩
def oneRow (b sub : Nat) (acc : ObjAcc) (o : ObjBody) : ObjRow := ⟨b, 1, sub, 1, acc, fun _ _ => o⟩

/-- Registers at the subindices 0x01 upwards of `n` indices. -/
def recRows (b n : Nat) (l : List (ObjAcc × (Nat → Nat))) : List ObjRow :=
  l.zipIdx.map (fun p => ⟨b, n, p.2 + 1, 1, p.1.1, fun i _ => .reg (p.1.2 i)⟩)

/-- The same registers whatever the index. -/
def fix (l : List (ObjAcc × Nat)) : List (ObjAcc × (Nat → Nat)) := l.map (fun p => (p.1, fun _ => p.2))

def asciiBytes (l : List Nat) : List Byte := l.map (BitVec.ofNat 8)

/-- The communication area (R412, log 12). -/
def rowsComm : List ObjRow :=
  [oneRow 0x1000 0 .const (.num 4 0), oneRow 0x1001 0 .ro (.fn 1 .errReg), oneRow 0x1003 0 .rw (.fn 1 .errCount),
   ⟨0x1003, 1, 1, 16, .ro, fun _ j => .fn 4 (.err j)⟩, oneRow 0x1005 0 .rw (.od 4), oneRow 0x1006 0 .rw (.od 4),
   oneRow 0x1008 0 .const (.text (asciiBytes [70, 90, 76, 57, 54, 48, 48, 45, 65])),
   oneRow 0x1009 0 .const (.text (asciiBytes [65, 49])), oneRow 0x100A 0 .const (.text Config.firmwareVersion),
   oneRow 0x1014 0 .rw (.od 4), oneRow 0x1015 0 .rw (.od 2), ⟨0x1016, 1, 1, 4, .rw, fun _ _ => .od 4⟩,
   oneRow 0x1017 0 .rw (.od 2), oneRow 0x1018 1 .ro (.num 4 0x00000A1F), oneRow 0x1018 2 .ro (.fn 4 .product),
   oneRow 0x1018 3 .ro (.num 4 0x00010001), oneRow 0x1018 4 .ro (.fn 4 .serial),
   ⟨0x1200, 1, 1, 2, .ro, fun _ j => .fn 4 (.sdoServer j)⟩,
   ⟨0x1400, 16, 1, 2, .rw, fun _ _ => .od 4⟩, ⟨0x1600, 16, 0, 1, .rw, fun _ _ => .od 1⟩, ⟨0x1600, 16, 1, 16, .rw, fun _ _ => .od 4⟩,
   ⟨0x1800, 16, 1, 2, .rw, fun _ _ => .od 4⟩, ⟨0x1A00, 16, 0, 1, .rw, fun _ _ => .od 1⟩, ⟨0x1A00, 16, 1, 16, .rw, fun _ _ => .od 4⟩]

/-- Front end and time measurement (R59, R87). -/
def rowsFe : List ObjRow :=
  [arrRow 0x2100 64 1 16 .rw R.FE_CFG, arrRow 0x2140 64 1 16 .ro R.FE_ACT, arrRow 0x2180 64 1 16 .rwm R.FE_MODE,
   arrRow 0x21C0 64 1 16 .rw R.FE_TEST, arrRow 0x2200 64 1 16 .rw R.FE_TEST_TIME, arrRow 0x2240 64 1 16 .rw R.FE_STAT,
   arrRow 0x2280 64 1 16 .ro R.FE_CNT_A, arrRow 0x22C0 64 1 16 .ro R.FE_CNT_B, arrRow 0x2300 64 1 16 .ro R.FE_TRIM,
   arrRow 0x2340 64 1 1 .rw (fun t _ => R.FE_TILE_CTRL t), arrRow 0x2340 64 2 1 .ro (fun t _ => R.FE_TILE_SUM t),
   arrRow 0x2380 1 1 16 .rw (fun _ g => R.BIAS_REF g), arrRow 0x2381 1 1 16 .rwm (fun _ g => R.BIAS_LIM g),
   arrRow 0x2382 1 1 16 .rw (fun _ g => R.BIAS_MON g), arrRow 0x2383 1 1 16 .rw (fun _ g => R.BIAS_STAT g),
   arrRow 0x6100 64 1 16 .ro R.FE_BASELINE] ++
  recRows 0x2400 1 (fix [(.rw, R.TDC_CTRL), (.rw, R.TDC_CLK), (.rw, R.TDC_CAL_GAP), (.rw, R.TDC_CAL_STAT), (.ro, R.TDC_CD_MAP 0),
    (.ro, R.TDC_CD_MAP 1), (.ro, R.TDC_CD_MAP 2), (.ro, R.TDC_CNT), (.ro, R.TDC_FAULT)]) ++
  [oneRow 0x2401 1 .rwm (.reg R.TB_CTRL), oneRow 0x2401 2 .rwm (.pair R.TB_LOAD_LO R.TB_LOAD_HI), oneRow 0x2401 3 .ro (.fn 8 .timebase)] ++
  recRows 0x2410 6 [(.rw, R.AUX_CFG), (.rw, R.AUX_STAT), (.ro, R.AUX_PER_INT), (.ro, R.AUX_CNT)] ++
  [⟨0x2410, 6, 5, 1, .ro, fun a _ => .fn 8 (.auxTick a)⟩, ⟨0x2410, 6, 6, 1, .ro, fun a _ => .fn 1 (.auxFine a)⟩,
   oneRow 0x2420 0 .rw (.reg R.GATE_CFG), oneRow 0x6400 0 .ro (.fn 8 .timebase), ⟨0x6401, 1, 1, 6, .ro, fun _ a => .fn 8 (.period a)⟩]

/-- Scheduler and tiles (R107, R128). SEED0 to SEED3 are written in STANDBY only, as rwm is. -/
def rowsSht : List ObjRow :=
  recRows 0x2500 1 (fix [(.rwm, R.SHT_CTRL), (.ro, R.SHT_ACT), (.rw, R.SHT_NEXT), (.ro, R.SHT_VAL), (.rw, R.SHT_FRAME_LEN),
    (.rw, R.SHT_FB), (.rw, R.SHT_HOLD), (.rw, R.SHT_STAT), (.rw, R.SHT_BANK), (.ro, R.SHT_NODE)]) ++
  [arrRow 0x2501 1 1 0x12 .ro (fun _ i => R.GAP_CNT i)] ++
  recRows 0x2502 1 (fix [(.ro, R.SHT_CNT_A), (.ro, R.SHT_CNT_B), (.ro, R.SEED_CHK)]) ++
  [arrRow 0x2503 1 1 4 .wo (fun _ m => R.SEED m)] ++
  recRows 0x2510 1 (fix [(.rw, R.CAP_CTRL), (.rw, R.CAP_STAT), (.rwm, R.CAP_LEN), (.rw, R.CAP_WIN)]) ++
  [oneRow 0x2510 5 .rwm (.pair R.CAP_BASE_LO R.CAP_BASE_HI), oneRow 0x2510 6 .ro (.pair R.CAP_TICK_LO R.CAP_TICK_HI),
   oneRow 0x2510 7 .ro (.pair R.CAP_FIRST_LO R.CAP_FIRST_HI), oneRow 0x6500 1 .ro (.reg R.SHT_FRAME_NO),
   oneRow 0x6500 2 .ro (.pair R.SHT_SEQ_LO R.SHT_SEQ_HI)] ++
  recRows 0x2600 64 [(.rw, R.GT_CTRL), (.rw, R.GT_REP), (.rw, R.GT_COINC), (.rw, R.GT_DEADLINE), (.rw, R.GT_STAT), (.ro, R.GT_CNT_A),
    (.ro, R.GT_CNT_B), (.ro, R.GT_CNT_C), (.ro, R.GT_TICKETS), (.ro, R.GT_MODEMAP)] ++
  [arrRow 0x2640 64 1 16 .rw R.GT_NB, arrRow 0x2680 64 1 16 .ro R.GT_BG, arrRow 0x26C0 64 1 16 .ro R.GT_OCC,
   arrRow 0x2700 64 1 16 .ro R.GT_CH_CNT, arrRow 0x2740 64 1 16 .ro R.GT_BUF, arrRow 0x6600 64 1 16 .ro R.GT_BG]

/-- Engine pool, point stage and rejection (R153, R185, R202). -/
def rowsPool : List ObjRow :=
  recRows 0x2800 1 (fix [(.rw, R.ENP_CTRL), (.rw, R.ENP_ST), (.rw, R.ENP_STAT), (.rw, R.ENP_KSWAP), (.ro, R.ENP_KINFO),
    (.rw, R.ENP_KMAP 0), (.rw, R.ENP_KMAP 1), (.rw, R.ENP_KMAP 2), (.rw, R.ENP_KMAP 3)]) ++
  [oneRow 0x2801 0 .rw (.pair R.ENP_KSRC_LO R.ENP_KSRC_HI), arrRow 0x2802 1 1 8 .ro (fun _ m => R.ENP_RETIRED m)] ++
  recRows 0x2810 16 [(.rw, R.CL_CTRL), (.ro, R.CL_Q), (.ro, R.CL_STAT), (.ro, R.CL_CNT_A), (.ro, R.CL_CNT_B), (.ro, R.CL_CNT_C),
    (.ro, R.CL_CNT_D), (.ro, R.CL_LAT)] ++
  [arrRow 0x2820 16 1 16 .ro (fun c p => R.ENG_STAT (16 * c + p)), arrRow 0x6800 1 1 16 .ro (fun _ c => R.CL_Q c)] ++
  recRows 0x2900 1 (fix [(.rwm, R.PS_CTRL), (.rw, R.PS_STAT), (.ro, R.PS_CNT_A), (.ro, R.PS_CNT_B), (.ro, R.PS_CNT_C),
    (.ro, R.PS_CNT_D), (.ro, R.PS_POINTS), (.rwm, R.PS_SUM)]) ++
  [oneRow 0x2901 0 .rwm (.pair R.PS_SUM_BASE_LO R.PS_SUM_BASE_HI)] ++ recRows 0x2902 2 [(.rwm, R.SCN_CFG), (.rwm, R.SCN_GAIN)] ++
  [arrRow 0x2910 1 1 128 .rw (fun _ e => R.PS_EMIT e), arrRow 0x2920 64 1 16 .rw (fun t k => R.PS_CHOFS (16 * t + k)),
   arrRow 0x2960 64 1 16 .rw (fun t k => R.PS_CHDIR (16 * t + k)), arrRow 0x29A0 64 1 16 .rw (fun t k => R.PS_CHPAR (16 * t + k)),
   oneRow 0x6900 0 .ro (.reg R.PS_POINTS)] ++
  recRows 0x2A00 1 (fix [(.rws, R.TT_CTRL), (.rws, R.TT_AGE), (.rw, R.TT_STAT), (.ro, R.TT_OCC), (.ro, R.TT_CNT_A), (.ro, R.TT_CNT_B),
    (.ro, R.TT_CNT_C), (.ro, R.TT_CNT_D), (.rw, R.CLS_CFG)]) ++
  [oneRow 0x2A01 0 .rwm (.pair R.TT_BASE_LO R.TT_BASE_HI)] ++
  recRows 0x2A02 1 (fix [(.rw, R.EGO_DXY), (.rw, R.EGO_DZP), (.rw, R.EGO_CTRL), (.ro, R.EGO_PSI)]) ++
  [arrRow 0x2A03 1 1 4 .ro (fun _ k => R.CLS_CNT k), arrRow 0x2A10 1 1 16 .rw (fun _ g => R.BL_CFG g),
   arrRow 0x2A11 1 1 16 .rw (fun _ g => R.BL_STAT g), oneRow 0x6A00 1 .rw (.reg R.EGO_DXY), oneRow 0x6A00 2 .rw (.reg R.EGO_DZP),
   arrRow 0x6A01 1 1 16 .ro (fun _ g => R.BL_STAT g)]

/-- Control engine, governor and safety (R227, R248, R283). -/
def rowsCtl : List ObjRow :=
  recRows 0x3000 1 (fix [(.rwm, R.CTL_CTRL), (.rw, R.CTL_STAT), (.ro, R.CTL_LOAD)]) ++
  recRows 0x3010 2 [(.rwm, R.SCN_CTRL), (.rwm, R.SCN_START), (.rwm, R.SCN_PARK), (.ro, R.SCN_STAT), (.ro, R.SCN_CNT), (.rw, R.SCN_MARK)] ++
  [⟨0x3010, 2, 7, 1, .wo, fun c _ => .fn 1 (.scnCmd c)⟩] ++
  recRows 0x3020 4 [(.rwm, R.AX_CFG), (.rwm, R.AX_DRV), (.rw, R.AX_SWAP), (.ro, R.AX_LIVE), (.ro, R.AX_RES), (.ro, R.AX_FREQ),
    (.ro, R.AX_CNT), (.ro, R.AX_DLY), (.ro, R.AX_FF), (.rw, R.AX_TRJ)] ++
  [⟨0x3030, 4, 1, 2, .rw, fun a b => .dom (.coef a b)⟩, ⟨0x3040, 4, 0, 1, .rw, fun a _ => .dom (.traj a)⟩,
   arrRow 0x6300 4 0 1 .ro (fun a _ => R.AX_LIVE a)] ++
  recRows 0x3100 1 (fix [(.rws, R.EMG_CTRL), (.rw, R.EMG_STAT), (.rws, R.EMG_E1), (.rws, R.EMG_EM100), (.rws, R.EMG_EM10S),
    (.rws, R.EMG_EXP_CRC), (.ro, R.EMG_ACT_CRC), (.rw, R.EMG_MON_SEL), (.ro, R.EMG_MON_VAL), (.ro, R.EMG_REF 0), (.ro, R.EMG_REF 1),
    (.ro, R.EMG_REF 2), (.ro, R.EMG_REF 3), (.ro, R.EMG_REF 4)]) ++
  [arrRow 0x3101 1 1 4 .rws (fun _ m => R.EMG_EN m)] ++
  recRows 0x3110 2 [(.rws, R.SEC_X), (.rws, R.SEC_Y), (.rws, R.SEC_SLEW), (.rws, R.SEC_CFG), (.rws, R.SEC_C100), (.rws, R.SEC_C10S),
    (.ro, R.SEC_STAT)] ++
  recRows 0x3120 16 [(.rws, R.BANK_CFG), (.rws, R.BANK_CAL), (.rws, R.BANK_SNS), (.rw, R.BANK_REF), (.rwm, R.BANK_STAT),
    (.ro, R.BANK_MEAS), (.ro, R.BANK_CNT)] ++
  [arrRow 0x3140 1 1 128 .rws (fun _ e => R.EM_OFS e), arrRow 0x6310 2 0 1 .ro (fun c _ => R.SEC_STAT c),
   oneRow 0x4000 0 .const (.fn 1 .variant)] ++
  recRows 0x4001 1 (fix [(.rws, R.SAF_CTRL), (.rws, R.SAF_EXP_CRC), (.ro, R.SAF_ACT_CRC)]) ++
  [oneRow 0x4002 0 .wo (.fn 1 .clrFault), oneRow 0x4010 0 .rws (.dom .stage)] ++
  recRows 0x4020 1 (fix [(.rw, R.SAF_STAT), (.ro, R.SAF_ACT), (.ro, R.SAF_OSSD), (.ro, R.SAF_FIELDS), (.ro, R.SAF_INPUTS),
    (.ro, R.SAF_INSTATE), (.ro, R.SAF_FAULT), (.ro, R.SAF_CNT_A), (.ro, R.SAF_CNT_B), (.ro, R.SAF_EVAL)]) ++
  recRows 0x6C00 1 (fix [(.ro, R.SAF_OSSD), (.ro, R.SAF_FIELDS), (.ro, R.SAF_EVAL)]) ++ [oneRow 0x6C01 0 .ro (.reg R.SAF_INPUTS)]

/-- Housekeeping, thermal and memory (R308, R323, R351). -/
def rowsHk : List ObjRow :=
  recRows 0x5100 1 (fix [(.rw, R.HK_CTRL), (.rw, R.HK_STAT), (.ro, R.HK_ROUND), (.ro, R.HK_CNT), (.ro, R.HK_RIP)]) ++
  [arrRow 0x5110 1 1 64 .rw (fun _ i => R.HKS_CFG i), arrRow 0x5111 1 1 64 .rw (fun _ i => R.HKS_TIME i),
   arrRow 0x5112 1 1 64 .rw (fun _ i => R.HKS_LIM i), arrRow 0x5113 1 1 64 .ro (fun _ i => R.HKS_RES i),
   ⟨0x5114, 1, 1, 64, .ro, fun _ i => .pair (R.HKS_TS_LO i) (R.HKS_TS_HI i)⟩, arrRow 0x5115 1 1 64 .ro (fun _ i => R.HKS_INFO i)] ++
  recRows 0x3200 1 (fix [(.rw, R.DEC_CTRL), (.rw, R.DEC_STAT)]) ++ [oneRow 0x3200 3 .rwm (.pair R.DEC_HIST_BASE_LO R.DEC_HIST_BASE_HI)] ++
  recRows 0x3210 8 [(.rw, R.DEC_CFG), (.rw, R.DEC_DLY), (.rw, R.DEC_LIN), (.rw, fun c => R.DEC_C c 0), (.rw, fun c => R.DEC_C c 1),
    (.rw, fun c => R.DEC_C c 2), (.rw, fun c => R.DEC_C c 3), (.rw, fun c => R.DEC_C c 4), (.rw, R.DEC_DET), (.ro, R.DEC_OUT), (.ro, R.DEC_PK),
    (.ro, R.DEC_RMS), (.ro, R.DEC_ENV), (.ro, R.DEC_IDX), (.ro, R.DEC_CNT)] ++
  [arrRow 0x6D00 1 1 64 .ro (fun _ i => R.HKS_RES i), arrRow 0x6320 1 1 8 .ro (fun _ c => R.DEC_OUT c)] ++
  recRows 0x5200 1 (fix [(.rw, R.THM_CTRL), (.rw, R.THM_STAT), (.ro, R.THM_TCTL), (.ro, R.THM_IGN), (.ro, R.THM_CNT)]) ++
  [arrRow 0x5201 1 1 28 .ro (fun _ i => R.THM_SENS i)] ++ recRows 0x6E00 1 (fix [(.ro, R.THM_STAT), (.ro, R.THM_TCTL)]) ++
  recRows 0x5300 1 (fix [(.rw, R.DRC_CTRL), (.rw, R.DRC_STAT), (.rw, R.DRC_GEOM), (.rw, R.DRC_TIM0), (.rw, R.DRC_TIM1), (.rw, R.DRC_TIM2),
    (.rw, R.DRC_REF), (.ro, R.DRC_TEMP), (.rw, R.DRC_PD), (.ro, R.DRC_CNT_A), (.ro, R.DRC_CNT_B), (.rw, R.DRC_SCRUB), (.rw, R.DRC_TEST)]) ++
  [oneRow 0x5301 0 .ro (.pair R.DRC_ERR_LO R.DRC_ERR_HI), arrRow 0x5302 1 1 6 .rw (fun _ p => R.DRC_PORT p),
   arrRow 0x5303 1 1 6 .ro (fun _ p => R.DRC_PLAT p), arrRow 0x5304 1 1 7 .rw (fun _ i => R.DRC_MR i),
   arrRow 0x5305 1 1 18 .rw (fun _ i => R.DLY_W (i / 9) (i % 9)), arrRow 0x5306 1 1 18 .rw (fun _ i => R.DLY_R (i / 9) (i % 9)),
   arrRow 0x5307 1 1 18 .rw (fun _ i => R.DLY_V (i / 9) (i % 9)), oneRow 0x5308 0 .rw (.reg R.DLY_CA)] ++
  recRows 0x5310 4 [(.rw, R.MEM_RCFG), (.rw, R.MEM_RSTAT), (.ro, R.MEM_RCNT), (.ro, R.MEM_RADDR)] ++
  recRows 0x5320 1 (fix [(.rwm, R.CM_TQ_BASE), (.rwm, R.CM_SPILL_BASE), (.rwm, R.CM_SPILL_LEN), (.rwm, R.CM_GAP_BASE), (.rwm, R.CM_GAP_LEN),
    (.rwm, R.CM_CHECK)]) ++
  recRows 0x6F00 1 (fix [(.ro, R.DRC_STAT), (.ro, R.DRC_CNT_A)])

/-- Silt queues, DMA, lanes and the ring (R373, R404). -/
def rowsLane : List ObjRow :=
  recRows 0x5400 1 (fix [(.rwm, R.SLQ_CTRL), (.ro, R.SLQ_POOL_C), (.ro, R.SLQ_POOL_S), (.rw, R.SLQ_STAT), (.rw, R.SLQ_GRP)]) ++
  [oneRow 0x5401 0 .rwm (.pair R.SLQ_SD_BASE_LO R.SLQ_SD_BASE_HI), arrRow 0x5402 1 1 64 .rw (fun _ t => R.SLQ_ROUTE t),
   arrRow 0x5410 16 1 16 .rwm (fun g j => R.SLQ_CFG (16 * g + j)), arrRow 0x5420 16 1 16 .rw (fun g j => R.SLQ_QSTAT (16 * g + j)),
   arrRow 0x5430 16 1 16 .ro (fun g j => R.SLQ_LEVEL (16 * g + j)), arrRow 0x5440 16 1 16 .ro (fun g j => R.SLQ_CNT (16 * g + j)),
   arrRow 0x5450 16 1 16 .ro (fun g j => R.SLQ_LOST (16 * g + j))] ++
  recRows 0x5500 16 [(.rw, R.DMA_CFG), (.rw, R.DMA_TAIL), (.ro, R.DMA_HEAD), (.ro, R.DMA_COUNT), (.ro, R.DMA_CRC), (.rw, R.DMA_STAT),
    (.ro, R.DMA_CNT)] ++
  [⟨0x5500, 16, 8, 1, .rw, fun n _ => .pair (R.DMA_RING_LO n) (R.DMA_RING_HI n)⟩,
   ⟨0x5500, 16, 9, 1, .ro, fun n _ => .pair (R.DMA_ERR_LO n) (R.DMA_ERR_HI n)⟩, ⟨0x6F10, 1, 1, 16, .ro, fun _ g => .fn 2 (.full g)⟩] ++
  recRows 0x5600 3 [(.rw, R.LN_CTRL), (.rw, R.LN_STAT), (.rw, R.LN_CFG), (.ro, R.LN_CNT_A), (.ro, R.LN_CNT_B)] ++
  [arrRow 0x5610 1 1 8 .rw R.LN_TX, arrRow 0x5611 2 1 4 .rw (fun p l => R.LN_TX (p + 1) l),
   arrRow 0x5614 1 1 8 .ro R.LN_RX, arrRow 0x5615 2 1 4 .ro (fun p l => R.LN_RX (p + 1) l),
   arrRow 0x5618 1 1 8 .ro R.LN_PRBS, arrRow 0x5619 2 1 4 .ro (fun p l => R.LN_PRBS (p + 1) l),
   oneRow 0x5620 0 .rw (.pair R.HWIN1_BASE_LO R.HWIN1_BASE_HI)] ++
  recRows 0x5630 1 (fix [(.rwm, R.RING_CFG), (.ro, R.RING_STAT), (.ro, R.RING_RTT), (.ro, R.RING_ALIGN), (.rwm, R.RING_ASYM), (.ro, R.RING_CNT),
    (.ro, R.RING_CNT_B), (.ro, R.RING_MAP)]) ++ [oneRow 0x6B00 0 .ro (.reg R.RING_STAT)]

/-- Highest subindices of 0x5910 to 0x5916. -/
def reinitRows : List ObjRow :=
  (List.range 7).map (fun k => ⟨0x5910 + k, 1, 1, reinitCount k, .wo, fun _ i => .fn 1 (.reinit k i)⟩)

/-- Events, CAN, SGMII, security, modes and clocks (R434, R455, R472, R485). -/
def rowsSys : List ObjRow :=
  recRows 0x5000 1 (fix [(.rw, R.EVT_CTRL), (.rw, R.EVT_STAT), (.ro, R.EVT_IRQ 0), (.ro, R.EVT_IRQ 1)]) ++
  [arrRow 0x5001 1 1 20 .rw (fun _ w => R.EV_FLAG w), arrRow 0x5010 5 1 128 .rw (fun i j => R.EV_ROUTE (128 * i + j)),
   ⟨0x5040, 1, 1, 128, .ro, fun _ j => .fn 4 (.view j)⟩, ⟨0x5041, 1, 1, 0x29, .ro, fun _ j => .fn 4 (.view (128 + j))⟩,
   arrRow 0x6000 1 1 20 .ro (fun _ w => R.EV_FLAG w)] ++
  recRows 0x5700 2 [(.rwm, R.CAN_CFG), (.rw, R.CAN_STAT), (.ro, R.CAN_CNT)] ++
  recRows 0x5710 2 [(.rwm, R.ETH_CFG), (.rw, R.ETH_STAT), (.ro, R.ETH_CNT), (.rwm, R.ETH_IP), (.rw, R.ETH_PEER_IP), (.rwm, R.ETH_UDP),
    (.rw, R.ETH_TS_CORR)] ++
  [⟨0x5710, 2, 8, 1, .rwm, fun k _ => .pair (R.ETH_MAC_LO k) (R.ETH_MAC_HI k)⟩,
   oneRow 0x6410 1 .ro (.fn 8 (.ptp 1)), oneRow 0x6410 2 .ro (.fn 8 (.ptp 2)), oneRow 0x6410 3 .ro (.fn 4 (.ptp 3)),
   oneRow 0x6410 4 .ro (.fn 1 (.ptp 4)), oneRow 0x6410 5 .ro (.fn 4 (.ptp 5))] ++
  recRows 0x5800 1 (fix [(.rw, R.SECU_STAT), (.ro, R.SEC_OTP), (.ro, R.SEC_CNT), (.ro, R.SEC_CMD_STAT)]) ++
  [oneRow 0x5801 1 .ro (.dom (.cert 0)), oneRow 0x5801 2 .ro (.dom (.cert 1)), oneRow 0x5802 0 .rw (.dom .opcert),
   oneRow 0x5803 1 .wo (.fn 1 .genOpk), oneRow 0x5803 2 .ro (.dom .csr), oneRow 0x5804 1 .wo (.dom .nonce),
   oneRow 0x5804 2 .ro (.dom .report), oneRow 0x5805 0 .wo (.dom .bank), oneRow 0x5806 1 .wo (.fn 1 .secCmd),
   oneRow 0x5806 2 .ro (.fn 4 .programmed), oneRow 0x5806 3 .wo (.fn 1 .saveDly), oneRow 0x5807 1 .ro (.dom .challenge),
   oneRow 0x5807 2 .wo (.dom .token), oneRow 0x5808 1 .wo (.dom .anchor), oneRow 0x5808 2 .wo (.dom .transfer)] ++
  recRows 0x5900 1 (fix [(.rw, R.SYS_MODE), (.rwm, R.SYS_CFG), (.ro, R.SYS_CAUSE), (.rw, R.SYS_CNT)]) ++
  [oneRow 0x5900 5 .ro (.pair R.SYS_DECERR_LO R.SYS_DECERR_HI), oneRow 0x5901 0 .wo (.fn 2 .resetKey)] ++ reinitRows ++
  recRows 0x5A00 1 (fix [(.rw, R.CLK_STAT), (.ro, R.CLK_CNT), (.ro, R.CLK_OFS), (.rwm, R.CLK_GATE0), (.ro, R.CLK_ACT0), (.ro, R.CLK_ACT1)]) ++
  [oneRow 0x6F20 0 .ro (.reg R.CLK_STAT)]

/-- The whole dictionary. -/
def objRows : List ObjRow := rowsComm ++ rowsFe ++ rowsSht ++ rowsPool ++ rowsCtl ++ rowsHk ++ rowsLane ++ rowsSys

/-! ### Finding an object (R3, R409) -/

namespace Abort
abbrev badOp := 0x05040001
abbrev tooMany := 0x05040005
abbrev readWo := 0x06010001
abbrev writeRo := 0x06010002
abbrev noObject := 0x06020000
abbrev noMap := 0x06040041
abbrev mapLength := 0x06040042
abbrev length := 0x06070010
abbrev domain := 0x06070012
abbrev noSub := 0x06090011
abbrev range := 0x06090030
abbrev noForward := 0x08000020
abbrev state := 0x08000022
end Abort

def ObjRow.atIndex (r : ObjRow) (i : Nat) : Bool := decide (r.base ≤ i) && decide (i < r.base + r.n)
def ObjRow.holds (r : ObjRow) (i sub : Nat) : Bool := r.atIndex i && decide (r.sub ≤ sub) && decide (sub < r.sub + r.m)

/-- Objects that the -AN lacks (R3, R283) (log 109). -/
def anAbsent (s : State) (i : Nat) : Bool := s.variantAN && ((decide (0x4001 ≤ i) && decide (i ≤ 0x4FFF)) || decide (i = 0x6C00))

/-- A listed subindex: its access class and what stands behind it (log 109). -/
def objListed (i sub : Nat) : Option (ObjAcc × ObjBody) :=
  (objRows.find? (fun r => r.holds i sub)).map (fun r => (r.acc, r.body (i - r.base) (sub - r.sub)))

/-- An object with its access class, or the abort code. Subindex 0x00 of an array is the highest subindex (log 109). -/
def objFind (s : State) (i sub : Nat) : Except Nat (ObjAcc × ObjBody) :=
  let rows := objRows.filter (fun r => r.atIndex i)
  if anAbsent s i || rows.isEmpty then .error Abort.noObject
  else match objListed i sub with
    | some (acc, .fn n (.view u)) => if isUnit u then .ok (acc, .fn n (.view u)) else .error Abort.noSub
    | some o => .ok o
    | none =>
      if sub = 0 then .ok (.const, .num 1 (rows.foldl (fun m r => max m (r.sub + r.m - 1)) 0)) else .error Abort.noSub

/-! ### Reading (R407, R409) -/

/-- Value of a function object as it stands. -/
def fnValue (s : State) (f : ObjFn) : Nat :=
  match f with
  | .errReg => errReg s
  | .errCount => min 16 s.evt.hist.length
  | .err i => s.evt.hist.getD i 0
  | .serial => Config.serial.toNat
  | .product => if s.variantAN then 0x00960002 else 0x00960001
  | .sdoServer j => (if j = 0 then 0x600 else 0x580) + nodeId s 0
  | .timebase => now s
  | .auxTick a => (tget AuxChan.init s.tdc.aux a).latest.1
  | .auxFine a => (tget AuxChan.init s.tdc.aux a).latest.2
  | .period a => (rd s (R.AUX_PER_INT a)).toNat * 65536 + fget s (R.AUX_PER_FRAC a) F.AUX_PER_FRAC_PER_FRAC
  | .variant => b2n (!s.variantAN)
  | .view u => (tget 0#32 s.com.view u).toNat
  | .full g => (List.range 16).foldl (fun v j => if flag s (R.SLQ_QSTAT (16 * g + j)) F.SLQ_QSTAT_FULL then v + 2 ^ j else v) 0
  | .ptp 1 => s.com.ptp.refTick
  | .ptp 2 => s.com.ptpLatch.refTime
  | .ptp 3 => (BitVec.ofInt 32 s.com.ptpLatch.rate).toNat
  | .ptp 4 => s.com.ptpLatch.state
  | .ptp _ => (BitVec.ofInt 32 s.com.ptpLatch.ofs).toNat
  | .programmed => s.sec.programmed
  | .scnCmd _ | .clrFault | .resetKey | .reinit _ _ | .genOpk | .secCmd | .saveDly => 0

/-- A read of 0x6410.01 latches the other subindices (R417). -/
def ptpRead (s : State) : State := { s with com := { s.com with ptpLatch := s.com.ptp } }

/-- Bytes of a DOMAIN from its beginning (log 111). -/
def domBytes (s : State) (d : ObjDom) : List Byte :=
  match d with
  | .coef a b => (List.range 128).map (fun o => tget 0#8 (axis s a).banks (128 * b + o))
  | .traj a => (List.range 2048).flatMap (fun i => leBytes 4 (tget 0 (axis s a).traj i))
  | .stage => (List.range 0x8000).map (stageByte s)
  | .cert i => if i = 0 then deviceCertificate else Config.intermediate
  | .opcert => s.sec.opcert
  | .csr => s.sec.csr
  | .report => s.sec.report
  | .challenge => s.sec.challenge.getD []
  | .nonce | .bank | .token | .anchor | .transfer => []

/-- Reads what stands behind an object: the state, and its bytes (log 111). -/
def bodyRead (s : State) (i sub : Nat) (b : ObjBody) (ofs : Nat) : State × List Byte :=
  match b with
  | .reg a => let r := regRead s a; (r.1, leBytes 4 r.2.toNat)
  | .pair lo hi =>
    let r := regRead s lo
    let q := regRead r.1 hi
    (q.1, leBytes 4 r.2.toNat ++ leBytes 4 q.2.toNat)
  | .num n v => (s, leBytes n v)
  | .text l => (s, if i = 0x1008 then l ++ asciiBytes [if s.variantAN then 78 else 83] else l)
  | .od n => (s, leBytes n (od s i sub))
  | .fn n f => let s := if f = .ptp 1 then ptpRead s else s; (s, leBytes n (fnValue s f))
  | .dom d => (s, (domBytes s d).drop ofs)

/-- A read of an object: the state, and its bytes or the abort code. A read of 0x5807.01 from its beginning gives a fresh
challenge, as DBG_CHALLENGE does (R453) (log 109). -/
def objRead (s : State) (i sub ofs : Nat) : State × Except Nat (List Byte) :=
  match objFind s i sub with
  | .error e => (s, .error e)
  | .ok (.wo, _) => (s, .error Abort.readWo)
  | .ok (_, b) =>
    if b = .dom .challenge ∧ ofs = 0 then
      if secBusy s then (secErr s 1, .error Abort.state)
      else let s := freshChallenge s; (s, .ok (domBytes s .challenge))
    else let r := bodyRead s i sub b ofs; (r.1, .ok r.2)

/-! ### PDO mapping (R413) -/

/-- Size in bytes of a fixed-size object (log 111). -/
def bodySize (b : ObjBody) : Nat :=
  match b with
  | .reg _ => 4 | .pair _ _ => 8 | .num n _ => n | .text l => l.length | .od n => n | .fn n _ => n | .dom _ => 0

/-- Index, subindex and size of a mapping entry that names a mappable object, for an RPDO a writable one (log 110). -/
def mapEntry (s : State) (rpdo : Bool) (v : Nat) : Option (Nat × Nat × Nat) :=
  let i := v / 0x10000
  let sub := v / 0x100 % 0x100
  if i < 0x6000 || anAbsent s i then none
  else match objListed i sub with
    | some (acc, b) => if (rpdo = false ∨ acc = .rw) ∧ v % 0x100 = 8 * bodySize b then some (i, sub, bodySize b) else none
    | none => none

/-- The mapping entries in force of the PDO whose mapping object is `i` (log 110). -/
def pdoMap (s : State) (i : Nat) : List (Nat × Nat × Nat) :=
  (List.range (od s i 0)).filterMap (fun j => mapEntry s (decide (i < 0x1800)) (od s i (j + 1)))

def pdoBytes (l : List (Nat × Nat × Nat)) : Nat := (l.map (fun e => e.2.2)).sum

/-- Data bytes of a PDO at most. -/
def pdoMax (s : State) : Nat := if canFd s then 64 else 8

/-- A write of a mapping object (R413). DEDUCED (log 110). -/
def mapWrite (s : State) (i sub v : Nat) : State × Nat :=
  let rpdo := decide (i < 0x1800)
  let t := odSet s i sub v
  if sub = 0 then
    if 16 < v then (s, Abort.range)
    else if !(List.range v).all (fun j => (mapEntry s rpdo (od s i (j + 1))).isSome) then (s, Abort.noMap)
    else if pdoMax s < pdoBytes (pdoMap t i) then (s, Abort.mapLength)
    else (t, 0)
  else if (mapEntry s rpdo v).isNone then (s, Abort.noMap)
  else if pdoMax s < pdoBytes (pdoMap t i) then (s, Abort.mapLength)
  else (t, 0)

/-- A write of a communication object (R412) (log 110). -/
def commWrite (s : State) (i sub v : Nat) : State × Nat :=
  if (0x1600 ≤ i ∧ i < 0x1610) ∨ (0x1A00 ≤ i ∧ i < 0x1A10) then mapWrite s i sub v
  else
    let s := odSet s i sub v
    if i = 0x1006 then ({ s with com := { s.com with syncAt := if v = 0 then none else some (now s) } }, 0)
    else if i = 0x1016 then ({ s with com := { s.com with hbSeen := eraseKey s.com.hbSeen (sub - 1) } }, 0)
    else (s, 0)

/-! ### Writing (R406, R407, R409) -/

/-- A write that starts a SEC command (R444) (log 111). -/
def secObj (s : State) (n : Nat) (arg : List Byte) : State × Nat :=
  if secBusy s || !secPermits s n then (secErr s 1, Abort.state) else (secGo s n arg, 0)

/-- A write of a function object (log 111). -/
def fnWrite (s : State) (f : ObjFn) (v : Nat) : State × Nat :=
  match f with
  | .errCount => if v = 0 then ({ s with evt := { s.evt with hist := [] } }, 0) else (s, Abort.range)
  | .scnCmd c => if v = 1 then (scnStart s c, 0) else if v = 2 then (enterPark s c 0, 0) else (s, Abort.range)
  | .clrFault => if v = 1 then (clrFault s, 0) else (s, Abort.range)
  | .resetKey => (if v = 0x5752 then warmStart s 1 else s, 0)
  | .reinit k i =>
    if v ≠ 1 then (s, Abort.range)
    else let r := reinitStart s k i; (r.1, if r.2 then Abort.state else 0)
  | .genOpk => if v = 1 then secObj s 6 [1#8] else (s, Abort.range)
  | .secCmd => if v = 1 then secObj s 1 [] else if 2 ≤ v ∧ v ≤ 5 then secObj s v [] else (s, Abort.range)
  | .saveDly => if v ≠ 1 then (s, Abort.range) else if updateOpen s then (saveDly s, 0) else (s, Abort.state)
  | _ => (s, Abort.writeRo)

/-- Size of a DOMAIN that can be written (log 111). -/
def domSize (d : ObjDom) : Nat :=
  match d with
  | .coef _ _ => 128 | .traj _ => 8192 | .stage => 0x8000 | .nonce => 33 | .bank => bankSize | _ => 0x10000

/-- The 32-bit words that bytes at an offset touch, with the bytes merged into what stands there. -/
def mergeWords (old : Nat → List Byte) (ofs : Nat) (d : List Byte) : List (Nat × Word) :=
  if d.isEmpty then [] else
    (List.range ((ofs + d.length - 1) / 4 - ofs / 4 + 1)).map (fun k =>
      let w := ofs / 4 + k
      (w, BitVec.ofNat 32 (ofLeBytes ((old w).zipIdx.map (fun b =>
        if ofs ≤ 4 * w + b.2 then d.getD (4 * w + b.2 - ofs) b.1 else b.1)))))

/-- Bytes placed in the firmware's buffer at an offset (R455). -/
def bufPlace (s : State) (ofs : Nat) (d : List Byte) : List Byte := padTo ofs s.sec.arg ++ d

/-- A write of a DOMAIN. DEDUCED (log 111). -/
def domWrite (s : State) (d : ObjDom) (ofs : Nat) (l : List Byte) : State × Nat :=
  if domSize d < ofs + l.length then (s, Abort.domain)
  else match d with
  | .coef a b =>
    if axBank s a = b then (s, Abort.state)
    else ((mergeWords (fun w => leBytes 4 (coefRead s a b w)) ofs l).foldl (fun s x => coefWrite s a b x.1 x.2) s, 0)
  | .traj a =>
    let ws := mergeWords (fun w => leBytes 4 (tget 0 (axis s a).traj w)) ofs l
    if ws.any (fun x => trjProtected s a x.1) then (s, Abort.state)
    else (ws.foldl (fun s x => trjWrite s a x.1 x.2) s, 0)
  | .stage => (stageWrite s ofs l, 0)
  | .opcert => secObj s 8 (bufPlace s ofs l)
  | .nonce => if ofs + l.length = 33 then secObj s 10 (bufPlace s ofs l) else (s, Abort.length)
  | .bank => let r := bankWrite s ofs l; (r.1, r.2.getD 0)
  | .token => secObj s 12 (bufPlace s ofs l)
  | .anchor => secObj s 9 (bufPlace s ofs l)
  | .transfer => ({ s with sec := { s.sec with transfer := padTo ofs s.sec.transfer ++ l } }, 0)
  | .cert _ | .csr | .report | .challenge => (s, Abort.writeRo)

/-- A write of a register that stands behind an object: the whole word under R10 (R406). A mode request that is refused
and an order of thresholds that is rejected abort (R40, R459). A commit of the sealed set outside
STANDBY aborts (R248). A write of 0x6A00.02 commits (R202) (log 109). -/
def regObjWrite (s : State) (i sub a : Nat) (v : Word) : State × Nat :=
  let t := regWrite false s a v
  if a = R.SYS_MODE then (t, if (modeReq s (getFld v F.SYS_MODE_REQ)).2 then Abort.state else 0)
  else if 0x2100 ≤ i ∧ i < 0x2140 then (t, if feOrderOk v then 0 else Abort.range)
  else if a = R.EMG_CTRL ∧ getFld v F.EMG_CTRL_COMMIT = 1 ∧ modeOf s ≠ .standby then (t, Abort.state)
  else if i = 0x6A00 ∧ sub = 2 then (after (execEgoCommit t) t, 0)
  else (t, 0)

/-- The access class permits a write now; else the abort code and its event (R14, R430) (log 109). -/
def classOpen (s : State) (acc : ObjAcc) (i : Nat) : Except (State × Nat) Unit :=
  match acc with
  | .ro | .const => .error (s, Abort.writeRo)
  | .rws => if sealsOpen s then .ok () else .error (raise s Ev.rwsDiscard, Abort.state)
  | .rwm => if modeOf s = .standby then .ok () else .error (raise s Ev.rwmDiscard, Abort.state)
  | .wo => if i = 0x2503 ∧ modeOf s ≠ .standby then .error (raise s Ev.rwmDiscard, Abort.state) else .ok ()
  | .rw => .ok ()

/-- A write of an object: the state, and the abort code, 0 when it is written. DEDUCED (log 109). -/
def objWrite (s : State) (i sub ofs : Nat) (d : List Byte) : State × Nat :=
  match objFind s i sub with
  | .error e => (s, e)
  | .ok (acc, b) =>
    let isDom := match b with | .dom _ => true | _ => false
    if (acc = .ro ∨ acc = .const) then (s, Abort.writeRo)
    else if isDom = false ∧ d.length ≠ bodySize b then (s, Abort.length)
    else match classOpen s acc i with
      | .error e => e
      | .ok _ => match b with
        | .reg a => regObjWrite s i sub a (BitVec.ofNat 32 (ofLeBytes d))
        | .pair lo hi =>
          let s := regWrite false s lo (BitVec.ofNat 32 (ofLeBytes (d.take 4)))
          (regWrite false s hi (BitVec.ofNat 32 (ofLeBytes (d.drop 4))), 0)
        | .od _ => commWrite s i sub (ofLeBytes d)
        | .fn _ f => fnWrite s f (ofLeBytes d)
        | .dom x => domWrite s x ofs d
        | .num _ _ => (s, Abort.writeRo)
        | .text _ => (s, Abort.writeRo)

end Sys2Proof.Machine
end

