-- ==== Sys2Proof/Machine/Sdo.lean ====
section
/-! DEFINITION. The answers of the SDO server (FD = 0) and of the USDO server (FD = 1) on CAN (R405, R409, R410). The frames
are those of CiA 301 and CiA 1301, which the spec names and does not print (log 12). -/

namespace Sys2Proof.Machine

/-- A frame of 8 data bytes. -/
def sdoPad (l : List Byte) : List Byte := l ++ List.replicate (8 - l.length) 0#8

/-- The pieces of n bytes of a transfer, at least one. -/
def pieces (n : Nat) (d : List Byte) : List (List Byte) :=
  (List.range (max 1 ((d.length + n - 1) / n))).map (fun k => (d.drop (k * n)).take n)

/-- Frames built from pieces: the function takes the piece's number, whether it is the last one, and the piece. -/
def numbered (f : Nat → Bool → List Byte → List Byte) (l : List (List Byte)) : List (List Byte) :=
  (List.range l.length).map (fun k => f k (decide (k + 1 = l.length)) (l.getD k []))

/-- Index and subindex as a frame carries them. -/
def sdoObj (i sub : Nat) : List Byte := leBytes 2 i ++ leBytes 1 sub

/-- The answers of an upload (FD = 0): expedited, segmented, or by blocks of 127 segments with the CRC-16 of CiA 301, whose polynomial is that of R96 (log 12). -/
def sdoUpload (block : Bool) (i sub : Nat) (d : List Byte) : List (List Byte) :=
  if block then
    [leBytes 1 0xC6 ++ sdoObj i sub ++ leBytes 4 d.length] ++
      numbered (fun k e p => leBytes 1 (k % 127 + 1 + 128 * b2n e) ++ p) (pieces 7 d) ++
      [leBytes 1 (0xC1 + 4 * (7 * (pieces 7 d).length - d.length)) ++ leBytes 2 (crc16 d).toNat]
  else if 1 ≤ d.length ∧ d.length ≤ 4 then [leBytes 1 (0x43 + 4 * (4 - d.length)) ++ sdoObj i sub ++ d]
  else
    [leBytes 1 0x41 ++ sdoObj i sub ++ leBytes 4 d.length] ++
      numbered (fun k e p => leBytes 1 (k % 2 * 16 + (7 - p.length) * 2 + b2n e) ++ p) (pieces 7 d)

/-- The answers of a download (FD = 0). -/
def sdoDownload (block : Bool) (i sub : Nat) (d : List Byte) : List (List Byte) :=
  if block then
    [leBytes 1 0xA4 ++ sdoObj i sub ++ leBytes 1 127] ++
      (pieces 127 (pieces 7 d |>.map (fun _ => 0#8))).map (fun p => leBytes 1 0xA2 ++ leBytes 1 p.length ++ leBytes 1 127) ++
      [leBytes 1 0xA1]
  else if 1 ≤ d.length ∧ d.length ≤ 4 then [leBytes 1 0x60 ++ sdoObj i sub]
  else
    [leBytes 1 0x60 ++ sdoObj i sub] ++ numbered (fun k _ _ => leBytes 1 (0x20 + k % 2 * 16)) (pieces 7 d)

/-- The data type that a USDO upload names, by the size of the object (log 12). -/
def usdoType (n : Nat) : Nat := match n with | 1 => 5 | 2 => 6 | 4 => 7 | 8 => 0x1B | _ => 0x0F

/-- Head of a USDO answer: the client, command specifier, session, subindex and index. -/
def usdoHead (h : SdoHead) (cs i sub : Nat) : List Byte :=
  leBytes 1 h.client.toNat ++ leBytes 1 cs ++ [h.session] ++ leBytes 1 sub ++ leBytes 2 i

/-- The answers of a USDO upload (FD = 1): expedited up to 56 bytes, else segmented (log 12). -/
def usdoUpload (h : SdoHead) (i sub : Nat) (d : List Byte) : List (List Byte) :=
  if d.length ≤ 56 then [usdoHead h 0x31 i sub ++ leBytes 1 (usdoType d.length) ++ leBytes 1 d.length ++ d]
  else
    [usdoHead h 0x32 i sub ++ leBytes 2 (usdoType d.length) ++ leBytes 4 d.length] ++
      numbered (fun k e p => leBytes 1 h.client.toNat ++ leBytes 1 (if e then 0x34 else 0x33) ++ [h.session] ++ leBytes 1 k ++ p) (pieces 60 d)

/-- The answers of a USDO download (FD = 1). -/
def usdoDownload (h : SdoHead) (i sub : Nat) (d : List Byte) : List (List Byte) :=
  if d.length ≤ 56 then [usdoHead h 0x21 i sub]
  else
    [usdoHead h 0x22 i sub] ++
      numbered (fun k e _ => leBytes 1 h.client.toNat ++ leBytes 1 (if e then 0x24 else 0x23) ++ [h.session] ++ leBytes 1 k) (pieces 60 d)

/-- Frames of the server on controller c: 0x580 + node-ID (CiA 301, log 12). -/
def sdoSend (s : State) (c : Nat) (l : List (List Byte)) : State :=
  l.foldl (fun s f => canSend s c (0x580 + nodeId s 0) f) s

/-- An abort of the server in use. -/
def sdoAbort (s : State) (c : Nat) (h : SdoHead) (i sub e : Nat) : State :=
  sdoSend s c [if canFd s then usdoHead h 0x7F i sub ++ leBytes 2 0 ++ leBytes 4 e else leBytes 1 0x80 ++ sdoObj i sub ++ leBytes 4 e]

/-- The answers to a read that gave the bytes d. -/
def sdoRead (s : State) (c : Nat) (h : SdoHead) (i sub : Nat) (d : List Byte) : State :=
  sdoSend s c (if canFd s then usdoUpload h i sub d else (sdoUpload h.block i sub d).map sdoPad)

/-- The answers to a write of the bytes d that was accepted. -/
def sdoWritten (s : State) (c : Nat) (h : SdoHead) (i sub : Nat) (d : List Byte) : State :=
  sdoSend s c (if canFd s then usdoDownload h i sub d else (sdoDownload h.block i sub d).map sdoPad)

end Sys2Proof.Machine
end

