-- ==== Sys2Proof/Machine/Mgmt.lean ====
section
/-! DEFINITION. Management access (R405 to R409): messages over lanes and UDP, forwarding round the ring, SDO requests,
and the PDOs of the node (R413). -/

namespace Sys2Proof.Machine

/-! ### Messages (R407) -/

/-- The bytes of a management message. -/
def mgmtBytes (op : Nat) (h : MgmtHdr) (len : Nat) (d : List Byte) : List Byte :=
  leBytes 4 (op * 2 ^ 28 + b2n h.fwd * 2 ^ 27 + h.dest.val * 2 ^ 22 + h.tag.toNat) ++
    leBytes 4 (h.index.toNat * 2 ^ 16 + h.sub.toNat * 2 ^ 8) ++ leBytes 4 h.ofs.toNat ++ leBytes 4 len ++ d

/-- Pads to whole payload words of a lane frame. -/
def padWords (l : List Byte) : List Byte := l ++ List.replicate ((8 - l.length % 8) % 8) 0#8

/-- A frame on an SGMII port was discarded (R415) (log 108). -/
def ethDrop (s : State) (k : Nat) : State :=
  flagRaise (finc s (R.ETH_CNT k) F.ETH_CNT_RX_DROP) (R.ETH_STAT k) F.ETH_STAT_RX_DROP (578 + 4 * k)

/-- An SGMII port is served: enabled, with a link, out of reset and after BOOT (R457) (log 108). -/
def ethServed (s : State) (k : Nat) : Bool :=
  flag s (R.ETH_CFG k) F.ETH_CFG_EN && flag s (R.ETH_STAT k) F.ETH_STAT_LINK && s.sys.held.isNone && decide (modeOf s ≠ .boot)

/-- The port has an IPv4 address. -/
def ethIp (s : State) (k : Nat) : Nat := (rd s (R.ETH_IP k)).toNat

/-- A UDP datagram from MGMT_PORT. -/
def udpSend (s : State) (k ip port : Nat) (body : List Byte) : State :=
  send s (.udp k ip port (fget s (R.ETH_UDP k) F.ETH_UDP_MGMT_PORT) body)

/-- A frame of a TYPE leaves on VC0 of a port; a cascade port that is lost turns it back (R394). -/
def vc0Send (s : State) (p type : Nat) (body : List Byte) : State :=
  laneOut s (if p = 0 then 0 else ringOut s p) 0 type (padWords body)

/-- An answer goes back by the path that the request came by (R405, R415) (log 112). -/
def mgmtReply (s : State) (path : MgmtPath) (body : List Byte) : State :=
  match path with
  | .lane p => vc0Send s p.val 9 body
  | .udp k ip port => udpSend s k.val ip.toNat port.toNat body

/-- The path carries messages to the firmware now (R405, R443, R457). -/
def pathServed (s : State) (path : MgmtPath) : Bool :=
  s.sys.held.isNone && decide (fget s R.SECU_STAT F.SECU_STAT_STAGE = 1) &&
  match path with
  | .lane p => laneUp s p.val
  | .udp k _ _ => ethServed s k.val && flag s (R.ETH_CFG k.val) F.ETH_CFG_MGMT_EN && decide (ethIp s k.val ≠ 0)

/-- Data bytes of a message over the path at most. -/
def pathMax (path : MgmtPath) : Nat := match path with | .lane _ => 4096 | .udp _ _ _ => 1024

def mgmtAbort (s : State) (path : MgmtPath) (h : MgmtHdr) (code : Nat) : State := mgmtReply s path (mgmtBytes 4 h code [])

/-- A datagram that an enabled port does not handle is dropped; one that it handles is counted (R415). -/
def pathCount (s : State) (path : MgmtPath) : State :=
  match path with
  | .lane _ => s
  | .udp k _ _ =>
    if ethServed s k.val then
      let s := finc s (R.ETH_CNT k.val) F.ETH_CNT_RX_FRAMES
      if pathServed s path then s else ethDrop s k.val
    else s

/-! ### Forwarding (R408) -/

/-- Position of the device; standalone it takes position 0 (R388). -/
def ownPos (s : State) : Nat := s.ring.pos.getD 0

/-- The message is for another device. -/
def toOther (s : State) (h : MgmtHdr) : Bool := h.fwd && decide (h.dest.val ≠ ownPos s)

/-- Two requests share the places of R406: those of one lane port, or of one SGMII port. -/
def samePath : MgmtPath → MgmtPath → Bool
  | .lane p, .lane q => decide (p = q)
  | .udp k _ _, .udp j _ _ => decide (k = j)
  | _, _ => false

/-- The cascade port by which a message goes on: the shorter way round; one that came round the ring goes on in its direction
(R408) (log 112). -/
def forwardPort (s : State) (path : MgmtPath) (dest : Nat) : Nat :=
  match path with
  | .lane p => if p.val = 0 then exportPort s dest else 3 - p.val
  | .udp _ _ _ => exportPort s dest

/-- A request for another position leaves the shorter way round, or is aborted (R406, R408) (log 112). -/
def mgmtForward (s : State) (path : MgmtPath) (h : MgmtHdr) (op len : Nat) (d : List Byte) : State :=
  if ringRanked s = false ∨ (rstate s ≠ 2 ∧ rstate s ≠ 3) ∨ ringSize s ≤ h.dest.val then mgmtAbort s path h Abort.noForward
  else if 8 ≤ (s.com.fwd.filter (fun f => samePath f.path path)).length then mgmtAbort s path h Abort.tooMany
  else
    let p := forwardPort s path h.dest.val
    let s := { s with com := { s.com with fwd := s.com.fwd ++ [⟨path, h.tag.toNat, ringOut s p⟩] } }
    vc0Send s p 8 (mgmtBytes op h len d)

/-- MGMT_READ (R407, R408). DEDUCED (log 112). -/
def execMgmtRead (path : MgmtPath) (h : MgmtHdr) (bad : Bool) (len : Word) (s : State) : Host.Outcome State Fault Refusal :=
  let s := pathCount s path
  .next (done (
    if !pathServed s path then s
    else if bad then mgmtAbort s path h Abort.badOp
    else if toOther s h then mgmtForward s path h 1 (min len.toNat (pathMax path)) []
    else
      match objRead s h.index.toNat h.sub.toNat h.ofs.toNat with
      | (s, .ok l) =>
        let l := l.take (min len.toNat (pathMax path))
        mgmtReply s path (mgmtBytes 3 h l.length l)
      | (s, .error e) => mgmtAbort s path h e))

/-- MGMT_WRITE (R407, R408) (log 112). -/
def execMgmtWrite (path : MgmtPath) (h : MgmtHdr) (d : List Byte) (s : State) : Host.Outcome State Fault Refusal :=
  let s := pathCount s path
  .next (done (
    if !pathServed s path then s
    else if pathMax path < d.length then mgmtAbort s path h Abort.length
    else if toOther s h then mgmtForward s path h 2 d.length d
    else
      let r := objWrite s h.index.toNat h.sub.toNat h.ofs.toNat d
      if r.2 = 0 then mgmtReply r.1 path (mgmtBytes 3 h 0 []) else mgmtAbort r.1 path h r.2))

/-- The first request that left by port p under a TAG, and the others (log 112). -/
def takeFwd (p tag : Nat) : List MgmtFwd → Option (MgmtFwd × List MgmtFwd)
  | [] => none
  | f :: l =>
    if f.port = p ∧ f.tag = tag then some (f, l)
    else match takeFwd p tag l with
      | some (g, r) => some (g, f :: r)
      | none => none

/-- The answer that a path takes: a message with more data than the path carries comes as an abort (R407) (log 112). -/
def relayed (path : MgmtPath) (msg : List Byte) : List Byte :=
  if 16 + pathMax path < msg.length then
    leBytes 4 (4 * 2 ^ 28 + ofLeBytes (msg.take 4) % 2 ^ 28) ++ (msg.drop 4).take 8 ++ leBytes 4 Abort.length
  else msg

/-- MGMT_RESPONSE (R408): an answer to a forwarded message returns along the same way (log 112). -/
def execMgmtResponse (p : Fin 3) (msg : List Byte) (s : State) : Host.Outcome State Fault Refusal :=
  .next (done (
    if s.sys.held.isSome || !laneUp s p.val then s
    else match takeFwd p.val (ofLeBytes (msg.take 2)) s.com.fwd with
      | some (f, l) => mgmtReply { s with com := { s.com with fwd := l } } f.path (relayed f.path msg)
      | none => s))

/-! ### SDO (R405, R410) -/

/-- SDO_REQUEST (R405, R409, R410, R414) (log 12). -/
def execSdoRequest (c : Fin 2) (frames : BitVec 16) (h : SdoHead) (index : BitVec 16) (sub : Byte) (w : Option (List Byte)) (s : State) :
    Host.Outcome State Fault Refusal :=
  let i := index.toNat
  let j := sub.toNat
  .next (done (
    if !nodeHears s c.val || decide (nmtOf s c.val = 3) then s
    else
      let s := canCount s c.val frames.toNat
      if h.bad then sdoAbort s c.val h i j Abort.badOp
      else match w with
        | none =>
          match objRead s i j 0 with
          | (s, .ok l) => sdoRead s c.val h i j l
          | (s, .error e) => sdoAbort s c.val h i j e
        | some d =>
          let r := objWrite s i j 0 d
          if r.2 = 0 then sdoWritten r.1 c.val h i j d else sdoAbort r.1 c.val h i j r.2))

/-! ### PDOs (R413, R414) -/

/-- The PDO with communication object `i` is in use: bit 31 of its COB-ID is 0 (CiA 301, log 12), and the node is
operational (R411). -/
def pdoLive (s : State) (i : Nat) : Bool := decide (od s i 1 < 0x80000000) && decide (nmtOf s 0 = 1)

/-- The RPDO came on the other bus within one communication cycle period (R414) (log 113). -/
def rpdoTwin (s : State) (c n : Nat) : Bool :=
  match lookup s.com.rpdo n with
  | some (c', t) => redundant s && decide (c' ≠ c) && decide (now s < t + cyclePeriod s)
  | none => false

/-- Applies mapped objects in order (R413) (log 113). -/
def rpdoApply (s : State) (l : List (Nat × Nat × Nat)) (d : List Byte) : State :=
  (l.foldl (fun (x : State × List Byte) e => ((objWrite x.1 e.1 e.2.1 0 (x.2.take e.2.2)).1, x.2.drop e.2.2)) (s, d)).1

/-- RPDO_RX (R413, R414, R432). DEDUCED (log 113). -/
def execRpdoRx (c : Fin 2) (n : Fin 16) (d : List Byte) (ovr : Bool) (s : State) : Host.Outcome State Fault Refusal :=
  .next (done (
    if !nodeHears s c.val then s
    else if ovr then
      flagRaise (finc s (R.CAN_CNT c.val) F.CAN_CNT_RX_OVR) (R.CAN_STAT c.val) F.CAN_STAT_RX_OVR (570 + 4 * c.val)
    else
      let s := canCount s c.val 1
      let l := pdoMap s (0x1600 + n.val)
      if !pdoLive s (0x1400 + n.val) || rpdoTwin s c.val n.val then s
      else if d.length ≠ pdoBytes l then raise s 587
      else
        let s := { s with com := { s.com with rpdo := insertKey (eraseKey s.com.rpdo n.val) n.val (c.val, now s) } }
        rpdoApply s l d))

/-- The mapped objects as they stand; sampling changes nothing, and those of R417 are sampled together (log 113). -/
def tpdoData (s : State) (l : List (Nat × Nat × Nat)) : List Byte :=
  l.flatMap (fun e => match (objRead (ptpRead s) e.1 e.2.1 0).2 with | .ok b => b | .error _ => [])

/-- TPDO_TX (R413, R414) (log 113). -/
def execTpdoTx (n : Fin 16) (s : State) : Host.Outcome State Fault Refusal :=
  let l := pdoMap s (0x1A00 + n.val)
  .next (done (
    if pdoLive s (0x1800 + n.val) && !l.isEmpty then nodeSend s (od s (0x1800 + n.val) 1 % 0x800) (tpdoData s l) else s))

end Sys2Proof.Machine
end

