-- ==== Sys2Proof/Machine/Net.lean ====
section
/-! DEFINITION. The SGMII ports, IEEE 1588 and the relation of timebase and PTP time (R415 to R417, R433), and the timed
acts of the event block: the view of the unit words, IRQ release and notices (R421, R423, R427, R429). -/

namespace Sys2Proof.Machine

/-! ### Link, ARP and ICMP (R415, R433) -/

/-- LINK_UP (R433). -/
def execLinkUp (k : Fin 2) (an : Bool) (s : State) : Host.Outcome State Fault Refusal :=
  .next (done (
    if flag s (R.ETH_CFG k.val) F.ETH_CFG_EN ∧ !flag s (R.ETH_STAT k.val) F.ETH_STAT_LINK then
      let s := fon s (R.ETH_STAT k.val) F.ETH_STAT_LINK
      let s := fsetB s (R.ETH_STAT k.val) F.ETH_STAT_AN_DONE (an && flag s (R.ETH_CFG k.val) F.ETH_CFG_AN_EN)
      flagRaise s (R.ETH_STAT k.val) F.ETH_STAT_LINK_UP (576 + 4 * k.val)
    else s))

/-- LINK_DOWN (R433) (log 108). -/
def execLinkDown (k : Fin 2) (s : State) : Host.Outcome State Fault Refusal :=
  .next (done (
    if flag s (R.ETH_STAT k.val) F.ETH_STAT_LINK then
      let s := foff (foff s (R.ETH_STAT k.val) F.ETH_STAT_LINK) (R.ETH_STAT k.val) F.ETH_STAT_AN_DONE
      flagRaise s (R.ETH_STAT k.val) F.ETH_STAT_LINK_DOWN (577 + 4 * k.val)
    else s))

/-- The port's MAC address. -/
def ethMac (s : State) (k : Nat) : Nat := (rd s (R.ETH_MAC_LO k)).toNat + fget s (R.ETH_MAC_HI k) F.ETH_MAC_HI_MAC * 2 ^ 32

/-- ETH_ARP (R415): answered for ETH_IP; discarded otherwise, as is every frame that the port does not handle. A frame with a bad FCS
counts in CRC_ERR (log 108). -/
def execEthArp (k : Fin 2) (target : Word) (mac : BitVec 48) (ip : Word) (form : EthForm) (s : State) : Host.Outcome State Fault Refusal :=
  .next (done (
    if !ethServed s k.val then s
    else if form = .badFcs then finc s (R.ETH_CNT k.val) F.ETH_CNT_CRC_ERR
    else
      let s := finc s (R.ETH_CNT k.val) F.ETH_CNT_RX_FRAMES
      if form = .plain ∧ ethIp s k.val ≠ 0 ∧ target.toNat = ethIp s k.val then
        send s (.eth k.val 0x0806 (beBytes 2 1 ++ beBytes 2 0x0800 ++ beBytes 1 6 ++ beBytes 1 4 ++ beBytes 2 2 ++
          beBytes 6 (ethMac s k.val) ++ beBytes 4 (ethIp s k.val) ++ beBytes 6 mac.toNat ++ beBytes 4 ip.toNat))
      else ethDrop s k.val))

/-- ICMP_ECHO (R415): the reply returns identifier, sequence number and data; kind 1 stands for an ICMP echo reply, whose
body is the destination address and what is returned; a frame above 1,518 B is discarded (log 108). -/
def execIcmpEcho (k : Fin 2) (dst ip : Word) (body : List Byte) (s : State) : Host.Outcome State Fault Refusal :=
  .next (done (
    if !ethServed s k.val then s
    else
      let s := finc s (R.ETH_CNT k.val) F.ETH_CNT_RX_FRAMES
      if ethIp s k.val ≠ 0 ∧ dst.toNat = ethIp s k.val ∧ body.length ≤ 1476 then send s (.eth k.val 1 (beBytes 4 ip.toNat ++ body))
      else ethDrop s k.val))

/-! ### IEEE 1588 (R416, R417) -/

/-- Port of the ordinary clock (log 114). -/
def ptpPort (s : State) : Nat := fget s (R.ETH_CFG 0) F.ETH_CFG_PTP_SEL

/-- The firmware updates the five subindices of 0x6410 together, at most once per Sync interval (R417). What its servo gives is
open (log 3), and so is whether the clock is a slave yet; a step of the offset beyond 1 µs raises PTP_STEP. DESIGN CHOICE (log 114). -/
def ptpServo (s : State) (master : Bool) (tick interval : Nat) : State :=
  if s.com.ptpAt.any (fun t => decide (tick < t + interval)) then s
  else
    let (t, s) := openVal s
    let (r, s) := openVal s
    let (x, s) := openVal s
    let (o, s) := openVal s
    let ofs := signed 32 o.toNat
    let step := decide (1000 < (ofs - s.com.ptp.ofs).natAbs)
    let st := if master then 3 else 1 + x.toNat % 2
    let s := { s with com := { s.com with ptp := ⟨tick, t.toNat, signed 32 r.toNat, st, ofs⟩, ptpAt := some tick } }
    if step then raise s 589 else s

/-- An event message of the ordinary clock in the default profile: header, origin time 0, and for a peer delay message its second
half (IEEE 1588-2008, log 114). -/
def ptpBytes (s : State) (k : Nat) (m : PtpType) : List Byte :=
  let (ty, n, c) := match m with | .sync => (0, 44, 0) | .delayReq => (1, 44, 1) | .pdelayReq => (2, 54, 5) | .pdelayResp => (3, 54, 5)
  let mac := ethMac s k
  beBytes 1 ty ++ beBytes 1 2 ++ beBytes 2 n ++ beBytes 2 0 ++ beBytes 2 (if ty = 0 ∨ ty = 3 then 0x200 else 0) ++ beBytes 12 0 ++
    beBytes 3 (mac / 2 ^ 24) ++ beBytes 2 0xFFFE ++ beBytes 3 mac ++ beBytes 2 1 ++ beBytes 2 s.com.ptpSeq ++ beBytes 1 c ++ beBytes 1 0 ++
    beBytes (n - 34) 0

/-- The clock may send the message: a Delay_Req only as a slave or on the way there (log 114). -/
def ptpSends (s : State) (k : Nat) (m : PtpType) : Bool :=
  decide (k = ptpPort s) && (decide (m ≠ .delayReq) || decide (s.com.ptp.state = 1 ∨ s.com.ptp.state = 2))

/-- The last time stamp of a port in 0.1 ns, corrected for the direction (R416). -/
def ptpStamp (s : State) (k tick : Nat) (egress : Bool) : State :=
  let corr := signed 16 (fget s (R.ETH_TS_CORR k) (if egress then F.ETH_TS_CORR_TX_CORR else F.ETH_TS_CORR_RX_CORR))
  { s with com := { s.com with ptpStamp := insertKey (eraseKey s.com.ptpStamp k) k ((tick * 8 : Nat) + corr) } }

/-- The clock sends an event message in one of the two forms; as a master it sends Sync (R416). -/
def ptpOut (s : State) (k tick : Nat) (m : PtpFrame) (interval : Nat) : State :=
  let b := ptpBytes s k m.type
  let dst := if m.type = .pdelayReq ∨ m.type = .pdelayResp then 0xE000006B else 0xE0000181
  let s := send s (if m.udp then .udp k dst 319 319 b else .eth k 0x88F7 b)
  let s := { s with com := { s.com with ptpSeq := (s.com.ptpSeq + 1) % 0x10000 } }
  if m.type = .sync then ptpServo s true tick interval else s

/-- PTP_MESSAGE (R415, R416): stamped, and for the port of the clock taken by it; a message over UDP needs ETH_IP (log 114). -/
def execPtpMessage (k : Fin 2) (tick : BitVec 64) (msg : PtpFrame) (interval : BitVec 64) (s : State) : Host.Outcome State Fault Refusal :=
  .next (done (
    if !ethServed s k.val then s
    else
      let can := flag s (R.ETH_CFG k.val) F.ETH_CFG_PTP_EN && (!msg.udp || decide (ethIp s k.val ≠ 0))
      if msg.egress then
        if can && ptpSends s k.val msg.type then ptpOut (ptpStamp s k.val tick.toNat true) k.val tick.toNat msg interval.toNat else s
      else
        let s := finc s (R.ETH_CNT k.val) F.ETH_CNT_RX_FRAMES
        if !can then ethDrop s k.val
        else
          let s := ptpStamp s k.val tick.toNat false
          if msg.type = .sync ∧ k.val = ptpPort s then
            ptpServo { s with com := { s.com with ptpSync := some (tick.toNat, interval.toNat) } } false tick.toNat interval.toNat
          else s))

/-- PTP_SYNC_TIMEOUT (R416): three Sync intervals without a Sync in the slave state (log 114). -/
def execPtpSyncTimeout (k : Fin 2) (s : State) : Host.Outcome State Fault Refusal :=
  .next (done (
    match s.com.ptpSync with
    | some (t, i) =>
      if k.val = ptpPort s ∧ s.com.ptp.state = 2 ∧ t + 3 * i ≤ now s then
        flagRaise { s with com := { s.com with ptpSync := none } } (R.ETH_STAT k.val) F.ETH_STAT_PTP_FAULT (579 + 4 * k.val)
      else s
    | none => s))

/-- PTP_MAP_READ (R417): the read of 0x6410.01 latches the other subindices. -/
def execPtpMapRead (s : State) : Host.Outcome State Fault Refusal := .next (done (ptpRead s))

/-! ### View of the unit words (R421, R423) -/

/-- One word of the view: a unit whose live word has the published GEN and another STATE is published anew (log 115). -/
def viewWord (s : State) (u : Nat) : State :=
  let old := (tget 0#32 s.com.view u).toNat
  let live := (unitWord s u).toNat
  let s := if live / 0x10000 = old / 0x10000 ∧ live ≠ old then repub (raise s Ev.viewMismatch) u else s
  { s with com := { s.com with view := tput 0#32 s.com.view u (unitWord s u) } }

/-- VIEW_REFRESH (R421): every 10.0 ms, in ascending unit order. DEDUCED (log 115). -/
def execViewRefresh (s : State) : Host.Outcome State Fault Refusal :=
  .next (done (
    if s.sys.held.isNone ∧ fget s R.SECU_STAT F.SECU_STAT_STAGE = 1 ∧ s.com.viewAt + ticksMs 10 ≤ now s then
      unitList.foldl viewWord { s with com := { s.com with viewAt := now s } }
    else s))

/-! ### IRQ and notices (R427, R429) -/

/-- IRQ_REASSERT (R427): 200 ns after the release (log 115). -/
def execIrqReassert (k : Fin 2) (s : State) : Host.Outcome State Fault Refusal :=
  .next (done (
    match lookup s.evt.irqRel k.val with
    | some t => if t ≤ now s then { s with evt := { s.evt with irqRel := eraseKey s.evt.irqRel k.val } } else s
    | none => s))

/-- Entry count, then the entries of a notice (R429) (log 115). -/
def noticeBytes (n : Notice) : List Byte :=
  leBytes 8 n.entries.length ++ n.entries.flatMap (fun e => leBytes 8 (e.1 + e.2.2 * 2 ^ 16 + e.2.1 * 2 ^ 32))

/-- SGMII ports that send notices: served, with an address and a peer (log 115). -/
def noticePorts (s : State) : List Nat :=
  [0, 1].filter (fun k => ethServed s k && decide (ethIp s k ≠ 0) && decide ((rd s (R.ETH_PEER_IP k)).toNat ≠ 0))

/-- NOTICE_SEND (R429): the oldest notice leaves once its gathering has ended (log 115). -/
def execNoticeSend (eth : Bool) (s : State) : Host.Outcome State Fault Refusal :=
  .next (done (
    match (if eth then s.evt.ethNotes else s.evt.hostNotes) with
    | n :: l =>
      if now s < n.due then s
      else if eth then
        if noticePorts s = [] then s
        else
          let s := { s with evt := { s.evt with ethNotes := l } }
          (noticePorts s).foldl (fun s k =>
            udpSend s k (rd s (R.ETH_PEER_IP k)).toNat (fget s (R.ETH_UDP k) F.ETH_UDP_PEER_PORT) (noticeBytes n)) s
      else if hostServed s then laneOut { s with evt := { s.evt with hostNotes := l } } 0 0 0xA (noticeBytes n)
      else s
    | [] => s))

end Sys2Proof.Machine
end

