-- ==== Sys2Proof/Machine/Dispatch.lean ====
section
/-! DEFINITION. The dispatch of the commands: one arm per constructor of `Instr`. -/

namespace Sys2Proof.Machine

def exec (i : Instr) (s : State) : Host.Outcome State Fault Refusal :=
  match i with
  | .registerWrite m a v => Sys2Proof.Machine.execRegisterWrite m a v s
  | .cntClr b => Sys2Proof.Machine.execCntClr b s
  | .feCfgWrite n v => Sys2Proof.Machine.execFeCfgWrite n v s
  | .feIdleLatch n => Sys2Proof.Machine.execFeIdleLatch n s
  | .settleTimeout n => Sys2Proof.Machine.execSettleTimeout n s
  | .pulseRecord n p => Sys2Proof.Machine.execPulseRecord n p s
  | .overloadEntry n clamp lim => Sys2Proof.Machine.execOverloadEntry n clamp lim s
  | .overloadExit n => Sys2Proof.Machine.execOverloadExit n s
  | .autotrim t => Sys2Proof.Machine.execAutotrim t s
  | .autotrimDone t => Sys2Proof.Machine.execAutotrimDone t s
  | .biasRefWrite g v => Sys2Proof.Machine.execBiasRefWrite g v s
  | .biasSlewStep g => Sys2Proof.Machine.execBiasSlewStep g s
  | .biasMonSample g v => Sys2Proof.Machine.execBiasMonSample g v s
  | .biasGateHoldEnd g => Sys2Proof.Machine.execBiasGateHoldEnd g s
  | .feBaselineRefresh n cur atCap => Sys2Proof.Machine.execFeBaselineRefresh n cur atCap s
  | .tbReplicaCheck u r => Sys2Proof.Machine.execTbReplicaCheck u r s
  | .tbLoRead => Sys2Proof.Machine.execTbLoRead s
  | .loadNow => Sys2Proof.Machine.execLoadNow s
  | .loadPps => Sys2Proof.Machine.execLoadPps s
  | .calFillStart => Sys2Proof.Machine.execCalFillStart s
  | .calFillEnd u c => Sys2Proof.Machine.execCalFillEnd u c s
  | .fbTableActivate b => Sys2Proof.Machine.execFbTableActivate b s
  | .fillAll => Sys2Proof.Machine.execFillAll s
  | .reqMode lp force => Sys2Proof.Machine.execReqMode lp force s
  | .relockDone => Sys2Proof.Machine.execRelockDone s
  | .relockTimeout still => Sys2Proof.Machine.execRelockTimeout still s
  | .dllUnlock u => Sys2Proof.Machine.execDllUnlock u s
  | .dllLock u => Sys2Proof.Machine.execDllLock u s
  | .auxEdge a e rising => Sys2Proof.Machine.execAuxEdge a e rising s
  | .auxTsHiRead a => Sys2Proof.Machine.execAuxTsHiRead a s
  | .auxCfgWrite a v => Sys2Proof.Machine.execAuxCfgWrite a v s
  | .auxTimeout a => Sys2Proof.Machine.execAuxTimeout a s
  | .gateInEdge level e => Sys2Proof.Machine.execGateInEdge level e s
  | .filteredGateChange => Sys2Proof.Machine.execFilteredGateChange s
  | .calRun => Sys2Proof.Machine.execCalRun s
  | .schedCommit => Sys2Proof.Machine.execSchedCommit s
  | .validationDone => Sys2Proof.Machine.execValidationDone s
  | .schedRowWrite r o d => Sys2Proof.Machine.execSchedRowWrite r o d s
  | .frameStart chb => Sys2Proof.Machine.execFrameStart chb s
  | .frameMark src chb => Sys2Proof.Machine.execFrameMark src chb s
  | .frameMarkLost => Sys2Proof.Machine.execFrameMarkLost s
  | .syncIoEdge chb => Sys2Proof.Machine.execSyncIoEdge chb s
  | .rowFetch => Sys2Proof.Machine.execRowFetch s
  | .shotArm behind => Sys2Proof.Machine.execShotArm behind s
  | .shotFire q => Sys2Proof.Machine.execShotFire q s
  | .secondPulse q => Sys2Proof.Machine.execSecondPulse q s
  | .emitFbEdge b e => Sys2Proof.Machine.execEmitFbEdge b e s
  | .feedbackWaitEnd q => Sys2Proof.Machine.execFeedbackWaitEnd q s
  | .resume b => Sys2Proof.Machine.execResume b s
  | .seedWrite m v => Sys2Proof.Machine.execSeedWrite m v s
  | .capArm => Sys2Proof.Machine.execCapArm s
  | .capDisarm => Sys2Proof.Machine.execCapDisarm s
  | .capFire => Sys2Proof.Machine.execCapFire s
  | .capRelease => Sys2Proof.Machine.execCapRelease s
  | .capSettleEnd => Sys2Proof.Machine.execCapSettleEnd s
  | .capPostEnd => Sys2Proof.Machine.execCapPostEnd s
  | .seqLoRead => Sys2Proof.Machine.execSeqLoRead s
  | .windowArm => Sys2Proof.Machine.execWindowArm s
  | .listenWindowClose n q => Sys2Proof.Machine.execListenWindowClose n q s
  | .pairDecide n q => Sys2Proof.Machine.execPairDecide n q s
  | .conversionDone n => Sys2Proof.Machine.execConversionDone n s
  | .histClose n => Sys2Proof.Machine.execHistClose n s
  | .histDeadline n f => Sys2Proof.Machine.execHistDeadline n f s
  | .bufferClearDone n f => Sys2Proof.Machine.execBufferClearDone n f s
  | .ticketPost t => Sys2Proof.Machine.execTicketPost t s
  | .ticketTake e => Sys2Proof.Machine.execTicketTake e s
  | .stealProbe e => Sys2Proof.Machine.execStealProbe e s
  | .stealMoveDone e => Sys2Proof.Machine.execStealMoveDone e s
  | .fetchDone e => Sys2Proof.Machine.execFetchDone e s
  | .kernelComplete e errors => Sys2Proof.Machine.execKernelComplete e errors s
  | .kernelOverrun e => Sys2Proof.Machine.execKernelOverrun e s
  | .selfTestStart e => Sys2Proof.Machine.execSelfTestStart e s
  | .selfTestDone e pass ce ue => Sys2Proof.Machine.execSelfTestDone e pass ce ue s
  | .selfTestTimeout e => Sys2Proof.Machine.execSelfTestTimeout e s
  | .engineLoadDone e => Sys2Proof.Machine.execEngineLoadDone e s
  | .clusterReinit c => Sys2Proof.Machine.execClusterReinit c s
  | .kswapReq => Sys2Proof.Machine.execKswapReq s
  | .kswapCancel => Sys2Proof.Machine.execKswapCancel s
  | .kswapLoaded => Sys2Proof.Machine.execKswapLoaded s
  | .kswapTimeout => Sys2Proof.Machine.execKswapTimeout s
  | .kswapOldFreed => Sys2Proof.Machine.execKswapOldFreed s
  | .anglePairing => Sys2Proof.Machine.execAnglePairing s
  | .angleWaitTimeout => Sys2Proof.Machine.execAngleWaitTimeout s
  | .sliceClose r f => Sys2Proof.Machine.execSliceClose r f s
  | .sliceTimeout r f => Sys2Proof.Machine.execSliceTimeout r f s
  | .sumSlotAgeOut ix => Sys2Proof.Machine.execSumSlotAgeOut ix s
  | .egoCommit => Sys2Proof.Machine.execEgoCommit s
  | .tilthSweep => Sys2Proof.Machine.execTilthSweep s
  | .tilthClear => Sys2Proof.Machine.execTilthClear s
  | .tilthClearDone => Sys2Proof.Machine.execTilthClearDone s
  | .axisSample a acc => Sys2Proof.Machine.execAxisSample a acc s
  | .axisOverrun a => Sys2Proof.Machine.execAxisOverrun a s
  | .trajectoryWrite a ix v => Sys2Proof.Machine.execTrajectoryWrite a ix v s
  | .coeffBankWrite a b w v => Sys2Proof.Machine.execCoeffBankWrite a b w v s
  | .axisSwap a frame => Sys2Proof.Machine.execAxisSwap a frame s
  | .parkComplete c => Sys2Proof.Machine.execParkComplete c s
  | .scnStart c => Sys2Proof.Machine.execScnStart c s
  | .scnStop c => Sys2Proof.Machine.execScnStop c s
  | .startTimeout c => Sys2Proof.Machine.execStartTimeout c s
  | .emgBinBoundary => Sys2Proof.Machine.execEmgBinBoundary s
  | .vPreSample q v => Sys2Proof.Machine.execVPreSample q v s
  | .vPostSample q v => Sys2Proof.Machine.execVPostSample q v s
  | .shotSettle q => Sys2Proof.Machine.execShotSettle q s
  | .storeMonitorSample b v => Sys2Proof.Machine.execStoreMonitorSample b v s
  | .bankRelease b => Sys2Proof.Machine.execBankRelease b s
  | .emgCommit => Sys2Proof.Machine.execEmgCommit s
  | .resrefStep b => Sys2Proof.Machine.execResrefStep b s
  | .stallStop c => Sys2Proof.Machine.execStallStop c s
  | .outputGate c => Sys2Proof.Machine.execOutputGate c s
  | .safetyEval => Sys2Proof.Machine.execSafetyEval s
  | .frameMaxTimeout => Sys2Proof.Machine.execFrameMaxTimeout s
  | .safetyInputSample x y => Sys2Proof.Machine.execSafetyInputSample x y s
  | .discTimeout ix => Sys2Proof.Machine.execDiscTimeout ix s
  | .restartDelayEnd p => Sys2Proof.Machine.execRestartDelayEnd p s
  | .ossdTestPulse o => Sys2Proof.Machine.execOssdTestPulse o s
  | .ossdTestPulseEnd o => Sys2Proof.Machine.execOssdTestPulseEnd o s
  | .readbackCheck r => Sys2Proof.Machine.execReadbackCheck r s
  | .sealSample x y => Sys2Proof.Machine.execSealSample x y s
  | .sealDisc => Sys2Proof.Machine.execSealDisc s
  | .safCommit => Sys2Proof.Machine.execSafCommit s
  | .safCommitDone sigOk ack flash => Sys2Proof.Machine.execSafCommitDone sigOk ack flash s
  | .clrFault => Sys2Proof.Machine.execClrFault s
  | .wdog => Sys2Proof.Machine.execWdog s
  | .lockstep => Sys2Proof.Machine.execLockstep s
  | .clockDeviation => Sys2Proof.Machine.execClockDeviation s
  | .islandSupplyTrip => Sys2Proof.Machine.execIslandSupplyTrip s
  | .hkRun => Sys2Proof.Machine.execHkRun s
  | .hkStop => Sys2Proof.Machine.execHkStop s
  | .hkBreak => Sys2Proof.Machine.execHkBreak s
  | .hkMake => Sys2Proof.Machine.execHkMake s
  | .hkIntegrationStart => Sys2Proof.Machine.execHkIntegrationStart s
  | .hkIntegrationEnd vin vexc full clamp => Sys2Proof.Machine.execHkIntegrationEnd vin vexc full clamp s
  | .hkResult wire => Sys2Proof.Machine.execHkResult wire s
  | .hksResRead ix => Sys2Proof.Machine.execHksResRead ix s
  | .decOutput c x y => Sys2Proof.Machine.execDecOutput c x y s
  | .decCfgWrite c v => Sys2Proof.Machine.execDecCfgWrite c v s
  | .decSync => Sys2Proof.Machine.execDecSync s
  | .decRestart c => Sys2Proof.Machine.execDecRestart c s
  | .modOverloadStart m => Sys2Proof.Machine.execModOverloadStart m s
  | .modOverloadEnd m => Sys2Proof.Machine.execModOverloadEnd m s
  | .thmCapture counts => Sys2Proof.Machine.execThmCapture counts s
  | .autocap counts => Sys2Proof.Machine.execAutocap counts s
  | .thmHoldEnd => Sys2Proof.Machine.execThmHoldEnd s
  | .recal => Sys2Proof.Machine.execRecal s
  | .recalDone caps => Sys2Proof.Machine.execRecalDone caps s
  | .orderlyStopWithdraw => Sys2Proof.Machine.execOrderlyStopWithdraw s
  | .orderlyStopBypass => Sys2Proof.Machine.execOrderlyStopBypass s
  | .analogueTrip => Sys2Proof.Machine.execAnalogueTrip s
  | .analogueTripRelease => Sys2Proof.Machine.execAnalogueTripRelease s
  | .scrubLine r ce ue => Sys2Proof.Machine.execScrubLine r ce ue s
  | .scrubPassEnd r => Sys2Proof.Machine.execScrubPassEnd r s
  | .cmCommit => Sys2Proof.Machine.execCmCommit s
  | .cmCommitDone => Sys2Proof.Machine.execCmCommitDone s
  | .drcInit => Sys2Proof.Machine.execDrcInit s
  | .ddrResetDone => Sys2Proof.Machine.execDdrResetDone s
  | .ckeWaitDone => Sys2Proof.Machine.execCkeWaitDone s
  | .mrsDone => Sys2Proof.Machine.execMrsDone s
  | .zqclDone => Sys2Proof.Machine.execZqclDone s
  | .checkDone lanes => Sys2Proof.Machine.execCheckDone lanes s
  | .trainStart => Sys2Proof.Machine.execTrainStart s
  | .trainEnd => Sys2Proof.Machine.execTrainEnd s
  | .alertStuck => Sys2Proof.Machine.execAlertStuck s
  | .alertFall => Sys2Proof.Machine.execAlertFall s
  | .alertRise caught => Sys2Proof.Machine.execAlertRise caught s
  | .refreshDue r rt idle => Sys2Proof.Machine.execRefreshDue r rt idle s
  | .splitPoint => Sys2Proof.Machine.execSplitPoint s
  | .dramTempRead hot valid => Sys2Proof.Machine.execDramTempRead hot valid s
  | .tempLost => Sys2Proof.Machine.execTempLost s
  | .powerDownEntry r => Sys2Proof.Machine.execPowerDownEntry r s
  | .patrolScrub => Sys2Proof.Machine.execPatrolScrub s
  | .zqcs => Sys2Proof.Machine.execZqcs s
  | .requestAge p arrival => Sys2Proof.Machine.execRequestAge p arrival s
  | .writeQueueAccept p a lat => Sys2Proof.Machine.execWriteQueueAccept p a lat s
  | .sdramBeatRead p a lat e => Sys2Proof.Machine.execSdramBeatRead p a lat e s
  | .drcTestGo pass => Sys2Proof.Machine.execDrcTestGo pass s
  | .slqPtrCheck q mismatch => Sys2Proof.Machine.execSlqPtrCheck q mismatch s
  | .slqGroupReinit g => Sys2Proof.Machine.execSlqGroupReinit g s
  | .dmaDoorbell n tail => Sys2Proof.Machine.execDmaDoorbell n tail s
  | .dmaBeatResponse n => Sys2Proof.Machine.execDmaBeatResponse n s
  | .dmaDescComplete n => Sys2Proof.Machine.execDmaDescComplete n s
  | .dmaRestart n => Sys2Proof.Machine.execDmaRestart n s
  | .dmaSkip n => Sys2Proof.Machine.execDmaSkip n s
  | .dmaReinit n => Sys2Proof.Machine.execDmaReinit n s
  | .laneEnable p => Sys2Proof.Machine.execLaneEnable p s
  | .laneDisable p => Sys2Proof.Machine.execLaneDisable p s
  | .detectCheck p present => Sys2Proof.Machine.execDetectCheck p present s
  | .trackersSettled p phases => Sys2Proof.Machine.execTrackersSettled p phases s
  | .wordLock p slips => Sys2Proof.Machine.execWordLock p slips s
  | .deskewDone p => Sys2Proof.Machine.execDeskewDone p s
  | .paramSend p => Sys2Proof.Machine.execParamSend p s
  | .paramRx p w0 w1 => Sys2Proof.Machine.execParamRx p w0 w1 s
  | .trainingTimeout p => Sys2Proof.Machine.execTrainingTimeout p s
  | .partnerClockLost p => Sys2Proof.Machine.execPartnerClockLost p s
  | .syncHeaderErrors p => Sys2Proof.Machine.execSyncHeaderErrors p s
  | .lpReq p target => Sys2Proof.Machine.execLpReq p target s
  | .lpRx p o target => Sys2Proof.Machine.execLpRx p o target s
  | .lpReqResend p => Sys2Proof.Machine.execLpReqResend p s
  | .lpReqTimeout p => Sys2Proof.Machine.execLpReqTimeout p s
  | .standbyExit p => Sys2Proof.Machine.execStandbyExit p s
  | .deepExit p => Sys2Proof.Machine.execDeepExit p s
  | .prbsEnable p sel => Sys2Proof.Machine.execPrbsEnable p sel s
  | .prbsDisable p => Sys2Proof.Machine.execPrbsDisable p s
  | .laneReinit p => Sys2Proof.Machine.execLaneReinit p s
  | .trackerWindow p l transitions phase => Sys2Proof.Machine.execTrackerWindow p l transitions phase s
  | .tapWrite p l v => Sys2Proof.Machine.execTapWrite p l v s
  | .markRow p => Sys2Proof.Machine.execMarkRow p s
  | .laneFrameSend p vc q ue => Sys2Proof.Machine.execLaneFrameSend p vc q ue s
  | .laneFrameRx p f crcOk => Sys2Proof.Machine.execLaneFrameRx p f crcOk s
  | .ackRx p vc seq gvc grant => Sys2Proof.Machine.execAckRx p vc seq gvc grant s
  | .nakRx p vc seq gvc grant => Sys2Proof.Machine.execNakRx p vc seq gvc grant s
  | .replayTimeout p vc => Sys2Proof.Machine.execReplayTimeout p vc s
  | .ackSend p => Sys2Proof.Machine.execAckSend p s
  | .hostWrite win ofs tag d => Sys2Proof.Machine.execHostWrite win ofs tag d s
  | .hostRead win ofs tag bytes => Sys2Proof.Machine.execHostRead win ofs tag bytes s
  | .hostCompletion => Sys2Proof.Machine.execHostCompletion s
  | .drspRx tag error => Sys2Proof.Machine.execDrspRx tag error s
  | .enumStart => Sys2Proof.Machine.execEnumStart s
  | .enumRx fromD sender bseq count id value => Sys2Proof.Machine.execEnumRx fromD sender bseq count id value s
  | .ringUpRx fromD origin bseq size map => Sys2Proof.Machine.execRingUpRx fromD origin bseq size map s
  | .wrapRx fromD origin bseq p1 p2 => Sys2Proof.Machine.execWrapRx fromD origin bseq p1 p2 s
  | .unwrapRx fromD origin bseq p1 p2 => Sys2Proof.Machine.execUnwrapRx fromD origin bseq p1 p2 s
  | .frameStartRx fromD origin bseq t chb => Sys2Proof.Machine.execFrameStartRx fromD origin bseq t chb s
  | .tbLoadRx fromD origin bseq d => Sys2Proof.Machine.execTbLoadRx fromD origin bseq d s
  | .capArmRx fromD origin bseq => Sys2Proof.Machine.execCapArmRx fromD origin bseq s
  | .capDisarmRx fromD origin bseq => Sys2Proof.Machine.execCapDisarmRx fromD origin bseq s
  | .capFireRx fromD origin bseq tick => Sys2Proof.Machine.execCapFireRx fromD origin bseq tick s
  | .enumTimeout => Sys2Proof.Machine.execEnumTimeout s
  | .ringRetry => Sys2Proof.Machine.execRingRetry s
  | .reform => Sys2Proof.Machine.execReform s
  | .ringRttMeasure rtt => Sys2Proof.Machine.execRingRttMeasure rtt s
  | .timeRequest fine => Sys2Proof.Machine.execTimeRequest fine s
  | .timeRequestRx p number t2 fine => Sys2Proof.Machine.execTimeRequestRx p number t2 fine s
  | .timeReplyRx p number refLost aligned master t2 t3 t4 => Sys2Proof.Machine.execTimeReplyRx p number refLost aligned master t2 t3 t4 s
  | .alignStep => Sys2Proof.Machine.execAlignStep s
  | .refChange toD ref => Sys2Proof.Machine.execRefChange toD ref s
  | .exportRx p f crcOk => Sys2Proof.Machine.execExportRx p f crcOk s
  | .streamRx p f => Sys2Proof.Machine.execStreamRx p f s
  | .streamAppend p => Sys2Proof.Machine.execStreamAppend p s
  | .mgmtRead path h bad len => Sys2Proof.Machine.execMgmtRead path h bad len s
  | .mgmtWrite path h d => Sys2Proof.Machine.execMgmtWrite path h d s
  | .mgmtResponse p msg => Sys2Proof.Machine.execMgmtResponse p msg s
  | .sdoRequest c frames bad index sub w => Sys2Proof.Machine.execSdoRequest c frames bad index sub w s
  | .nmtCommand c cs node => Sys2Proof.Machine.execNmtCommand c cs node s
  | .rpdoRx c n d ovr => Sys2Proof.Machine.execRpdoRx c n d ovr s
  | .tpdoTx n => Sys2Proof.Machine.execTpdoTx n s
  | .syncRx c => Sys2Proof.Machine.execSyncRx c s
  | .syncLost => Sys2Proof.Machine.execSyncLost s
  | .heartbeatTx c => Sys2Proof.Machine.execHeartbeatTx c s
  | .hbLost j => Sys2Proof.Machine.execHbLost j s
  | .busOff c => Sys2Proof.Machine.execBusOff c s
  | .busOffRecovery c => Sys2Proof.Machine.execBusOffRecovery c s
  | .txTo c => Sys2Proof.Machine.execTxTo c s
  | .ethArp k target mac ip crcOk => Sys2Proof.Machine.execEthArp k target mac ip crcOk s
  | .icmpEcho k dst ip body => Sys2Proof.Machine.execIcmpEcho k dst ip body s
  | .ptpMessage k tick egress sync => Sys2Proof.Machine.execPtpMessage k tick egress sync s
  | .ptpSyncTimeout k => Sys2Proof.Machine.execPtpSyncTimeout k s
  | .linkUp k an => Sys2Proof.Machine.execLinkUp k an s
  | .linkDown k => Sys2Proof.Machine.execLinkDown k s
  | .ptpMapRead => Sys2Proof.Machine.execPtpMapRead s
  | .viewRefresh => Sys2Proof.Machine.execViewRefresh s
  | .evtRepub u => Sys2Proof.Machine.execEvtRepub u s
  | .irqReassert k => Sys2Proof.Machine.execIrqReassert k s
  | .emcySend => Sys2Proof.Machine.execEmcySend s
  | .noticeSend eth => Sys2Proof.Machine.execNoticeSend eth s
  | .verifyKset => Sys2Proof.Machine.execVerifyKset s
  | .verifyBank => Sys2Proof.Machine.execVerifyBank s
  | .activate => Sys2Proof.Machine.execActivate s
  | .activateReset => Sys2Proof.Machine.execActivateReset s
  | .confirm => Sys2Proof.Machine.execConfirm s
  | .genOpk => Sys2Proof.Machine.execGenOpk s
  | .makeCsr => Sys2Proof.Machine.execMakeCsr s
  | .installOpcert => Sys2Proof.Machine.execInstallOpcert s
  | .enrolOwner => Sys2Proof.Machine.execEnrolOwner s
  | .attest nonce key => Sys2Proof.Machine.execAttest nonce key s
  | .dbgChallenge => Sys2Proof.Machine.execDbgChallenge s
  | .dbgUnlock => Sys2Proof.Machine.execDbgUnlock s
  | .recoverBoot => Sys2Proof.Machine.execRecoverBoot s
  | .secCommandDone v b => Sys2Proof.Machine.execSecCommandDone v b s
  | .bankWrite o d => Sys2Proof.Machine.execBankWrite o d s
  | .saveDly => Sys2Proof.Machine.execSaveDly s
  | .kimageWrite m a d => Sys2Proof.Machine.execKimageWrite m a d s
  | .modeRequest m => Sys2Proof.Machine.execModeRequest m s
  | .modeLeaveDone => Sys2Proof.Machine.execModeLeaveDone s
  | .bootComplete => Sys2Proof.Machine.execBootComplete s
  | .warmResetRequest fw => Sys2Proof.Machine.execWarmResetRequest fw s
  | .coreWatchdog => Sys2Proof.Machine.execCoreWatchdog s
  | .kick => Sys2Proof.Machine.execKick s
  | .warmResetAssert => Sys2Proof.Machine.execWarmResetAssert s
  | .resetRelease b => Sys2Proof.Machine.execResetRelease b s
  | .powerOnReset low => Sys2Proof.Machine.execPowerOnReset low s
  | .tileReinit t => Sys2Proof.Machine.execTileReinit t s
  | .canReinit c => Sys2Proof.Machine.execCanReinit c s
  | .axisReinit a => Sys2Proof.Machine.execAxisReinit a s
  | .funcReinitDone u => Sys2Proof.Machine.execFuncReinitDone u s
  | .clkGateWrite v => Sys2Proof.Machine.execClkGateWrite v s
  | .gateApply d => Sys2Proof.Machine.execGateApply d s
  | .refLost r => Sys2Proof.Machine.execRefLost r s
  | .pullInDone => Sys2Proof.Machine.execPullInDone s
  | .lockLost => Sys2Proof.Machine.execLockLost s
  | .referenceReturn r near => Sys2Proof.Machine.execReferenceReturn r near s
  | .prbsCheckerSync p l => Sys2Proof.Machine.execPrbsCheckerSync p l s
  | .prbsBitError p l => Sys2Proof.Machine.execPrbsBitError p l s
  | .canErrorPassive c enter tec rec => Sys2Proof.Machine.execCanErrorPassive c enter tec rec s
  | .heartbeatRx c node state => Sys2Proof.Machine.execHeartbeatRx c node state s
  | .bankBytesProgrammed n => Sys2Proof.Machine.execBankBytesProgrammed n s
  | .jtagTrst => Sys2Proof.Machine.execJtagTrst s

end Sys2Proof.Machine
end

