-- ==== Sys2Proof/Machine/Tick.lean ====
section
/-! DEFINITION. The passing of time (R65, log 15): what a step does while no command waits. -/

namespace Sys2Proof.Machine

/-- Ticks by which the timebase advances in one step: 2 in low-power mode, where it counts every second tick (R65). While the
DLLs relock after a switch, it is CUR_MODE that counts, which still shows the old mode (R77). DESIGN CHOICE (log 130). -/
def tickLen (s : State) : Nat := if flag s R.TDC_CLK F.TDC_CLK_CUR_MODE then 2 else 1

/-- Emitter pulses that have ended leave their outputs low (R95). -/
def pulsesEnd (s : State) : State :=
  { s with pins := { s.pins with emitTrig := s.pins.emitTrig.filter (fun p => decide (now s < p.2)) } }

/-- The timebase counts, or stands while the ring alignment holds it (R65, R392). -/
def tick (s : State) : State :=
  if s.ring.hold = 0 then pulsesEnd { s with tb := s.tb + BitVec.ofNat 64 (tickLen s) }
  else { s with stepped := s.stepped - tickLen s, ring := { s.ring with hold := s.ring.hold - 1 } }

end Sys2Proof.Machine
end

