-- ==== Sys2Proof/Safety.lean ====
section
/-! DEFINITION. The terms in which claims are made: what a command leaves as it was, canonical data, truthful unit words,
and outputs that are held low. -/

namespace Sys2Proof.Machine

/-! ### Frames -/

/-- The registers that raising an event may change: those of the event block, and CAP_STAT, since an event may trigger a
capture (R105, R426). -/
def evReg (a : Nat) : Bool := decide (blockBase 2 ≤ a ∧ a < blockBase 2 + 0x10000) || decide (a = R.CAP_STAT)

/-- The parts of the state beside its registers, its unit words and the notes `hwSet` and `evNow`. The end of a capture (`capture`) and the number of the
next ring broadcast (`cast`) are parts of their own, because any event may trigger a capture. -/
inductive Part where
  | pending | variantAN | tb | free | mem | poison | reinit | pins | tx | evt | fe | tdc | sht | capture | gt | emg | ps | saf
  | dec | modOvl | hk | slq | dma | pool | tilt | ctl | thm | drc | dram | lanes | host | ring | cast | sec | com | sys
  deriving DecidableEq, Repr

/-- A part is the same in two states. -/
def Part.same (p : Part) (s t : State) : Prop :=
  match p with
  | .pending => t.pending = s.pending
  | .variantAN => t.variantAN = s.variantAN
  | .tb => t.tb = s.tb ∧ t.stepped = s.stepped
  | .free => t.free = s.free
  | .mem => t.mem = s.mem
  | .poison => t.poison = s.poison
  | .reinit => t.reinit = s.reinit
  | .pins => t.pins = s.pins
  | .tx => t.tx = s.tx
  | .evt => t.evt = s.evt
  | .fe => t.fe = s.fe
  | .tdc => t.tdc = s.tdc
  | .sht => { t.sht with capT := s.sht.capT, capEnd := s.sht.capEnd } = s.sht
  | .capture => t.sht.capT = s.sht.capT ∧ t.sht.capEnd = s.sht.capEnd
  | .gt => t.gt = s.gt
  | .emg => t.emg = s.emg
  | .ps => t.ps = s.ps
  | .saf => t.saf = s.saf
  | .dec => t.dec = s.dec
  | .modOvl => t.modOvl = s.modOvl
  | .hk => t.hk = s.hk
  | .slq => t.slq = s.slq
  | .dma => t.dma = s.dma
  | .pool => t.pool = s.pool
  | .tilt => t.tilt = s.tilt
  | .ctl => t.ctl = s.ctl
  | .thm => t.thm = s.thm
  | .drc => t.drc = s.drc
  | .dram => t.dram = s.dram
  | .lanes => t.lanes = s.lanes
  | .host => t.host = s.host
  | .ring => { t.ring with bseq := s.ring.bseq } = s.ring
  | .cast => t.ring.bseq = s.ring.bseq
  | .sec => t.sec = s.sec
  | .com => t.com = s.com
  | .sys => t.sys = s.sys

/-- Nothing changed from `s` to `t` but the listed parts, the registers of `own`, the unit words (which tell the truth at the end of
every command: `unitsTrue`), and the notes of the W1C bits and the events that hardware has set in the present tile cycle
(`hwSet` and `evNow`, R11). A byte of memory reads as before wherever `mem` is not listed. -/
def frame (ps : List Part) (own : Nat → Bool) (s t : State) : Prop :=
  (∀ p : Part, p ∉ ps → p.same s t) ∧ ∀ a, own a = false → rd t a = rd s a

/-- The parts that raising an event may change. -/
def evParts : List Part := [.evt, .capture, .lanes, .cast]

/-- The parts that a gap record may change beside `evParts` (R102): it stands in memory, and a slice and the safety frames take
note of it. -/
def gapParts : List Part := [.sht, .ps, .saf, .mem, .poison]

/-- The listed registers. -/
def only (l : List Nat) (a : Nat) : Bool := decide (a ∈ l)

/-- No register. -/
def noReg (_ : Nat) : Bool := false

/-- The listed registers and those that raising an event may change. -/
def onlyEv (l : List Nat) (a : Nat) : Bool := decide (a ∈ l) || evReg a

/-- The registers of the listed blocks, and those that raising an event may change. -/
def inBlocks (l : List Nat) (a : Nat) : Bool :=
  l.any (fun b => decide (blockBase b ≤ a ∧ a < blockBase b + 0x10000)) || evReg a

/-- The registers of the tiles, those of the listed blocks, and those that raising an event may change. -/
def tilesAnd (l : List Nat) (a : Nat) : Bool := inBlocks l a || decide (blockBase 0x20 ≤ a)

/-- An address among the `n` from `b`. -/
def within (b n a : Nat) : Bool := decide (b ≤ a ∧ a < b + n)

/-- Every byte of memory outside the named addresses reads as before. -/
def memKept (s t : State) (inside : Nat → Bool) : Prop := ∀ a, inside a = false → mget t a = mget s a

/-- The area of the gap records and pending headers (R31). -/
def gapArea (s : State) (a : Nat) : Bool := within (gapAddr s 0) (fget s R.CM_GAP_LEN F.CM_GAP_LEN_LEN) a

/-- The capture buffer (R105), and the place that its write offset names. -/
def capArea (s : State) (a : Nat) : Bool :=
  within (capBase s) (16 * max 1 ((rd s R.CAP_LEN).toNat / 16)) a || within (capBase s + 16 * s.sht.capOfs) 16 a

/-- The two pools of silt segments: the spill region of clay memory and the SDRAM pool (R353). -/
def spillArea (s : State) (a : Nat) : Bool :=
  within (segAddr s (false, 0)) (1024 * (fget s R.CM_SPILL_LEN F.CM_SPILL_LEN_LEN / 1024)) a ||
    within (segAddr s (true, 0)) (1024 * fget s R.SLQ_CTRL F.SLQ_CTRL_SD_SEGS) a

/-- The front-end state of every channel but one, and of every bias group, is as it was. -/
def feElse (s t : State) (n : Nat) : Prop := (∀ m, m ≠ n → feChan t m = feChan s m) ∧ t.fe.bias = s.fe.bias

/-- Every bit of a register outside the listed fields reads as before. -/
def bitsKept (s t : State) (a : Nat) (fs : List Fld) : Prop :=
  ∀ i, i < 32 → (∀ f ∈ fs, i < f.lo ∨ f.hi < i) → (rd t a).getLsbD i = (rd s a).getLsbD i

/-- A register that does nothing besides when it is written. -/
def plainReg (a : Nat) : Bool :=
  decide (a < blockBase 0x20) && hooks.all (fun h => (idxOf a h.base h.stride h.n).isNone)

/-- Registers that a warm reset keeps, whole or in part (R465). -/
def keptRegs : List Nat :=
  [R.SYS_CAUSE, R.THM_STAT, R.RING_STAT, R.SHT_NODE, R.DRC_STAT, R.DRC_REF, R.CLK_STAT, R.CLK_OFS, R.SEC_OTP, R.SECU_STAT] ++
    (List.range 28).map R.THM_SENS ++ (List.range 16).map R.BANK_STAT ++ drcKeptRegs

/-! ### Faults of the safety island -/

/-- What a fault of the island does (R262, R265, R274): it latches its bit, all outputs go low and both pairs off, and SCAN leads to
SAFE_HOLD. Nothing happens in a device without the island. -/
def faultLatched (f : Fld) (s t : State) : Prop :=
  (s.variantAN = true → frame [] noReg s t) ∧
  (s.variantAN = false → flag t R.SAF_FAULT f = true ∧ (∀ o : Fin 4, (ossd t o).high = false) ∧
    (∀ k : Fin 2, (safPair t k).on = false) ∧
    (modeOf s = .scan → s.sys.reset = none → s.sys.orderly = none → t.sys.target = some Mode.safeHold.code)) ∧
  frame (.saf :: .sys :: gapParts ++ evParts) (inBlocks [0, 8, 0xB, 0xC]) s t ∧ memKept s t (gapArea s)

/-! ### Records of the configuration flash -/

/-- A record is written into the slot of its area that is not in force, with the next SEQ, and that slot is in force from then on; every
byte of the flash outside it is as it was (R441). -/
def recordWritten (kind : Nat) (payload block : List Byte) (s t : State) : Prop :=
  ∀ (k q at_ : Nat) (b : List Byte), (k, q) = (lookup s.sec.inForce kind).getD (1, 0) → at_ = areaBase kind + 0x10000 * (1 - k) →
    b = recBytes s kind ((q + 1) % 2 ^ 32) (recPad payload) block →
    lookup t.sec.inForce kind = some (1 - k, (q + 1) % 2 ^ 32) ∧ flashBytes t at_ b.length = b ∧
    ∀ x, x < at_ ∨ at_ + max 0x10000 b.length ≤ x → flashGet t x = flashGet s x

/-! ### Timed states of the SDRAM controller -/

/-- One timed transition of R336: from state `cur`, entered at least `wait` ticks ago, to `nxt`; else nothing happens. -/
def drcMoves (cur wait nxt : Nat) (s t : State) : Prop :=
  (drcState s = cur → s.drc.since + wait ≤ now s → drcState t = nxt ∧ t.drc.since = now s ∧
    t.pins.ddrResetN = true ∧ t.pins.ddrCke = decide (nxt ≠ drcCkeWait)) ∧
  (drcState s ≠ cur ∨ now s < s.drc.since + wait → frame [] noReg s t) ∧
  bitsKept s t R.DRC_STAT [F.DRC_STAT_STATE] ∧ frame [.drc, .pins] (only [R.DRC_STAT]) s t

/-! ### Rings -/

/-- What an enumeration by the master does (R389): from UP or WRAPPED the ring goes down with its event, every position is assigned
afresh, no device takes part until it is UP again, and ENUM leaves with the position 0 and the ring's number. Nothing happens where it
may not start. -/
def ringEnumerates (may : Bool) (s t : State) : Prop :=
  (may = false → frame [] noReg s t) ∧
  (may = true → rstate t = 1 ∧ t.ring.pos = some 0 ∧ t.ring.breaks = [] ∧ t.ring.enumAt = now s ∧
    fget t R.RING_STAT F.RING_STAT_ERR = 0 ∧ fget t R.RING_STAT F.RING_STAT_SIZE = 0 ∧ rd t R.RING_MAP = 0#32 ∧
    (rstate s = 2 ∨ rstate s = 3 → evFlag t 357 = true) ∧
    (rstate s ≠ 2 → rstate s ≠ 3 → t.ring.enumSeq = s.ring.bseq ∧ (vcOf t (ringOut s 2) 0).out = (vcOf s (ringOut s 2) 0).out ++
      [rawFrame 0 3 0 false (Bcast.bytes ⟨0, 0, s.ring.bseq, 0, 0, 0, fget s R.RING_CFG F.RING_CFG_RING_ID, now s⟩)])) ∧
  frame (.ring :: evParts) (inBlocks [8, 0x11]) s t

/-- What every received broadcast does whatever its kind (R389, R397): without a position nothing; the device's own, or one that it has
seen, it at most passes on; any other it notes and passes on the same way round. -/
def castPassed (b : Bcast) (fromD : Bool) (s t : State) : Prop :=
  (ringRanked s = false → frame [] noReg s t) ∧
  (ringRanked s = true → s.ring.pos = some b.origin ∨ (b.origin, b.bseq) ∈ s.ring.seen → frame [.lanes] noReg s t) ∧
  (ringRanked s = true → s.ring.pos ≠ some b.origin → (b.origin, b.bseq) ∉ s.ring.seen →
    t.ring.seen.head? = some (b.origin, b.bseq) ∧
    rawFrame 0 3 0 false b.bytes ∈ (vcOf t (ringOut s (if fromD then 1 else 2)) 0).out)

/-- A broadcast that the device acts upon: it has a position, and the broadcast is neither its own nor one that it has seen. -/
def castNew (o b : Nat) (s : State) : Prop :=
  ringRanked s = true ∧ s.ring.pos ≠ some o ∧ (o, b) ∉ s.ring.seen

/-! ### Commands of SEC -/

/-- What writing command `n` into SEC_CMD does (R443, R444): one that runs is not disturbed, one that the mode and the seals do not
permit ends at once with ERR = STATE, and any other starts with its argument. -/
def secStarts (n : Nat) (arg : List Byte) (s t : State) : Prop :=
  fget t R.SEC_CMD F.SEC_CMD_CMD = n ∧
  (secBusy s = true → frame [] (only [R.SEC_CMD]) s t) ∧
  (secBusy s = false → secPermits s n = false → fget t R.SEC_CMD_STAT F.SEC_CMD_STAT_ERR = 1 ∧ secBusy t = false ∧
    frame [] (only [R.SEC_CMD, R.SEC_CMD_STAT]) s t) ∧
  (secBusy s = false → secPermits s n = true → secBusy t = true ∧ t.sec.run = some (n, now s) ∧ t.sec.arg = arg) ∧
  frame [.sec] (only [R.SEC_CMD, R.SEC_CMD_STAT]) s t

/-- The length of the argument that is taken, at most 64 KiB. -/
def secArgMax (s : State) : Nat := min 0x10000 (secArgLen s)

/-- The argument that ARG and LEN name. -/
def secArgOf (s : State) : List Byte := mbytes s (secArgAt s) (secArgMax s)

/-- The first address of a range in which no memory stands. -/
def holeIn (s : State) (a n : Nat) : Option Nat :=
  ((List.range n).map (a + ·)).find? (fun x => decide (regionOf s x = .hole) || decide (regionOf s x = .regs))

/-- What writing command `n` into SEC_CMD does where the command takes an argument from memory (R25, R326, R443, R444): as `secStarts`, with
the bytes that ARG and LEN name; an address where no memory stands is a decode error, a poisoned word an uncorrectable error. -/
def secFetches (n : Nat) (s t : State) : Prop :=
  fget t R.SEC_CMD F.SEC_CMD_CMD = n ∧
  (secBusy s = true → frame [] (only [R.SEC_CMD]) s t) ∧
  (secBusy s = false → secPermits s n = false → fget t R.SEC_CMD_STAT F.SEC_CMD_STAT_ERR = 1 ∧ secBusy t = false ∧
    frame [] (only [R.SEC_CMD, R.SEC_CMD_STAT]) s t) ∧
  (secBusy s = false → secPermits s n = true → secBusy t = true ∧ t.sec.run = some (n, now s) ∧
    (holeIn s (secArgAt s) (secArgMax s) = none → regionOf s (secArgAt s) ≠ .sdram ∨ drcServes s = true → t.sec.arg = secArgOf s) ∧
    (∀ x, holeIn s (secArgAt s) (secArgMax s) = some x → evFlag t Ev.decodeErr = true ∧
      rd t R.SYS_DECERR_LO = BitVec.ofNat 32 x ∧ flag t R.SYS_DECERR_HI F.SYS_DECERR_HI_WRITE = false) ∧
    (∀ p r : Nat, holeIn s (secArgAt s) (secArgMax s) = none → regionOf s (secArgAt s) ≠ .sdram →
      firstPoison s (secArgAt s) (secArgMax s) = some p → memRegion s p = some r →
      flag t (R.MEM_RSTAT r) F.MEM_RSTAT_UE = true ∧ evFlag t (433 + 3 * r) = true)) ∧
  frame (.sec :: .dram :: .free :: evParts) (fun a => inBlocks [0, 0xF] a || only [R.SEC_CMD, R.SEC_CMD_STAT] a) s t

/-! ### Decode errors -/

/-- A decode error at an address (R25): it is counted and recorded with its direction, and raises its event. -/
def decodeError (x : Nat) (write : Bool) (s t : State) : Prop :=
  evFlag t Ev.decodeErr = true ∧ rd t R.SYS_DECERR_LO = BitVec.ofNat 32 x ∧
  fget t R.SYS_DECERR_HI F.SYS_DECERR_HI_ADDR = x / 2 ^ 32 % 256 ∧ flag t R.SYS_DECERR_HI F.SYS_DECERR_HI_WRITE = write ∧
  fget t R.SYS_CNT F.SYS_CNT_DECERR_CNT = satN F.SYS_CNT_DECERR_CNT.width (fget s R.SYS_CNT F.SYS_CNT_DECERR_CNT + 1) ∧
  frame evParts (onlyEv [R.SYS_DECERR_LO, R.SYS_DECERR_HI, R.SYS_CNT]) s t

/-! ### Canonical data -/

/-- Memory and the register table are in their canonical forms. -/
def canonical (s : State) : Bool := Memory.wf s.mem && regsWf s.regs

/-! ### Unit state words (R418, R420) -/

/-- STATE of every unit's word is the state that R419 gives the unit. -/
def unitsTrue (s : State) : Bool :=
  unitList.all (fun u => decide ((unitWord s u).toNat % 0x10000 = unitStateNow s u))

/-- Every unit word reads 0, as at power-on reset. -/
def unitsZero (s : State) : Bool := unitList.all (fun u => decide (unitWord s u = 0#32))

/-- The unit words tell the truth, or the device has not run a command since power-on reset. -/
def unitsInv (s : State) : Bool := unitsZero s || unitsTrue s

end Sys2Proof.Machine
end

