-- ==== Sys2Proof/Certificates/Slice0/Obligations.lean ====
section
/-! DEFINITION. The statements for the provers. Every command of the block is said to run, with what it does and what it
leaves as it was; then the stop, the step, the reset and the invariants. -/

open Sys2Proof Sys2Proof.Machine

/-! ### Return inputs and analogue front end -/

/-- Channel settings and baseline (R37, R40, R42, R44, R52): a write is staged or refused, the copy while no shot is fired, a
staged set that no latch point takes within 1.0 ms, the offset trim, and the baseline's two reports. -/
def Obligations.FrontEndSettings : Prop :=
  (∀ (n : Fin 1024) (v : Word) (s : State), ∃ t, exec (.feCfgWrite n v) s = .next t ∧
    rd t (R.FE_CFG (n / 16) (n % 16)) = (if feOrderOk v then v &&& feSetMask else rd s (R.FE_CFG (n / 16) (n % 16))) ∧
    (feOrderOk v = true → flag t (R.FE_ACT (n / 16) (n % 16)) F.FE_ACT_PEND = decide (v &&& feSetMask ≠ feInUse s n)) ∧
    (feOrderOk v = false → flag t (R.FE_STAT (n / 16) (n % 16)) F.FE_STAT_TH_ORDER = true) ∧
    frame (.fe :: evParts) (onlyEv [R.FE_CFG (n / 16) (n % 16), R.FE_ACT (n / 16) (n % 16), R.FE_STAT (n / 16) (n % 16)]) s t) ∧
  (∀ (n : Fin 1024) (s : State), ∃ t, exec (.feIdleLatch n) s = .next t ∧
    (firing s = false → windowPending s n = false → feInUse t n = feStaged s n ∧ flag t (R.FE_ACT (n / 16) (n % 16)) F.FE_ACT_PEND = false) ∧
    (firing s = true ∨ windowPending s n = true → frame [] noReg s t) ∧
    frame [.fe, .tdc] (only [R.FE_ACT (n / 16) (n % 16), R.FE_STAT (n / 16) (n % 16)]) s t) ∧
  (∀ (n : Fin 1024) (t0 : Nat) (s : State), (feChan s n).stagedAt = some t0 → t0 + ticksMs 1 ≤ now s →
    ∃ t, exec (.settleTimeout n) s = .next t ∧ (feChan t n).settle = true ∧ frame [.fe] noReg s t) ∧
  (∀ (g : Fin 64) (s : State), ∃ t, exec (.autotrim g) s = .next t ∧
    flag t (R.FE_TILE_CTRL g) F.FE_TILE_CTRL_AUTOTRIM = (decide (modeOf s = .calibrate) || flag s (R.FE_TILE_CTRL g) F.FE_TILE_CTRL_AUTOTRIM) ∧
    bitsKept s t (R.FE_TILE_CTRL g) [F.FE_TILE_CTRL_AUTOTRIM] ∧ frame [] (only [R.FE_TILE_CTRL g]) s t) ∧
  (∀ (g : Fin 64) (s : State), flag s (R.FE_TILE_CTRL g) F.FE_TILE_CTRL_AUTOTRIM = true →
    ∃ t, exec (.autotrimDone g) s = .next t ∧ flag t (R.FE_TILE_CTRL g) F.FE_TILE_CTRL_AUTOTRIM = false ∧
    (∀ k : Fin 16, flag t (R.FE_TRIM g k) F.FE_TRIM_TRIM_OK = true) ∧
    frame [.free] (only (R.FE_TILE_CTRL g :: (List.range 16).map (R.FE_TRIM g))) s t) ∧
  (∀ (n : Fin 1024) (cur : BitVec 32) (full : Bool) (s : State), ∃ t, exec (.feBaselineRefresh n cur full) s = .next t ∧
    (fget s (R.FE_MODE (n / 16) (n % 16)) F.FE_MODE_DCR_BW = 0 →
      rd t (R.FE_BASELINE (n / 16) (n % 16)) = 0#32 ∧ flag t (R.FE_STAT (n / 16) (n % 16)) F.FE_STAT_DCR_LIM = false) ∧
    (fget s (R.FE_MODE (n / 16) (n % 16)) F.FE_MODE_DCR_BW ≠ 0 → dcrHeld s n = false ∨ now s < (feChan s n).heldFrom + ticksUs 10 →
      fget t (R.FE_BASELINE (n / 16) (n % 16)) F.FE_BASELINE_CURRENT = min 0xFFFF cur.toNat ∧
      flag t (R.FE_STAT (n / 16) (n % 16)) F.FE_STAT_DCR_LIM = full) ∧
    (∀ v, fget s (R.FE_MODE (n / 16) (n % 16)) F.FE_MODE_DCR_BW ≠ 0 → dcrHeld s n = true →
      (feChan s n).heldFrom + ticksUs 10 ≤ now s → (feChan s n).heldVal = some v →
      fget t (R.FE_BASELINE (n / 16) (n % 16)) F.FE_BASELINE_CURRENT = v.1 % 0x10000 ∧
      flag t (R.FE_STAT (n / 16) (n % 16)) F.FE_STAT_DCR_LIM = v.2) ∧
    frame [.fe] (only [R.FE_BASELINE (n / 16) (n % 16), R.FE_STAT (n / 16) (n % 16)]) s t)

/-- Pulses and overload (R38, R39, R48, R101): a pulse in the one open window it falls into forms the next record with its edges, a fifth
one is counted as dropped, and nothing changes beside its channel's windows, marks and counters; a listening window closes once its length
has passed; the clamp or the restoration limit takes an ACTIVE channel out of use, and its return waits for an arm point. Bias references
and monitors (R54, R55): a code write and a step of the slew limit towards the goal, both clamped to MAX and to the forced zero, a monitor
sample with its runs, flags, gating and hold-off, and the end of the hold-off.
Its clauses follow the model's choices of log 16, 17, 18, 19, 20 and 127 where the spec is silent. -/
def Obligations.PulsesAndBias : Prop :=
  (∀ (n : Fin 1024) (p : PulseIn) (s : State), ∃ t, exec (.pulseRecord n p) s = .next t ∧ feElse s t n ∧
    (feChan t n).wins.map Win.msg = (feChan s n).wins.map Win.msg ∧
    { t.saf with bshots := s.saf.bshots } = s.saf ∧
    bitsKept s t (R.FE_STAT (n / 16) (n % 16)) [F.FE_STAT_CLAMP_NOW, F.FE_STAT_SAT] ∧
    bitsKept s t (R.FE_CNT_B (n / 16) (n % 16)) [F.FE_CNT_B_CLAMP_SHOTS, F.FE_CNT_B_REC_DROP] ∧
    frame [.fe, .saf, .free] (only [R.FE_STAT (n / 16) (n % 16), R.FE_CNT_B (n / 16) (n % 16)]) s t) ∧
  (∀ (n : Fin 1024) (p : PulseIn) (w : Win) (rise : Nat) (fall : Option Nat) (s : State), tileRuns s (n / 16) = true →
    flag s (R.FE_TILE_CTRL (n / 16)) F.FE_TILE_CTRL_AUTOTRIM = false → n.val / 16 ∉ s.tdc.unlocked → comparatorsOff s n = false →
    rise = edgeTime s (n / 16) (2 * (n % 16)) p.rise → fall = p.fall.map (edgeTime s (n / 16) (2 * (n % 16))) →
    (∀ f, fall = some f → rise + 160 ≤ f) →
    (feChan s n).wins.filter (fun w => w.pending && decide (winOpen w.msg ≤ rise / 128) && decide (rise / 128 < winClose w.msg)) = [w] →
    (∀ f, w.lastFall = some f → f + 384 < rise) →
    ∃ t, exec (.pulseRecord n p) s = .next t ∧
      (w.recs.length < 4 → ∃ x ∈ (feChan t n).wins, ∃ r, x.msg = w.msg ∧ x.recs = w.recs ++ [r] ∧ x.lastRise = rise ∧ r.idx = w.recs.length ∧
        r.ovf = coarseOvf (eventTime rise w.msg.fire) ∧
        r.time = (if coarseOvf (eventTime rise w.msg.fire) then 0x7FFFFF else eventTime rise w.msg.fire) ∧
        r.tot = totOf rise (fall.filter (fun f => decide (f / 128 < winClose w.msg))) ∧ r.sat = p.clamp ∧ r.gainNew = w.gainNew ∧
        r.fbSubst = w.subst) ∧
      (w.recs.length = 4 → ∃ x ∈ (feChan t n).wins, x.msg = w.msg ∧ x.recs = w.recs ∧ x.dropped = w.dropped + 1)) ∧
  (∀ (n : Fin 1024) (q : BitVec 48) (w : Win) (s : State),
    (feChan s n).wins.find? (fun w => w.pending && decide (w.msg.seq = q.toNat)) = some w →
    ∃ t, exec (.listenWindowClose n q) s = .next t ∧ feElse s t n ∧
      (winClose w.msg ≤ now s → (∀ x ∈ (feChan t n).wins, x.msg.seq = q.toNat → x.pending = false) ∧
        ∀ x ∈ (feChan s n).wins, x.msg.seq ≠ q.toNat → x ∈ (feChan t n).wins) ∧
      (now s < winClose w.msg → frame [] noReg s t) ∧ memKept s t (capArea s) ∧
      frame (.fe :: .sht :: .mem :: .poison :: .dram :: evParts)
        (fun a => inBlocks [0, 0xF] a || decide (a ∈ [R.FE_STAT (n / 16) (n % 16), R.FE_CNT_A (n / 16) (n % 16), R.SHT_STAT])) s t) ∧
  (∀ (n : Fin 1024) (clamp lim : Bool) (s : State), ∃ t, exec (.overloadEntry n clamp lim) s = .next t ∧ feElse s t n ∧
    (feState s n = feActive → clamp = true ∨ (lim = true ∧ fget s (R.FE_MODE (n / 16) (n % 16)) F.FE_MODE_DCR_BW ≠ 0) →
      feState t n = feOverload ∧ flag t (R.FE_STAT (n / 16) (n % 16)) F.FE_STAT_OVL = true ∧ (feChan t n).exitPend = false) ∧
    (feState s n ≠ feActive → feState t n = feState s n) ∧
    (clamp = true → flag t (R.FE_STAT (n / 16) (n % 16)) F.FE_STAT_CLAMP_NOW = true) ∧
    (feChan t n).wins = (feChan s n).wins ∧
    bitsKept s t (R.FE_STAT (n / 16) (n % 16)) [F.FE_STAT_STATE, F.FE_STAT_CLAMP_NOW, F.FE_STAT_DCR_LIM, F.FE_STAT_OVL] ∧
    frame (.fe :: evParts) (onlyEv [R.FE_STAT (n / 16) (n % 16)]) s t) ∧
  (∀ (n : Fin 1024) (s : State), ∃ t, exec (.overloadExit n) s = .next t ∧ feElse s t n ∧
    (feChan t n).exitPend = (decide (feState s n = feOverload) || (feChan s n).exitPend) ∧ feState t n = feState s n ∧
    flag t (R.FE_STAT (n / 16) (n % 16)) F.FE_STAT_CLAMP_NOW = false ∧ flag t (R.FE_STAT (n / 16) (n % 16)) F.FE_STAT_DCR_LIM = false ∧
    (feChan t n).wins = (feChan s n).wins ∧ bitsKept s t (R.FE_STAT (n / 16) (n % 16)) [F.FE_STAT_CLAMP_NOW, F.FE_STAT_DCR_LIM] ∧
    frame [.fe] (only [R.FE_STAT (n / 16) (n % 16)]) s t) ∧
  (∀ (g : Fin 16) (v : BitVec 14) (s : State), ∃ t, exec (.biasRefWrite g v) s = .next t ∧
    fget t (R.BIAS_REF g) F.BIAS_REF_CODE = v.toNat ∧
    fget t (R.BIAS_STAT g) F.BIAS_STAT_OUT =
      (if biasZero s g then 0 else min (fget s (R.BIAS_STAT g) F.BIAS_STAT_OUT) (fget s (R.BIAS_LIM g) F.BIAS_LIM_MAX)) ∧
    flag t (R.BIAS_STAT g) F.BIAS_STAT_CLIP =
      (decide (fget s (R.BIAS_LIM g) F.BIAS_LIM_MAX < v.toNat) || flag s (R.BIAS_STAT g) F.BIAS_STAT_CLIP) ∧
    flag t (R.BIAS_STAT g) F.BIAS_STAT_MOVE = decide (fget t (R.BIAS_STAT g) F.BIAS_STAT_OUT ≠ biasTarget t g) ∧
    bitsKept s t (R.BIAS_REF g) [F.BIAS_REF_CODE] ∧
    bitsKept s t (R.BIAS_STAT g) [F.BIAS_STAT_CLIP, F.BIAS_STAT_OUT, F.BIAS_STAT_MOVE] ∧ frame [] (only [R.BIAS_REF g, R.BIAS_STAT g]) s t) ∧
  (∀ (g : Fin 16) (out step : Nat) (s : State), out = fget s (R.BIAS_STAT g) F.BIAS_STAT_OUT →
    step = max 1 (fget s (R.BIAS_LIM g) F.BIAS_LIM_SLEW) →
    ∃ t, exec (.biasSlewStep g) s = .next t ∧
      fget t (R.BIAS_STAT g) F.BIAS_STAT_OUT =
        (if biasZero s g then 0
         else min (if out < biasTarget s g then min (biasTarget s g) (out + step) else max (biasTarget s g) (out - step))
           (fget s (R.BIAS_LIM g) F.BIAS_LIM_MAX)) ∧
      flag t (R.BIAS_STAT g) F.BIAS_STAT_MOVE = decide (fget t (R.BIAS_STAT g) F.BIAS_STAT_OUT ≠ biasTarget s g) ∧
      flag t (R.BIAS_STAT g) F.BIAS_STAT_CLIP =
        (decide (fget s (R.BIAS_LIM g) F.BIAS_LIM_MAX < fget s (R.BIAS_REF g) F.BIAS_REF_CODE) || flag s (R.BIAS_STAT g) F.BIAS_STAT_CLIP) ∧
      bitsKept s t (R.BIAS_STAT g) [F.BIAS_STAT_CLIP, F.BIAS_STAT_OUT, F.BIAS_STAT_MOVE] ∧ frame [] (only [R.BIAS_STAT g]) s t) ∧
  (∀ (g : Fin 16) (v : BitVec 10) (hi lo : Nat) (s : State),
    hi = (if fget s (R.BIAS_MON g) F.BIAS_MON_HI < v.toNat then (biasGrp s g).hiRun + 1 else 0) →
    lo = (if v.toNat < fget s (R.BIAS_MON g) F.BIAS_MON_LO then (biasGrp s g).loRun + 1 else 0) →
    ∃ t, exec (.biasMonSample g v) s = .next t ∧
    fget t (R.BIAS_STAT g) F.BIAS_STAT_MON = v.toNat ∧ (biasGrp t g).hiRun = hi ∧ (biasGrp t g).loRun = lo ∧
    (hi = 3 → flag t (R.BIAS_STAT g) F.BIAS_STAT_WIN_HI = true ∧ evFlag t Ev.biasWindow = true) ∧
    (lo = 3 → flag t (R.BIAS_STAT g) F.BIAS_STAT_WIN_LO = true ∧ evFlag t Ev.biasWindow = true) ∧
    (3 ≤ hi ∨ 3 ≤ lo → fget s (R.BIAS_MON g) F.BIAS_MON_ACTION ≠ 0 → (biasGrp t g).gating = true ∧ (biasGrp t g).holdEnd = none ∧
      ((biasGrp s g).gating = false → ∀ j : Fin 64, feState s (64 * g + j) ≠ feOff → feState t (64 * g + j) = feGated) ∧
      (2 ≤ fget s (R.BIAS_MON g) F.BIAS_MON_ACTION → (biasGrp t g).zeroed = true ∧ fget t (R.BIAS_STAT g) F.BIAS_STAT_OUT = 0)) ∧
    (hi < 3 → lo < 3 → (biasGrp t g).gating = (biasGrp s g).gating ∧
      ((biasGrp s g).gating = true → (biasGrp s g).zeroed = false → (biasGrp s g).holdEnd = none →
        (biasGrp t g).holdEnd = some (now s + ticksMs 10))) ∧
    (∀ k : Fin 16, k ≠ g → biasGrp t k = biasGrp s k) ∧ (∀ m, m / 64 ≠ g.val → feChan t m = feChan s m) ∧
    frame (.fe :: evParts) (onlyEv (R.BIAS_STAT g :: (List.range 64).map (fun j => R.FE_STAT ((64 * g + j) / 16) ((64 * g + j) % 16)))) s t) ∧
  (∀ (g : Fin 16) (t0 : Nat) (s : State), (biasGrp s g).holdEnd = some t0 → ∃ t, exec (.biasGateHoldEnd g) s = .next t ∧
      (t0 ≤ now s → (biasGrp t g).gating = false ∧ (biasGrp t g).holdEnd = none ∧
        ∀ j : Fin 64, feState s (64 * g + j) = feGated → (feChan t (64 * g + j)).exitPend = true) ∧
      (now s < t0 → frame [] noReg s t) ∧
      (∀ k : Fin 16, k ≠ g → biasGrp t k = biasGrp s k) ∧
      (∀ m, m / 64 ≠ g.val ∨ feState s m ≠ feGated → feChan t m = feChan s m) ∧ frame [.fe] noReg s t)

/-! ### Time measurement -/

/-- The timebase (R12, R66, R67, R68): the latching read, the two loads and their refusals, and the check of a unit's replica. The coarse
clock and the DLLs (R77, R78, R79): a change of mode is asked for, the relock ends in the other mode, by its end or by its time limit, and
a unit loses and regains its lock.
Its clauses follow the model's choices of log 21 and 23 where the spec is silent. -/
def Obligations.TimebaseAndClock : Prop :=
  (∀ s : State, ∃ t, exec .tbLoRead s = .next t ∧
    (rd t R.TB_HI).toNat * 2 ^ 32 + (rd t R.TB_LO).toNat = s.tb.toNat ∧ t.tdc.latch = s.tb.toNat ∧
    frame [.tdc] (only [R.TB_LO, R.TB_HI]) s t) ∧
  (∀ s : State, rwmOk s = true → ringFollower s = false →
    s.tb.toNat + (if lowPower s then 2 else 1) ≤ (rd s R.TB_LOAD_HI).toNat * 2 ^ 32 + (rd s R.TB_LOAD_LO).toNat →
    ∃ t, exec .loadNow s = .next t ∧
      (t.tb + (if lowPower s then 2 else 1)).toNat = (rd s R.TB_LOAD_HI).toNat * 2 ^ 32 + (rd s R.TB_LOAD_LO).toNat ∧
      flag t R.TB_CTRL F.TB_CTRL_LOAD_NOW = false ∧ frame [.tb, .lanes, .cast] (only [R.TB_CTRL]) s t) ∧
  (∀ s : State, ∃ t, exec .loadNow s = .next t ∧
    (rwmOk s = false → t.tb = s.tb ∧ evFlag t Ev.rwmDiscard = true) ∧
    (rwmOk s = true → ringFollower s = true →
      t.tb = s.tb ∧ flag t R.TB_CTRL F.TB_CTRL_DENIED = true ∧ evFlag t Ev.tbDenied = true) ∧
    frame (.tb :: evParts) (onlyEv [R.TB_CTRL]) s t) ∧
  (∀ s : State, ∃ t, exec .loadPps s = .next t ∧ t.tb = s.tb ∧
    (rwmOk s = true → ringFollower s = false → flag t R.TB_CTRL F.TB_CTRL_LOAD_PPS = true) ∧
    (rwmOk s = true → ringFollower s = true → flag t R.TB_CTRL F.TB_CTRL_DENIED = true) ∧
    (rwmOk s = false → evFlag t Ev.rwmDiscard = true) ∧ frame evParts (onlyEv [R.TB_CTRL]) s t) ∧
  (∀ (u : Fin 65) (r : BitVec 64) (s : State), u.val = 64 ∨ tileRuns s u = true →
    ∃ t, exec (.tbReplicaCheck u r) s = .next t ∧ t.tb = s.tb ∧
      (r = s.tb → tget 0 t.tdc.lastMatch u = s.tb.toNat ∧ frame [.tdc] noReg s t) ∧
      (r ≠ s.tb → flag t R.TDC_CAL_STAT F.TDC_CAL_STAT_REPLICA = true ∧ evFlag t Ev.tbReplica = true) ∧
      memKept s t (fun a => gapArea s a || capArea s a) ∧
      frame (.tdc :: .fe :: .gt :: .dram :: gapParts ++ evParts) (inBlocks [0, 8, 9, 0xB, 0xF]) s t) ∧
  (∀ (lp force : Bool) (s : State), ∃ t, exec (.reqMode lp force) s = .next t ∧
    flag t R.TDC_CLK F.TDC_CLK_REQ_MODE = lp ∧
    fget t R.TDC_CLK F.TDC_CLK_CUR_MODE = fget s R.TDC_CLK F.TDC_CLK_CUR_MODE ∧
    (s.tdc.clk = .stable → s.tdc.filling = false → lp ≠ lowPower s →
      t.tdc.clk = (if modeOf s = .scan then .waitFrame else .relock) ∧ flag t R.TDC_CLK F.TDC_CLK_PEND = true) ∧
    (s.tdc.clk = .stable → s.tdc.filling = true → force = false → lp ≠ lowPower s → t.tdc.clk = .waitFill) ∧
    frame [.tdc] (only [R.TDC_CLK, R.TDC_CAL_STAT]) s t) ∧
  (∀ s : State, s.tdc.clk = .relock → ∃ t, exec .relockDone s = .next t ∧
    lowPower t = !lowPower s ∧ (reqDiffers s = true → t.tdc.clk = .stable ∧ flag t R.TDC_CLK F.TDC_CLK_RELOCK = false) ∧
    (s.tdc.frameHeld = true → s.sht.frameTick.isSome = true → t.sht.frameTick = some (now s)) ∧
    (s.tdc.frameHeld = false → frame [.tdc] (only [R.TDC_CLK, R.TDC_CAL_STAT]) s t) ∧ memKept s t (spillArea s) ∧
    frame (.tdc :: .sht :: .ps :: .slq :: .mem :: .poison :: .dram :: evParts) (inBlocks [0, 9, 0xE, 0xF]) s t) ∧
  (∀ (still : List (Fin 65)) (s : State), s.tdc.clk = .relock → s.tdc.relockAt + ticksUs 100 ≤ now s →
    ∃ t, exec (.relockTimeout still) s = .next t ∧ lowPower t = !lowPower s ∧
      (∀ u ∈ still, u.val ∈ t.tdc.unlocked) ∧
      memKept s t (fun a => gapArea s a || capArea s a || spillArea s a) ∧
      frame (.tdc :: .fe :: .gt :: .slq :: .dram :: gapParts ++ evParts) (inBlocks [0, 8, 9, 0xB, 0xE, 0xF]) s t) ∧
  (∀ (u : Fin 65) (s : State), u.val ∉ s.tdc.unlocked → ∃ t, exec (.dllUnlock u) s = .next t ∧ u.val ∈ t.tdc.unlocked ∧
    flag t R.TDC_CAL_STAT F.TDC_CAL_STAT_DLL_UNLOCK = true ∧ evFlag t Ev.dllUnlock = true ∧
    (∀ p ∈ t.tdc.tabs, p.1 / 32 ≠ u.val) ∧
    memKept s t (fun a => gapArea s a || capArea s a) ∧
    frame (.tdc :: .fe :: .gt :: .dram :: gapParts ++ evParts) (inBlocks [0, 8, 9, 0xB, 0xF]) s t) ∧
  (∀ (u : Fin 65) (s : State), ∃ t, exec (.dllLock u) s = .next t ∧ u.val ∉ t.tdc.unlocked ∧ frame [.tdc] noReg s t)

/-- Fills and tables (R70, R72, R73, R74, R76): the rolling fill and the fill of all units begin when they may, the counts of a
fill become tables or starve, in both interpolators of a channel together, and a bank's table is taken when none of its shots waits.
Its clauses follow the model's choices of log 130 where the spec is silent. -/
def Obligations.CalibrationFills : Prop :=
  (∀ s : State, modeOf s = .scan → flag s R.TDC_CTRL F.TDC_CTRL_ROLL_EN = true → flag s R.TDC_CTRL F.TDC_CTRL_CAL_MODE = true →
    s.tdc.filling = false → s.tdc.clk = .stable → bandOf s ≠ 5 → s.tdc.lastFillEnd + ticksMs (fillPause s) ≤ now s →
    ∃ t, exec .calFillStart s = .next t ∧ t.tdc.filling = true ∧ t.tdc.fillAt = now s ∧
      flag t R.TDC_CAL_STAT F.TDC_CAL_STAT_FILLING = true ∧ frame [.tdc] (only [R.TDC_CAL_STAT]) s t) ∧
  (∀ s : State, ∃ t, exec .fillAll s = .next t ∧
    (modeOf s ≠ .calibrate → frame [] noReg s t) ∧
    (modeOf s = .calibrate → bandOf s ≠ 5 → flag t R.TDC_CTRL F.TDC_CTRL_FILL_ALL = true ∧
      (s.tdc.clk = .stable → t.tdc.filling = true)) ∧
    frame [.tdc] (only [R.TDC_CTRL, R.TDC_CAL_STAT]) s t) ∧
  (∀ (u : Fin 65) (c : List FillCount) (s : State), s.tdc.filling = true → s.tdc.fillAt + ticksMs (fillMs s) ≤ now s →
    flag s R.TDC_CTRL F.TDC_CTRL_FILL_ALL = false → fget s R.TDC_CAL_STAT F.TDC_CAL_STAT_FILL_UNIT = u → s.tdc.clk ≠ .waitFill →
    ∃ t, exec (.calFillEnd u c) s = .next t ∧ t.tdc.filling = false ∧ t.tdc.lastFillEnd = now s ∧
      flag t R.TDC_CAL_STAT F.TDC_CAL_STAT_FILLING = false ∧ t.tdc.nextUnit = (if u.val = 64 then 0 else u.val + 1)) ∧
  (∀ (u : Fin 65) (c : List FillCount) (i : Nat) (own : List Nat) (s : State), s.tdc.filling = true →
    s.tdc.fillAt + ticksMs (fillMs s) ≤ now s → s.tdc.clk ≠ .waitFill →
    (if flag s R.TDC_CTRL F.TDC_CTRL_FILL_ALL then u.val ∉ s.tdc.allDone else fget s R.TDC_CAL_STAT F.TDC_CAL_STAT_FILL_UNIT = u) →
    i < (if u.val < 64 then 32 else 16) → own = (if u.val < 64 then [i / 2 * 2, i / 2 * 2 + 1] else [i]) →
    ∃ t, exec (.calFillEnd u c) s = .next t ∧
      (own.all (fun j => fillEnough s (fillCount s u c j)) = true →
        lookup t.tdc.newTabs (32 * u + i) = some (fillTable s u (fillCount s u c i)) ∧ 32 * u.val + i ∉ t.tdc.starved) ∧
      (own.all (fun j => fillEnough s (fillCount s u c j)) = false → 32 * u.val + i ∈ t.tdc.starved ∧
        lookup t.tdc.newTabs (32 * u + i) = lookup s.tdc.newTabs (32 * u + i) ∧
        flag t R.TDC_CAL_STAT F.TDC_CAL_STAT_STARVED = true ∧ evFlag t Ev.calStarved = true)) ∧
  (∀ (u : Fin 65) (c : List FillCount) (s : State), ∃ t, exec (.calFillEnd u c) s = .next t ∧
    frame (.tdc :: evParts) (onlyEv [R.TDC_CAL_STAT, R.TDC_FAULT, R.TDC_CNT, R.TDC_CTRL, R.TDC_CLK]) s t) ∧
  (∀ (b : Fin 16) (s : State), bankWaiting s b = [] → ∃ t, exec (.fbTableActivate b) s = .next t ∧
    (∀ c, lookup s.tdc.newTabs (32 * 64 + b) = some c → calTab t 64 b = c ∧ lookup t.tdc.newTabs (32 * 64 + b) = none) ∧
    frame [.tdc] noReg s t)

/-- Auxiliary channels and the range gate (R80 to R83): a selected edge, the read that takes the head of the queue, a change of
settings, the missing edge, and the gate's level with its filter.
Its clauses follow the model's choices of log 22 and 116 where the spec is silent. -/
def Obligations.AuxAndGate : Prop :=
  (∀ (a : Fin 6) (e : TdcEdge) (rising : Bool) (s : State), ∃ t, exec (.auxEdge a e rising) s = .next t ∧
    (auxSelected s a rising = false → frame [] noReg s t) ∧
    (auxSelected s a rising = true → flag s (R.AUX_CFG a) F.AUX_CFG_EN = true → fget s (R.AUX_CFG a) F.AUX_CFG_MODE = 0 →
      fget s (R.AUX_CFG a) F.AUX_CFG_PRESC = 0 → (auxChan s a).presc = 0 → (auxChan s a).fifo.length < 16 → a.val ≠ 4 →
      (auxChan t a).fifo = (auxChan s a).fifo ++ [(auxTime s e / 128, auxTime s e % 128)]) ∧
    frame (.tdc :: .tb :: .free :: evParts)
      (onlyEv [R.TB_CTRL, R.AUX_STAT a, R.AUX_TS_F a, R.AUX_TS_LO a, R.AUX_TS_HI a, R.AUX_PER_INT a, R.AUX_PER_FRAC a, R.AUX_CNT a]) s t) ∧
  (∀ (a : Fin 6) (s : State), ∃ t, exec (.auxTsHiRead a) s = .next t ∧ (auxChan t a).fifo = (auxChan s a).fifo.tail ∧
    frame [.tdc] (only [R.AUX_STAT a, R.AUX_TS_F a, R.AUX_TS_LO a, R.AUX_TS_HI a]) s t) ∧
  (∀ (a : Fin 6) (v : Word) (s : State), ∃ t, exec (.auxCfgWrite a v) s = .next t ∧
    (rd t (R.AUX_CFG a) ≠ rd s (R.AUX_CFG a) → flag t (R.AUX_STAT a) F.AUX_STAT_VALID = false ∧ (auxChan t a).times = []) ∧
    fget t (R.AUX_CFG a) F.AUX_CFG_MODE = getFld v F.AUX_CFG_MODE ∧
    frame [.tdc] (only [R.AUX_CFG a, R.AUX_STAT a]) s t) ∧
  (∀ (a : Fin 6) (t0 : Nat) (s : State), (auxChan s a).lastEdge = some t0 → flag s (R.AUX_CFG a) F.AUX_CFG_EN = true →
    fget s (R.AUX_CFG a) F.AUX_CFG_MODE = 1 → t0 + ticksMs (max 1 (fget s (R.AUX_CFG a) F.AUX_CFG_TIMEOUT)) ≤ now s →
    ∃ t, exec (.auxTimeout a) s = .next t ∧ flag t (R.AUX_STAT a) F.AUX_STAT_TIMEOUT = true ∧
      flag t (R.AUX_STAT a) F.AUX_STAT_VALID = false ∧ evFlag t Ev.auxTimeout = true ∧
      frame (.tdc :: evParts) (onlyEv [R.AUX_STAT a]) s t) ∧
  (∀ (level : Bool) (e : TdcEdge) (s : State), ∃ t, exec (.gateInEdge level e) s = .next t ∧ t.tdc.gateRaw = level ∧
    (level ≠ s.tdc.gateRaw → t.tdc.gatePend = if level = t.tdc.gateFilt then none else some (auxTime s e, level)) ∧
    (∀ p lv, level ≠ s.tdc.gateRaw → s.tdc.gatePend = some (p, lv) →
      t.tdc.gateFilt = if p + gateFilt128 s ≤ auxTime s e then lv else s.tdc.gateFilt) ∧
    frame [.tdc, .capture, .lanes, .cast] (only (R.GATE_CFG :: R.CAP_STAT :: (List.range 6).map R.AUX_STAT)) s t) ∧
  (∀ (t0 : Nat) (lv : Bool) (s : State), s.tdc.gatePend = some (t0, lv) → t0 + gateFilt128 s ≤ 128 * now s →
    ∃ t, exec .filteredGateChange s = .next t ∧ t.tdc.gateFilt = lv ∧ t.tdc.gatePend = none ∧
      flag t R.GATE_CFG F.GATE_CFG_STATE = xor lv (flag s R.GATE_CFG F.GATE_CFG_POL) ∧
      frame [.tdc, .capture, .lanes, .cast] (only (R.GATE_CFG :: R.CAP_STAT :: (List.range 6).map R.AUX_STAT)) s t)

/-! ### Shot scheduling -/

/-- Schedule settings (R88, R90, R91, R92, R95, R96, R100, R106): COMMIT freezes the range and its validation gives the verdict of the
checks, a row is written byte by byte or protected, the seed, the latching read of SEQ, the end of a bank's halt, and the start of firing
in CALIBRATE. Frame starts and marks (R92, R93): a start that is due numbers the frame and begins at its first row, an early mark is
counted and ignored, a SYNC_IO edge without firing starts no frame, and a mark that has failed for two frame lengths stops the fetching of
rows.
Its clauses follow the model's choices of log 25, 28, 29 and 30 where the spec is silent. -/
def Obligations.ScheduleAndFrames : Prop :=
  (∀ s : State, ∃ t, exec .schedCommit s = .next t ∧ flag t R.SHT_VAL F.SHT_VAL_BUSY = true ∧
    (flag s R.SHT_VAL F.SHT_VAL_BUSY = true → frame [] noReg s t) ∧
    (flag s R.SHT_VAL F.SHT_VAL_BUSY = false →
      t.sht.frozen = some (fget s R.SHT_NEXT F.SHT_NEXT_FIRST, fget s R.SHT_NEXT F.SHT_NEXT_LAST)) ∧
    frame [.sht] (only [R.SHT_NEXT, R.SHT_VAL]) s t) ∧
  (∀ (x : Nat × Nat) (s : State), s.sht.frozen = some x → ∃ t, exec .validationDone s = .next t ∧
    t.sht.frozen = none ∧ flag t R.SHT_VAL F.SHT_VAL_BUSY = false ∧
    (validate s x = none → flag t R.SHT_VAL F.SHT_VAL_OK = true ∧ t.sht.pendRange = some x) ∧
    (∀ e r, validate s x = some (e, r) → flag t R.SHT_VAL F.SHT_VAL_OK = false ∧
      fget t R.SHT_VAL F.SHT_VAL_ERR = e % 16 ∧ fget t R.SHT_VAL F.SHT_VAL_ERR_ROW = r % 2 ^ F.SHT_VAL_ERR_ROW.width ∧
      t.sht.pendRange = s.sht.pendRange) ∧
    ((∀ r, validate s x ≠ some (2, r)) → frame [.sht] (only [R.SHT_NEXT, R.SHT_VAL]) s t) ∧
    frame (.sht :: evParts) (fun a => inBlocks [0, 0xF] a || decide (a = R.SHT_NEXT) || decide (a = R.SHT_VAL)) s t) ∧
  (∀ (r : Fin 16384) (o : Fin 128) (d : List Byte) (s : State), ∃ t, exec (.schedRowWrite r o d) s = .next t ∧
    (firstOutside s .host (rowAddr s r + o) (d.take (128 - o)).length true = none →
      (regionOf s (rowAddr s r + o) = .sdram → drcServes s = true) → s.poison = [] →
      (∀ i, i < (d.take (128 - o)).length → clayProtected s (rowAddr s r + o + i) = false) →
      mbytes t (rowAddr s r + o) (d.take (128 - o)).length = d.take (128 - o)) ∧
    (∀ x, firstOutside s .host (rowAddr s r + o) (d.take (128 - o)).length true = some x →
      t.mem = s.mem ∧ evFlag t Ev.decodeErr = true) ∧
    memKept s t (within (rowAddr s r + o) (d.take (128 - o)).length) ∧
    frame (.mem :: .poison :: evParts) (inBlocks [0, 8, 0xF]) s t) ∧
  (∀ (m : Fin 4) (v : Word) (s : State), ∃ t, exec (.seedWrite m v) s = .next t ∧
    (modeOf s = .standby → tget 0#32 t.sht.seed m = v ∧ ∀ k : Fin 4, k ≠ m → tget 0#32 t.sht.seed k = tget 0#32 s.sht.seed k) ∧
    (modeOf s ≠ .standby → t.sht.seed = s.sht.seed ∧ evFlag t Ev.rwmDiscard = true) ∧
    frame (.sht :: evParts) (onlyEv [R.SEED_CHK]) s t) ∧
  (∀ s : State, s.sht.seq < 2 ^ 48 → ∃ t, exec .seqLoRead s = .next t ∧
    fget t R.SHT_SEQ_HI F.SHT_SEQ_HI_SEQ_HI * 2 ^ 32 + (rd t R.SHT_SEQ_LO).toNat = s.sht.seq ∧
    frame [] (only [R.SHT_SEQ_LO, R.SHT_SEQ_HI]) s t) ∧
  (∀ (b : Fin 16) (s : State), ∃ t, exec (.resume b) s = .next t ∧ bankHalted t b = false ∧ tget 0 t.sht.fails b = 0 ∧
    (∀ k : Fin 16, k ≠ b → bankHalted t k = bankHalted s k) ∧ frame [.sht] (only [R.SHT_BANK]) s t) ∧
  (∀ s : State, ∃ t, exec .calRun s = .next t ∧ flag t R.SHT_CTRL F.SHT_CTRL_CAL_RUN = true ∧
    (modeOf s = .calibrate → flag s R.SHT_CTRL F.SHT_CTRL_CAL_RUN = false → t.sht.seq = 0 ∧ t.sht.refTick = now s) ∧
    (modeOf s = .calibrate → firing t = true) ∧
    bitsKept s t R.SHT_CTRL [F.SHT_CTRL_CAL_RUN] ∧ frame [.sht, .emg] (only [R.SHT_CTRL]) s t) ∧
  (∀ s : State, frameSrc s = 0 → firing s = true → nextFrameAt s ≤ now s → modeBusy s = false →
    ∃ t, exec (.frameStart true) s = .next t ∧ t.sht.frameTick = some (now s) ∧ t.sht.markLost = false ∧
      rd t R.SHT_FRAME_NO = rd s R.SHT_FRAME_NO + 1 ∧ t.sht.nextRow = some (fget t R.SHT_ACT F.SHT_ACT_FIRST) ∧
      (∀ a b, s.sht.pendRange = some (a, b) → t.sht.pendRange = none ∧ fget t R.SHT_ACT F.SHT_ACT_FIRST = a % 2 ^ F.SHT_ACT_FIRST.width ∧
        fget t R.SHT_ACT F.SHT_ACT_LAST = b % 2 ^ F.SHT_ACT_LAST.width) ∧
      (s.sht.pendRange = none → rd t R.SHT_ACT = rd s R.SHT_ACT) ∧ t.emg.band = bandOf s) ∧
  (∀ (chb : Bool) (s : State), ∃ t, exec (.frameStart chb) s = .next t ∧ memKept s t (fun a => gapArea s a || spillArea s a) ∧
    frame (.ps :: .saf :: .sht :: .sys :: .sec :: .tdc :: .gt :: .tilt :: .ctl :: .emg :: .slq :: .dram :: .mem :: .poison :: .ring :: .free ::
      evParts) (tilesAnd [0, 4, 8, 9, 0xA, 0xB, 0xC, 0xE, 0xF, 0x15]) s t) ∧
  (∀ (src : Fin 4) (chb : Bool) (s : State), ∃ t, exec (.frameMark src chb) s = .next t ∧
    memKept s t (fun a => gapArea s a || spillArea s a) ∧
    frame (.ps :: .saf :: .sht :: .sys :: .sec :: .tdc :: .gt :: .tilt :: .ctl :: .emg :: .slq :: .dram :: .mem :: .poison :: .ring :: .free ::
      evParts) (tilesAnd [0, 4, 8, 9, 0xA, 0xB, 0xC, 0xE, 0xF, 0x15]) s t) ∧
  (∀ (chb : Bool) (s : State), frameSrc s = 0 → nextFrameAt s > now s →
    ∃ t, exec (.frameStart chb) s = .next t ∧ frame [] noReg s t) ∧
  (∀ (chb : Bool) (k : Nat) (s : State), frameSrc s = 2 → firing s = true → s.sht.frameTick = some k → now s < k + frameLen s →
    ∃ t, exec (.frameMark 2 chb) s = .next t ∧ flag t R.SHT_STAT F.SHT_STAT_EARLY_MARK = true ∧
      fget t R.SHT_CNT_A F.SHT_CNT_A_EARLY_CNT = satN F.SHT_CNT_A_EARLY_CNT.width (fget s R.SHT_CNT_A F.SHT_CNT_A_EARLY_CNT + 1) ∧
      frame [] (only [R.SHT_STAT, R.SHT_CNT_A]) s t) ∧
  (∀ s : State, frameSrc s = 2 → firing s = true → s.sht.frameTick = none → modeBusy s = false →
    ∃ t, exec (.frameMark 2 true) s = .next t ∧ t.sht.frameTick = some (now s)) ∧
  (∀ s : State, firing s = true → frameSrc s ≠ 0 → s.sht.markLost = false →
    s.sht.frameTick.getD s.sht.refTick + 2 * frameLen s ≤ now s →
    ∃ t, exec .frameMarkLost s = .next t ∧ t.sht.markLost = true ∧ flag t R.SHT_STAT F.SHT_STAT_MARK_LOST = true ∧
      evFlag t Ev.frameMarkLost = true ∧ frame (.sht :: evParts) (onlyEv [R.SHT_STAT]) s t) ∧
  (∀ (chb : Bool) (s : State), firing s = false → fget s R.CAP_STAT F.CAP_STAT_STATE ≠ 1 → ringTalks s = false →
    ∃ t, exec (.syncIoEdge chb) s = .next t ∧ frame [] noReg s t)

/-- Rows and shots (R94, R95, R97, R98, R99): a row without any listed one to fetch changes nothing, a shot that is not due is not armed,
a fired shot drives its emitter and its second pulse follows by the spacing code, a feedback edge joins the waiting shot or is counted as
stray, and the wait ends once. Diagnostic capture (R105): armed on the ring master or a device alone, fired from ARMED only, fixed and
ended at its instants, and released from DONE.
Its clauses follow the model's choices of log 24, 25, 27, 28, 33, 34 and 35 where the spec is silent. -/
def Obligations.ShotsAndCapture : Prop :=
  (∀ s : State, ∃ t, exec .rowFetch s = .next t ∧
    (s.sht.nextRow = none ∨ firing s = false → frame [] noReg s t) ∧
    (∀ r k, s.sht.nextRow = some r → s.sht.frameTick = some k → firing s = true → s.sht.markLost = false → s.tdc.frameHeld = false →
      s.sht.slots.length < 64 → t.sht.nextRow = if r < fget s R.SHT_ACT F.SHT_ACT_LAST then some (r + 1) else none) ∧
    memKept s t (fun a => gapArea s a || spillArea s a) ∧
    frame (.sht :: .saf :: .slq :: .ps :: .mem :: .poison :: .dram :: evParts) (inBlocks [0, 8, 0xB, 0xE, 0xF]) s t) ∧
  (∀ (behind : Bool) (s : State), ∃ t, exec (.shotArm behind) s = .next t ∧
    (firing s = false ∨ s.sht.markLost = true ∨ s.tdc.frameHeld = true → frame [] noReg s t) ∧
    (∀ p, firstDue (planShots s (candidates s) s.sht.lastEmit s.sht.lastBank) = some p → now s < p.due → frame [] noReg s t) ∧
    (∀ p, firing s = true → s.sht.markLost = false → s.tdc.frameHeld = false →
      firstDue (planShots s (candidates s) s.sht.lastEmit s.sht.lastBank) = some p → p.due ≤ now s → now s < p.due + tickStep s →
      govTurn s 4 = true → behind = false → bankHalted s p.c.bank = false → p.congest = false →
      (∃ w, t.sht.armMsgs = s.sht.armMsgs ++ [armMsgOf p.c p.fire w]) ∧
      fget t R.SHT_CNT_A F.SHT_CNT_A_LATE_CNT = fget s R.SHT_CNT_A F.SHT_CNT_A_LATE_CNT) ∧
    memKept s t (gapArea s) ∧ frame (.emg :: gapParts ++ evParts) (inBlocks [0, 7, 8, 0xB, 0xF]) s t) ∧
  (∀ (q : BitVec 48) (x : Shot) (s : State), shotOf s q.toNat = some x → x.fired = false → x.msg.fire ≤ now s →
    ∃ t, exec (.shotFire q) s = .next t ∧ shotOf t q.toNat = some { x with fired := true, fbLost := s.tdc.unlocked.contains 64 } ∧
      (trigAllowed s (x.msg.emitter / 8) = true →
        ∃ e ∈ t.pins.emitTrig, e.1 = x.msg.emitter ∧ x.msg.fire + pulseWidth s ≤ e.2) ∧
      (trigAllowed s (x.msg.emitter / 8) = false → t.pins = s.pins) ∧ frame [.sht, .pins] noReg s t) ∧
  (∀ (q : BitVec 48) (x : Shot) (s : State), shotOf s q.toNat = some x → x.fired = true → x.second = false →
    x.msg.fire + codeTicks x.msg.code ≤ now s →
    ∃ t, exec (.secondPulse q) s = .next t ∧ shotOf t q.toNat = some { x with second := true } ∧
      (trigAllowed s (x.msg.emitter / 8) = false → t.pins = s.pins) ∧ frame [.sht, .pins] noReg s t) ∧
  (∀ (b : Fin 16) (e : TdcEdge) (s : State), ∃ t, exec (.emitFbEdge b e) s = .next t ∧
    (64 ∈ s.tdc.unlocked → frame [] noReg s t) ∧
    (∀ x k, 64 ∉ s.tdc.unlocked → k = edgeTime s 64 b e →
      (bankWaiting s b).find? (fun x => decide (128 * x.msg.fire ≤ k) && decide (k ≤ 128 * waitEnd s x)) = some x →
      shotOf s x.msg.seq = some x → coarseOvf (eventTime k x.msg.fire) = false →
      ∃ y, shotOf t x.msg.seq = some y ∧ y.edges = x.edges ++ [eventTime k x.msg.fire]) ∧
    (64 ∉ s.tdc.unlocked → (∀ x ∈ bankWaiting s b,
        ¬ (128 * x.msg.fire ≤ edgeTime s 64 b e ∧ edgeTime s 64 b e ≤ 128 * waitEnd s x)) →
      fget t R.SHT_CNT_B F.SHT_CNT_B_STRAY = satN F.SHT_CNT_B_STRAY.width (fget s R.SHT_CNT_B F.SHT_CNT_B_STRAY + 1)) ∧
    frame [.sht] (only [R.SHT_CNT_B]) s t) ∧
  (∀ (q : BitVec 48) (s : State), ∃ t, exec (.feedbackWaitEnd q) s = .next t ∧
    (∀ x, shotOf s q.toNat = some x → x.waited = true → frame [] noReg s t) ∧
    (∀ x, shotOf s q.toNat = some x → x.fired = true → x.waited = false → waitEnd s x ≤ now s →
      ∃ y, shotOf t q.toNat = some y ∧ y.waited = true ∧ (y.ok = some true ↔ ∃ e, fbVerdict s x = .accepted e)) ∧
    memKept s t (fun a => gapArea s a || capArea s a) ∧
    frame (.fe :: .emg :: .dram :: gapParts ++ evParts) (inBlocks [0, 8, 0xB, 0xF]) s t) ∧
  (∀ s : State, ∃ t, exec .capArm s = .next t ∧
    (ringFollower s = true → flag t R.SHT_STAT F.SHT_STAT_DENIED = true ∧ capState t = capState s) ∧
    (ringFollower s = false → capState s = 0 → 0 < (rd s R.CAP_LEN).toNat → capState t = 1 ∧ t.sht.capTicks = []) ∧
    frame [.sht, .lanes, .cast] (only [R.SHT_STAT, R.CAP_STAT]) s t) ∧
  (∀ s : State, ∃ t, exec .capDisarm s = .next t ∧
    (ringFollower s = false → capState t = 0) ∧ (ringFollower s = true → flag t R.SHT_STAT F.SHT_STAT_DENIED = true) ∧
    frame [.lanes, .cast] (only [R.SHT_STAT, R.CAP_STAT]) s t) ∧
  (∀ s : State, ∃ t, exec .capFire s = .next t ∧
    (capState s = 1 → capState t = 2 ∧ t.sht.capT = now s ∧
      t.sht.capEnd = now s + ticksUs 1 + (if flag s R.RING_CFG F.RING_CFG_RING_EN then (rd s R.RING_RTT).toNat else 0)) ∧
    (capState s ≠ 1 → frame [] noReg s t) ∧ frame [.capture, .lanes, .cast] (only [R.CAP_STAT]) s t) ∧
  (∀ s : State, ∃ t, exec .capRelease s = .next t ∧
    (capState s = 4 → capState t = if flag s R.CAP_CTRL F.CAP_CTRL_REPEAT then 1 else 0) ∧
    (capState s ≠ 4 → frame [] noReg s t) ∧ frame [.sht] (only [R.CAP_STAT]) s t) ∧
  (∀ s : State, ∃ t, exec .capSettleEnd s = .next t ∧
    (capState s = 2 → s.sht.capEnd ≤ now s → capState t = 3) ∧ bitsKept s t R.CAP_STAT [F.CAP_STAT_STATE] ∧
    frame [] (only [R.CAP_STAT]) s t) ∧
  (∀ s : State, capState s = 3 → s.sht.capT + 16 * fget s R.CAP_WIN F.CAP_WIN_POST ≤ now s →
    ∃ t, exec .capPostEnd s = .next t ∧ rd t R.CAP_TICK_LO = BitVec.ofNat 32 s.sht.capT ∧
      rd t R.CAP_TICK_HI = BitVec.ofNat 32 (s.sht.capT / 2 ^ 32) ∧ evFlag t Ev.capDone = true ∧
      memKept s t (capArea s) ∧
      frame (.sht :: .mem :: .poison :: .dram :: evParts)
        (fun a => inBlocks [0, 0xF] a || decide (a ∈ [R.CAP_TICK_LO, R.CAP_TICK_HI, R.CAP_FIRST_LO, R.CAP_FIRST_HI, R.SHT_STAT])) s t)

/-! ### Grain tiles and their histograms -/

/-- Windows, pairs and conversion (R101, R109 to R113, R115, R118): the oldest arm message reaches the listening channels and no
other, a window that is due is decided once and counts its shot in the histogram that fills, and a full list becomes bins.
Its clauses follow the model's choices of log 36, 37 and 53 where the spec is silent. -/
def Obligations.TileDecisions : Prop :=
  (∀ (m : ArmMsg) (l : List ArmMsg) (s : State), s.sht.armMsgs = m :: l → ∃ t, exec .windowArm s = .next t ∧ t.sht.armMsgs = l ∧
    (∀ n, n ∉ listenChans m.listen → feChan t n = feChan s n ∧ gtChan t n = gtChan s n) ∧
    (∀ n ∈ listenChans m.listen, tileRuns s (n / 16) = true → (feChan s n).shotCnt < (feChan t n).shotCnt) ∧
    memKept s t (gapArea s) ∧ frame (.gt :: .fe :: .tdc :: gapParts ++ evParts) (tilesAnd [0, 8, 0xB]) s t) ∧
  (∀ s : State, s.sht.armMsgs = [] → ∃ t, exec .windowArm s = .next t ∧ frame [] noReg s t) ∧
  (∀ (n : Fin 1024) (q : BitVec 48) (w : Win) (o : Nat) (s : State), winOf s n q.toNat = some w → w.pending = false →
    w.decided = false → w.gap = false → w.ofs = some o → assignedBuf s n w.msg.row w.msg.frame = false →
    ∃ t, exec (.pairDecide n q) s = .next t ∧ winOf t n q.toNat = some { w with decided := true } ∧
      (∀ f, fillingBuf s n w.msg.row w.msg.frame = some f → ((gtChan t n).buf f).shots = ((gtChan s n).buf f).shots +
        (if w.gainNew = true ∧ getFld (histSetOf s n w.msg.row w.msg.frame).ctrl F.GT_CTRL_GN_KEEP = 0 then 0 else 1)) ∧
      memKept s t (fun a => within (areaAddr n 0) 0x1000 a || within (areaAddr n 1) 0x1000 a) ∧
      frame (.fe :: .gt :: .mem :: .poison :: evParts) (fun a => inBlocks [0x20 + n / 16, 0xF] a || decide (a = R.SHT_STAT)) s t) ∧
  (∀ (n : Fin 1024) (q : BitVec 48) (s : State), (∀ w, winOf s n q.toNat = some w → w.pending = true ∨ w.ofs = none) →
    ∃ t, exec (.pairDecide n q) s = .next t ∧ frame [] noReg s t) ∧
  (∀ (n : Fin 1024) (s : State), ∃ t, exec (.conversionDone n) s = .next t ∧
    (∀ f : Fin 2, ((gtChan s n).buf f).converting = true → ((gtChan s n).buf f).st = .filling →
      ((gtChan t n).buf f).sparse = false ∧ ((gtChan t n).buf f).converting = false ∧ ((gtChan t n).buf f).waiting = []) ∧
    ((∀ f : Fin 2, ((gtChan s n).buf f).converting = false) → frame [] noReg s t) ∧
    memKept s t (fun a => within (areaAddr n 0) 0x1000 a || within (areaAddr n 1) 0x1000 a) ∧
    frame (.gt :: .mem :: .poison :: evParts) (fun a => inBlocks [0x20 + n / 16, 0xF] a || decide (a = R.SHT_STAT)) s t)

/-- The life of a histogram buffer (R26, R114, R120, R121, R129): a ready one is posted with its ticket or refused, one still posted at
its deadline is lost, a cleared one is free and reads 0 or takes the next histogram, and a ticket passes to the queue of its tile's
cluster in order.
Its clauses follow the model's choices of log 38 and 39 where the spec is silent. -/
def Obligations.HistogramBuffers : Prop :=
  (∀ (n : Fin 1024) (f : Fin 2) (s : State), histReady s n ((gtChan s n).buf f) = true → ((gtChan s n).buf f).lost = false →
    ∃ t, exec (.histClose n) s = .next t ∧
      ((postOf s (n / 16)).length + (if f.val = 1 ∧ histReady s n ((gtChan s n).buf 0) = true then 1 else 0) < 32 →
        ((gtChan t n).buf f).st = .posted ∧ ∃ k ∈ postOf t (n / 16), k.tile = n / 16 ∧
        k.ch = n % 16 ∧ k.buf = f ∧ k.row = ((gtChan s n).buf f).hr.row ∧ k.frame = ((gtChan s n).buf f).hr.frame ∧
        k.shots = ((gtChan s n).buf f).shots) ∧
      (32 ≤ (postOf s (n / 16)).length → ((gtChan t n).buf f).st = .clearing ∧
        flag t (R.GT_STAT (n / 16)) F.GT_STAT_REFUSED = true)) ∧
  (∀ (n : Fin 1024) (s : State), ∃ t, exec (.histClose n) s = .next t ∧
    ((∀ f : Fin 2, histReady s n ((gtChan s n).buf f) = false) → frame [] noReg s t) ∧
    memKept s t (fun a => within (areaAddr n 0) 16 a || within (areaAddr n 1) 16 a || gapArea s a) ∧
    frame (.gt :: .free :: gapParts ++ evParts) (inBlocks [0x20 + n / 16, 0, 8, 0xB, 0xF]) s t) ∧
  (∀ (n : Fin 1024) (f : Fin 2) (s : State), histReady s n ((gtChan s n).buf f) = true → ((gtChan s n).buf f).lost = true →
    ∃ t, exec (.histClose n) s = .next t ∧ ((gtChan t n).buf f).st = .clearing ∧
      (∀ k ∈ postOf t (n / 16), k ∈ postOf s (n / 16) ∨ k.ch ≠ n % 16 ∨ k.buf ≠ f)) ∧
  (∀ (n : Fin 1024) (f : Fin 2) (s : State), ((gtChan s n).buf f).st = .posted → ((gtChan s n).buf f).deadline ≤ now s →
    ∃ t, exec (.histDeadline n f) s = .next t ∧ ((gtChan t n).buf f).st = .clearing ∧
      (((gtChan s n).buf f).queued = true → flag t (R.GT_STAT (n / 16)) F.GT_STAT_DEADLINE = true) ∧
      (((gtChan s n).buf f).queued = false → flag t (R.GT_STAT (n / 16)) F.GT_STAT_REFUSED = true ∧
        ∀ k ∈ postOf t (n / 16), k.ch ≠ n % 16 ∨ k.buf ≠ f) ∧
      memKept s t (gapArea s) ∧ frame (.gt :: gapParts ++ evParts) (inBlocks [0x20 + n / 16, 0, 8, 0xB]) s t) ∧
  (∀ (n : Fin 1024) (f : Fin 2) (s : State), ((gtChan s n).buf f).st = .clearing → ((gtChan s n).buf f).clearAt + 128 ≤ now s →
    ∃ t, exec (.bufferClearDone n f) s = .next t ∧
      (((gtChan s n).buf f).nextRow = none → (gtChan t n).buf f = Hist.init) ∧
      (∀ x, ((gtChan s n).buf f).nextRow = some x → ((gtChan t n).buf f).st = .filling ∧ ((gtChan t n).buf f).hr = x.1 ∧
        ((gtChan t n).buf f).set = x.2 ∧ ((gtChan t n).buf f).nextRow = none ∧ ((gtChan t n).buf f).shots = 0) ∧
      (∀ i, i < 0x1000 → mget t (areaAddr n f + i) = 0) ∧ memKept s t (within (areaAddr n f) 0x1000) ∧
      frame [.gt, .mem, .poison] (only [R.GT_BUF (n / 16) (n % 16)]) s t) ∧
  (∀ (i : Fin 64) (k : Ticket) (l : List Ticket) (s : State), postOf s i = k :: l → k.entry + 16 ≤ now s →
    (tqOf s (i / 4)).length < 1024 → qTurn s (i / 4) (i % 4) = true → ∃ t, exec (.ticketPost i) s = .next t ∧ postOf t i = l ∧
      tqOf t (i / 4) = tqOf s (i / 4) ++ [{ k with entry := now s, slot := tget 0 s.pool.tqWr (i / 4) }] ∧
      memKept s t (within (tqAddr s (i / 4) (tget 0 s.pool.tqWr (i / 4))) 16) ∧
      frame (.gt :: .pool :: .mem :: .poison :: evParts) (inBlocks [0, 0xA, 0xF, 0x20 + i]) s t) ∧
  (∀ (i : Fin 64) (s : State), (∀ k l, postOf s i = k :: l → now s < k.entry + 16 ∨ 1024 ≤ (tqOf s (i / 4)).length) →
    ∃ t, exec (.ticketPost i) s = .next t ∧ frame [] noReg s t)

/-! ### Engine pool -/

/-- Takes, steals and fetches (R130 to R136): a head ticket that has not expired leaves its queue for the engine and holds its buffer,
an expired one is dropped; a steal takes the oldest tickets out of the victim's queue and appends them at home when it is due; and a
fetched histogram stands in the engine while its tile buffer clears.
Its clauses follow the model's choices of log 39 and 40 where the spec is silent. -/
def Obligations.TicketTakes : Prop :=
  (∀ (e : Fin 256) (q : Nat) (k : Ticket) (l : List Ticket) (s : State), mayTake s e = true →
    takeFrom s (e / 16) (engState s e = engIdle) = some q → tqOf s q = k :: l → qTurn s q (takeTurn e q) = true →
    firstPoison s (tqAddr s q k.slot) 16 = none →
    ∃ t, exec (.ticketTake e) s = .next t ∧ tqOf t q = l ∧
      (0 < dlDiff s k →
        fget t (R.CL_CNT_A (e / 16)) F.CL_CNT_A_TAKEN = satN F.CL_CNT_A_TAKEN.width (fget s (R.CL_CNT_A (e / 16)) F.CL_CNT_A_TAKEN + 1)) ∧
      (0 < dlDiff s k → ((gtChan s (16 * k.tile + k.ch)).buf k.buf).st = .posted → bufGen s (16 * k.tile + k.ch) k.buf = k.gen →
        ((gtChan t (16 * k.tile + k.ch)).buf k.buf).st = .held ∧ engState t e = engBusy ∧
        ∃ r, r.tk = k ∧ ((eng t e).run = some r ∨ (eng t e).next = some r)) ∧
      (dlDiff s k ≤ 0 → flag t R.ENP_STAT F.ENP_STAT_EXPIRED = true ∧ eng t e = eng s e)) ∧
  (∀ (e : Fin 256) (s : State), ∃ t, exec (.ticketTake e) s = .next t ∧ (mayTake s e = false → frame [] noReg s t) ∧
    frame (.pool :: .gt :: evParts) (tilesAnd [0xA, 0xB, 0xF]) s t) ∧
  (∀ (e : Fin 256) (v : Nat) (s : State), stealing s e = true → victimOf s (e / 16) = some v → qTurn s v 21 = true →
    stealGrant s v (e / 16) = true →
    ∃ t, exec (.stealProbe e) s = .next t ∧
      (∀ k, k = min (ceilDiv (stealable s v).length 2) (max 1 (fget s R.ENP_CTRL F.ENP_CTRL_STEAL_MAX)) →
        tqOf t v = (stealOut k (tqOf s v)).2 ∧
        t.pool.moves = s.pool.moves ++ [⟨e, now s + 2 * (8 + ceilDiv k 4),
          (stealOut k (tqOf s v)).1.filter (fun x => (firstPoison s (tqAddr s v x.slot) 16).isNone)⟩] ∧
        (s.poison = [] → frame [.pool] (inBlocks [0xA]) s t))) ∧
  (∀ (e : Fin 256) (s : State), ∃ t, exec (.stealProbe e) s = .next t ∧
    (stealing s e = false → frame [] noReg s t) ∧
    (∀ v, victimOf s (e / 16) = some v → qTurn s v 21 = false ∨ stealGrant s v (e / 16) = false → frame [] noReg s t) ∧
    frame (.pool :: evParts) (inBlocks [0xA, 0xF]) s t) ∧
  (∀ (e : Fin 256) (m : Steal) (s : State), s.pool.moves.find? (fun m => decide (m.eng = e.val ∧ m.due ≤ now s)) = some m →
    ∃ t, exec (.stealMoveDone e) s = .next t ∧ (∀ x ∈ t.pool.moves, x.eng ≠ e.val) ∧
      (tqOf t (e / 16)).take (tqOf s (e / 16)).length = tqOf s (e / 16) ∧
      ((tqOf t (e / 16)).drop (tqOf s (e / 16)).length).map (fun k => { k with slot := 0 }) = m.tks.map (fun k => { k with slot := 0 }) ∧
      (tget 0 s.pool.tqWr (e / 16) < 1024 → memKept s t (within (tqAddr s (e / 16) 0) 0x4000)) ∧
      frame (.pool :: .mem :: .poison :: evParts) (inBlocks [0, 0xA, 0xF]) s t) ∧
  (∀ (e : Fin 256) (r : Run) (second : Bool) (b : Nat) (s : State), fetching (eng s e) = some (r, second) →
    r.fetchAt + 2 * r.beats ≤ now s → b = (if r.tk.sparse then min 4096 (64 * ceilDiv (16 + 8 * r.count) 64) else 4096) →
    firstPoison s (areaAddr (16 * r.tk.tile + r.tk.ch) r.tk.buf) b = none →
    ((gtChan s (16 * r.tk.tile + r.tk.ch)).buf r.tk.buf).lost = false →
    ∃ t, exec (.fetchDone e) s = .next t ∧ ((gtChan t (16 * r.tk.tile + r.tk.ch)).buf r.tk.buf).st = .clearing ∧
      mbytes t (0x030000C000 + 0x10000 * e + 0x1000 * r.buf) b = mbytes s (areaAddr (16 * r.tk.tile + r.tk.ch) r.tk.buf) b ∧
      memKept s t (within (0x030000C000 + 0x10000 * e + 0x1000 * r.buf) b) ∧
      (second = false → ∃ x, (eng t e).run = some x ∧ x.tk = r.tk ∧ x.fetched = true ∧ x.kstart.isSome = true) ∧
      (second = true → ∃ x, (eng t e).next = some x ∧ x.tk = r.tk ∧ x.fetched = true)) ∧
  (∀ (e : Fin 256) (r : Run) (second : Bool) (s : State), fetching (eng s e) = some (r, second) → r.fetchAt + 2 * r.beats ≤ now s →
    ((gtChan s (16 * r.tk.tile + r.tk.ch)).buf r.tk.buf).lost = true →
    ∃ t, exec (.fetchDone e) s = .next t ∧ ((gtChan t (16 * r.tk.tile + r.tk.ch)).buf r.tk.buf).st = .clearing ∧
      (second = false → (eng t e).run.map (·.tk) = (eng s e).next.map (·.tk)) ∧ (eng t e).next = none ∧ memKept s t (gapArea s)) ∧
  (∀ (e : Fin 256) (s : State), ∃ t, exec (.fetchDone e) s = .next t ∧ (fetching (eng s e) = none → frame [] noReg s t) ∧
    memKept s t (fun a => gapArea s a || within (engAddr e + 0xC000) 0x2000 a) ∧
    frame (.pool :: .gt :: gapParts ++ evParts) (tilesAnd [0, 8, 0xA, 0xB, 0xF]) s t)

/-- Kernel runs and loads (R135, R138, R140, R141, R146, R147): the echoes of a completed run reach the point stage in order while it
has credit, an error in local memory or an overrun retires the engine, a loaded engine leaves LOAD, and a re-initialised cluster has
every engine in LOAD.
Its clauses follow the model's choices of log 41, 43 and 44 where the spec is silent. -/
def Obligations.KernelRuns : Prop :=
  (∀ (e : Fin 256) (ce : BitVec 16) (r : Run) (t0 : Nat) (s : State), (eng s e).run = some r → r.kstart = some t0 →
    t0 + kernelCycles r ≤ now s → runOver s r t0 = false → runPoison s e r = none →
    ∃ t, exec (.kernelComplete e ⟨ce, false⟩) s = .next t ∧ (eng t e).next = none ∧
      (eng t e).run.map (·.tk) = (eng s e).next.map (·.tk) ∧
      (∃ j, t.ps.echoes = s.ps.echoes ++ (runEchoes s e r).take j) ∧
      ((runEchoes s e r).length ≤ credits s (e / 16) → (∀ x, sliceOf s r.tk.row r.tk.frame = some x → x.stored = true) →
        t.ps.echoes = s.ps.echoes ++ runEchoes s e r) ∧
      fget t (R.ENG_STAT e) F.ENG_STAT_ECC_CE = satN F.ENG_STAT_ECC_CE.width (fget s (R.ENG_STAT e) F.ENG_STAT_ECC_CE + ce.toNat) ∧
      memKept s t (fun a => gapArea s a || within (engAddr e + 0xE000) 0x2000 a) ∧
      frame (.pool :: .gt :: .free :: gapParts ++ evParts) (tilesAnd [0, 8, 0xA, 0xB, 0xF]) s t) ∧
  (∀ (e : Fin 256) (ce : BitVec 16) (ue : Bool) (r : Run) (t0 : Nat) (s : State), (eng s e).run = some r → r.kstart = some t0 →
    t0 + kernelCycles r ≤ now s → runOver s r t0 = false → ue = true ∨ (runPoison s e r).isSome = true →
    ∃ t, exec (.kernelComplete e ⟨ce, ue⟩) s = .next t ∧ engState t e = engRetired ∧ fget t (R.ENG_STAT e) F.ENG_STAT_CAUSE = 3 ∧
      (eng t e).run = none ∧ t.ps.echoes = s.ps.echoes ∧ memKept s t (gapArea s) ∧
      frame (.pool :: .gt :: .free :: gapParts ++ evParts) (tilesAnd [0, 8, 0xA, 0xB, 0xF]) s t) ∧
  (∀ (e : Fin 256) (ce : BitVec 16) (ue : Bool) (r : Run) (t0 : Nat) (s : State), (eng s e).run = some r → r.kstart = some t0 →
    runOver s r t0 = true →
    ∃ t, exec (.kernelComplete e ⟨ce, ue⟩) s = .next t ∧ engState t e = engRetired ∧ fget t (R.ENG_STAT e) F.ENG_STAT_CAUSE = 2 ∧
      t.ps.echoes = s.ps.echoes ∧ memKept s t (gapArea s) ∧
      frame (.pool :: .gt :: gapParts ++ evParts) (tilesAnd [0, 8, 0xA, 0xB, 0xF]) s t) ∧
  (∀ (e : Fin 256) (ce : BitVec 16) (ue : Bool) (s : State),
    (∀ r t0, (eng s e).run = some r → r.kstart = some t0 → now s < t0 + kernelCycles r) →
    ∃ t, exec (.kernelComplete e ⟨ce, ue⟩) s = .next t ∧ frame [] noReg s t) ∧
  (∀ (e : Fin 256) (r : Run) (t0 : Nat) (s : State), (eng s e).run = some r → r.kstart = some t0 → t0 + kernelCycles r + 64 < now s →
    ∃ t, exec (.kernelOverrun e) s = .next t ∧ engState t e = engRetired ∧ fget t (R.ENG_STAT e) F.ENG_STAT_CAUSE = 2 ∧
      flag t R.ENP_STAT F.ENP_STAT_ABORT = true ∧ flag t R.ENP_STAT F.ENP_STAT_RETIRE = true ∧
      memKept s t (gapArea s) ∧ frame (.pool :: .gt :: gapParts ++ evParts) (tilesAnd [0, 8, 0xA, 0xB]) s t) ∧
  (∀ (e : Fin 256) (s : State), engState s e = engLoad → (∃ a, lookup s.pool.src (activeBank s) = some a) →
    (∀ b ∈ neededBanks s, ∀ a, lookup s.pool.src b = some a → imgCrcOk s a = true) →
    ∃ t, exec (.engineLoadDone e) s = .next t ∧
      ((eng s e).reinit = true → engState t e = engTest ∧ (eng t e).testAt = now s) ∧
      ((eng s e).reinit = false → engState t e = engIdle ∨ engState t e = engDrain) ∧
      (swapState s = 0 → ∀ a, lookup s.pool.src (activeBank s) = some a →
        mbytes t (bankAddr e (activeBank s)) (imgSize s a) = mbytes s a (imgSize s a) ∧
        memKept s t (within (bankAddr e (activeBank s)) (imgSize s a)) ∧
        (a + 0x10000 ≤ engAddr e ∨ engAddr e + 0x10000 ≤ a → fget t R.ENP_KINFO F.ENP_KINFO_SET_ACT = mrd s a 2)) ∧
      memKept s t (within (engAddr e) 0xC000) ∧ frame [.pool, .mem, .poison] (inBlocks [0xA]) s t) ∧
  (∀ (e : Fin 256) (a : Nat) (s : State), engState s e = engLoad → lookup s.pool.src (activeBank s) = some a → imgCrcOk s a = false →
    ∃ t, exec (.engineLoadDone e) s = .next t ∧ engState t e = engRetired ∧ fget t (R.ENG_STAT e) F.ENG_STAT_CAUSE = 4 ∧
      memKept s t (gapArea s) ∧ frame (.pool :: .gt :: gapParts ++ evParts) (tilesAnd [0, 8, 0xA, 0xB, 0xF]) s t) ∧
  (∀ (e : Fin 256) (a : Nat) (s : State), engState s e ∈ [engIdle, engBusy, engDrain] → swapState s = 1 →
    1 - activeBank s ∉ (eng s e).banks → lookup s.pool.src (1 - activeBank s) = some a → imgCrcOk s a = true →
    ∃ t, exec (.engineLoadDone e) s = .next t ∧ 1 - activeBank s ∈ (eng t e).banks ∧ engState t e = engState s e ∧
      mbytes t (bankAddr e (1 - activeBank s)) (imgSize s a) = mbytes s a (imgSize s a) ∧
      memKept s t (within (bankAddr e (1 - activeBank s)) (imgSize s a)) ∧ frame [.pool, .mem, .poison] (inBlocks [0xA]) s t) ∧
  (∀ (c : Fin 16) (s : State), ∃ t, exec (.clusterReinit c) s = .next t ∧ 0x40 + c.val ∈ t.reinit ∧
    flag t (R.CL_STAT c) F.CL_STAT_REINIT_BUSY = true ∧ (∀ e ∈ clEngines c, engState t e = engLoad ∧ (eng t e).run = none) ∧
    memKept s t (gapArea s) ∧ frame (.reinit :: .pool :: .gt :: gapParts ++ evParts) (tilesAnd [0, 8, 0xA, 0xB]) s t)

/-- Self-test (R135, R143, R144): a drained engine enters TEST, a passed test returns it to work and notes the time, a failed or late one
retires it. The hitless kernel swap (R147): a request with a good header starts loading and one with a bad header fails, a cancel ends it,
the new set is reported once every engine has it, loading fails after 200 µs, and the old bank is freed once no older ticket is left.
Its clauses follow the model's choices of log 41 where the spec is silent. -/
def Obligations.SelfTestAndSwap : Prop :=
  (∀ (e : Fin 256) (s : State), ∃ t, exec (.selfTestStart e) s = .next t ∧
    (engState s e = engDrain → (eng s e).run = none → engState t e = engTest ∧ (eng t e).testAt = now s) ∧
    (engState s e ≠ engDrain → frame [] noReg s t) ∧ frame [.pool] (only [R.ENG_STAT e, R.CL_STAT (e / 16)]) s t) ∧
  (∀ (e : Fin 256) (ce : BitVec 16) (s : State), engState s e = engTest → now s ≤ (eng s e).testAt + stSlot s → s.poison = [] →
    ∃ t, exec (.selfTestDone e true ce false) s = .next t ∧ engState t e ≠ engTest ∧ engState t e ≠ engRetired ∧
      (eng t e).passAt = some (upTime s) ∧ fget t (R.ENG_STAT e) F.ENG_STAT_LAST_PASS = 0 ∧
      fget t (R.CL_CNT_D (e / 16)) F.CL_CNT_D_ST_PASS =
        satN F.CL_CNT_D_ST_PASS.width (fget s (R.CL_CNT_D (e / 16)) F.CL_CNT_D_ST_PASS + 1) ∧
      fget t (R.ENG_STAT e) F.ENG_STAT_ECC_CE = satN F.ENG_STAT_ECC_CE.width (fget s (R.ENG_STAT e) F.ENG_STAT_ECC_CE + ce.toNat) ∧
      memKept s t (within (engAddr e + 0xC000) 0x4000) ∧ frame (.pool :: .free :: .mem :: .poison :: evParts) (inBlocks [0xA, 0xF]) s t) ∧
  (∀ (e : Fin 256) (ce : BitVec 16) (s : State), engState s e = engTest → firstPoison s (engAddr e) 0x10000 = none →
    ∃ t, exec (.selfTestDone e false ce false) s = .next t ∧ engState t e = engRetired ∧
      fget t (R.ENG_STAT e) F.ENG_STAT_CAUSE = 1 ∧ flag t R.ENP_STAT F.ENP_STAT_RETIRE = true ∧
      memKept s t (fun a => gapArea s a || within (engAddr e + 0xC000) 0x4000 a) ∧
      frame (.pool :: .gt :: .free :: gapParts ++ evParts) (tilesAnd [0, 8, 0xA, 0xB, 0xF]) s t) ∧
  (∀ (e : Fin 256) (pass : Bool) (ce : BitVec 16) (ue : Bool) (s : State), engState s e = engTest →
    ue = true ∨ (firstPoison s (engAddr e) 0x10000).isSome = true →
    ∃ t, exec (.selfTestDone e pass ce ue) s = .next t ∧ engState t e = engRetired ∧ fget t (R.ENG_STAT e) F.ENG_STAT_CAUSE = 3 ∧
      memKept s t (gapArea s) ∧ frame (.pool :: .gt :: .free :: gapParts ++ evParts) (tilesAnd [0, 8, 0xA, 0xB, 0xF]) s t) ∧
  (∀ (e : Fin 256) (pass : Bool) (ce : BitVec 16) (ue : Bool) (s : State), engState s e ≠ engTest →
    ∃ t, exec (.selfTestDone e pass ce ue) s = .next t ∧ frame [] noReg s t) ∧
  (∀ (e : Fin 256) (s : State), engState s e = engTest → (eng s e).testAt + stSlot s ≤ now s →
    ∃ t, exec (.selfTestTimeout e) s = .next t ∧ engState t e = engRetired ∧ fget t (R.ENG_STAT e) F.ENG_STAT_CAUSE = 1 ∧
      memKept s t (gapArea s) ∧ frame (.pool :: .gt :: gapParts ++ evParts) (tilesAnd [0, 8, 0xA, 0xB]) s t) ∧
  (∀ (a : Nat) (s : State), a = (rd s R.ENP_KSRC_LO).toNat + fget s R.ENP_KSRC_HI F.ENP_KSRC_HI_ADDR * 2 ^ 32 →
    ∃ t, exec .kswapReq s = .next t ∧
      (swapState s ≠ 0 → frame [] noReg s t) ∧
      (swapState s = 0 → imgHdrOk s a = true → swapState t = 1 ∧ lookup t.pool.src (1 - activeBank s) = some a ∧
        t.pool.swapAt = now s ∧ activeBank t = activeBank s) ∧
      (swapState s = 0 → imgHdrOk s a = false → swapState t = 0 ∧ fget t R.ENP_KSWAP F.ENP_KSWAP_ERR = 1 ∧
        flag t R.ENP_STAT F.ENP_STAT_KSWAP_ERR = true) ∧
      (firstPoison s a 0x40 = none → frame (.pool :: evParts) (onlyEv [R.ENP_KSWAP, R.ENP_STAT]) s t) ∧
      frame (.pool :: evParts) (fun x => inBlocks [0xF] x || decide (x ∈ [R.ENP_KSWAP, R.ENP_STAT])) s t) ∧
  (∀ s : State, ∃ t, exec .kswapCancel s = .next t ∧ (swapping s = false → frame [] noReg s t) ∧
    (swapping s = true → swapState t = 0 ∧ fget t R.ENP_KINFO F.ENP_KINFO_SET_NEW = 0 ∧ activeBank t = activeBank s) ∧
    frame [.pool] (only [R.ENP_KSWAP, R.ENP_KINFO]) s t) ∧
  (∀ (a : Nat) (s : State), swapState s = 1 → now s < s.pool.swapAt + ticksUs 200 → lookup s.pool.src (1 - activeBank s) = some a →
    (∀ e, e < 256 → 1 - activeBank s ∈ (eng s e).banks ∨ (engState s e ≠ engIdle ∧ engState s e ≠ engBusy)) →
    ∃ t, exec .kswapLoaded s = .next t ∧ swapState t = 2 ∧ fget t R.ENP_KINFO F.ENP_KINFO_SET_NEW = mrd s a 2 ∧
      frame [] (only [R.ENP_KSWAP, R.ENP_KINFO]) s t) ∧
  (∀ s : State, swapState s = 1 → s.pool.swapAt + ticksUs 200 ≤ now s → ∃ t, exec .kswapTimeout s = .next t ∧ swapState t = 0 ∧
    fget t R.ENP_KSWAP F.ENP_KSWAP_ERR = 2 ∧ flag t R.ENP_STAT F.ENP_STAT_KSWAP_ERR = true ∧ activeBank t = activeBank s ∧
    frame (.pool :: evParts) (onlyEv [R.ENP_KSWAP, R.ENP_STAT, R.ENP_KINFO]) s t) ∧
  (∀ s : State, swapState s = 3 →
    (∀ k ∈ poolTickets s, (k.frame + 2 ^ 16 - fget s R.ENP_KSWAP F.ENP_KSWAP_SWAP_FRAME) % 2 ^ 16 < 2 ^ 15) →
    ∃ t, exec .kswapOldFreed s = .next t ∧ swapState t = 0 ∧ activeBank t = activeBank s ∧
      lookup t.pool.src (1 - activeBank s) = none ∧ frame [.pool] (only [R.ENP_KSWAP, R.ENP_KINFO]) s t)

/-! ### Points, slices and the tilth table -/

/-- Points and slices (R168, R173, R174, R179, R180): the first echo whose angles are here, or whose wait has ended, leaves the
point stage as a point or a lost one; a slice that is complete or overdue is closed with its gap records; and a summation slot ages
out.
Its clauses follow the model's choices of log 43 and 51 where the spec is silent. -/
def Obligations.PointsAndSlices : Prop :=
  (∀ s : State, ∃ t, exec .anglePairing s = .next t ∧ (firstReady s false = none → frame [] noReg s t) ∧
    (∀ i e, firstReady s false = some (i, e) → t.ps.echoes = s.ps.echoes.eraseIdx i) ∧
    (∀ i e x ref, firstReady s false = some (i, e) → sliceOf s e.row e.frame = some x → x.refFor e = some (some ref) →
      fget t R.PS_POINTS F.PS_POINTS_POINTS = satN F.PS_POINTS_POINTS.width (fget s R.PS_POINTS F.PS_POINTS_POINTS + 1) ∨
        flag t R.ENP_STAT F.ENP_STAT_OUT_DROP = true) ∧
    memKept s t (fun a => within (ttBase s) (2 ^ ttSize s * 32) a || gapArea s a || spillArea s a) ∧
    frame (.slq :: .dram :: .free :: gapParts ++ evParts) (inBlocks [0, 8, 0xA, 0xB, 0xE, 0xF]) s t) ∧
  (∀ s : State, ∃ t, exec .angleWaitTimeout s = .next t ∧ (firstReady s true = none → frame [] noReg s t) ∧
    (∀ i e, firstReady s true = some (i, e) → t.ps.echoes = s.ps.echoes.eraseIdx i) ∧
    (∀ i e x ref, firstReady s true = some (i, e) → sliceOf s e.row e.frame = some x → x.refFor e = some (some ref) →
      fget t R.PS_POINTS F.PS_POINTS_POINTS = satN F.PS_POINTS_POINTS.width (fget s R.PS_POINTS F.PS_POINTS_POINTS + 1) ∨
        flag t R.ENP_STAT F.ENP_STAT_OUT_DROP = true) ∧
    memKept s t (fun a => within (ttBase s) (2 ^ ttSize s * 32) a || gapArea s a || spillArea s a) ∧
    frame (.slq :: .dram :: .free :: gapParts ++ evParts) (inBlocks [0, 8, 0xA, 0xB, 0xE, 0xF]) s t) ∧
  (∀ (r : Fin 16384) (f : BitVec 32) (x : Slice) (s : State), sliceOf s r f.toNat = some x → sliceReady s x = true →
    ∃ t, exec (.sliceClose r f) s = .next t ∧ sliceOf t r f.toNat = none ∧
      (∀ g ∈ t.sht.gaps, g.row ≠ x.row.num ∨ g.frame ≠ x.frame) ∧ t.ps.echoes = s.ps.echoes ∧
      (∀ u ∈ (slqQueue t x.queue).units, x.stored = true → u.key = some (x.row.num, x.frame) → u.closed = true) ∧
      memKept s t (spillArea s) ∧
      frame (.slq :: .dram :: .sht :: .ps :: .mem :: .poison :: evParts) (inBlocks [0, 8, 0xB, 0xE, 0xF]) s t) ∧
  (∀ (r : Fin 16384) (f : BitVec 32) (s : State), (∀ x, sliceOf s r f.toNat = some x → sliceReady s x = false) →
    ∃ t, exec (.sliceClose r f) s = .next t ∧ frame [] noReg s t) ∧
  (∀ (r : Fin 16384) (f : BitVec 32) (x : Slice) (s : State), sliceOf s r f.toNat = some x →
    x.frameTick + rowEnd s x.row + ticksUs (100 * max 1 (fget s R.PS_CTRL F.PS_CTRL_SLICE_TO)) ≤ now s →
    ∃ t, exec (.sliceTimeout r f) s = .next t ∧ sliceOf t r f.toNat = none ∧ flag t R.PS_STAT F.PS_STAT_TIMEOUT = true ∧
      evFlag t Ev.sliceTimeout = true ∧ memKept s t (spillArea s) ∧
      (x.row.safety = true → ∀ g ∈ t.saf.frames, g.no = x.frame → g.badA = true) ∧
      frame (.slq :: .dram :: gapParts ++ evParts) (inBlocks [0, 8, 0xB, 0xE, 0xF]) s t) ∧
  (∀ (i : BitVec 16) (x : SumSlot) (s : State), lookup s.ps.slots i.toNat = some x →
    x.landed + ticksUs (100 * max 1 (fget s R.PS_SUM F.PS_SUM_SUM_AGE)) ≤ now s →
    ∃ t, exec (.sumSlotAgeOut i) s = .next t ∧ lookup t.ps.slots i.toNat = none ∧
      fget t R.PS_CNT_C F.PS_CNT_C_SUM_UNUSED = satN F.PS_CNT_C_SUM_UNUSED.width (fget s R.PS_CNT_C F.PS_CNT_C_SUM_UNUSED + 1) ∧
      frame [.ps] (only [R.PS_CNT_C]) s t)

/-- The world frame and the tilth table (R192, R197): a committed displacement waits for the next frame start, the sweeper
invalidates the aged entries of one bucket at a time, and a clearing zeroes the table outside SCAN and ends.
Its clauses follow the model's choices of log 47, 48, 49 and 50 where the spec is silent. -/
def Obligations.TilthTable : Prop :=
  (∀ s : State, ∃ t, exec .egoCommit s = .next t ∧ flag t R.EGO_CTRL F.EGO_CTRL_PENDING = true ∧ t.tilt.pose = s.tilt.pose ∧
    t.tilt.commits.head? = some (now s / 2, ⟨signed 16 (fget s R.EGO_DXY F.EGO_DXY_DX), signed 16 (fget s R.EGO_DXY F.EGO_DXY_DY),
      signed 16 (fget s R.EGO_DZP F.EGO_DZP_DZ), signed 16 (fget s R.EGO_DZP F.EGO_DZP_DPSI)⟩) ∧
    frame [.tilt] (only [R.EGO_CTRL]) s t) ∧
  (∀ (b : Nat) (s : State), b = s.tilt.sweepAt % 2 ^ (ttSize s - 3) → ∃ t, exec .tilthSweep s = .next t ∧
    t.tilt.sweepAt = (if b + 1 = 2 ^ (ttSize s - 3) then 0 else b + 1) ∧
    (flag s R.TT_CTRL F.TT_CTRL_EN = true → flag s R.TT_STAT F.TT_STAT_CLR_BUSY = false →
      firstPoison s (ttBase s + 256 * b) 256 = none → ∀ i, i < 8 →
      (ttRead t (ttBase s + 256 * b + 32 * i)).valid = ((ttRead s (ttBase s + 256 * b + 32 * i)).valid &&
        !(ttRead s (ttBase s + 256 * b + 32 * i)).aged (fget s R.SHT_FRAME_NO F.SHT_FRAME_NO_FRAME_NO % 65536) (ttAgeMax s))) ∧
    (flag s R.TT_CTRL F.TT_CTRL_EN = false → t.mem = s.mem) ∧
    memKept s t (within (ttBase s + 256 * b) 256) ∧
    frame (.tilt :: .mem :: .poison :: evParts) (inBlocks [0, 0xB, 0xF]) s t) ∧
  (∀ s : State, ∃ t, exec .tilthClear s = .next t ∧ (modeOf s = .scan → frame [] noReg s t) ∧
    (modeOf s ≠ .scan → flag t R.TT_STAT F.TT_STAT_CLR_BUSY = true ∧ fget t R.TT_OCC F.TT_OCC_VALID = 0 ∧
      (clayOut (ttBase s) (2 ^ ttSize s * 32) = none → (∀ i, i < 2 ^ ttSize s * 32 → mget t (ttBase s + i) = 0) ∧
        frame [.mem, .poison] (only [R.TT_STAT, R.TT_OCC]) s t) ∧
      (∀ x, clayOut (ttBase s) (2 ^ ttSize s * 32) = some x → t.mem = s.mem ∧ evFlag t Ev.decodeErr = true)) ∧
    memKept s t (within (ttBase s) (2 ^ ttSize s * 32)) ∧
    frame (.mem :: .poison :: evParts) (onlyEv [R.TT_STAT, R.TT_OCC, R.SYS_CNT, R.SYS_DECERR_LO, R.SYS_DECERR_HI]) s t) ∧
  (∀ s : State, ∃ t, exec .tilthClearDone s = .next t ∧ flag t R.TT_STAT F.TT_STAT_CLR_BUSY = false ∧
    (flag s R.TT_STAT F.TT_STAT_CLR_BUSY = false → frame [] noReg s t) ∧
    bitsKept s t R.TT_STAT [F.TT_STAT_CLEAR, F.TT_STAT_CLR_BUSY] ∧ frame [] (only [R.TT_STAT]) s t)

/-! ### Beam steering -/

/-- Banks, trajectories and swaps (R209, R210, R215): the active bank and an active trajectory range are protected, a write goes to its
own bytes or its own entry, and a swap is taken at once on an axis that is off and waits otherwise. Axis samples (R205, R212 to R214): the
engine completes one sample at a time, and as it does the drive word of the previous sample leaves and a new one is formed; with a load above
1,024 an instant that comes before the sample completes repeats the word and counts as an overrun, and the fourth in a row parks the scanner.
Its clauses follow the model's choices of log 65 and 66 where the spec is silent. -/
def Obligations.SteeringAxes : Prop :=
  (∀ (a : Fin 4) (b : Fin 2) (w : Fin 32) (v : Word) (s : State), ∃ t, exec (.coeffBankWrite a b w v) s = .next t ∧
    (axBank s a = b → flag t R.CTL_STAT F.CTL_STAT_WPROT = true ∧ t.ctl = s.ctl) ∧
    (axBank s a ≠ b → (∀ i : Fin 4, coefReserved (4 * w + i) = false →
        tget 0#8 (axis t a).banks (128 * b + (4 * w + i)) = BitVec.ofNat 8 (v.toNat / 256 ^ i.val)) ∧
      (∀ k, k < 128 * b.val + 4 * w.val ∨ 128 * b.val + 4 * w.val + 4 ≤ k → tget 0#8 (axis t a).banks k = tget 0#8 (axis s a).banks k) ∧
      frame [.ctl] noReg s t) ∧
    frame [.ctl] (only [R.CTL_STAT]) s t) ∧
  (∀ (a : Fin 4) (i : Fin 2048) (v : Word) (s : State), ∃ t, exec (.trajectoryWrite a i v) s = .next t ∧
    (trjProtected s a i = true → flag t R.CTL_STAT F.CTL_STAT_WPROT = true ∧ t.ctl = s.ctl) ∧
    (trjProtected s a i = false → tget 0 (axis t a).traj i = v.toNat ∧
      (∀ k, k ≠ i.val → tget 0 (axis t a).traj k = tget 0 (axis s a).traj k) ∧ frame [.ctl] noReg s t) ∧
    frame [.ctl] (only [R.CTL_STAT]) s t) ∧
  (∀ (a : Fin 4) (f : Bool) (s : State), ∃ t, exec (.axisSwap a f) s = .next t ∧
    flag t (R.AX_SWAP a) F.AX_SWAP_AT_FRAME = f ∧
    ((axis s a).swap.isSome = true → t.ctl = s.ctl ∧ axBank t a = axBank s a) ∧
    ((axis s a).swap = none → axType s a = 0 → axBank t a = 1 - axBank s a ∧ evFlag t (491 + 4 * a) = true) ∧
    ((axis s a).swap = none → axType s a ≠ 0 → (axis t a).swap = some f ∧ axBank t a = axBank s a ∧
      flag t (R.AX_SWAP a) F.AX_SWAP_PEND = true) ∧
    frame (.ctl :: evParts) (inBlocks [6]) s t) ∧
  (∀ (a : Fin 4) (acc : BitVec 184) (s : State), ∃ t, exec (.axisSample a acc) s = .next t ∧
    (ctlRuns s a = false ∨ (axInstants s a).2 = 0 ∨ enginePick s ≠ some a.val → frame [] noReg s t) ∧
    (ctlRuns s a = true → (axInstants s a).2 ≠ 0 → enginePick s = some a.val →
      (axis t a).word.isSome = true ∧ fget t (R.AX_CNT a) F.AX_CNT_OVR_RUN = 0 ∧
      (overloaded s = false → (axis t a).last = (axInstants s a).1 ∧
        t.tx = s.tx ++ (axis s a).word.toList.map (fun w => .drive a w)) ∧
      (overloaded s = true → (axis t a).last = (axInstants s a).1 + ((axInstants s a).2 - 1) * axPeriod s a)) ∧
    frame (.ctl :: .tx :: .free :: .dec :: .sys :: gapParts ++ evParts) (inBlocks [0, 5, 6, 7, 8, 0xB, 0xC]) s t ∧
    memKept s t (gapArea s)) ∧
  (∀ (a : Fin 4) (s : State), ∃ t, exec (.axisOverrun a) s = .next t ∧
    (ctlRuns s a = false ∨ (axInstants s a).2 < 2 ∨ overloaded s = false → frame [] noReg s t) ∧
    (ctlRuns s a = true → 2 ≤ (axInstants s a).2 → overloaded s = true → (axis t a).last = (axInstants s a).1 ∧
      t.tx = s.tx ++ (axis s a).word.toList.map (fun w => .drive a w) ∧
      flag t R.CTL_STAT F.CTL_STAT_OVERRUN = true ∧
      fget t (R.AX_CNT a) F.AX_CNT_OVR_TOTAL = satN F.AX_CNT_OVR_TOTAL.width (fget s (R.AX_CNT a) F.AX_CNT_OVR_TOTAL + 1) ∧
      (fget s (R.AX_CNT a) F.AX_CNT_OVR_RUN = 3 → scnMoving s (a / 2) = true → scnState t (a / 2) = scnPark)) ∧
    frame (.ctl :: .tx :: .free :: .dec :: .sys :: gapParts ++ evParts) (inBlocks [0, 5, 6, 7, 8, 0xB, 0xC]) s t ∧
    memKept s t (gapArea s))

/-- Scanners (R217, R218, R224): a start from OFF or FAULT drives the mirrors and enters SWEEP or RAMP, a stop or an overdue start
enters PARK with its cause and ends the emission enable, and a completed park ends in OFF or FAULT.
Its clauses follow the model's choices of log 66 and 106 where the spec is silent. -/
def Obligations.Scanners : Prop :=
  (∀ (c : Fin 2) (s : State), ∃ t, exec (.scnStart c) s = .next t ∧ (scnMoving s c = true → frame [] noReg s t) ∧
    (scnState s c = scnOff ∨ scnState s c = scnFault → flag s R.CTL_CTRL F.CTL_CTRL_EN = true →
      modeOf s = .calibrate ∨ modeOf s = .scan ∨ modeOf s = .safeHold → axType s (fastAxis s c) ≠ 0 →
      axType s (otherAxis (fastAxis s c)) ≠ 2 →
      scnState t c = (if axType s (fastAxis s c) = 2 then scnSweep else scnRamp) ∧
      flag t (R.SCN_STAT c) F.SCN_STAT_MIR_EN = true ∧ (scanner t c).startAt = now s) ∧
    frame (.ctl :: evParts) (inBlocks [6]) s t) ∧
  (∀ (c : Fin 2) (s : State), ∃ t, exec (.scnStop c) s = .next t ∧ (scnMoving s c = false → frame [] noReg s t) ∧
    (scnMoving s c = true → scnState t c = scnPark ∧ fget t (R.SCN_STAT c) F.SCN_STAT_CAUSE = 0 ∧
      flag t (R.SCN_STAT c) F.SCN_STAT_EMIT_OK = false ∧ (scanner t c).parkAt = now s) ∧
    frame (.ctl :: .sht :: .saf :: evParts) (inBlocks [6, 0xC]) s t) ∧
  (∀ (c : Fin 2) (s : State), scnState s c = scnPark → (scanner s c).parkAt + parkTicks s c ≤ now s →
    ∃ t, exec (.parkComplete c) s = .next t ∧ flag t (R.SCN_STAT c) F.SCN_STAT_MIR_EN = false ∧
      (fget s (R.SCN_STAT c) F.SCN_STAT_CAUSE = 0 → scnState t c = scnOff ∧ frame [] (only [R.SCN_STAT c]) s t) ∧
      (fget s (R.SCN_STAT c) F.SCN_STAT_CAUSE ≠ 0 → scnState t c = scnFault ∧ evFlag t (505 + 4 * c) = true) ∧
      frame evParts (onlyEv [R.SCN_STAT c]) s t) ∧
  (∀ (c : Fin 2) (s : State), scnState s c = scnSweep ∨ scnState s c = scnRamp →
    (scanner s c).startAt + startToTicks s c ≤ now s →
    ∃ t, exec (.startTimeout c) s = .next t ∧ scnState t c = scnPark ∧ fget t (R.SCN_STAT c) F.SCN_STAT_CAUSE = 4 ∧
      (scanner t c).parkAt = now s ∧ frame [.ctl, .sht] (inBlocks [6]) s t)

/-! ### Emission and the energy governor -/

/-- Pulse energy (R232 to R236): the samples before and after a pulse, the charge that replaces its reservation, and the monitor
that inhibits a bank whose store is too full; leaving bins change no sum.
Its clauses follow the model's choices of log 7 where the spec is silent. -/
def Obligations.PulseEnergy : Prop :=
  (∀ s : State, ∃ t, exec .emgBinBoundary s = .next t ∧ t.emg.msBin = curMs s ∧ t.emg.dsBin = curDs s ∧
    (∀ p ∈ t.emg.emit, ∃ q ∈ s.emg.emit, q.1 = p.1 ∧ a100 t p.2 = a100 s q.2 ∧ a10s t p.2 = a10s s q.2) ∧
    (∀ q ∈ s.emg.emit, a100 s q.2 ≠ 0 → ∃ p ∈ t.emg.emit, p.1 = q.1 ∧ a100 t p.2 = a100 s q.2) ∧
    t.emg.resv = s.emg.resv ∧ frame [.emg] noReg s t) ∧
  (∀ (q : BitVec 48) (v : BitVec 14) (x : Shot) (s : State), shotOf s q.toNat = some x → vPreAt x.msg.fire ≤ 128 * now s →
    ∃ t, exec (.vPreSample q v) s = .next t ∧ (x.msg.withheld = true → frame [] noReg s t) ∧
      (x.msg.withheld = false → shotOf t q.toNat = some { x with vpre := some v.toNat }) ∧ frame [.sht] noReg s t) ∧
  (∀ (q : BitVec 48) (v : BitVec 14) (x : Shot) (fb : Nat) (s : State), shotOf s q.toNat = some x → x.fbTick = some fb →
    vPostAt s x.bank fb ≤ 128 * now s →
    ∃ t, exec (.vPostSample q v) s = .next t ∧ (x.ok = some false → frame [] noReg s t) ∧
      (x.ok ≠ some false → shotOf t q.toNat = some { x with vpost := some v.toNat, skip := measSkip s x fb }) ∧
      frame [.sht, .emg] noReg s t) ∧
  (∀ (q : BitVec 48) (x : Shot) (s : State), shotOf s q.toNat = some x → settleReady s x = true → govTurn s 2 = true →
    (∀ y ∈ s.sht.shots, settleReady s y = true → x.msg.fire ≤ y.msg.fire) →
    ∃ t, exec (.shotSettle q) s = .next t ∧ shotOf t q.toNat = some { x with settled := true } ∧
      (∀ r ∈ t.emg.resv, r.seq ≠ q.toNat) ∧
      (x.ok = some false → fget t (R.BANK_CNT x.bank) F.BANK_CNT_UNMEAS =
        satN F.BANK_CNT_UNMEAS.width (fget s (R.BANK_CNT x.bank) F.BANK_CNT_UNMEAS + 1)) ∧
      (∀ r, x.ok = some false → s.emg.resv.find? (fun r => r.seq = q.toNat) = some r →
        emAcc t r.emitter = (emAcc s r.emitter).change r.msBin r.dsBin (e1Max s) r.amount) ∧
      (x.ok = some true → x.skip = true → flag t R.EMG_STAT F.EMG_STAT_MEAS_SKIP = true) ∧
      (∀ pre post, x.ok = some true → x.skip = false → x.vpre = some pre → x.vpost = some post →
        fget t (R.BANK_MEAS x.bank) F.BANK_MEAS_E_LAST = satN 16 (eMeas s x.bank pre post) ∧
        (e1Max s < eMeas s x.bank pre post → flag t (R.BANK_STAT x.bank) F.BANK_STAT_INH = true) ∧
        (∀ r, s.emg.resv.find? (fun r => r.seq = q.toNat) = some r →
          emAcc t r.emitter = (emAcc s r.emitter).change r.msBin r.dsBin (max (eMeas s x.bank pre post) (eFloor s)) r.amount)) ∧
      frame (.sht :: .emg :: evParts) (inBlocks [7]) s t) ∧
  (∀ (b : Fin 16) (v : BitVec 14) (s : State), ∃ t, exec (.storeMonitorSample b v) s = .next t ∧
    (measPending s b = true ∨ govTurn s 3 = false → frame [] noReg s t) ∧
    (measPending s b = false → govTurn s 3 = true → fget t (R.BANK_MEAS b) F.BANK_MEAS_VNOW = v.toNat) ∧
    (measPending s b = false → govTurn s 3 = true → 2 ≤ tget 0 s.emg.storeRun b → sealFld s (R.BANK_CFG b) F.BANK_CFG_ESTORE_MAX * 100 * (2 * vSqDen) <
        sealFld s (R.BANK_CAL b) F.BANK_CAL_CRES * 25 * senseSq s b v.toNat →
      flag t (R.BANK_STAT b) F.BANK_STAT_INH = true ∧ flag t R.EMG_STAT F.EMG_STAT_STORE_OVER = true) ∧
    frame (.emg :: evParts) (inBlocks [7]) s t)

/-- Banks, the sealed set and the stall stop (R235, R239, R241, R242): a bank is released in STANDBY only, a commit needs open seals
and the expected CRC, a reference moves one code at a time, and a stall holds the scanner's triggers low.
Its clauses follow the model's choices of log 6 where the spec is silent. -/
def Obligations.EmissionControl : Prop :=
  (∀ (b : Fin 16) (s : State), ∃ t, exec (.bankRelease b) s = .next t ∧
    (rwmOk s = true → flag t (R.BANK_STAT b) F.BANK_STAT_INH = false ∧ fget t (R.BANK_STAT b) F.BANK_STAT_CAUSE = 0 ∧
      tget 0 t.emg.senseRun b = 0 ∧ tget 0 t.emg.storeRun b = 0) ∧
    (rwmOk s = false → rd t (R.BANK_STAT b) = rd s (R.BANK_STAT b) ∧ t.emg = s.emg ∧ evFlag t Ev.rwmDiscard = true) ∧
    frame (.emg :: evParts) (onlyEv [R.BANK_STAT b]) s t) ∧
  (∀ s : State, ∃ t, exec .emgCommit s = .next t ∧
    (sealsOpen s = false → t.emg = s.emg ∧ evFlag t Ev.rwsDiscard = true) ∧
    (sealsOpen s = true → govTurn s 5 = false → frame [] noReg s t) ∧
    (sealsOpen s = true → govTurn s 5 = true → modeOf s = .standby → rd s R.EMG_EXP_CRC = stagedCrc s →
      rd t R.EMG_ACT_CRC = stagedCrc s ∧ t.emg.act = stagedWords s ∧ flag t R.EMG_STAT F.EMG_STAT_CAP_OK = true ∧
      recordWritten 4 (emgPayload t) [] s t) ∧
    (sealsOpen s = true → govTurn s 5 = true → modeOf s ≠ .standby ∨ rd s R.EMG_EXP_CRC ≠ stagedCrc s →
      t.emg = s.emg ∧ t.sec = s.sec ∧ flag t R.EMG_STAT F.EMG_STAT_CAP_ERR = true) ∧
    frame (.emg :: .sec :: evParts) (inBlocks [7]) s t) ∧
  (∀ (b : Fin 16) (s : State), ∃ t, exec (.resrefStep b) s = .next t ∧
    fget t (R.BANK_STAT b) F.BANK_STAT_OUT = (if resrefZero s b then 0
      else if min (refMax s b) (fget s (R.BANK_STAT b) F.BANK_STAT_OUT) < resrefTarget s b then
        min (refMax s b) (fget s (R.BANK_STAT b) F.BANK_STAT_OUT) + 1
      else if resrefTarget s b < min (refMax s b) (fget s (R.BANK_STAT b) F.BANK_STAT_OUT) then
        min (refMax s b) (fget s (R.BANK_STAT b) F.BANK_STAT_OUT) - 1
      else min (refMax s b) (fget s (R.BANK_STAT b) F.BANK_STAT_OUT)) ∧
    bitsKept s t (R.BANK_STAT b) [F.BANK_STAT_OUT] ∧ frame [] (only [R.BANK_STAT b]) s t) ∧
  (∀ (c : Fin 2) (s : State), ∃ t, exec (.stallStop c) s = .next t ∧
    (govTurn s 3 = false ∨ (scanner s c).stalled = false → frame [] noReg s t) ∧
    (govTurn s 3 = true → (scanner s c).stalled = true → (scanner t c).stalled = false ∧ flag t (R.SEC_STAT c) F.SEC_STAT_STALL_INH = true ∧
      fget t (R.SEC_STAT c) F.SEC_STAT_STALL_STOPS =
        satN F.SEC_STAT_STALL_STOPS.width (fget s (R.SEC_STAT c) F.SEC_STAT_STALL_STOPS + 1) ∧
      tget 0 t.emg.stallAt c = now s ∧ evFlag t (528 + c) = true) ∧ frame (.emg :: .ctl :: evParts) (onlyEv [R.SEC_STAT c]) s t) ∧
  (∀ (c : Fin 2) (s : State), ∃ t, exec (.outputGate c) s = .next t ∧
    (flag s (R.SEC_STAT c) F.SEC_STAT_STALL_INH = false → frame [] noReg s t) ∧
    (flag s (R.SEC_STAT c) F.SEC_STAT_STALL_INH = true → flag t (R.SEC_STAT c) F.SEC_STAT_GATE = true ∧
      ∀ p, p ∈ t.pins.emitTrig ↔ p ∈ s.pins.emitTrig ∧ bankScanner s (p.1 / 8) ≠ c.val) ∧
    frame [.pins] (only [R.SEC_STAT c]) s t)

/-! ### Safety island -/

/-- Safety outputs and faults (R250, R262 to R265, R273 to R275): a fault withdraws both pairs and leads to SAFE_HOLD, only SAFE_HOLD
clears one, a test pulse pulls one output low and returns it, a wrong readback is a fault, and a pair is switched on once its delay
has passed and off when a condition fails.
Its clauses follow the model's choices of log 63 and 64 where the spec is silent. -/
def Obligations.SafetyOutputs : Prop :=
  (∀ s : State, ∃ t, exec .wdog s = .next t ∧ faultLatched F.SAF_FAULT_WDOG s t) ∧
  (∀ s : State, ∃ t, exec .lockstep s = .next t ∧ faultLatched F.SAF_FAULT_LOCKSTEP s t) ∧
  (∀ s : State, ∃ t, exec .clockDeviation s = .next t ∧ faultLatched F.SAF_FAULT_CLOCK s t) ∧
  (∀ s : State, ∃ t, exec .islandSupplyTrip s = .next t ∧ faultLatched F.SAF_FAULT_SUPPLY s t) ∧
  (∀ s : State, ∃ t, exec .clrFault s = .next t ∧ (modeOf s ≠ .safeHold → frame [] noReg s t) ∧
    (modeOf s = .safeHold → s.variantAN = false →
      flag t R.SAF_FAULT F.SAF_FAULT_XCOMP = false ∧ flag t R.SAF_FAULT F.SAF_FAULT_CHB_TEST = false ∧
      (readbacksAgree s = true → flag t R.SAF_FAULT F.SAF_FAULT_OSSD_RB = false ∧ flag t R.SAF_FAULT F.SAF_FAULT_CROSS = false)) ∧
    bitsKept s t R.SAF_FAULT [F.SAF_FAULT_XCOMP, F.SAF_FAULT_CHB_TEST, F.SAF_FAULT_SCN_OVR, F.SAF_FAULT_OSSD_RB, F.SAF_FAULT_CROSS] ∧
    frame [.saf] (only [R.SAF_FAULT]) s t) ∧
  (∀ (o : Fin 4) (s : State), ∃ t, exec (.ossdTestPulse o) s = .next t ∧
    ((ossd s o).on = false ∨ (∃ k : Fin 4, (ossd s k).pulse.isSome = true) ∨ pulseDue s o = false → frame [] noReg s t) ∧
    ((ossd s o).on = true → (∀ k : Fin 4, (ossd s k).pulse = none) → pulseDue s o = true →
      (ossd t o).pulse = some (now s) ∧ (ossd t o).high = false ∧ t.saf.pulsePhase = some (pulsePhaseOf s o)) ∧
    (∀ k : Fin 4, k ≠ o → ossd t k = ossd s k) ∧ frame (.saf :: evParts) (inBlocks [0xC]) s t) ∧
  (∀ (o : Fin 4) (t0 : Nat) (s : State), (ossd s o).pulse = some t0 → t0 + ticksUs 200 ≤ now s →
    ∃ t, exec (.ossdTestPulseEnd o) s = .next t ∧ (ossd t o).pulse = none ∧ (ossd t o).high = (ossd s o).on ∧
      (∀ k : Fin 4, k ≠ o → ossd t k = ossd s k) ∧ frame (.saf :: evParts) (inBlocks [0xC]) s t) ∧
  (∀ (r : BitVec 4) (s : State), ∃ t, exec (.readbackCheck r) s = .next t ∧
    (s.variantAN = true ∨ s.sys.held.isSome = true → frame [] noReg s t) ∧
    (s.variantAN = false → s.sys.held = none → (∀ o : Fin 4, (ossd t o).rb = r.getLsbD o) ∧
      ((∃ o : Fin 4, readbackBad s o (r.getLsbD o) = true) → flag t R.SAF_FAULT F.SAF_FAULT_OSSD_RB = true) ∧
      ((∃ o : Fin 4, crossBad s o (r.getLsbD o) = true) → flag t R.SAF_FAULT F.SAF_FAULT_CROSS = true) ∧
      ((∀ o : Fin 4, readbackBad s o (r.getLsbD o) = false ∧ crossBad s o (r.getLsbD o) = false) →
        rd t R.SAF_FAULT = rd s R.SAF_FAULT ∧ ∀ o : Fin 4, (ossd t o).high = (ossd s o).high)) ∧
    frame (.saf :: .sys :: gapParts ++ evParts) (inBlocks [0, 8, 0xB, 0xC]) s t ∧ memKept s t (gapArea s)) ∧
  (∀ (p : Fin 2) (s : State), s.variantAN = false → ∃ t, exec (.restartDelayEnd p) s = .next t ∧
    (pairCond s p = true → cfgManual s.saf.cfg p = false → (safPair s p).on = false →
      (safPair s p).okSince.getD (now s) + ticksMs (cfgRstDly s.saf.cfg p) ≤ now s →
      (ossd s p).pulse = none → (ossd s (2 + p)).pulse = none →
      (safPair t p).on = true ∧ (ossd t p).high = true ∧ (ossd t (2 + p)).high = true) ∧
    (pairCond s p = false → (safPair t p).on = false ∧ (ossd t p).high = false ∧ (ossd t (2 + p)).high = false) ∧
    frame (.saf :: evParts) (inBlocks [0xC]) s t)

/-- Safety inputs, seals and frames (R251, R266 to R268): the two channels of an input pass the table of R267, a disagreement that lasts
is a fault of the input or of the seals, a frame is evaluated 2.8 ms after the next has begun, and a missing frame is an invalid one. The
safety commit (R269, R278): a commit starts the checks, a set that passes them all takes effect with both pairs off and is recorded, and
one that fails leaves the active set as it is and names the first check that failed.
Its clauses follow the model's choices of log 6, 59, 62 and 63 where the spec is silent. -/
def Obligations.SafetyInputsAndCommit : Prop :=
  (∀ (x y : BitVec 8) (s : State), ∃ t, exec (.safetyInputSample x y) s = .next t ∧
    (∀ i : Fin 8, (safInput t i).rawA = x.getLsbD i ∧ (safInput t i).rawB = y.getLsbD i) ∧
    (∀ (i : Fin 8) (a b : Bool), safActive s = true → a = (safInput t i).lvA → b = xor (safInput t i).lvB (cfgAnti s.saf.cfg i) →
      inState t i = (if inState s i = 3 then (if a || b then 3 else 0)
        else if a && b then 1 else if a || b then 2 else 0)) ∧
    frame (.saf :: evParts) (inBlocks [0xC]) s t) ∧
  (∀ (i : Fin 8) (t0 : Nat) (s : State), (safInput s i).discAt = some t0 → safActive s = true → inState s i = 2 →
    t0 + ticksMs (cfgDisc s.saf.cfg i) ≤ now s → ∃ t, exec (.discTimeout i) s = .next t ∧ inState t i = 3 ∧
      (safInput t i).discAt = none ∧ evFlag t 538 = true ∧
      fget t R.SAF_CNT_B F.SAF_CNT_B_DISC_CNT = satN F.SAF_CNT_B_DISC_CNT.width (fget s R.SAF_CNT_B F.SAF_CNT_B_DISC_CNT + 1) ∧
      frame (.saf :: evParts) (inBlocks [0xC]) s t) ∧
  (∀ (x y : Bool) (s : State), ∃ t, exec (.sealSample x y) s = .next t ∧ t.pins.sealA = x ∧ t.pins.sealB = y ∧
    flag t R.SAF_STAT F.SAF_STAT_SEAL_A = x ∧ flag t R.SAF_STAT F.SAF_STAT_SEAL_B = y ∧
    t.saf.sealSince = (if x = y then none else some (s.saf.sealSince.getD (now s))) ∧
    bitsKept s t R.SAF_STAT [F.SAF_STAT_SEAL_A, F.SAF_STAT_SEAL_B] ∧ frame [.pins, .saf] (only [R.SAF_STAT]) s t) ∧
  (∀ (t0 : Nat) (s : State), s.saf.sealSince = some t0 → s.variantAN = false → t0 + ticksMs 500 < now s →
    ∃ t, exec .sealDisc s = .next t ∧ flag t R.SAF_STAT F.SAF_STAT_SEAL_DISC = true ∧
      (flag s R.SAF_STAT F.SAF_STAT_SEAL_DISC = false → evFlag t 543 = true) ∧ frame evParts (onlyEv [R.SAF_STAT]) s t) ∧
  (∀ (f : SafFrame) (l : List SafFrame) (t0 : Nat) (s : State), s.saf.frames = f :: l → f.next = some t0 →
    ∃ t, exec .safetyEval s = .next t ∧ (now s < t0 + ticksUs 2800 → frame [] noReg s t) ∧
      (t0 + ticksUs 2800 ≤ now s → t.saf.frames = l) ∧
      (t0 + ticksUs 2800 ≤ now s → safActive s = true →
        flag t R.SAF_EVAL F.SAF_EVAL_VALID_A = !invalidA s f ∧ flag t R.SAF_EVAL F.SAF_EVAL_VALID_B = !invalidB s f) ∧
      frame (.saf :: .sys :: gapParts ++ evParts) (inBlocks [0, 8, 0xB, 0xC]) s t ∧ memKept s t (gapArea s)) ∧
  (∀ s : State, ∃ t, exec .frameMaxTimeout s = .next t ∧ (modeOf s ≠ .scan → frame [] noReg s t) ∧
    (safActive s = true → modeOf s = .scan → s.saf.maxAt + ticksUs (cfgFrameMax s.saf.cfg) < now s →
      t.saf.maxAt = s.saf.maxAt + ticksUs (cfgFrameMax s.saf.cfg) ∧
      (∀ f ∈ t.saf.frames, f.next.isSome = true) ∧ ∃ f ∈ t.saf.frames, f.badA = true ∧ f.badB = true) ∧
    frame [.saf] noReg s t) ∧
  (∀ s : State, ∃ t, exec .safCommit s = .next t ∧
    (s.variantAN = true → frame [] noReg s t) ∧
    (s.variantAN = false → sealsOpen s = false → evFlag t Ev.rwsDiscard = true ∧ t.saf = s.saf ∧ rd t R.SAF_CTRL = rd s R.SAF_CTRL) ∧
    (sealsOpen s = true → flag s R.SAF_STAT F.SAF_STAT_CMT_BUSY = true → frame [] noReg s t) ∧
    (sealsOpen s = true → s.variantAN = false → flag s R.SAF_STAT F.SAF_STAT_CMT_BUSY = false →
      t.saf.commitAt = some (now s) ∧ t.saf.commitMode = decide (modeOf s = .standby) ∧
      flag t R.SAF_STAT F.SAF_STAT_CMT_BUSY = true) ∧
    frame (.saf :: evParts) (onlyEv [R.SAF_CTRL, R.SAF_STAT]) s t) ∧
  (∀ (x e : Nat) (purpose : List Byte) (sig ack flash : Bool) (s : State), s.saf.commitAt = some x →
    sig = decide (signedErr s 3 (stageReader s) safImageSize purpose = 0) →
    e = (if s.saf.commitMode = false then 1 else if safVerify s (stagedImage s) sig false ≠ 0 then safVerify s (stagedImage s) sig false
      else if ack = false then 9 else if flash = false then 10 else 0) →
    ∃ t, exec (.safCommitDone purpose ack flash) s = .next t ∧ fget t R.SAF_STAT F.SAF_STAT_ERR = e ∧
      t.saf.commitAt = none ∧ flag t R.SAF_STAT F.SAF_STAT_CMT_BUSY = false ∧
      if e = 0 then t.saf.cfg = stagedImage s ∧
        recordWritten 3 (stageReader s 0 safImageSize) (blockBytes (stageReader s) safImageSize) s t ∧
        flag t R.SAF_STAT F.SAF_STAT_ACTIVE = true ∧ rd t R.SAF_ACT_CRC = BitVec.ofNat 32 (imgW (stagedImage s) 0x3C) ∧
        (∀ k : Fin 2, (safPair t k).on = false) ∧ t.saf.occA = [] ∧ t.saf.occB = [] ∧ evFlag t 541 = true ∧
        frame (.saf :: .sec :: evParts) (inBlocks [0xC]) s t
      else t.saf.cfg = s.saf.cfg ∧ flag t R.SAF_STAT F.SAF_STAT_CFG_ERR = true ∧
        frame (.saf :: evParts) (onlyEv [R.SAF_CTRL, R.SAF_STAT]) s t)

/-! ### Housekeeping and decimation -/

/-- The housekeeping sequencer (R286 to R294): it runs from entry 0 and stops, an entry is broken off, made, integrated and
converted in that order at its instants, its result and reading instant stand until the next, and while no entry is enabled it
stands.
Its clauses follow the model's choices of log 57 where the spec is silent. -/
def Obligations.HousekeepingSequencer : Prop :=
  (∀ s : State, ∃ t, exec .hkRun s = .next t ∧ (s.hk.phase ≠ .stopped → frame [] noReg s t) ∧
    (s.hk.phase = .stopped → t.hk.phase = .ready ∧ t.hk.next = 0 ∧ flag t R.HK_CTRL F.HK_CTRL_RUN = true ∧
      ∀ i : Fin 64, (hkEntry t i).settle = true) ∧ frame [.hk] (only [R.HK_CTRL]) s t) ∧
  (∀ s : State, ∃ t, exec .hkStop s = .next t ∧ t.hk.phase = .stopped ∧ flag t R.HK_CTRL F.HK_CTRL_RUN = false ∧
    flag t R.HK_STAT F.HK_STAT_RUNNING = false ∧ t.hk.res = s.hk.res ∧ t.hk.exc = none ∧ frame [.hk] (only [R.HK_CTRL, R.HK_STAT]) s t) ∧
  (∀ s : State, ∃ t, exec .hkBreak s = .next t ∧ (s.hk.phase ≠ .ready → frame [] noReg s t) ∧
    (∀ n : Fin 64, s.hk.phase = .ready → s.hk.next = n → hkDue s n = true → srcNamed (getFld (hkCfgNow s n) F.HKS_CFG_SRC) = true →
      t.hk.conv.entry = n ∧ t.hk.conv.breakAt = now s ∧ t.hk.next = n + 1 ∧ fget t R.HK_STAT F.HK_STAT_CUR = n ∧
      t.hk.phase = (if isCapture t.hk.conv.cfg then .integrating else .atBreak) ∧ rd t R.HK_ROUND = rd s R.HK_ROUND) ∧
    (s.hk.phase = .ready → (∀ i : Fin 64, getFld (hkCfgNow s i) F.HKS_CFG_EN = 0) → t.hk.phase = .ready ∧
      rd t R.HK_ROUND = rd s R.HK_ROUND ∧ flag t R.HK_STAT F.HK_STAT_RUNNING = false) ∧
    frame (.hk :: evParts) (onlyEv [R.HK_STAT, R.HK_ROUND]) s t) ∧
  (∀ s : State, s.hk.phase = .atBreak → s.hk.conv.breakAt + ticksUs 5 ≤ now s →
    ∃ t, exec .hkMake s = .next t ∧ t.hk = { s.hk with phase := .made, exc := hkExcOf s.hk.conv.cfg } ∧ frame [.hk] noReg s t) ∧
  (∀ s : State, s.hk.phase = .made → hkStartAt s.hk.conv ≤ now s →
    ∃ t, exec .hkIntegrationStart s = .next t ∧ t.hk = { s.hk with phase := .integrating } ∧ frame [.hk] noReg s t) ∧
  (∀ (vin : Int) (vexc : Nat) (past clamp : Bool) (s : State), s.hk.phase = .integrating →
    hkStartAt s.hk.conv + 2000 * s.hk.conv.t ≤ now s →
    ∃ t, exec (.hkIntegrationEnd vin vexc past clamp) s = .next t ∧ t.hk.phase = .checking ∧ t.hk.exc = none ∧
      (isCapture s.hk.conv.cfg = false → (t.hk.conv.code, t.hk.conv.ovr) = hkCode s s.hk.conv vin vexc past ∧ t.hk.conv.clamp = clamp) ∧
      frame [.hk] (only [R.HK_RIP]) s t) ∧
  (∀ (wire : Bool) (s : State), s.hk.phase = .checking → hkEndAt s.hk.conv ≤ now s → ∃ t, exec (.hkResult wire) s = .next t ∧
    t.hk.phase = .ready ∧ (rd t (R.HKS_RES s.hk.conv.entry)).toNat % 2 ^ 24 = unsigned 24 s.hk.conv.code ∧
    (rd t (R.HKS_RES s.hk.conv.entry)).getLsbD 31 = (s.hk.conv.ovr && !isCapture s.hk.conv.cfg) ∧
    (lookup t.hk.res s.hk.conv.entry).map (·.1) = some (hkStartAt s.hk.conv + 1000 * s.hk.conv.t) ∧
    frame (.hk :: .drc :: evParts) (inBlocks [4, 6, 0xF]) s t) ∧
  (∀ (i : Fin 64) (s : State), ∃ t, exec (.hksResRead i) s = .next t ∧ (lookup s.hk.res i = none → rd t (R.HKS_INFO i) = rd s (R.HKS_INFO i)) ∧
    (∀ ts info, lookup s.hk.res i = some (ts, info) → rd t (R.HKS_INFO i) = info ∧
      (rd t (R.HKS_TS_HI i)).toNat * 2 ^ 32 + (rd t (R.HKS_TS_LO i)).toNat = ts % 2 ^ 64) ∧
    (∀ (j : Fin 64) ts info, s.hk.latch = some j.val → lookup s.hk.res j = some (ts, info) → rd t (R.HKS_INFO j) = info) ∧
    t.hk = { s.hk with latch := some i.val } ∧
    frame [.hk] (only ((List.range 64).map R.HKS_TS_LO ++ (List.range 64).map R.HKS_TS_HI ++ (List.range 64).map R.HKS_INFO)) s t)

/-- The decimation chain (R296 to R300): a change of settings or a synchronisation schedules a restart at the next common edge, a
restart puts its settings in force and marks the outputs that follow INVALID, an overload does the same when it ends, and an output
enters the angle history.
Its clauses follow the model's choices of log 54, 55 and 56 where the spec is silent. -/
def Obligations.DecimationChain : Prop :=
  (∀ (c : Fin 8) (v : Word) (s : State), ∃ t, exec (.decCfgWrite c v) s = .next t ∧ rd t (R.DEC_CFG c) = v &&& 0xFFFC0000#32 ∧
    (getFld v F.DEC_CFG_EN = 0 → (decChan t c).silent = true ∧ (decChan t c).restarts = []) ∧
    (getFld v F.DEC_CFG_EN = 1 → flag s (R.DEC_CFG c) F.DEC_CFG_EN = false → (decChan t c).silent = true ∧
      (decChan t c).restarts = (decChan s c).restarts ++ [(restartInstant s, v &&& 0xFFFC0000#32)]) ∧
    (v &&& 0xFFFC0000#32 = rd s (R.DEC_CFG c) → getFld v F.DEC_CFG_EN = 1 → decChan t c = decChan s c) ∧
    bitsKept s t (R.DEC_OUT c) [F.DEC_OUT_OVL] ∧ flag t (R.DEC_OUT c) F.DEC_OUT_OVL = decide (decSrc t c ∈ t.modOvl) ∧
    frame [.dec] (only [R.DEC_CFG c, R.DEC_OUT c]) s t) ∧
  (∀ s : State, ∃ t, exec .decSync s = .next t ∧
    (∀ c : Fin 8, decChan t c = if bitOf (fget s R.DEC_CTRL F.DEC_CTRL_SYNC_MASK) c && flag s (R.DEC_CFG c) F.DEC_CFG_EN then
        { decChan s c with restarts := (decChan s c).restarts ++ [(restartInstant s, rd s (R.DEC_CFG c))] } else decChan s c) ∧
    frame [.dec] noReg s t) ∧
  (∀ (c : Fin 8) (t0 : Nat) (w : Word) (l : List (Nat × Word)) (s : State), (decChan s c).restarts = (t0, w) :: l →
    ∃ t, exec (.decRestart c) s = .next t ∧ (now s < t0 → frame [] noReg s t) ∧
      (t0 ≤ now s → (decChan t c).restarts = l ∧ (decChan t c).cfg = w ∧ (decChan t c).silent = false ∧ (decChan t c).fresh = true ∧
        (decChan t c).invLeft = decInvalid w ∧ fget t (R.DEC_OUT c) F.DEC_OUT_INV_LEFT = decInvalid w) ∧
      frame [.dec] (only [R.DEC_OUT c]) s t) ∧
  (∀ (m : Fin 8) (s : State), ∃ t, exec (.modOverloadStart m) s = .next t ∧
    (∀ k, k ∈ t.modOvl ↔ k = m.val ∨ k ∈ s.modOvl) ∧
    (∀ c : Fin 8, flag t (R.DEC_OUT c) F.DEC_OUT_OVL = decide (decSrc s c ∈ t.modOvl) ∧ bitsKept s t (R.DEC_OUT c) [F.DEC_OUT_OVL]) ∧
    frame [.modOvl] (only ((List.range 8).map R.DEC_OUT)) s t) ∧
  (∀ (m : Fin 8) (s : State), ∃ t, exec (.modOverloadEnd m) s = .next t ∧
    (∀ k, k ∈ t.modOvl ↔ k ≠ m.val ∧ k ∈ s.modOvl) ∧
    (∀ c : Fin 8, m.val ∈ s.modOvl → flag s (R.DEC_CFG c) F.DEC_CFG_EN = true → decSrc s c = m → (decChan t c).ended = true ∧
      (decChan t c).restarts = (decChan s c).restarts ++ [(restartInstant s, rd s (R.DEC_CFG c))]) ∧
    (∀ c : Fin 8, m.val ∈ s.modOvl → flag t (R.DEC_OUT c) F.DEC_OUT_OVL = decide (decSrc s c ∈ t.modOvl)) ∧
    frame [.dec, .modOvl] (only ((List.range 8).map R.DEC_OUT)) s t) ∧
  (∀ (c : Fin 8) (x y : BitVec 16) (s : State), ∃ t, exec (.decOutput c x y) s = .next t ∧
    (decRuns s c = false ∨ now s % decPeriod (decChan s c).cfg ≠ 0 → frame [] noReg s t) ∧
    (decRuns s c = true → now s % decPeriod (decChan s c).cfg = 0 → ∃ d, (decChan t c).hist.head? = some d ∧ d.outAt = now s ∧
      d.raw = rawNow s c x ∧ (ownCause s c = true → d.invalid = true) ∧
      (flag s (R.DEC_LIN c) F.DEC_LIN_LIN_EN = false → d.value = d.raw) ∧
      (rd t (R.DEC_OUT c)).toNat / 65536 = unsigned 16 d.value ∧
      (firstHole s (histAddr s c d.idx) 16 = none → (regionOf s (histAddr s c d.idx) = .sdram → drcServes s = true) → mbytes t (histAddr s c d.idx) 16 = d.bytes) ∧
      memKept s t (within (histAddr s c d.idx) 16)) ∧
    frame (.dec :: .free :: .mem :: .poison :: .dram :: evParts) (inBlocks [0, 5, 0xF]) s t)

/-! ### Thermal management -/

/-- Temperature captures (R311 to R314, R317): every sensor takes its reading, the control temperature is that of the hottest sensor that
is not ignored plus the guard, the hold ends at its time, and a recalibration first trusts every sensor again. Stops and trips (R318,
R319): two ms into an orderly stop the permits are withdrawn and the open slices close, after 48 ms the device enters BYPASS with empty
queues, and the analogue trip holds it in reset until it is released.
Its clauses follow the model's choices of log 7, 8, 10, 67 and 68 where the spec is silent. -/
def Obligations.ThermalControl : Prop :=
  (∀ (l : List (BitVec 24)) (s : State), ∃ t, exec (.thmCapture l) s = .next t ∧ (s.hk.phase = .stopped → frame [] noReg s t) ∧
    (s.sys.held = none → s.hk.phase ≠ .stopped → isCapture s.hk.conv.cfg = true → 0 < s.hk.conv.t →
      s.hk.conv.breakAt + 2000 * s.hk.conv.t ≤ now s → s.thm.applied ≠ some s.hk.conv.breakAt →
      (∀ i : Fin 28, fget t (R.THM_SENS i) F.THM_SENS_TEMP = unsigned 16 (reading s i (countOf l i) (16 * s.hk.conv.t))) ∧
      flag t R.THM_STAT F.THM_STAT_GUARD = decide (rd t R.THM_IGN ≠ 0) ∧
      (liveSensors t = [] → flag t R.THM_STAT F.THM_STAT_CRIT = true) ∧
      (liveSensors t ≠ [] → ∃ i ∈ liveSensors t, fget t R.THM_TCTL F.THM_TCTL_HOTTEST = i ∧
        fget t R.THM_TCTL F.THM_TCTL_T_CTL = unsigned 16 (sensorTemp16 t i + (if rd t R.THM_IGN ≠ 0 then 80 else 0)) ∧
        ∀ j ∈ liveSensors t, sensorTemp16 t j ≤ sensorTemp16 t i)) ∧
    frame (.thm :: .pins :: .tdc :: .sys :: gapParts ++ evParts) (inBlocks [0, 3, 4, 7, 8, 9, 0xB, 0xF]) s t ∧
    memKept s t (gapArea s)) ∧
  (∀ (l : List (BitVec 24)) (s : State), ∃ t, exec (.autocap l) s = .next t ∧
    (now s < s.thm.autoAt + ticksMs 1 → frame [] noReg s t) ∧
    (s.sys.held = none → s.thm.autoAt + ticksMs 1 ≤ now s →
      (∀ i : Fin 28, fget t (R.THM_SENS i) F.THM_SENS_TEMP = unsigned 16 (reading s i (countOf l i) 10000)) ∧
      t.thm.autoAt = s.thm.autoAt + ticksMs 10 ∧ flag t R.THM_STAT F.THM_STAT_AUTOCAP = true ∧
      flag t R.THM_STAT F.THM_STAT_GUARD = decide (rd t R.THM_IGN ≠ 0)) ∧
    frame (.thm :: .pins :: .tdc :: .sys :: gapParts ++ evParts) (inBlocks [0, 3, 4, 7, 8, 9, 0xB, 0xF]) s t ∧
    memKept s t (gapArea s)) ∧
  (∀ (t0 : Nat) (s : State), s.thm.holdEnd = some t0 → t0 ≤ now s → ∃ t, exec .thmHoldEnd s = .next t ∧ t.thm.holdEnd = none ∧
    flag t R.THM_STAT F.THM_STAT_HOLD = false ∧ bitsKept s t R.THM_STAT [F.THM_STAT_HOLD] ∧ frame [.thm] (only [R.THM_STAT]) s t) ∧
  (∀ s : State, ∃ t, exec .recal s = .next t ∧
    (modeOf s ≠ .standby → modeOf s ≠ .calibrate → frame [] noReg s t) ∧
    (modeOf s = .standby ∨ modeOf s = .calibrate → s.thm.recal = none → rd t R.THM_IGN = 0#32 ∧ t.thm.recal = some (now s) ∧
      flag t R.THM_CTRL F.THM_CTRL_RECAL = true ∧ flag t R.THM_STAT F.THM_STAT_GUARD = false ∧
      ∀ i : Fin 28, flag t (R.THM_SENS i) F.THM_SENS_IGN = false) ∧
    bitsKept s t R.THM_STAT [F.THM_STAT_GUARD] ∧
    frame [.thm, .tdc] (only (R.THM_IGN :: R.THM_CTRL :: R.THM_STAT :: R.THM_TCTL :: R.TDC_CAL_STAT :: (List.range 28).map R.THM_SENS)) s t) ∧
  (∀ (l : List (List (BitVec 24))) (t0 : Nat) (s : State), s.thm.recal = some t0 →
    ∃ t, exec (.recalDone l) s = .next t ∧ (now s < t0 + ticksMs 8 → frame [] noReg s t) ∧
      (t0 + ticksMs 8 ≤ now s → t.thm.recal = none ∧ flag t R.THM_CTRL F.THM_CTRL_RECAL = false) ∧
      frame (.thm :: .free :: .pins :: .tdc :: .sys :: gapParts ++ evParts) (inBlocks [0, 3, 4, 7, 8, 9, 0xB, 0xF]) s t ∧
      memKept s t (gapArea s)) ∧
  (∀ (t0 : Nat) (s : State), s.sys.orderly = some t0 → s.sys.withdrawn = false → t0 + ticksMs 2 ≤ now s →
    ∃ t, exec .orderlyStopWithdraw s = .next t ∧ t.sys.withdrawn = true ∧
      (∀ x ∈ s.ps.slices, sliceOf t x.row.num x.frame = none) ∧ (∀ c : Fin 2, scnMoving t c = false) ∧
      (s.variantAN = false → ∀ k : Fin 2, (safPair t k).on = false) ∧
      memKept s t (fun a => gapArea s a || spillArea s a) ∧
      frame (.sys :: .ctl :: .slq :: .dram :: gapParts ++ evParts) (inBlocks [0, 4, 6, 7, 8, 0xB, 0xC, 0xE, 0xF]) s t) ∧
  (∀ (t0 : Nat) (s : State), s.sys.orderly = some t0 → s.sys.withdrawn = true → t0 + ticksMs 48 ≤ now s →
    ∃ t, exec .orderlyStopBypass s = .next t ∧ modeOf t = .bypass ∧ t.sys.orderly = none ∧ t.slq.queues = [] ∧
      t.pins.heatReq = false ∧ (∀ c : Fin 2, flag t (R.SCN_STAT c) F.SCN_STAT_MIR_EN = false) ∧ memKept s t (gapArea s) ∧
      frame (.sys :: .ctl :: .pins :: .slq :: .ring :: .drc :: .dram :: .sec :: .tdc :: gapParts ++ evParts)
        (inBlocks [0, 4, 6, 7, 8, 9, 0xB, 0xC, 0xF, 0x10, 0x11, 0x15]) s t) ∧
  (∀ s : State, ∃ t, exec .analogueTrip s = .next t ∧ (s.sys.tripped = true → frame [] noReg s t) ∧
    (s.sys.tripped = false → t.sys.held = some (now s) ∧ t.sys.tripped = true ∧ flag t R.THM_STAT F.THM_STAT_ATRIP = true ∧
      fget t R.SYS_CAUSE F.SYS_CAUSE_CAUSE = 3 ∧ t.tb = s.tb ∧ t.pins.emitTrig = [] ∧ t.pins.bypHold = false ∧ t.saf.outs = [])) ∧
  (∀ (t0 : Nat) (s : State), s.sys.held = some t0 → ∃ t, exec .analogueTripRelease s = .next t ∧
    (s.sys.tripped = true → t0 + ticksMs 1000 ≤ now s → t.sys.tripped = false) ∧
    (now s < t0 + ticksMs 1000 → frame [] noReg s t) ∧ t.sys.held = s.sys.held ∧ frame [.sys] noReg s t)

/-! ### Memories -/

/-- Scrubbers and the clay allocation check (R325, R326, R330, R331): a line's errors are counted, recorded and poisoned, a pass that
has ended begins again at the end of its period and one that has not is late, and a committed allocation is found good exactly when
every region lies in clay memory, the world table fits and is aligned, and no two regions meet.
Its clauses follow the model's choices of log 69 and 119 where the spec is silent. -/
def Obligations.ScrubAndAllocation : Prop :=
  (∀ (r : Fin 4) (ce ue : BitVec 8) (s : State), ∃ t, exec (.scrubLine r ce ue) s = .next t ∧
    (scrubOn s r = false ∨ regionLines r ≤ (scrubOf s r).1 → frame [] noReg s t) ∧
    (scrubOn s r = true → (scrubOf s r).1 < regionLines r →
      scrubOf t r = ((scrubOf s r).1 + 1, (scrubOf s r).2) ∧
      (ce ≠ 0#8 → flag t (R.MEM_RSTAT r) F.MEM_RSTAT_CE = true) ∧
      (∀ i : Fin 8, ue.getLsbD i = true → regionLine r (scrubOf s r).1 + 8 * i.val ∈ t.poison) ∧
      flag t (R.MEM_RSTAT r) F.MEM_RSTAT_SCRUBBING = decide ((scrubOf s r).1 + 1 < regionLines r) ∧
      fget t (R.MEM_RSTAT r) F.MEM_RSTAT_PASSES = (fget s (R.MEM_RSTAT r) F.MEM_RSTAT_PASSES +
        (if (scrubOf s r).1 + 1 = regionLines r then 1 else 0)) % 2 ^ F.MEM_RSTAT_PASSES.width) ∧
    (r.val ≠ 0 ∨ ue = 0#8 → (∀ a ∈ s.poison, a ∈ t.poison) ∧ frame (.drc :: .poison :: evParts) (inBlocks [0xF]) s t) ∧
    memKept s t (gapArea s) ∧ frame (.drc :: .gt :: gapParts ++ evParts) (tilesAnd [0, 8, 0xB, 0xF]) s t) ∧
  (∀ (r : Fin 4) (s : State), ∃ t, exec (.scrubPassEnd r) s = .next t ∧
    (scrubOn s r = false ∨ now s < (scrubOf s r).2 + ticksMs (10 * max 1 (fget s (R.MEM_RCFG r) F.MEM_RCFG_PASS)) → frame [] noReg s t) ∧
    (scrubOn s r = true → (scrubOf s r).2 + ticksMs (10 * max 1 (fget s (R.MEM_RCFG r) F.MEM_RCFG_PASS)) ≤ now s →
      (regionLines r ≤ (scrubOf s r).1 → scrubOf t r = (0, now s)) ∧
      ((scrubOf s r).1 < regionLines r → scrubOf t r = ((scrubOf s r).1, now s) ∧ evFlag t (434 + 3 * r.val) = true ∧
        flag t (R.MEM_RSTAT r) F.MEM_RSTAT_SCRUB_LATE = true)) ∧
    frame (.drc :: evParts) (onlyEv [R.MEM_RSTAT r]) s t) ∧
  (∀ s : State, ∃ t, exec .cmCommit s = .next t ∧ (rwmOk s = false → evFlag t Ev.rwmDiscard = true ∧ frame evParts (onlyEv []) s t) ∧
    (rwmOk s = true → s.drc.cmAt = none → t.drc.cmAt = some (now s) ∧ flag t R.CM_CHECK F.CM_CHECK_COMMIT = true ∧
      flag t R.CM_CHECK F.CM_CHECK_OK = false) ∧ frame (.drc :: evParts) (onlyEv [R.CM_CHECK]) s t) ∧
  (∀ s : State, s.drc.cmAt.isSome = true → ∃ t, exec .cmCommitDone s = .next t ∧ t.drc.cmAt = none ∧
    flag t R.CM_CHECK F.CM_CHECK_COMMIT = false ∧
    (flag t R.CM_CHECK F.CM_CHECK_OK = true ↔
      (∀ x ∈ cmRegions s, x.1 ≤ 6 → 0x0100000000 ≤ x.2.1 ∧ x.2.1 + x.2.2 ≤ 0x0100E00000) ∧
      ttBase s + 2 ^ ttSize s * 32 ≤ 0x0100400000 ∧ ttBase s % (2 ^ ttSize s * 32) = 0 ∧
      (∀ x ∈ cmRegions s, x.1 ≠ 0 → rangesMeet (ttBase s / 0x40000 * 0x40000,
        (ceilDiv (ttBase s + 2 ^ ttSize s * 32) 0x40000 - ttBase s / 0x40000) * 0x40000) x.2 = false) ∧
      ∀ x ∈ cmRegions s, ∀ y ∈ cmRegions s, y.1 < x.1 → rangesMeet x.2 y.2 = false) ∧
    (flag t R.CM_CHECK F.CM_CHECK_OK = true ↔ fget t R.CM_CHECK F.CM_CHECK_ERR = 0) ∧
    frame [.drc] (only [R.CM_CHECK]) s t)

/-- The SDRAM controller's initialisation and training (R336, R347): the latch of its settings, its timed states, the check that
leaves it READY or in ERROR, and TRAIN in CALIBRATE only. What the memory holds after INIT from OFF is the model's choice (log 1).
Its clauses follow the model's choices of log 70 where the spec is silent. -/
def Obligations.SdramInitialisation : Prop :=
  (∀ s : State, ∃ t, exec .drcInit s = .next t ∧
    (drcState s = drcOff → flag s R.DRC_GEOM F.DRC_GEOM_PRESENT = true → drcState t = drcReset ∧ t.drc.since = now s ∧
      t.pins.ddrResetN = false ∧ t.pins.ddrCke = false ∧ fget t R.DRC_GEOM F.DRC_GEOM_CAP = drcCap (rd s R.DRC_GEOM) ∧ (∀ a ∈ drcTimingRegs, drcWord t a = rd s a) ∧
      memKept s t (within 0x1000000000 0x400000000)) ∧
    (drcState s = drcSelfRef → drcState t = drcCheck ∧ t.mem = s.mem ∧ t.poison = s.poison ∧
      ∀ a ∈ drcTimingRegs, drcWord t a = rd s a) ∧
    (drcState s ≠ drcSelfRef → (drcState s ≠ drcOff ∨ flag s R.DRC_GEOM F.DRC_GEOM_PRESENT = false) → frame [] noReg s t) ∧
    frame [.drc, .mem, .poison, .pins] (only [R.DRC_STAT, R.DRC_GEOM]) s t) ∧
  (∀ s : State, ∃ t, exec .ddrResetDone s = .next t ∧ drcMoves drcReset (ticksUs 200) drcCkeWait s t) ∧
  (∀ s : State, ∃ t, exec .ckeWaitDone s = .next t ∧ drcMoves drcCkeWait (ticksUs 500) drcMrs s t) ∧
  (∀ s : State, ∃ t, exec .mrsDone s = .next t ∧
    (drcState s = drcMrs → drcState t = drcZqcl ∧ t.drc.since = now s ∧ t.drc.srt = false) ∧
    (drcState s ≠ drcMrs → frame [] noReg s t) ∧ bitsKept s t R.DRC_STAT [F.DRC_STAT_STATE] ∧
    frame [.drc, .pins] (only [R.DRC_STAT]) s t) ∧
  (∀ s : State, ∃ t, exec .zqclDone s = .next t ∧ drcMoves drcZqcl (512 * drcRanks (drcWord s R.DRC_GEOM)) drcCheck s t) ∧
  (∀ (lanes : BitVec 9) (s : State), ∃ t, exec (.checkDone lanes) s = .next t ∧ (drcState s ≠ drcCheck → frame [] noReg s t) ∧
    (drcState s = drcCheck → fget t R.DRC_STAT F.DRC_STAT_LANE_ERR = lanes.toNat ∧
      (lanes = 0#9 → drcState t = drcReady ∧ t.drc.zqAt = now s ∧
        (∀ k, k < drcRanks (drcWord s R.DRC_GEOM) → lookup t.drc.refAt k = some (now s + drcRefi s + k * (drcRefi s / 2)))) ∧
      (lanes ≠ 0#9 → drcState t = drcError ∧ flag t R.DRC_STAT F.DRC_STAT_INIT_ERR = true ∧ evFlag t 447 = true)) ∧
    (s.drc.kept = true → memKept s t (fun _ => false)) ∧
    memKept s t (fun a => (List.range (drcRanks (drcWord s R.DRC_GEOM))).any (fun k =>
      within (0x1000000000 + k * (drcCap (drcWord s R.DRC_GEOM) * 2 ^ 30 / drcRanks (drcWord s R.DRC_GEOM))) 256 a)) ∧
    frame (.drc :: .free :: .mem :: .poison :: .pins :: evParts) (onlyEv [R.DRC_STAT]) s t) ∧
  (∀ s : State, ∃ t, exec .trainStart s = .next t ∧
    (drcState s = drcReady → modeOf s = .calibrate → flag s R.SHT_CTRL F.SHT_CTRL_CAL_RUN = false →
      drcState t = drcTrain ∧ flag t R.DRC_CTRL F.DRC_CTRL_TRAIN = true) ∧
    (drcState s ≠ drcReady ∨ modeOf s ≠ .calibrate ∨ flag s R.SHT_CTRL F.SHT_CTRL_CAL_RUN = true → frame [] noReg s t) ∧
    frame [.drc, .pins] (only [R.DRC_CTRL, R.DRC_STAT]) s t) ∧
  (∀ s : State, ∃ t, exec .trainEnd s = .next t ∧ flag t R.DRC_CTRL F.DRC_CTRL_TRAIN = false ∧
    drcState t = (if drcState s = drcTrain then drcCheck else drcState s) ∧ frame [.drc, .pins] (only [R.DRC_CTRL, R.DRC_STAT]) s t) ∧
  (∀ (pass : BitVec 9) (s : State), ∃ t, exec (.drcTestGo pass) s = .next t ∧
    (drcState s = drcTrain → s.drc.test = none → flag t R.DRC_TEST F.DRC_TEST_BUSY = true ∧
      ∃ e ≥ now s, t.drc.test = some (e,
        if fget s R.DRC_TEST F.DRC_TEST_RANK < drcRanks (drcWord s R.DRC_GEOM) then pass.toNat else 0)) ∧
    (drcState s ≠ drcTrain → s.drc.test = none → frame [] noReg s t) ∧
    bitsKept s t R.DRC_TEST [F.DRC_TEST_BUSY, F.DRC_TEST_PASS] ∧ frame [.drc, .free] (only [R.DRC_TEST]) s t) ∧
  (∀ (e pass : Nat) (s : State), s.drc.test = some (e, pass) →
    (e ≤ now s → pass < 512 → flag (drcTestShow s) R.DRC_TEST F.DRC_TEST_BUSY = false ∧ fget (drcTestShow s) R.DRC_TEST F.DRC_TEST_PASS = pass) ∧
    (now s < e → drcTestShow s = s))

/-- Parity alerts, refresh and temperature of the SDRAM (R342, R343, R346): a command is replayed three times and then abandoned with
its address captured, refreshes are owed up to eight and then forced, and the memory counts as hot by its report, by its absence and
by the device's band.
Its clauses follow the model's choices of log 71 and 73 where the spec is silent. -/
def Obligations.SdramAlertsAndRefresh : Prop :=
  (∀ s : State, ∃ t, exec .alertFall s = .next t ∧
    ((drcState s = drcReady ∨ drcState s = drcTrain) → s.drc.alertAt = none → flag s R.DRC_CTRL F.DRC_CTRL_PAR_EN = true →
      t.drc = { s.drc with alertAt := some (now s) }) ∧
    (flag s R.DRC_CTRL F.DRC_CTRL_PAR_EN = false → frame [] noReg s t) ∧ frame [.drc] noReg s t) ∧
  (∀ (t0 : Nat) (s : State), s.drc.alertAt = some t0 → ∃ t, exec .alertStuck s = .next t ∧
    (drcState s = drcReady → t0 + ticksUs 1 < now s → drcState t = drcError ∧ flag t R.DRC_STAT F.DRC_STAT_ALERT_STUCK = true ∧
      evFlag t 445 = true) ∧
    (drcState s ≠ drcReady ∨ now s ≤ t0 + ticksUs 1 → frame [] noReg s t) ∧ frame (.drc :: .pins :: evParts) (onlyEv [R.DRC_STAT]) s t) ∧
  (∀ (l : List DramCmd) (s : State), ∃ t, exec (.alertRise l) s = .next t ∧ (s.drc.alertAt = none → frame [] noReg s t) ∧
    t.drc.alertAt = none ∧
    (∀ (t0 : Nat) (c : DramCmd), s.drc.alertAt = some t0 → parCaught s t0 (l.map (·.id)) = [c] → tget 0 s.drc.replays c.id < 3 →
      (now s, c) ∈ t.dram.cmds ∧ tget 0 t.drc.replays c.id = tget 0 s.drc.replays c.id + 1 ∧ flag t R.DRC_STAT F.DRC_STAT_PARITY = true ∧ t.mem = s.mem ∧
      fget t R.DRC_CNT_B F.DRC_CNT_B_REPLAY_CNT = satN F.DRC_CNT_B_REPLAY_CNT.width (fget s R.DRC_CNT_B F.DRC_CNT_B_REPLAY_CNT + 1)) ∧
    (∀ (t0 : Nat) (c : DramCmd), s.drc.alertAt = some t0 → parCaught s t0 (l.map (·.id)) = [c] → 3 ≤ tget 0 s.drc.replays c.id →
      flag t R.DRC_STAT F.DRC_STAT_PAR_UE = true ∧ evFlag t 445 = true ∧ rd t R.DRC_ERR_LO = c.addr.setWidth 32 ∧
      (rd t R.DRC_ERR_HI).toNat % 256 = c.addr.toNat / 2 ^ 32 ∧ (rd t R.DRC_ERR_HI).getLsbD 30 = c.write ∧
      memKept s t (fun a => c.write && within (c.addr.toNat / 64 * 64) 64 a)) ∧
    frame (.drc :: .dram :: .free :: .mem :: .poison :: evParts) (inBlocks [0xF]) s t) ∧
  (∀ (r : Fin 2) (rt : Bool) (idle : Nat) (s : State), ∃ t, exec (.refreshDue r rt idle) s = .next t ∧
    (∀ t0, lookup s.drc.refAt r = some t0 → now s < t0 → frame [] noReg s t) ∧ (lookup s.drc.refAt r = none → frame [] noReg s t) ∧
    (∀ t0, lookup s.drc.refAt r = some t0 → t0 ≤ now s → lookup t.drc.refAt r = some (t0 + drcRefi s) ∧
      (∀ k d, k ≠ r.val → lookup s.drc.refAt k = some d → lookup t.drc.refAt k = some (t0 + drcRefi s / 2)) ∧
      (pulled s ≠ 0 → idle = 0 → pulled t = pulled s - 1 ∧ owed t = owed s) ∧
      (pulled s = 0 → rt = true → owed t = min 8 (owed s + 1) ∧ pulled t = 0 ∧
        t.drc.force = s.drc.force + (if 7 ≤ owed s then 1 else 0)) ∧
      (pulled s = 0 → rt = false → s.drc.alertAt = none → t.dram.pd.contains r.val = false ∧ owed t = owed s - idle ∧
        (owed s ≤ idle → pulled t = min (min 8 (fget s R.DRC_REF F.DRC_REF_PULL_MAX)) (idle - owed s)))) ∧
    bitsKept s t R.DRC_REF [F.DRC_REF_OWED, F.DRC_REF_PULLED] ∧ frame [.drc, .dram] (only [R.DRC_REF]) s t) ∧
  (∀ s : State, ∃ t, exec .splitPoint s = .next t ∧ t.dram.piece = none ∧
    (s.drc.force = 0 ∨ s.drc.alertAt.isSome = true → frame [.dram] noReg s t) ∧
    (s.drc.force ≠ 0 → s.drc.alertAt = none → t.drc.force = s.drc.force - 1 ∧ t.dram.pd = [] ∧ owed t = owed s - 1 ∧ flag t R.DRC_STAT F.DRC_STAT_FORCED = true ∧
      evFlag t 449 = true) ∧ frame (.drc :: .dram :: evParts) (onlyEv [R.DRC_REF, R.DRC_CNT_B, R.DRC_STAT]) s t) ∧
  (∀ (hot valid : Bool) (s : State), ∃ t, exec (.dramTempRead hot valid) s = .next t ∧
    (drcState s ≠ drcReady ∨ fget s R.DRC_CTRL F.DRC_CTRL_TSRC = 1 ∨ (∃ m, s.drc.mprAt = some m ∧ now s < m + ticksMs 32) →
      frame [] noReg s t) ∧
    (valid = false → frame [.drc, .dram] noReg s t) ∧
    (drcState s = drcReady → (∀ m, s.drc.mprAt = some m → m + ticksMs 32 ≤ now s) → valid = true →
      fget s R.DRC_CTRL F.DRC_CTRL_TSRC = 0 → t.drc.mprAt = some (now s) ∧ t.drc.reportAt = some (now s) ∧
      flag t R.DRC_TEMP F.DRC_TEMP_VALID = true ∧ flag t R.DRC_TEMP F.DRC_TEMP_HOT_MPR = hot ∧
      flag t R.DRC_STAT F.DRC_STAT_DRAM_HOT = hot ∧
      flag t R.DRC_STAT F.DRC_STAT_HOT = (hot || decide (3 ≤ fget s R.THM_STAT F.THM_STAT_BAND)) ∧
      (flag s R.DRC_STAT F.DRC_STAT_HOT = false → flag t R.DRC_STAT F.DRC_STAT_HOT = true → evFlag t 448 = true)) ∧
    frame (.drc :: .dram :: evParts) (onlyEv [R.DRC_TEMP, R.DRC_STAT]) s t) ∧
  (∀ s : State, ∃ t, exec .tempLost s = .next t ∧
    (s.drc.lost = true ∨ now s < s.drc.reportAt.getD s.drc.since + ticksMs 1000 →
      frame [] noReg s t) ∧
    (s.drc.lost = false → s.drc.reportAt.getD s.drc.since + ticksMs 1000 ≤ now s →
      t.drc.lost = true ∧ flag t R.DRC_TEMP F.DRC_TEMP_VALID = false ∧ flag t R.DRC_STAT F.DRC_STAT_TEMP_LOST = true ∧
      flag t R.DRC_STAT F.DRC_STAT_HOT = true) ∧ frame (.drc :: evParts) (onlyEv [R.DRC_TEMP, R.DRC_STAT]) s t)

/-- Requests of the SDRAM (R333, R337, R339, R341, R344, R345): a late request counts once, a write enters the queue and a read that
cannot be corrected is recorded with its address, power-down, the calibration instant and the patrol scrubber's place.
Its clauses follow the model's choices of log 11 and 72 where the spec is silent. -/
def Obligations.SdramRequests : Prop :=
  (∀ (p : Fin 6) (arrival : BitVec 64) (s : State), ∃ t, exec (.requestAge p arrival) s = .next t ∧
    (fget s (R.DRC_PORT p) F.DRC_PORT_LAT_TGT ≠ 0 → arrival.toNat ≤ now s → (p.val, arrival.toNat) ∉ s.drc.crit →
      25 * fget s (R.DRC_PORT p) F.DRC_PORT_LAT_TGT ≤ 2 * (now s - arrival.toNat) →
      (p.val, arrival.toNat) ∈ t.drc.crit ∧ fget t (R.DRC_PLAT p) F.DRC_PLAT_CRIT_CNT =
        satN F.DRC_PLAT_CRIT_CNT.width (fget s (R.DRC_PLAT p) F.DRC_PLAT_CRIT_CNT + 1)) ∧
    (arrival.toNat ≤ now s → (p.val, arrival.toNat) ∉ s.drc.crit → reqClass s p arrival.toNat = 1 →
      (p.val, arrival.toNat) ∈ t.drc.urgent ∧ frame [.drc] noReg s t) ∧
    (fget s (R.DRC_PORT p) F.DRC_PORT_LAT_TGT = 0 ∨ (p.val, arrival.toNat) ∈ s.drc.crit → frame [] noReg s t) ∧
    frame [.drc] (only [R.DRC_PLAT p]) s t) ∧
  (∀ (p : Fin 6) (a : BitVec 40) (lat : Nat) (s : State), ∃ t, exec (.writeQueueAccept p a lat) s = .next t ∧
    (regionOf s a.toNat ≠ .sdram → frame [] noReg s t) ∧
    (regionOf s a.toNat = .sdram → drcServes s = false → fget t R.DRC_CNT_A F.DRC_CNT_A_UE_CNT =
      satN F.DRC_CNT_A_UE_CNT.width (fget s R.DRC_CNT_A F.DRC_CNT_A_UE_CNT + 1) ∧ t.dram = s.dram) ∧
    (regionOf s a.toNat = .sdram → drcServes s = true →
      (a.toNat / 64 ∈ s.dram.wq → t.dram.wq = s.dram.wq) ∧
      (a.toNat / 64 ∉ s.dram.wq → s.dram.wq.length < 31 → t.dram.wq = s.dram.wq ++ [a.toNat / 64]) ∧
      (a.toNat / 64 ∉ s.dram.wq → s.dram.wq.length = 31 → s.dram.wrote = false → s.drc.alertAt = none → t.dram.wq = [] ∧ t.dram.wrote = true) ∧
      (s.dram.wq.length ≤ 64 → t.dram.wq.length ≤ 64) ∧ drcRank s a.toNat ∉ t.dram.pd ∧
      fget s (R.DRC_PLAT p) F.DRC_PLAT_LAT_MAX ≤ fget t (R.DRC_PLAT p) F.DRC_PLAT_LAT_MAX) ∧
    frame [.drc, .dram, .free] (only [R.DRC_PLAT p, R.DRC_CNT_A]) s t) ∧
  (∀ (p : Option (Fin 6)) (a : BitVec 40) (lat : Nat) (e : BeatRead) (s : State), ∃ t, exec (.sdramBeatRead p a lat e) s = .next t ∧
    (regionOf s a.toNat ≠ .sdram ∨ drcServes s = false ∨ s.drc.alertAt.isSome = true ∨
      (∃ q, p = some q ∧ reqTurn s q (now s - lat) a.toNat = false) → frame [] noReg s t) ∧
    (regionOf s a.toNat = .sdram → drcServes s = true → s.drc.alertAt = none →
      (∀ q, p = some q → reqTurn s q (now s - lat) a.toNat = true) → (e = .clean → t.poison = s.poison) ∧
      (drcRank s a.toNat ∉ t.dram.pd) ∧ (∀ q, p = some q → q.val < 2 →
        t.dram.piece = if (a.toNat + 8) % 2048 = 0 then none else some (a.toNat + 8)) ∧
      (e = .ce → flag t R.DRC_STAT F.DRC_STAT_CE = true ∧ evFlag t 444 = true ∧ t.poison = s.poison) ∧
      (e = .ue → flag t R.DRC_STAT F.DRC_STAT_UE = true ∧ evFlag t 445 = true ∧ a.toNat / 8 * 8 ∈ t.poison ∧
        rd t R.DRC_ERR_LO = a.setWidth 32 ∧ (rd t R.DRC_ERR_HI).toNat = a.toNat / 2 ^ 32)) ∧
    frame (.drc :: .dram :: .free :: .poison :: evParts) (inBlocks [0xF]) s t) ∧
  (∀ (r : Fin 2) (s : State), ∃ t, exec (.powerDownEntry r) s = .next t ∧
    (drcState s = drcReady → flag s R.DRC_PD F.DRC_PD_PD_EN = true → r.val < drcRanks (drcWord s R.DRC_GEOM) → s.drc.alertAt = none →
      tget s.drc.since s.dram.reqAt r.val + max 1 (fget s R.DRC_PD F.DRC_PD_PD_IDLE) ≤ now s → r.val ∈ t.dram.pd) ∧
    (drcState s ≠ drcReady ∨ flag s R.DRC_PD F.DRC_PD_PD_EN = false ∨
      now s < tget s.drc.since s.dram.reqAt r.val + max 1 (fget s R.DRC_PD F.DRC_PD_PD_IDLE) → frame [] noReg s t) ∧
    frame [.dram] noReg s t) ∧
  (∀ s : State, ∃ t, exec .zqcs s = .next t ∧
    t.drc.zqAt = (if drcState s = drcReady ∧ s.drc.zqAt + ticksMs 128 ≤ now s ∧ s.drc.alertAt = none then now s else s.drc.zqAt) ∧
    frame [.drc, .dram] noReg s t) ∧
  (∀ s : State, ∃ t, exec .patrolScrub s = .next t ∧ (patrolDue s = false → frame [] noReg s t) ∧
    (patrolDue s = true → t.drc.patrol = (if patrolLines s ≤ s.drc.patrol + 1 then 0 else s.drc.patrol + 1) ∧
      (firstPoison s (0x1000000000 + 64 * s.drc.patrol) 64 = none → frame [.drc, .dram] noReg s t) ∧
      (∀ x, firstPoison s (0x1000000000 + 64 * s.drc.patrol) 64 = some x → flag t R.DRC_STAT F.DRC_STAT_UE = true ∧ evFlag t 445 = true ∧
        rd t R.DRC_ERR_LO = BitVec.ofNat 32 x)) ∧
    frame (.drc :: .dram :: evParts) (onlyEv [R.DRC_ERR_LO, R.DRC_ERR_HI, R.DRC_CNT_A, R.DRC_STAT]) s t)

/-! ### Silt queues and DMA channels -/

/-- Forced resets of queues (R357 to R359): a mismatch of the two copies resets the queue with CAUSE 1, a group re-initialisation
resets its sixteen queues with CAUSE 3; the offsets and marks are gone, what was never sent is counted, and no other queue changes.
Its clauses follow the model's choices of log 32 where the spec is silent. -/
def Obligations.QueueResets : Prop :=
  (∀ (q : Fin 256) (m : Bool) (s : State), ∃ t, exec (.slqPtrCheck q m) s = .next t ∧ (m = false → frame [] noReg s t) ∧
    (m = true → flag t (R.SLQ_QSTAT q) F.SLQ_QSTAT_RESET = true ∧ fget t (R.SLQ_QSTAT q) F.SLQ_QSTAT_CAUSE = 1 ∧
      (slqQueue t q).rd = 0 ∧ (slqQueue t q).rel = 0 ∧ (slqQueue t q).marks = [] ∧
      fget t (R.SLQ_LOST q) F.SLQ_LOST_LOST =
        satN F.SLQ_LOST_LOST.width (fget s (R.SLQ_LOST q) F.SLQ_LOST_LOST + slqUnsent (slqQueue s q)) ∧
      fget t (R.SLQ_CNT q) F.SLQ_CNT_RESETS = satN F.SLQ_CNT_RESETS.width (fget s (R.SLQ_CNT q) F.SLQ_CNT_RESETS + 1) ∧
      flag t R.SLQ_STAT F.SLQ_STAT_PTR_ERR = true ∧ evFlag t (400 + 2 * (q.val / 16)) = true) ∧
    (∀ k : Nat, k ≠ q.val → slqQueue t k = slqQueue s k) ∧ memKept s t (spillArea s) ∧
    frame (.slq :: .ps :: .mem :: .poison :: .dram :: evParts) (inBlocks [0, 0xE, 0xF]) s t) ∧
  (∀ (g : Fin 16) (s : State), ∃ t, exec (.slqGroupReinit g) s = .next t ∧
    (∀ q : Fin 256, q.val / 16 = g.val → flag t (R.SLQ_QSTAT q) F.SLQ_QSTAT_RESET = true ∧
      fget t (R.SLQ_QSTAT q) F.SLQ_QSTAT_CAUSE = 3 ∧ (slqQueue t q).rd = 0 ∧ (slqQueue t q).rel = 0 ∧ (slqQueue t q).marks = [] ∧
      rd t (R.SLQ_CFG q) = rd s (R.SLQ_CFG q)) ∧
    bitOf (fget t R.SLQ_GRP F.SLQ_GRP_REINIT_BUSY) g = true ∧ 0x70 + g.val ∈ t.reinit ∧
    (∀ k : Nat, k / 16 ≠ g.val → slqQueue t k = slqQueue s k) ∧ memKept s t (spillArea s) ∧
    frame (.slq :: .ps :: .reinit :: .mem :: .poison :: .dram :: evParts) (inBlocks [0, 0xE, 0xF]) s t)

/-- A DMA descriptor from doorbell to response (R360 to R362, R364, R365): the doorbell starts an idle channel, which fetches the
descriptor at HEAD and stops on one that breaks a condition; a beat moves the bytes of one destination line and counts them, a
failed read stops the channel, and a response closes one non-posted write.
Its clauses follow the model's choices of log 74, 75, 76 and 77 where the spec is silent. -/
def Obligations.DmaTransfers : Prop :=
  (∀ (n : Fin 16) (tail : BitVec 12) (s : State), ∃ t, exec (.dmaDoorbell n tail) s = .next t ∧
    fget t (R.DMA_TAIL n) F.DMA_TAIL_TAIL = tail.toNat ∧ fget t (R.DMA_HEAD n) F.DMA_HEAD_HEAD = fget s (R.DMA_HEAD n) F.DMA_HEAD_HEAD ∧
    (flag s (R.DMA_CFG n) F.DMA_CFG_EN = false ∨ dmaState s n ≠ 0 ∨ 0x60 + n.val ∈ s.reinit ∨ fget s (R.DMA_HEAD n) F.DMA_HEAD_HEAD = tail.toNat →
      frame [] (only [R.DMA_TAIL n]) s t) ∧
    (flag s (R.DMA_CFG n) F.DMA_CFG_EN = true → dmaState s n = 0 → fget s (R.DMA_HEAD n) F.DMA_HEAD_HEAD ≠ tail.toNat →
      0x60 + n.val ∉ s.reinit → (dmaRead s (dmaDescAddr s n : Nat) 32).2.2 = true →
      (∀ i < 8, (dmaChan t n).word i = ofLeBytes (((mbytes s (dmaDescAddr s n) 32).drop (4 * i)).take 4)) ∧
      fget t (R.DMA_COUNT n) F.DMA_COUNT_COUNT = (dmaChan t n).total ∧ (dmaChan t n).moved = 0 ∧
      (dmaDescBad s (dmaChan t n) = false → dmaState t n = 2 ∧ t.mem = s.mem) ∧
      (dmaDescBad s (dmaChan t n) = true → dmaState t n = 5 ∧ flag t (R.DMA_STAT n) F.DMA_STAT_STOPPED = true ∧
        fget t (R.DMA_STAT n) F.DMA_STAT_STATUS = 5 ∧ evFlag t (369 + 2 * n.val) = true)) ∧
    memKept s t (within (dmaDescAddr s n + 0x1E) 1) ∧
    frame (.dma :: .free :: .mem :: .poison :: .dram :: evParts) (inBlocks [0, 8, 0xD, 0xF]) s t) ∧
  (∀ (n : Fin 16) (s : State), ∃ t, exec (.dmaBeatResponse n) s = .next t ∧
    (dmaState s n ≠ 2 ∨ (dmaChan s n).total ≤ (dmaChan s n).moved ∨ dmaTurn s n = false ∨
      ((dmaChan s n).outward = true ∧ dmaRoom s (dmaChan s n) = false) → frame [] noReg s t) ∧
    (∀ (k a b : Nat), dmaTurn s n = true → dmaState s n = 2 → (dmaChan s n).moved < (dmaChan s n).total →
      k = min ((dmaChan s n).rowLen - (dmaChan s n).moved % (dmaChan s n).rowLen) (64 - b % 64) →
      (dmaChan s n).src (dmaChan s n).moved = (a : Int) → (dmaChan s n).dst (dmaChan s n).moved = (b : Int) →
      (dmaRead s (a : Int) k).2.2 = true →
      ((dmaChan s n).outward = false → regionOf s b = .sram → firstPoison s b k = none →
        mbytes t b k = mbytes s a k ∧ memKept s t (within b k) ∧ (dmaChan t n).moved = (dmaChan s n).moved + k ∧
        (dmaChan t n).good = (dmaChan s n).good + k ∧ dmaState t n = 2 ∧
        fget t (R.DMA_COUNT n) F.DMA_COUNT_COUNT = ((dmaChan s n).total - (dmaChan s n).moved - k) % 2 ^ 32) ∧
      ((dmaChan s n).outward = true → dmaRoom s (dmaChan s n) = true →
        (dmaChan t n).moved = (dmaChan s n).moved + k ∧ t.mem = s.mem ∧ (vcOf t 0 1).out.length = (vcOf s 0 1).out.length + 1 ∧
        (dmaChan t n).outs.length = (dmaChan s n).outs.length + b2n (dmaChan s n).nonPosted)) ∧
    (∀ a : Nat, dmaTurn s n = true → dmaState s n = 2 → (dmaChan s n).moved < (dmaChan s n).total → (dmaChan s n).outward = false →
      (dmaChan s n).src (dmaChan s n).moved = (a : Int) → regionOf s a = .hole →
      flag t (R.DMA_STAT n) F.DMA_STAT_STOPPED = true ∧ flag t (R.DMA_STAT n) F.DMA_STAT_ERR = true ∧
        fget t (R.DMA_STAT n) F.DMA_STAT_STATUS = 3 ∧ dmaState t n = 5 ∧ evFlag t (369 + 2 * n.val) = true ∧
        fget t (R.DMA_COUNT n) F.DMA_COUNT_COUNT = ((dmaChan s n).total - (dmaChan s n).good) % 2 ^ 32) ∧
    memKept s t (fun x => within (dmaDescAddr s n + 0x1E) 1 x || (!(dmaChan s n).outward &&
      decide ((dmaChan s n).dst (dmaChan s n).moved ≤ (x : Int) ∧ (x : Int) < (dmaChan s n).dst (dmaChan s n).moved + 64))) ∧
    frame (.dma :: .free :: .mem :: .poison :: .dram :: evParts) (inBlocks [0, 8, 0xD, 0xF]) s t) ∧
  (∀ (tag : Byte) (error : Bool) (s : State), ∃ t, exec (.drspRx tag error) s = .next t ∧
    (s.host.held ≠ [] → t.host.held = s.host.held ++ [.response tag.toNat error] ∧ frame [.host, .lanes] noReg s t) ∧
    (s.host.held = [] → (∀ o ∈ (dmaChan s (tag.toNat / 16)).outs, o.tag ≠ tag.toNat) → frame [] noReg s t) ∧
    (∀ o : DmaOut, s.host.held = [] → (dmaChan s (tag.toNat / 16)).outs.find? (fun o => o.tag = tag.toNat) = some o →
      0x60 + tag.toNat / 16 ∈ s.reinit → (∀ o ∈ (dmaChan t (tag.toNat / 16)).outs, o.tag ≠ tag.toNat) ∧
      ((dmaChan t (tag.toNat / 16)).outs = [] → flag t (R.DMA_CFG (tag.toNat / 16)) F.DMA_CFG_EN = false)) ∧
    (∀ o : DmaOut, s.host.held = [] → (dmaChan s (tag.toNat / 16)).outs.find? (fun o => o.tag = tag.toNat) = some o →
      0x60 + tag.toNat / 16 ∉ s.reinit → (error = false → (∀ o ∈ (dmaChan t (tag.toNat / 16)).outs, o.tag ≠ tag.toNat) ∧
        (o.ofs ≠ (dmaChan s (tag.toNat / 16)).total →
          (dmaChan t (tag.toNat / 16)).good = (dmaChan s (tag.toNat / 16)).good + o.len) ∧ frame [.dma] noReg s t) ∧
      (error = true → dmaState t (tag.toNat / 16) = 5 ∧
        fget t (R.DMA_STAT (tag.toNat / 16)) F.DMA_STAT_STATUS = (if o.ofs = (dmaChan s (tag.toNat / 16)).total then 4
          else if o.ofs + o.len = (dmaChan s (tag.toNat / 16)).total then 2 else 3))) ∧
    memKept s t (within (dmaDescAddr s (tag.toNat / 16) + 0x1E) 1) ∧
    frame (.dma :: .host :: .mem :: .poison :: .dram :: evParts) (inBlocks [0, 8, 0xD, 0xF]) s t)

/-- The end of a DMA descriptor and the ways out of a stop (R360, R363 to R365): a completed descriptor counts, HEAD advances modulo
RING_N, RESTART runs the descriptor at HEAD again, SKIP goes on with the next, and REINIT empties the channel.
Its clauses follow the model's choices of log 76 where the spec is silent. -/
def Obligations.DmaCompletion : Prop :=
  (∀ (n : Fin 16) (s : State), ∃ t, exec (.dmaDescComplete n) s = .next t ∧
    ((dmaState s n ≠ 2 ∧ dmaState s n ≠ 3) ∨ (dmaChan s n).moved ≠ (dmaChan s n).total ∨ (dmaChan s n).outs ≠ [] → frame [] noReg s t) ∧
    ((dmaState s n = 2 ∨ dmaState s n = 3) → (dmaChan s n).moved = (dmaChan s n).total → (dmaChan s n).outs = [] →
      bitOf ((dmaChan s n).word 7) 30 = false ∨ (dmaChan s n).trailer = true → (dmaChan s n).writesBack = false →
      ((dmaChan s n).trailer = false → (dmaReadBack s (dmaChan s n) ((dmaChan s n).dst ((dmaChan s n).total - 1))).2 = true) →
      flag t (R.DMA_STAT n) F.DMA_STAT_DONE = true ∧
      fget t (R.DMA_CNT n) F.DMA_CNT_DESC_DONE = satN F.DMA_CNT_DESC_DONE.width (fget s (R.DMA_CNT n) F.DMA_CNT_DESC_DONE + 1) ∧
      fget t (R.DMA_HEAD n) F.DMA_HEAD_HEAD =
        (fget s (R.DMA_HEAD n) F.DMA_HEAD_HEAD + 1) % max 1 (fget s (R.DMA_CFG n) F.DMA_CFG_RING_N) % 2 ^ 12 ∧
      (bitOf ((dmaChan s n).word 7) 31 = true → evFlag t (368 + 2 * n.val) = true) ∧
      (fget t (R.DMA_HEAD n) F.DMA_HEAD_HEAD = fget s (R.DMA_TAIL n) F.DMA_TAIL_TAIL → dmaState t n = 0 ∧
        fget t (R.DMA_STAT n) F.DMA_STAT_STATUS = 1 ∧ t.mem = s.mem)) ∧
    ((dmaState s n = 2 ∨ dmaState s n = 3) → (dmaChan s n).moved = (dmaChan s n).total → (dmaChan s n).outs = [] →
      (dmaChan s n).trailer = false → (dmaReadBack s (dmaChan s n) ((dmaChan s n).dst ((dmaChan s n).total - 1))).2 = false →
      dmaState t n = 5 ∧ flag t (R.DMA_STAT n) F.DMA_STAT_STOPPED = true ∧ flag t (R.DMA_STAT n) F.DMA_STAT_TAIL_ERR = true ∧
      fget t (R.DMA_STAT n) F.DMA_STAT_STATUS = 2 ∧ evFlag t (369 + 2 * n.val) = true) ∧
    (∀ b : Nat, dmaState s n = 2 → (dmaChan s n).moved = (dmaChan s n).total → (dmaChan s n).outs = [] →
      bitOf ((dmaChan s n).word 7) 30 = true → (dmaChan s n).trailer = false → (dmaChan s n).writesBack = false →
      (dmaChan s n).outward = false → (dmaChan s n).dst ((dmaChan s n).total - 1) + 1 = (b : Int) →
      (dmaReadBack s (dmaChan s n) ((dmaChan s n).dst ((dmaChan s n).total - 1))).2 = true → regionOf s b = .sram → b % 4 = 0 → firstPoison s b 4 = none →
      fget s (R.DMA_HEAD n) F.DMA_HEAD_HEAD + 1 = fget s (R.DMA_TAIL n) F.DMA_TAIL_TAIL →
      fget s (R.DMA_TAIL n) F.DMA_TAIL_TAIL < fget s (R.DMA_CFG n) F.DMA_CFG_RING_N →
      ofLeBytes (mbytes t b 4) = (rd s (R.DMA_CRC n)).toNat ∧ memKept s t (within b 4)) ∧
    memKept s t (fun x => within (dmaDescAddr s n + 0x1E) 1 x || within (dmaDescAddr t n + 0x1E) 1 x || (!(dmaChan s n).outward &&
      decide ((dmaChan s n).dst ((dmaChan s n).total - 1) < (x : Int) ∧ (x : Int) ≤ (dmaChan s n).dst ((dmaChan s n).total - 1) + 4))) ∧
    frame (.dma :: .free :: .mem :: .poison :: .dram :: evParts) (inBlocks [0, 8, 0xD, 0xF]) s t) ∧
  (∀ (n : Fin 16) (s : State), ∃ t, exec (.dmaRestart n) s = .next t ∧ memKept s t (within (dmaDescAddr s n + 0x1E) 1) ∧
    (flag s (R.DMA_STAT n) F.DMA_STAT_STOPPED = false → frame [] noReg s t) ∧
    (flag s (R.DMA_STAT n) F.DMA_STAT_STOPPED = true →
      fget t (R.DMA_HEAD n) F.DMA_HEAD_HEAD = fget s (R.DMA_HEAD n) F.DMA_HEAD_HEAD ∧
      (flag s (R.DMA_CFG n) F.DMA_CFG_EN = false → dmaState t n = 0 ∧ flag t (R.DMA_STAT n) F.DMA_STAT_STOPPED = false)) ∧
    frame (.dma :: .free :: .mem :: .poison :: .dram :: evParts) (inBlocks [0, 8, 0xD, 0xF]) s t) ∧
  (∀ (n : Fin 16) (s : State), ∃ t, exec (.dmaSkip n) s = .next t ∧ memKept s t (within (dmaDescAddr t n + 0x1E) 1) ∧
    (flag s (R.DMA_STAT n) F.DMA_STAT_STOPPED = false → frame [] noReg s t) ∧
    (flag s (R.DMA_STAT n) F.DMA_STAT_STOPPED = true →
      fget t (R.DMA_HEAD n) F.DMA_HEAD_HEAD =
        (fget s (R.DMA_HEAD n) F.DMA_HEAD_HEAD + 1) % max 1 (fget s (R.DMA_CFG n) F.DMA_CFG_RING_N) % 2 ^ 12 ∧
      (flag s (R.DMA_CFG n) F.DMA_CFG_EN = false → dmaState t n = 0 ∧ flag t (R.DMA_STAT n) F.DMA_STAT_STOPPED = false)) ∧
    frame (.dma :: .free :: .mem :: .poison :: .dram :: evParts) (inBlocks [0, 8, 0xD, 0xF]) s t) ∧
  (∀ (n : Fin 16) (s : State), ∃ t, exec (.dmaReinit n) s = .next t ∧ dmaState t n = 0 ∧
    dmaChan t n = { DmaChan.init with tag := (dmaChan s n).tag, outs := (dmaChan s n).outs, turn := (dmaChan s n).turn } ∧
    ((dmaChan s n).outs = [] → flag t (R.DMA_CFG n) F.DMA_CFG_EN = false ∧
      fget t (R.DMA_HEAD n) F.DMA_HEAD_HEAD = 0 ∧ fget t (R.DMA_TAIL n) F.DMA_TAIL_TAIL = 0) ∧
    ((dmaChan s n).outs ≠ [] → frame [.dma, .reinit] (only [R.DMA_STAT n]) s t) ∧
    flag t (R.DMA_STAT n) F.DMA_STAT_STOPPED = false ∧ 0x60 + n.val ∈ t.reinit ∧
    frame [.dma, .reinit] (only [R.DMA_CFG n, R.DMA_HEAD n, R.DMA_TAIL n, R.DMA_STAT n]) s t)

/-! ### Lane ports -/

/-- A lane port comes up (R378, R379, R384, R386): EN brings it to DETECT, a partner to CLOCK, settled trackers to LOCK, word lock to
DESKEW, then PARAM and, with a compatible partner that has seen its own, ACTIVE; an incompatible one leaves it DISABLED, a limit
passed in training brings it back to DETECT, and PARAM is skipped out of DEEP.
Its clauses follow the model's choices of log 81 and 82 where the spec is silent. -/
def Obligations.LaneTraining : Prop :=
  (∀ (p : Fin 3) (s : State), ∃ t, exec (.laneEnable p) s = .next t ∧ flag t (R.LN_CTRL p) F.LN_CTRL_EN = true ∧
    (lnState s p = lnDisabled → lnState t p = lnDetect ∧ (lanePort t p).check = now s ∧ ∀ v : Nat, (vcOf t p v).rx = 0xFFF) ∧
    (lnState s p ≠ lnDisabled → frame [] (only [R.LN_CTRL p]) s t) ∧ frame [.lanes] (inBlocks [0x10, 0x11, 0x12]) s t) ∧
  (∀ (p : Fin 3) (s : State), ∃ t, exec (.laneDisable p) s = .next t ∧ flag t (R.LN_CTRL p) F.LN_CTRL_EN = false ∧
    lnState t p = lnDisabled ∧ (∀ v : Nat, (vcOf t p v).credit = 0) ∧
    frame (.ring :: evParts) (inBlocks [8, 0x10, 0x11, 0x12]) s t) ∧
  (∀ (p : Fin 3) (present : Bool) (s : State), ∃ t, exec (.detectCheck p present) s = .next t ∧
    (lnState s p ≠ lnDetect ∨ now s < (lanePort s p).check → frame [] noReg s t) ∧
    (lnState s p = lnDetect → (lanePort s p).check ≤ now s →
      (p ≠ 0 → flag t R.CLK_STAT (refOkFld p) = present) ∧
      (present = true → lnState t p = lnClock ∧ (lanePort t p).since = now s) ∧
      (present = false → lnState t p = lnDetect ∧ (lanePort t p).check = now s + ticksMs 100 ∧
        ((lanePort s p).missed = false → flag t (R.LN_STAT p) F.LN_STAT_ABSENT = true ∧ evFlag t (320 + 12 * p.val) = true))) ∧
    frame (.ring :: evParts) (inBlocks [1, 8, 0x10, 0x11, 0x12]) s t) ∧
  (∀ (p : Fin 3) (l : List Byte) (s : State), ∃ t, exec (.trackersSettled p l) s = .next t ∧
    (lnState s p ≠ lnClock → frame [] noReg s t) ∧
    (lnState s p = lnClock → lnState t p = lnLock ∧ ∀ i, i < laneCount p →
      fget t (R.LN_RX p i) F.LN_RX_PHASE = (l.getD i 0).toNat ∧ flag t (R.LN_RX p i) F.LN_RX_FROZEN = false) ∧
    frame [.lanes] (inBlocks [0x10, 0x11, 0x12]) s t) ∧
  (∀ (p : Fin 3) (l : List Byte) (s : State), ∃ t, exec (.wordLock p l) s = .next t ∧
    (lnState s p ≠ lnLock → frame [] noReg s t) ∧
    (lnState s p = lnLock → lnState t p = lnDeskew ∧ ∀ i, i < laneCount p →
      fget t (R.LN_RX p i) F.LN_RX_SLIPS = (l.getD i 0).toNat ∧ flag t (R.LN_RX p i) F.LN_RX_LOCKED = true) ∧
    frame [.lanes] (inBlocks [0x10, 0x11, 0x12]) s t) ∧
  (∀ (p : Fin 3) (s : State), ∃ t, exec (.deskewDone p) s = .next t ∧ (lnState s p ≠ lnDeskew → frame [] noReg s t) ∧
    (lnState s p = lnDeskew → lnState t p = (if (lanePort s p).deep then lnActive else lnParam) ∧
      ((lanePort s p).deep = true → evFlag t (320 + 12 * p.val + 2) = true)) ∧
    frame (.ring :: .tx :: evParts) (inBlocks [8, 0x10, 0x11, 0x12]) s t) ∧
  (∀ (p : Fin 3) (s : State), ∃ t, exec (.paramSend p) s = .next t ∧
    (lnState s p ≠ lnParam ∨ now s < (lanePort s p).paramAt → frame [] noReg s t) ∧
    (lnState s p = lnParam → (lanePort s p).paramAt ≤ now s → (lanePort t p).paramAt = now s + ticksUs 10 ∧
      ∃ f, t.tx = s.tx ++ [laneTx p f] ∧ f.vc = 0 ∧ f.type = 1 ∧ f.body = paramBytes s p) ∧ frame [.lanes, .tx] noReg s t) ∧
  (∀ (p : Fin 3) (w0 w1 : BitVec 64) (s : State), ∃ t, exec (.paramRx p w0 w1) s = .next t ∧
    (lnState s p ≠ lnParam → frame [] noReg s t) ∧
    (lnState s p = lnParam →
      (paramBad p (w0.toNat % 4) (bitsOf w0.toNat 7 4) = true → lnState t p = lnDisabled ∧
        flag t (R.LN_STAT p) F.LN_STAT_PARAM_ERR = true ∧ evFlag t (320 + 12 * p.val + 10) = true) ∧
      (paramBad p (w0.toNat % 4) (bitsOf w0.toNat 7 4) = false → (lanePort t p).seen = true ∧
        (lanePort t p).partner = some (w0.toNat % 4, bitsOf w0.toNat 31 16, w0.getLsbD 9) ∧
        (w0.getLsbD 8 = false → lnState t p = lnParam) ∧
        (w0.getLsbD 8 = true → lnState t p = lnActive ∧ evFlag t (320 + 12 * p.val + 2) = true))) ∧
    frame (.ring :: .tx :: .slq :: evParts) (inBlocks [8, 0xE, 0x10, 0x11, 0x12]) s t) ∧
  (∀ (p : Fin 3) (s : State), ∃ t, exec (.trainingTimeout p) s = .next t ∧
    (lnClock ≤ lnState s p → lnState s p ≤ lnParam → (lanePort s p).since + trainLimit (lnState s p) ≤ now s →
      lnState t p = lnDetect ∧ flag t (R.LN_STAT p) F.LN_STAT_TRAIN_TO = true ∧
      fget t (R.LN_CNT_B p) F.LN_CNT_B_RETRAINS = satN F.LN_CNT_B_RETRAINS.width (fget s (R.LN_CNT_B p) F.LN_CNT_B_RETRAINS + 1)) ∧
    (lnState s p < lnClock ∨ lnParam < lnState s p ∨ now s < (lanePort s p).since + trainLimit (lnState s p) → frame [] noReg s t) ∧
    frame (.ring :: evParts) (inBlocks [8, 0x10, 0x11, 0x12]) s t) ∧
  (∀ (p : Fin 3) (s : State), ∃ t, exec (.laneReinit p) s = .next t ∧ lnState t p = lnDetect ∧
    flag t (R.LN_CTRL p) F.LN_CTRL_EN = true ∧ (lanePort t p).missed = false ∧ 0x50 + p.val ∈ t.reinit ∧
    frame (.ring :: .reinit :: evParts) (inBlocks [8, 0x10, 0x11, 0x12]) s t) ∧
  (∀ (p : Fin 3) (s : State), ∃ t, exec (.standbyExit p) s = .next t ∧
    lnState t p = (if lnState s p = lnStandby then lnActive else lnState s p) ∧
    (lnState s p ≠ lnStandby → frame [] noReg s t) ∧ frame [.lanes] (inBlocks [0x10, 0x11, 0x12]) s t) ∧
  (∀ (p : Fin 3) (s : State), ∃ t, exec (.deepExit p) s = .next t ∧ (lnState s p ≠ lnDeep → frame [] noReg s t) ∧
    (lnState s p = lnDeep → lnState t p = lnClock ∧ (lanePort t p).deep = true) ∧ frame [.lanes] (inBlocks [0x10, 0x11, 0x12]) s t)

/-- A lane port goes down, or into low power (R378, R380, R384, R394): a lost clock and header errors bring it to DETECT with DOWN, a
request for low power is sent while nothing is in flight, refused or carried out by both ends, and one that stays unanswered is
denied.
Its clauses follow the model's choices of log 78, 81 and 83 where the spec is silent. -/
def Obligations.LaneDownAndLowPower : Prop :=
  (∀ (p : Fin 3) (s : State), ∃ t, exec (.partnerClockLost p) s = .next t ∧
    (p ≠ 0 → flag t R.CLK_STAT (refOkFld p) = false) ∧
    (lnClock ≤ lnState s p → lnState s p ≤ lnStandby → lnState t p = lnDetect ∧ flag t (R.LN_STAT p) F.LN_STAT_DOWN = true ∧
      evFlag t (320 + 12 * p.val + 1) = true ∧ ∀ v : Nat, (vcOf t p v).credit = 0) ∧
    (lnState s p < lnClock ∨ lnStandby < lnState s p → lnState t p = lnState s p) ∧
    frame (.ring :: evParts) (inBlocks [1, 8, 0x10, 0x11, 0x12]) s t) ∧
  (∀ (p : Fin 3) (s : State), ∃ t, exec (.syncHeaderErrors p) s = .next t ∧
    (lnClock ≤ lnState s p → lnState s p ≤ lnActive → lnState t p = lnDetect ∧ flag t (R.LN_STAT p) F.LN_STAT_DOWN = true ∧
      evFlag t (320 + 12 * p.val + 1) = true ∧
      fget t (R.LN_CNT_B p) F.LN_CNT_B_DOWN_CNT = satN F.LN_CNT_B_DOWN_CNT.width (fget s (R.LN_CNT_B p) F.LN_CNT_B_DOWN_CNT + 1)) ∧
    (lnState s p < lnClock ∨ lnActive < lnState s p → frame [] noReg s t) ∧
    frame (.ring :: evParts) (inBlocks [8, 0x10, 0x11, 0x12]) s t) ∧
  (∀ (p : Fin 3) (w : BitVec 2) (s : State), ∃ t, exec (.lpReq p w) s = .next t ∧
    fget t (R.LN_CTRL p) F.LN_CTRL_LP_REQ = w.toNat ∧ lnState t p = lnState s p ∧
    (lnState s p = lnActive → w = 1#2 → lnIdle s p = true → (lanePort t p).lp = some (1, now s, now s) ∧
      ∃ f, t.tx = s.tx ++ [laneTx p f] ∧ f.type = 2 ∧ f.body = leBytes 8 4) ∧
    (lnState s p = lnActive → w = 2#2 → refusesDeep s p = true →
      flag t (R.LN_STAT p) F.LN_STAT_LP_DENIED = true ∧ evFlag t (320 + 12 * p.val + 9) = true ∧ t.tx = s.tx) ∧
    (lnState s p ≠ lnActive → frame [] (only [R.LN_CTRL p]) s t) ∧
    frame (.tx :: evParts) (onlyEv [R.LN_CTRL p, R.LN_STAT p]) s t) ∧
  (∀ (p : Fin 3) (o w : BitVec 2) (s : State), ∃ t, exec (.lpRx p o w) s = .next t ∧
    (lnState s p ≠ lnActive ∨ w = 0#2 ∨ w = 3#2 → frame [] noReg s t) ∧
    (lnState s p = lnActive → o = 0#2 → lnIdle s p = true → (w = 1#2 → lnState t p = lnStandby) ∧
      (w = 2#2 → refusesDeep s p = false → lnState t p = lnDeep)) ∧
    (lnState s p = lnActive → o = 0#2 → w = 2#2 → refusesDeep s p = true →
      lnState t p = lnActive ∧ flag t (R.LN_STAT p) F.LN_STAT_LP_DENIED = true) ∧
    (∀ a b : Nat, lnState s p = lnActive → w = 1#2 ∨ w = 2#2 → (lanePort s p).lp = some (w.toNat, a, b) →
      (o = 1#2 → lnState t p = (if w = 1#2 then lnStandby else lnDeep) ∧ evFlag t (320 + 12 * p.val + 8) = true) ∧
      (o = 2#2 → lnState t p = lnActive ∧ (lanePort t p).lp = none ∧ flag t (R.LN_STAT p) F.LN_STAT_LP_DENIED = true)) ∧
    frame (.ring :: .tx :: evParts) (inBlocks [8, 0x10, 0x11, 0x12]) s t) ∧
  (∀ (p : Fin 3) (w a b : Nat) (s : State), (lanePort s p).lp = some (w, a, b) → ∃ t, exec (.lpReqResend p) s = .next t ∧
    (lnState s p = lnActive → b + ticksUs 10 ≤ now s → (lanePort t p).lp = some (w, a, now s)) ∧
    (lnState s p ≠ lnActive ∨ now s < b + ticksUs 10 → frame [] noReg s t) ∧ frame [.lanes, .tx] noReg s t) ∧
  (∀ (p : Fin 3) (w a b : Nat) (s : State), (lanePort s p).lp = some (w, a, b) → ∃ t, exec (.lpReqTimeout p) s = .next t ∧
    (lnState s p = lnActive → a + ticksUs 100 ≤ now s → (lanePort t p).lp = none ∧ lnState t p = lnActive ∧
      flag t (R.LN_STAT p) F.LN_STAT_LP_DENIED = true ∧ evFlag t (320 + 12 * p.val + 9) = true) ∧
    (lnState s p ≠ lnActive ∨ now s < a + ticksUs 100 → frame [] noReg s t) ∧ frame evParts (onlyEv [R.LN_STAT p]) s t)

/-- Test patterns, trackers, taps and markers (R375 to R377, R381): PRBS only out of DISABLED, errors counted on a lane whose checker
is locked, a tracker that runs and sees fewer than 64 transitions frozen, and taps that sum to more than 63 left as they were with TAP_ERR.
Its clauses follow the model's choices of log 84 where the spec is silent. -/
def Obligations.LanePatternsAndTaps : Prop :=
  (∀ (p : Fin 3) (w : BitVec 2) (s : State), ∃ t, exec (.prbsEnable p w) s = .next t ∧ flag t (R.LN_CTRL p) F.LN_CTRL_PRBS_EN = true ∧
    fget t (R.LN_CTRL p) F.LN_CTRL_PRBS_SEL = w.toNat ∧ lnState t p = (if lnState s p = lnDisabled then lnPrbs else lnState s p) ∧
    (lnState s p = lnDisabled ∨ lnState s p = lnPrbs →
      t.tx = s.tx ++ [.prbs p (if w = 0#2 then 7 else if w = 1#2 then 15 else 31) (if w = 0#2 then 6 else if w = 1#2 then 14 else 28)]) ∧
    (lnState s p ≠ lnDisabled → lnState s p ≠ lnPrbs → frame [] (only [R.LN_CTRL p]) s t) ∧
    frame [.lanes, .tx] (inBlocks [0x10, 0x11, 0x12]) s t) ∧
  (∀ (p : Fin 3) (s : State), ∃ t, exec (.prbsDisable p) s = .next t ∧ flag t (R.LN_CTRL p) F.LN_CTRL_PRBS_EN = false ∧
    lnState t p = (if lnState s p = lnPrbs then lnDisabled else lnState s p) ∧
    (lnState s p ≠ lnPrbs → frame [] (only [R.LN_CTRL p]) s t) ∧ frame [.lanes] (inBlocks [0x10, 0x11, 0x12]) s t) ∧
  (∀ (p : Fin 3) (l : Fin 8) (s : State), ∃ t, exec (.prbsCheckerSync p l) s = .next t ∧
    (lnState s p = lnPrbs → l.val < laneCount p → flag t (R.LN_PRBS p l) F.LN_PRBS_PLOCK = true) ∧
    (lnState s p ≠ lnPrbs ∨ laneCount p ≤ l.val → frame [] noReg s t) ∧
    bitsKept s t (R.LN_PRBS p l) [F.LN_PRBS_PLOCK] ∧ frame [] (only [R.LN_PRBS p l]) s t) ∧
  (∀ (p : Fin 3) (l : Fin 8) (s : State), ∃ t, exec (.prbsBitError p l) s = .next t ∧
    (lnState s p = lnPrbs → flag s (R.LN_PRBS p l) F.LN_PRBS_PLOCK = true → evFlag t (320 + 12 * p.val + 6) = true ∧
      fget t (R.LN_PRBS p l) F.LN_PRBS_ERRORS = satN F.LN_PRBS_ERRORS.width (fget s (R.LN_PRBS p l) F.LN_PRBS_ERRORS + 1)) ∧
    (lnState s p ≠ lnPrbs ∨ flag s (R.LN_PRBS p l) F.LN_PRBS_PLOCK = false → frame [] noReg s t) ∧
    frame evParts (onlyEv [R.LN_PRBS p l]) s t) ∧
  (∀ (p : Fin 3) (l : Fin 8) (n : BitVec 11) (ph : Byte) (s : State), ∃ t, exec (.trackerWindow p l n ph) s = .next t ∧
    (laneCount p ≤ l.val ∨ trackerRuns s p = false → frame [] noReg s t) ∧
    (l.val < laneCount p → trackerRuns s p = true → n.toNat < 64 → flag t (R.LN_RX p l) F.LN_RX_FROZEN = true ∧ flag t (R.LN_STAT p) F.LN_STAT_FROZEN = true ∧
      fget t (R.LN_RX p l) F.LN_RX_PHASE = fget s (R.LN_RX p l) F.LN_RX_PHASE ∧ evFlag t (320 + 12 * p.val + 7) = true ∧
      fget t (R.LN_CNT_B p) F.LN_CNT_B_FRZ_CNT = satN F.LN_CNT_B_FRZ_CNT.width (fget s (R.LN_CNT_B p) F.LN_CNT_B_FRZ_CNT + 1)) ∧
    (l.val < laneCount p → trackerRuns s p = true → 64 ≤ n.toNat → flag t (R.LN_RX p l) F.LN_RX_FROZEN = false ∧
      fget t (R.LN_RX p l) F.LN_RX_PHASE =
        (if flag s (R.LN_RX p l) F.LN_RX_FROZEN = true then fget s (R.LN_RX p l) F.LN_RX_PHASE else ph.toNat)) ∧
    frame evParts (onlyEv [R.LN_RX p l, R.LN_STAT p, R.LN_CNT_B p]) s t) ∧
  (∀ (p : Fin 3) (l : Fin 8) (v : Word) (s : State), ∃ t, exec (.tapWrite p l v) s = .next t ∧
    (laneCount p ≤ l.val → frame [] noReg s t) ∧
    (l.val < laneCount p → 63 < getFld v F.LN_TX_C_PRE + getFld v F.LN_TX_C_MAIN + getFld v F.LN_TX_C_POST →
      flag t (R.LN_TX p l) F.LN_TX_TAP_ERR = true ∧ evFlag t (320 + 12 * p.val + 11) = true ∧
      bitsKept s t (R.LN_TX p l) [F.LN_TX_TAP_ERR]) ∧
    (l.val < laneCount p → getFld v F.LN_TX_C_PRE + getFld v F.LN_TX_C_MAIN + getFld v F.LN_TX_C_POST ≤ 63 →
      fget t (R.LN_TX p l) F.LN_TX_C_PRE = getFld v F.LN_TX_C_PRE ∧ fget t (R.LN_TX p l) F.LN_TX_C_MAIN = getFld v F.LN_TX_C_MAIN ∧
      fget t (R.LN_TX p l) F.LN_TX_C_POST = getFld v F.LN_TX_C_POST ∧
      flag t (R.LN_TX p l) F.LN_TX_TAP_ERR = (flag s (R.LN_TX p l) F.LN_TX_TAP_ERR && decide (getFld v F.LN_TX_TAP_ERR ≠ 1))) ∧
    frame evParts (onlyEv [R.LN_TX p l]) s t) ∧
  (∀ (p : Fin 3) (s : State), ∃ t, exec (.markRow p) s = .next t ∧
    t.tx = (if lnState s p = lnActive ∨ lnState s p = lnDeskew then s.tx ++ [.mark p] else s.tx) ∧ frame [.tx] noReg s t)

/-- Frames that leave a lane port (R382, R383, R386, R398): a waiting frame leaves with the next SEQ while credit suffices, frames of
the retry buffer are resent first, a stream frame carries the next bytes of its queue under a mark, an export is dropped while its
port is lost, and an acknowledgement leaves once none has for ACK_DLY.
Its clauses follow the model's choices of log 78, 79, 80 and 85 where the spec is silent. -/
def Obligations.LaneSending : Prop :=
  (∀ (p : Fin 3) (vc : Fin 4) (q : Fin 256) (ue : Bool) (s : State), ∃ t, exec (.laneFrameSend p vc q ue) s = .next t ∧
    (vc.val ∉ portVcs p ∨ (vc.val < 3 ∧ lnState s p ≠ lnActive) → frame [] noReg s t) ∧
    (∀ (f : LaneFrame) (l : List LaneFrame), vc.val < 2 → vc.val ∈ portVcs p → lnState s p = lnActive → (vcOf s p vc).resend = 0 →
      (vcOf s p vc).out = f :: l →
      (frameUnits f ≤ (vcOf s p vc).credit → retryHeld s p < 64 →
        (vcOf t p vc).out = l ∧ (vcOf t p vc).next = ((vcOf s p vc).next + 1) % 4096 ∧
        (vcOf t p vc).credit = (vcOf s p vc).credit - frameUnits f ∧
        (vcOf t p vc).unacked = (vcOf s p vc).unacked ++ [{ f with seq := BitVec.ofNat 12 (vcOf s p vc).next }] ∧
        ∃ g, t.tx = s.tx ++ [laneTx p g] ∧ g.body = f.body ∧ g.type = f.type ∧ g.vc = f.vc ∧
          g.seq = BitVec.ofNat 12 (vcOf s p vc).next) ∧
      ((vcOf s p vc).credit < frameUnits f ∨ 64 ≤ retryHeld s p → frame [] noReg s t)) ∧
    (∀ f : LaneFrame, vc.val < 2 → vc.val ∈ portVcs p → lnState s p = lnActive → (vcOf s p vc).resend ≠ 0 →
      (vcOf s p vc).unacked[(vcOf s p vc).unacked.length - (vcOf s p vc).resend]? = some f →
      (vcOf t p vc).resend = (vcOf s p vc).resend - 1 ∧ (vcOf t p vc).credit = (vcOf s p vc).credit ∧
      ∃ g, t.tx = s.tx ++ [laneTx p g] ∧ g.body = f.body ∧ g.seq = f.seq) ∧
    (∀ (u : SlqUnit) (o n : Nat) (last : Bool), vc = 2 → lnState s p = lnActive → slqHead (slqQueue s q) = some (u, o, n, last) →
      flag s (R.SLQ_CFG q) F.SLQ_CFG_EN = true → sinkPort s q = p → (slqQueue s q).marks.length < 32 →
      ceilDiv (16 + ceilDiv n 8 * 8) 64 ≤ (vcOf s p 2).credit → (vcOf s p 2).rewound = [] →
      (ue = false → sinkBad s (slqQueue s q) ((slqQueue s q).rd - o) u o n = none → (slqQueue t q).rd = min (slqWr (slqQueue s q)) ((slqQueue s q).rd + n) ∧
        (slqQueue s q).rd ∈ (slqQueue t q).marks ∧ ∃ g, t.tx = s.tx ++ [laneTx p g] ∧ g.vc = 2 ∧ g.queue = BitVec.ofNat 8 q ∧
          g.last = last ∧ g.body.take n = (List.range n).map (fun i => sinkByte s (slqQueue s q) ((slqQueue s q).rd - o) u (o + i))) ∧
      (ue = true ∨ (sinkBad s (slqQueue s q) ((slqQueue s q).rd - o) u o n).isSome = true → t.tx = s.tx ∧ flag t (R.SLQ_QSTAT q) F.SLQ_QSTAT_RESET = true ∧ fget t (R.SLQ_QSTAT q) F.SLQ_QSTAT_CAUSE = 2)) ∧
    (∀ (f : LaneFrame) (l : List LaneFrame), vc = 3 → p ≠ 0 → (vcOf s p 3).out = f :: l →
      (laneUp s p = false → (vcOf t p 3).out = l ∧ evFlag t 366 = true ∧ t.tx = s.tx ∧
        fget t R.RING_CNT F.RING_CNT_EXPORT_DROP = satN F.RING_CNT_EXPORT_DROP.width (fget s R.RING_CNT F.RING_CNT_EXPORT_DROP + 1)) ∧
      (lnState s p = lnActive → frameUnits f ≤ (vcOf s p 3).credit → (vcOf t p 3).out = l ∧
        ∃ g, t.tx = s.tx ++ [laneTx p g] ∧ g.body = f.body ∧ g.queue = f.queue)) ∧
    memKept s t (spillArea s) ∧
    frame (.tx :: .slq :: .pool :: .ps :: .mem :: .poison :: .dram :: evParts) (inBlocks [0, 0xE, 0xF, 0x11]) s t) ∧
  (∀ (p : Fin 3) (s : State), ∃ t, exec (.ackSend p) s = .next t ∧
    (∀ v ∈ portVcs p, lnState s p = lnActive → ((vcOf s p v).ackDue = true ∨ 0 < (vcOf s p v).owe) →
      (lanePort s p).lastAck + 125 * max 1 (fget s (R.LN_CFG p) F.LN_CFG_ACK_DLY) ≤ now s →
      (lanePort t p).lastAck = now s ∧ ∃ g, t.tx = s.tx ++ [laneTx p g] ∧ g.vc = 0 ∧ g.type = 0 ∧ g.body = []) ∧
    (lnState s p ≠ lnActive ∨ now s < (lanePort s p).lastAck + 125 * max 1 (fget s (R.LN_CFG p) F.LN_CFG_ACK_DLY) ∨
      (∀ v ∈ portVcs p, (vcOf s p v).ackDue = false ∧ (vcOf s p v).owe = 0) → frame [] noReg s t) ∧
    frame [.lanes, .tx] noReg s t)

/-- Frames that arrive, acknowledgements and replays (R382, R383, R385, R386, R399): a frame is accepted only with the next SEQ and a
good CRC, and draws a NAK otherwise; an acknowledgement frees the retry buffer, a NAK or a timeout resends it, REPLAY_MAX replays
without progress bring the port down, and a stream frame joins its queue or is held.
Its clauses follow the model's choices of log 78, 79 and 85 where the spec is silent. -/
def Obligations.LaneReceiving : Prop :=
  (∀ (p : Fin 3) (f : LaneFrame) (ok : Bool) (s : State), ∃ t, exec (.laneFrameRx p f ok) s = .next t ∧
    (passing s p = true → isEnum f = false → t.tx = s.tx ++ [.pass (3 - p) f] ∧ frame [.tx] noReg s t) ∧
    (passing s p = false ∨ isEnum f = true → laneUp s p = false ∨ f.vc = 3 ∨ f.vc.val ∉ portVcs p → frame [] noReg s t) ∧
    (passing s p = false ∨ isEnum f = true → laneUp s p = true → f.vc ≠ 3 → f.vc.val ∈ portVcs p →
      (ok = false → flag t (R.LN_STAT p) F.LN_STAT_CRC_ERR = true ∧ evFlag t (320 + 12 * p.val + 3) = true ∧
        fget t (R.LN_CNT_A p) F.LN_CNT_A_CRC_CNT = satN F.LN_CNT_A_CRC_CNT.width (fget s (R.LN_CNT_A p) F.LN_CNT_A_CRC_CNT + 1) ∧
        (∀ v : Nat, (vcOf t p v).rx = (vcOf s p v).rx) ∧
        (unsequenced f = false → ∃ g, t.tx = s.tx ++ [laneTx p g] ∧ g.nak = true ∧ g.ackVc = f.vc ∧
          g.ack = BitVec.ofNat 12 (vcOf s p f.vc).rx)) ∧
      (ok = true → unsequenced f = false → f.seq.toNat = ((vcOf s p f.vc).rx + 1) % 4096 →
        (vcOf t p f.vc).rx = f.seq.toNat ∧ (vcOf t p f.vc).ackDue = true ∧ t.tx = s.tx ∧
        (vcOf t p f.grantVc).credit = (vcOf s p f.grantVc).credit + f.grant.toNat) ∧
      (ok = true → unsequenced f = false → f.seq.toNat ≠ ((vcOf s p f.vc).rx + 1) % 4096 →
        (∃ g, t.tx = s.tx ++ [laneTx p g] ∧ g.nak = true ∧ g.ackVc = f.vc) ∧ frame [.tx] noReg s t) ∧
      (ok = true → unsequenced f = true → t.tx = s.tx ∧ (∀ v : Nat, (vcOf t p v).rx = (vcOf s p v).rx) ∧
        (vcOf t p f.grantVc).credit = (vcOf s p f.grantVc).credit + f.grant.toNat)) ∧
    frame (.tx :: .slq :: evParts) (inBlocks [0xE, 0x10, 0x11, 0x12]) s t) ∧
  (∀ (p : Fin 3) (vc gvc : Fin 4) (seq : BitVec 12) (grant : BitVec 16) (s : State),
    ∃ t, exec (.ackRx p vc seq gvc grant) s = .next t ∧ (laneUp s p = false → frame [] noReg s t) ∧
      (laneUp s p = true → (vcOf t p gvc).credit = (vcOf s p gvc).credit + grant.toNat ∧
        (∀ i : Nat, (vcOf s p vc).unacked.findIdx? (fun f => f.seq.toNat = seq.toNat) = some i →
          (vcOf t p vc).unacked = (vcOf s p vc).unacked.drop (i + 1) ∧ (vcOf t p vc).acked = seq.toNat ∧ (vcOf t p vc).replays = 0) ∧
        (∀ i : Nat, (vcOf s p vc).unacked.findIdx? (fun f => f.seq.toNat = seq.toNat) = none →
          (vcOf s p vc).rewound.findIdx? (fun f => f.seq.toNat = seq.toNat) = some i →
          (vcOf t p vc).unacked = [] ∧ (vcOf t p vc).rewound = (vcOf s p vc).rewound.drop (i + 1) ∧ (vcOf t p vc).acked = seq.toNat)) ∧
      frame (.slq :: evParts) (inBlocks [0xE]) s t) ∧
  (∀ (p : Fin 3) (vc gvc : Fin 4) (seq : BitVec 12) (grant : BitVec 16) (s : State),
    ∃ t, exec (.nakRx p vc seq gvc grant) s = .next t ∧ (laneUp s p = false → frame [] noReg s t) ∧
      (laneUp s p = true → ((vcOf s p vc).unacked ++ (vcOf s p vc).rewound).findIdx? (fun f => f.seq.toNat = seq.toNat) = none →
        ((vcOf s p vc).replays < max 1 (fget s (R.LN_CFG p) F.LN_CFG_REPLAY_MAX) →
          (∀ v : Nat, v < 2 → (vcOf t p v).resend = (vcOf s p v).unacked.length) ∧ (vcOf t p 2).unacked = [] ∧
          (vcOf t p 2).next = ((vcOf s p 2).acked + 1) % 4096 ∧ evFlag t (320 + 12 * p.val + 4) = true ∧
          fget t (R.LN_CNT_A p) F.LN_CNT_A_REPLAY_CNT =
            satN F.LN_CNT_A_REPLAY_CNT.width (fget s (R.LN_CNT_A p) F.LN_CNT_A_REPLAY_CNT + 1)) ∧
        (max 1 (fget s (R.LN_CFG p) F.LN_CFG_REPLAY_MAX) ≤ (vcOf s p vc).replays → lnState t p = lnDetect ∧
          flag t (R.LN_STAT p) F.LN_STAT_REPLAY_FAIL = true ∧ evFlag t (320 + 12 * p.val + 5) = true)) ∧
      frame (.slq :: .ring :: evParts) (inBlocks [8, 0xE, 0x10, 0x11, 0x12]) s t) ∧
  (∀ (p : Fin 3) (vc : Fin 4) (s : State), ∃ t, exec (.replayTimeout p vc) s = .next t ∧
    (laneUp s p = false ∨ vc = 3 ∨ (vcOf s p vc).unacked = [] ∨
      now s < (vcOf s p vc).sentAt + ticksUs (max 1 (fget s (R.LN_CFG p) F.LN_CFG_REPLAY_TO)) → frame [] noReg s t) ∧
    (laneUp s p = true → vc ≠ 3 → (vcOf s p vc).unacked ≠ [] →
      (vcOf s p vc).sentAt + ticksUs (max 1 (fget s (R.LN_CFG p) F.LN_CFG_REPLAY_TO)) ≤ now s →
      ((vcOf s p vc).replays < max 1 (fget s (R.LN_CFG p) F.LN_CFG_REPLAY_MAX) →
        (∀ v : Nat, v < 2 → (vcOf t p v).resend = (vcOf s p v).unacked.length) ∧ (vcOf t p 2).unacked = [] ∧
        evFlag t (320 + 12 * p.val + 4) = true) ∧
      (max 1 (fget s (R.LN_CFG p) F.LN_CFG_REPLAY_MAX) ≤ (vcOf s p vc).replays → lnState t p = lnDetect ∧
        flag t (R.LN_STAT p) F.LN_STAT_REPLAY_FAIL = true)) ∧
    frame (.slq :: .ring :: evParts) (inBlocks [8, 0xE, 0x10, 0x11, 0x12]) s t) ∧
  (∀ (p : Fin 3) (f : LaneFrame) (s : State), ∃ t, exec (.streamRx p f) s = .next t ∧ (laneUp s p = false → frame [] noReg s t) ∧
    (laneUp s p = true → streamQueue s f.queue.toNat = false →
      fget t R.RING_CNT_B F.RING_CNT_B_VC2_DISCARD =
        satN F.RING_CNT_B_VC2_DISCARD.width (fget s R.RING_CNT_B F.RING_CNT_B_VC2_DISCARD + 1) ∧
      (vcOf t p 2).owe = (vcOf s p 2).owe + frameUnits f ∧ t.slq = s.slq) ∧
    (laneUp s p = true → streamQueue s f.queue.toNat = true →
      ((lanePort s p).held ≠ [] ∨ (streamTake s p f).2 = false → (lanePort t p).held = (lanePort s p).held ++ [f] ∧ t.slq = s.slq) ∧
      ((lanePort s p).held = [] → (streamTake s p f).2 = true → (lanePort t p).held = [] ∧
        (vcOf t p 2).owe = (vcOf s p 2).owe + frameUnits f ∧
        ∃ u ∈ (slqQueue t f.queue.toNat).units, f.body <:+ u.bytes ∧ u.closed = f.last)) ∧
    memKept s t (spillArea s) ∧ frame (.slq :: .mem :: .poison :: .dram :: evParts) (inBlocks [0, 0xE, 0xF, 0x11]) s t) ∧
  (∀ (p : Fin 3) (s : State), ∃ t, exec (.streamAppend p) s = .next t ∧ ((lanePort s p).held = [] → frame [] noReg s t) ∧
    (∀ (f : LaneFrame) (l : List LaneFrame), (lanePort s p).held = f :: l →
      (streamQueue s f.queue.toNat = false → (lanePort t p).held = l ∧ t.slq = s.slq ∧
        (vcOf t p 2).owe = (vcOf s p 2).owe + frameUnits f ∧ fget t R.RING_CNT_B F.RING_CNT_B_VC2_DISCARD =
          satN F.RING_CNT_B_VC2_DISCARD.width (fget s R.RING_CNT_B F.RING_CNT_B_VC2_DISCARD + 1)) ∧
      (streamQueue s f.queue.toNat = true → (streamTake s p f).2 = true →
        (lanePort t p).held = l ∧ (vcOf t p 2).owe = (vcOf s p 2).owe + frameUnits f) ∧
      (streamQueue s f.queue.toNat = true → (streamTake s p f).2 = false → frame [] noReg s t)) ∧
    memKept s t (spillArea s) ∧ frame (.slq :: .mem :: .poison :: .dram :: evParts) (inBlocks [0, 0xE, 0xF, 0x11]) s t)

/-! ### The host port -/

/-- Host accesses through port H (R29, R387): nothing is served while the port is down; a write of bytes of the control-core memory
stores them and is not answered, one that reaches no memory is answered with STATUS 1, a read is answered with the bytes, at most 64
reads are outstanding, and the oldest completion leaves first.
Its clauses follow the model's choices of log 120 and 121 where the spec is silent. -/
def Obligations.HostAccesses : Prop :=
  (∀ (win : Bool) (ofs : BitVec 32) (tag : Byte) (d : List Byte) (s : State), ∃ t, exec (.hostWrite win ofs tag d) s = .next t ∧
    (hostServed s = false ∨ d = [] ∨ 4096 < d.length → frame [] noReg s t) ∧
    (hostServed s = true → d ≠ [] → d.length ≤ 4096 → s.host.held ≠ [] →
      t.host.held = s.host.held ++ [.write win ofs.toNat tag.toNat d] ∧ frame [.host, .lanes] noReg s t) ∧
    (hostServed s = true → s.host.held = [] → d ≠ [] → d.length ≤ 4096 → win = true → inRecovery s = false →
      0x10000000 ≤ winAddr s win ofs.toNat → winAddr s win ofs.toNat + d.length ≤ 0x10200000 →
      poisoned s (winAddr s win ofs.toNat) d.length = false →
      mbytes t (winAddr s win ofs.toNat) d.length = d ∧ memKept s t (within (winAddr s win ofs.toNat) d.length) ∧ t.host = s.host ∧
      frame [.mem] noReg s t) ∧
    (∀ v : Word, hostServed s = true → s.host.held = [] → win = false → ofs.toNat % 4 = 0 → ofs.toNat < 0x1000000 → d = leBytes 4 v.toNat →
      inRecovery s = false → (regDesc (0x0800000000 + ofs.toNat)).isSome = true →
      exec (.hostWrite win ofs tag d) s = exec (.registerWrite .host (BitVec.ofNat 40 (0x0800000000 + ofs.toNat)) v) s) ∧
    (hostServed s = true → s.host.held = [] → d ≠ [] → d.length ≤ 4096 → win = true → regionOf s (winAddr s win ofs.toNat) = .hole →
      t.host.cpls = s.host.cpls ++ [⟨false, tag.toNat, 1, []⟩] ∧
      fget t R.SYS_CNT F.SYS_CNT_DECERR_CNT = satN F.SYS_CNT_DECERR_CNT.width (fget s R.SYS_CNT F.SYS_CNT_DECERR_CNT + 1) ∧
      flag t R.SYS_DECERR_HI F.SYS_DECERR_HI_WRITE = true ∧
      frame (.host :: evParts) (onlyEv [R.SYS_CNT, R.SYS_DECERR_LO, R.SYS_DECERR_HI]) s t)) ∧
  (∀ (win : Bool) (ofs : BitVec 32) (tag : Byte) (n : BitVec 13) (s : State), ∃ t, exec (.hostRead win ofs tag n) s = .next t ∧
    (hostServed s = false → frame [] noReg s t) ∧
    (hostServed s = true → 64 ≤ readsOut s ∨ s.host.held ≠ [] →
      t.host.held = s.host.held ++ [.read win ofs.toNat tag.toNat (min 4096 (bytesOf n.toNat))] ∧ frame [.host] noReg s t) ∧
    (hostServed s = true → readsOut s < 64 → s.host.held = [] → win = true → inRecovery s = false →
      0x10000000 ≤ winAddr s win ofs.toNat → winAddr s win ofs.toNat + min 4096 (bytesOf n.toNat) ≤ 0x10200000 →
      poisoned s (winAddr s win ofs.toNat) (min 4096 (bytesOf n.toNat)) = false →
      t.host.cpls = s.host.cpls ++ [⟨true, tag.toNat, 0, mbytes s (winAddr s win ofs.toNat) (min 4096 (bytesOf n.toNat))⟩] ∧
      (vcOf t 0 1).owe = (vcOf s 0 1).owe + 1 ∧ t.host.held = [] ∧ memKept s t (fun _ => false) ∧
      frame (.host :: .free :: evParts) (inBlocks [0xF]) s t)) ∧
  (∀ s : State, ∃ t, exec .hostCompletion s = .next t ∧ (s.host.cpls = [] → frame [] noReg s t) ∧
    (∀ (c : Cpl) (l : List Cpl), s.host.cpls = c :: l → s.host.held = [] → t.host = { s.host with cpls := l } ∧
      (∃ g, (vcOf t 0 1).out = (vcOf s 0 1).out ++ [g] ∧ g.type = 3 ∧
        g.body.take (8 + c.data.length) = leBytes 8 (c.tag % 256 * 2 ^ 40 + c.status * 2 ^ 48) ++ c.data) ∧
      frame [.host, .lanes] noReg s t) ∧
    (∀ (c : Cpl) (l : List Cpl) (ofs tag n : Nat), s.host.cpls = c :: l → s.host.held = [.read true ofs tag n] →
      (l.filter (fun c => c.read)).length < 64 → inRecovery s = false → 0x10000000 ≤ winAddr s true ofs →
      winAddr s true ofs + n ≤ 0x10200000 → poisoned s (winAddr s true ofs) n = false →
      t.host.held = [] ∧ t.host.cpls = l ++ [⟨true, tag, 0, mbytes s (winAddr s true ofs) n⟩]))

/-! ### Rings -/

/-- A ring forms (R389, R390, R392, R396): the master enumerates from state 0, after its retry and at a REFORM, a follower takes the
position after its neighbour's, the returning ENUM brings the master UP, a count that runs over or another master ends in ERROR, and so
does an ENUM that does not return in 100 ms. Exports (R168, R385, R398): a bad frame is counted as an error and as a drop, a good one
lands in a summation slot at its destination, goes on in the same direction elsewhere, and is dropped at a break; a device of the ring
without a position passes every export on.
Its clauses follow the model's choices of log 85, 87 and 88 where the spec is silent. -/
def Obligations.RingFormationAndExports : Prop :=
  (∀ s : State, ∃ t, exec .enumStart s = .next t ∧ ringEnumerates (ringMaster s && portsActive s && decide (rstate s = 0)) s t) ∧
  (∀ s : State, ∃ t, exec .reform s = .next t ∧ ringEnumerates (ringMaster s) s t) ∧
  (∀ s : State, ∃ t, exec .ringRetry s = .next t ∧ ringEnumerates (ringMaster s && portsActive s && decide (rstate s = 4) &&
    decide (fget s R.RING_STAT F.RING_STAT_ERR = 1) && decide (s.ring.enumAt + ticksMs 1000 ≤ now s)) s t) ∧
  (∀ (fromD own : Bool) (origin count : Fin 32) (bseq : Byte) (id : BitVec 11) (v : BitVec 64) (s : State),
    ∃ t, exec (.enumRx fromD ⟨own, origin⟩ bseq count id v) s = .next t ∧ (standalone s = true ∨ fromD = true → frame [] noReg s t) ∧
      (standalone s = false → fromD = false → ringMaster s = false →
        s.ring.seen.head? ≠ some (origin.val, bseq.toNat) ∨ rstate s ≠ 1 →
        (count.val < 31 → t.ring.pos = some (count.val + 1) ∧ rstate t = 1 ∧ t.ring.breaks = [] ∧ t.ring.enumAt = now s ∧
          fget t R.RING_STAT F.RING_STAT_NODE_ID = 32 * id.toNat + count.val + 1 ∧
          flag t R.RING_STAT F.RING_STAT_NODE_VALID = false) ∧
        (count.val = 31 → t.ring.pos = none ∧ rstate t = 4 ∧ fget t R.RING_STAT F.RING_STAT_ERR = 2 ∧ evFlag t 358 = true)) ∧
      (fromD = false → standalone s = false → ringMaster s = true →
        (own = true → rstate s = 1 → bseq.toNat = s.ring.enumSeq → id.toNat = fget s R.RING_CFG F.RING_CFG_RING_ID →
          rstate t = 2 ∧ fget t R.RING_STAT F.RING_STAT_SIZE = count.val + 1 ∧ evFlag t 356 = true ∧
          t.tb = (if now s < v.toNat then v + 1250000#64 else s.tb)) ∧
        (own = true → rstate s ≠ 1 ∨ bseq.toNat ≠ s.ring.enumSeq ∨ id.toNat ≠ fget s R.RING_CFG F.RING_CFG_RING_ID →
          frame [] noReg s t) ∧
        (own = false → rstate t = 4 ∧ fget t R.RING_STAT F.RING_STAT_ERR = 3 ∧ evFlag t 358 = true)) ∧
      frame (.ring :: .tb :: evParts) (inBlocks [1, 8, 0x11]) s t) ∧
  (∀ s : State, ∃ t, exec .enumTimeout s = .next t ∧ (rstate s ≠ 1 ∨ now s < s.ring.enumAt + ticksMs 100 → frame [] noReg s t) ∧
    (rstate s = 1 → s.ring.enumAt + ticksMs 100 ≤ now s → rstate t = 4 ∧ fget t R.RING_STAT F.RING_STAT_ERR = 1 ∧
      fget t R.RING_STAT F.RING_STAT_SIZE = 0 ∧ rd t R.RING_MAP = 0#32 ∧ evFlag t 358 = true) ∧
    frame evParts (inBlocks [8, 0x11]) s t) ∧
  (∀ (w : Word) (s : State), ∃ t, exec (.ringRttMeasure w) s = .next t ∧
    (ringMaster s = true → rstate s = 2 ∨ rstate s = 3 → rd t R.RING_RTT = w) ∧
    (ringMaster s = false ∨ (rstate s ≠ 2 ∧ rstate s ≠ 3) → frame [] noReg s t) ∧ frame [] (only [R.RING_RTT]) s t) ∧
  (∀ (p : Fin 3) (f : LaneFrame) (ok : Bool) (s : State), ∃ t, exec (.exportRx p f ok) s = .next t ∧
    (passing s p = true → t.tx = s.tx ++ [.pass (3 - p) f] ∧ frame [.tx] noReg s t) ∧
    (p = 0 ∨ (passing s p = false ∧ laneUp s p = false) → frame [] noReg s t) ∧
    (p ≠ 0 → passing s p = false → laneUp s p = true → ok = false → flag t (R.LN_STAT p) F.LN_STAT_CRC_ERR = true ∧ evFlag t 366 = true ∧
      fget t R.RING_CNT F.RING_CNT_EXPORT_DROP = satN F.RING_CNT_EXPORT_DROP.width (fget s R.RING_CNT F.RING_CNT_EXPORT_DROP + 1)) ∧
    (p ≠ 0 → passing s p = false → laneUp s p = true → ok = true →
      (vcOf t p 3).rx = f.seq.toNat ∧ (vcOf t p 3).owe = (vcOf s p 3).owe + frameUnits f ∧
      (vcOf t p f.grantVc).credit = (vcOf s p f.grantVc).credit + f.grant.toNat ∧
      (∀ i : Nat, (vcOf s p f.ackVc).unacked.findIdx? (fun g => g.seq.toNat = f.ack.toNat) = some i →
        (vcOf t p f.ackVc).unacked = (vcOf s p f.ackVc).unacked.drop (i + 1)) ∧
      (ringRanked s = true → s.ring.pos = some (f.queue.toNat % 32) → fget s R.PS_SUM F.PS_SUM_SUM_SLOTS ≠ 0 →
        (lookup t.ps.slots (sumSlotFor s).1).isSome = true ∧
        (firstHole s (sumAddr s (sumSlotFor s).1) (f.body.take 4160).length = none →
          (regionOf s (sumAddr s (sumSlotFor s).1) = .sdram → drcServes s = true) →
          mbytes t (sumAddr s (sumSlotFor s).1) (f.body.take 4160).length = f.body.take 4160) ∧
        memKept s t (within (sumAddr s (sumSlotFor s).1) (f.body.take 4160).length)) ∧
      (ringRanked s = true → s.ring.pos ≠ some (f.queue.toNat % 32) → t.mem = s.mem ∧
        (laneUp s (3 - p.val) = true → (vcOf t (3 - p.val) 3).out = (vcOf s (3 - p.val) 3).out ++ [f]) ∧
        (laneUp s (3 - p.val) = false → evFlag t 366 = true))) ∧
    frame (.tx :: .slq :: .ps :: .mem :: .poison :: .dram :: evParts) (inBlocks [0, 0xB, 0xE, 0xF, 0x10, 0x11, 0x12]) s t)

/-- Broadcasts on the ring (R105, R389, R392, R394, R396, R397): a device without a position ignores them; its own, and one that it has
seen, it at most passes on; any other it passes on and acts upon, as the broadcast's kind says; a device that joins takes back its
position where the map shows it absent and it lies between its neighbours'.
Its clauses follow the model's choices of log 33, 86 and 90 where the spec is silent. -/
def Obligations.RingBroadcasts : Prop :=
  (∀ (fromD : Bool) (o : Fin 32) (b : Byte) (size : BitVec 6) (map : Word) (s : State),
    ∃ t, exec (.ringUpRx fromD o b size map) s = .next t ∧ castPassed ⟨1, o, b.toNat, 0, 0, size.toNat, 0, map.toNat⟩ fromD s t ∧
      (castNew o b.toNat s →
        (rstate s = 1 → rstate t = 2 ∧ fget t R.RING_STAT F.RING_STAT_SIZE = size.toNat ∧ evFlag t 356 = true) ∧
        (rstate s = 0 → bitOf map.toNat (s.ring.pos.getD 0) = true ∨ joinFits s size.toNat = false → t.ring.pos = none) ∧
        (rstate s = 0 → bitOf map.toNat (s.ring.pos.getD 0) = false → joinFits s size.toNat = true →
          rstate t = 2 ∧ fget t R.RING_STAT F.RING_STAT_SIZE = size.toNat ∧ evFlag t 367 = true)) ∧
      frame (.ring :: evParts) (inBlocks [1, 8, 0x11]) s t) ∧
  (∀ (fromD : Bool) (o p1 p2 : Fin 32) (b : Byte) (s : State), ∃ t, exec (.wrapRx fromD o b p1 p2) s = .next t ∧
    castPassed ⟨2, o, b.toNat, p1, p2, 0, 0, 0⟩ fromD s t ∧
    (castNew o b.toNat s →
      (rstate s = 2 → (p1.val, p2.val) ∉ s.ring.breaks → (p1.val, p2.val) ∈ t.ring.breaks ∧ rstate t = 3 ∧ evFlag t 359 = true ∧
        fget t R.RING_CNT F.RING_CNT_WRAPS = satN F.RING_CNT_WRAPS.width (fget s R.RING_CNT F.RING_CNT_WRAPS + 1))) ∧
    frame (.ring :: evParts) (inBlocks [8, 0x11]) s t) ∧
  (∀ (fromD : Bool) (o p1 p2 : Fin 32) (b : Byte) (s : State), ∃ t, exec (.unwrapRx fromD o b p1 p2) s = .next t ∧
    castPassed ⟨3, o, b.toNat, p1, p2, 0, 0, 0⟩ fromD s t ∧
    (castNew o b.toNat s → (p1.val, p2.val) ∉ t.ring.breaks ∧
      (rstate s = 3 → s.ring.breaks = [(p1.val, p2.val)] → rstate t = 2 ∧ evFlag t 360 = true)) ∧
    frame (.ring :: evParts) (inBlocks [8, 0x11]) s t) ∧
  (∀ (fromD chb : Bool) (o : Fin 32) (b : Byte) (v : BitVec 64) (s : State), ∃ t, exec (.frameStartRx fromD o b v chb) s = .next t ∧
    castPassed (plainCast 4 o b v.toNat) fromD s t ∧
    (castNew o b.toNat s →
      (frameSrc s = 3 → now s ≤ v.toNat + fget s R.RING_CFG F.RING_CFG_FS_LEAD →
        t.ring.startAt = s.ring.startAt.filter (· ≤ v.toNat + fget s R.RING_CFG F.RING_CFG_FS_LEAD) ++
          (v.toNat + fget s R.RING_CFG F.RING_CFG_FS_LEAD) ::
          s.ring.startAt.filter (v.toNat + fget s R.RING_CFG F.RING_CFG_FS_LEAD < ·) ∧ frame [.ring, .lanes] noReg s t) ∧
      (frameSrc s = 3 → v.toNat + fget s R.RING_CFG F.RING_CFG_FS_LEAD < now s → evFlag t 365 = true ∧
        fget t R.RING_CNT_B F.RING_CNT_B_LATE_BCAST = satN F.RING_CNT_B_LATE_BCAST.width (fget s R.RING_CNT_B F.RING_CNT_B_LATE_BCAST + 1)) ∧
      (frameSrc s ≠ 3 → frame [.ring, .lanes] noReg s t)) ∧
    memKept s t (fun a => gapArea s a || spillArea s a) ∧
    frame (.ps :: .saf :: .sht :: .sys :: .sec :: .tdc :: .gt :: .tilt :: .ctl :: .emg :: .slq :: .dram :: .mem :: .poison :: .ring :: .free ::
      evParts) (tilesAnd [0, 4, 8, 9, 0xA, 0xB, 0xC, 0xE, 0xF, 0x11, 0x15]) s t) ∧
  (∀ (fromD : Bool) (o : Fin 32) (b : Byte) (v : BitVec 64) (s : State), ∃ t, exec (.tbLoadRx fromD o b v) s = .next t ∧
    castPassed (plainCast 5 o b v.toNat) fromD s t ∧ (castNew o b.toNat s → t.tb = s.tb + v) ∧
    frame [.ring, .lanes, .tb] noReg s t) ∧
  (∀ (fromD : Bool) (o : Fin 32) (b : Byte) (s : State), ∃ t, exec (.capArmRx fromD o b) s = .next t ∧
    castPassed (plainCast 6 o b 0) fromD s t ∧
    (castNew o b.toNat s →
      (capState s = 0 → 0 < (rd s R.CAP_LEN).toNat → capState t = 1 ∧ t.sht.capOfs = 0 ∧ t.sht.capTicks = []) ∧
      (capState s ≠ 0 → frame [.ring, .lanes] noReg s t)) ∧
    frame [.ring, .lanes, .sht] (only [R.CAP_STAT]) s t) ∧
  (∀ (fromD : Bool) (o : Fin 32) (b : Byte) (s : State), ∃ t, exec (.capDisarmRx fromD o b) s = .next t ∧
    castPassed (plainCast 7 o b 0) fromD s t ∧ (castNew o b.toNat s → capState t = 0) ∧
    frame [.ring, .lanes] (only [R.CAP_STAT]) s t) ∧
  (∀ (fromD : Bool) (o : Fin 32) (b : Byte) (v : BitVec 64) (s : State), ∃ t, exec (.capFireRx fromD o b v) s = .next t ∧
    castPassed (plainCast 8 o b v.toNat) fromD s t ∧
    (castNew o b.toNat s →
      (capState s = 1 → capState t = 2 ∧ t.sht.capT = v.toNat ∧ t.sht.capEnd = now s + (rd s R.RING_RTT).toNat + ticksUs 1) ∧
      (capState s = 2 → capState t = 2 ∧ t.sht.capT = min s.sht.capT v.toNat)) ∧
    frame [.ring, .lanes, .capture] (only [R.CAP_STAT]) s t)

/-- Time over the ring (R391, R392, R395): a follower asks its reference port every 100 µs, a request is answered with its instants, a
reply adds one sample and every 64th corrects the timebase, the correction is made in steps, and a follower in holdover changes its
reference.
Its clauses follow the model's choices of log 89 where the spec is silent. -/
def Obligations.RingTime : Prop :=
  (∀ (fine : Fin 128) (s : State), ∃ t, exec (.timeRequest fine) s = .next t ∧
    (ringFollower s = false ∨ s.ring.refSel = 0 ∨ now s < s.ring.reqAt + ticksUs 100 → frame [] noReg s t) ∧
    (ringFollower s = true → s.ring.refSel ≠ 0 → laneUp s s.ring.refSel = true → s.ring.reqAt + ticksUs 100 ≤ now s →
      t.ring.number = (s.ring.number + 1) % 256 ∧ t.ring.t1 = some ((now s * 128 + fine.val) % 2 ^ 64) ∧ t.ring.reqAt = now s ∧
      ∃ g, t.tx = s.tx ++ [laneTx s.ring.refSel g, .mark s.ring.refSel] ∧ g.type = 4 ∧ g.body = leBytes 8 ((s.ring.number + 1) % 256 * 256)) ∧
    frame [.ring, .lanes, .tx] (inBlocks [0x10, 0x11, 0x12]) s t) ∧
  (∀ (p : Fin 3) (n : Byte) (t2 : BitVec 64) (fine : Fin 128) (s : State), ∃ t, exec (.timeRequestRx p n t2 fine) s = .next t ∧
    (standalone s = true ∨ laneUp s p = false → frame [] noReg s t) ∧
    (standalone s = false → laneUp s p = true → ∃ g, t.tx = s.tx ++ [.mark p, laneTx p g] ∧ g.type = 4 ∧
      (g.body.drop 8).take 8 = leBytes 8 t2.toNat ∧ g.body.drop 16 = leBytes 8 ((now s * 128 + fine.val) % 2 ^ 64) ∧
      g.body[1]? = some n) ∧ frame [.lanes, .tx] (inBlocks [0x10, 0x11, 0x12]) s t) ∧
  (∀ (p : Fin 3) (n : Byte) (lost aligned master : Bool) (t2 t3 t4 : BitVec 64) (t1 : Nat) (s : State), s.ring.t1 = some t1 →
    ∃ t, exec (.timeReplyRx p n lost aligned master t2 t3 t4) s = .next t ∧
      (s.ring.refSel ≠ p ∨ n.toNat ≠ s.ring.number ∨ ringFollower s = false → frame [] noReg s t) ∧
      (s.ring.refSel = p → n.toNat = s.ring.number → ringFollower s = true → t.ring.t1 = none ∧
        (lost = true → flag t R.CLK_STAT F.CLK_STAT_HOLDOVER = true) ∧
        (∀ d sum : Int, lost = false → flag s R.CLK_STAT F.CLK_STAT_HOLDOVER = false → master = true ∨ aligned = true →
          d = 25 * (instDiff t4.toNat t1 - instDiff t3.toNat t2.toNat) + 4 * asymOf s →
          sum = s.ring.thetaSum + 50 * instDiff t4.toNat t3.toNat - d →
          (s.ring.n < 63 → t.ring.n = s.ring.n + 1 ∧ t.ring.thetaSum = sum ∧ t.ring.delaySum = s.ring.delaySum + d ∧ t.tb = s.tb) ∧
          (63 ≤ s.ring.n → t.ring.n = 0 ∧
            fget t R.RING_ALIGN F.RING_ALIGN_THETA = unsigned 16 (clampInt (-32768) 32767 (roundDiv sum 3200)) ∧
            (sum.natAbs ≤ 64 * 12800 → t.ring.steps = - roundDiv sum 3200 ∧ t.tb = s.tb ∧
              (sum.natAbs ≤ 64 * 400 → 2 ≤ s.ring.good → flag t R.RING_STAT F.RING_STAT_ALIGNED = true)) ∧
            (64 * 12800 < sum.natAbs → flag t R.RING_STAT F.RING_STAT_ALIGNED = false ∧
              (sum < 0 → t.tb = s.tb + BitVec.ofNat 64 (sum.natAbs / (64 * 6400))) ∧
              (0 < sum → t.tb = s.tb ∧ t.ring.hold = sum.natAbs / (64 * 6400)))))) ∧
      frame (.ring :: .tb :: evParts) (inBlocks [1, 0x11]) s t) ∧
  (∀ s : State, ∃ t, exec .alignStep s = .next t ∧ (s.ring.steps = 0 ∨ now s < s.ring.stepAt + ticksUs 10 → frame [] noReg s t) ∧
    (s.ring.steps ≠ 0 → s.ring.stepAt + ticksUs 10 ≤ now s → t.ring.stepAt = now s ∧
      t.ring.steps + t.ring.phase = s.ring.steps + s.ring.phase ∧ t.ring.steps.natAbs + 1 = s.ring.steps.natAbs) ∧
    frame [.ring] noReg s t) ∧
  (∀ (toD m : Bool) (ref : BitVec 2) (p : Fin 3) (s : State), p = (if toD then 2 else 1) →
    m = (lanePort s p).partner.elim false (·.2.2) → ∃ t, exec (.refChange toD ref) s = .next t ∧
      (ringFollower s = true → flag s R.CLK_STAT F.CLK_STAT_HOLDOVER = true → refMayChange s = true → s.ring.refSel ≠ p →
        toD = true ∨ s.ring.refSel ≠ 2 → m = true ∨ ref.toNat = p.val → flag s R.CLK_STAT (refOkFld p) = true →
        t.ring.refSel = p ∧ t.ring.pullIn = true ∧ evFlag t 363 = true) ∧
      (ringFollower s = false ∨ flag s R.CLK_STAT F.CLK_STAT_HOLDOVER = false ∨ refMayChange s = false ∨ s.ring.refSel = p ∨
        (toD = false ∧ s.ring.refSel = 2) → frame [] noReg s t) ∧
      frame (.ring :: evParts) (inBlocks [1, 0x11]) s t)

/-! ### Clocks -/

/-- References (R474, R475, R484): the loss of the selected reference is holdover, its return starts a pull-in, the pull-in's end clears
HOLDOVER, and a loss of lock while it is present is handled as holdover. Clock gating (R477 to R479): CLK_GATE0 is written in STANDBY or
BOOT only, and at a 1 µs mark each domain follows the gating rule of its unit.
Its clauses follow the model's choices of log 100 and 101 where the spec is silent. -/
def Obligations.ReferencesAndGating : Prop :=
  (∀ (r : Fin 3) (s : State), ∃ t, exec (.refLost r) s = .next t ∧ flag t R.CLK_STAT (refOkFld r) = false ∧
    (r = 0 → rd t R.CLK_OFS = 0x80000000#32) ∧
    (s.ring.refSel = r → flag t R.CLK_STAT F.CLK_STAT_HOLDOVER = true ∧ flag t R.CLK_STAT F.CLK_STAT_REF_LOST = true ∧
      (flag s R.CLK_STAT F.CLK_STAT_HOLDOVER = false → evFlag t 364 = true)) ∧
    (s.ring.refSel ≠ r → flag t R.CLK_STAT F.CLK_STAT_HOLDOVER = flag s R.CLK_STAT F.CLK_STAT_HOLDOVER ∧ t.ring = s.ring) ∧ t.tb = s.tb ∧
    frame (.ring :: evParts) (onlyEv [R.CLK_STAT, R.CLK_OFS, R.CLK_CNT, R.RING_STAT]) s t) ∧
  (∀ (r : Fin 3) (near : Bool) (s : State), ∃ t, exec (.referenceReturn r near) s = .next t ∧ flag t R.CLK_STAT (refOkFld r) = true ∧
    (r = 0 → s.ring.refSel = 0 → rd t R.CLK_OFS = 0#32) ∧
    (flag s R.CLK_STAT F.CLK_STAT_HOLDOVER = true → s.ring.refSel = r → near = true → t.ring.pullIn = true) ∧
    frame (.ring :: .free :: evParts) (onlyEv [R.CLK_STAT, R.CLK_OFS, R.RING_STAT]) s t) ∧
  (∀ s : State, ∃ t, exec .pullInDone s = .next t ∧
    (flag s R.CLK_STAT F.CLK_STAT_HOLDOVER = true → s.ring.pullIn = true → flag t R.CLK_STAT F.CLK_STAT_HOLDOVER = false ∧
      t.ring.pullIn = false ∧ fget t R.CLK_STAT F.CLK_STAT_SRC = s.ring.refSel.val ∧
      fget t R.RING_STAT F.RING_STAT_REF = s.ring.refSel.val) ∧
    (flag s R.CLK_STAT F.CLK_STAT_HOLDOVER = false ∨ s.ring.pullIn = false → frame [] noReg s t) ∧
    bitsKept s t R.CLK_STAT [F.CLK_STAT_HOLDOVER, F.CLK_STAT_SRC] ∧ frame [.ring] (only [R.CLK_STAT, R.RING_STAT]) s t) ∧
  (∀ s : State, ∃ t, exec .lockLost s = .next t ∧
    (flag s R.CLK_STAT (refOkFld s.ring.refSel) = false → frame [] noReg s t) ∧
    (flag s R.CLK_STAT (refOkFld s.ring.refSel) = true → flag t R.CLK_STAT F.CLK_STAT_LOCK_LOST = true ∧
      flag t R.CLK_STAT F.CLK_STAT_HOLDOVER = true ∧ t.ring.pullIn = true ∧
      fget t R.CLK_CNT F.CLK_CNT_LOCK_CNT = satN F.CLK_CNT_LOCK_CNT.width (fget s R.CLK_CNT F.CLK_CNT_LOCK_CNT + 1)) ∧
    frame (.ring :: evParts) (onlyEv [R.CLK_STAT, R.CLK_CNT, R.RING_STAT]) s t) ∧
  (∀ (v : Word) (s : State), ∃ t, exec (.clkGateWrite v) s = .next t ∧
    (rwmOk s = true → rd t R.CLK_GATE0 = v ∧ frame [] (only [R.CLK_GATE0]) s t) ∧
    (rwmOk s = false → rd t R.CLK_GATE0 = rd s R.CLK_GATE0 ∧ evFlag t Ev.rwmDiscard = true) ∧
    frame evParts (onlyEv [R.CLK_GATE0]) s t) ∧
  (∀ (d : Fin 60) (s : State), ∃ t, exec (.gateApply d) s = .next t ∧ (now s % 1250 ≠ 0 → frame [] noReg s t) ∧
    (now s % 1250 = 0 → domainRuns t d = domainOn s d ∧ (∀ k : Fin 60, k ≠ d → domainRuns t k = domainRuns s k)) ∧
    (domainRuns s d = domainOn s d → frame [] noReg s t) ∧
    memKept s t (gapArea s) ∧
    frame (.fe :: .gt :: .tdc :: .pool :: .reinit :: gapParts ++ evParts) (tilesAnd [0, 1, 4, 8, 9, 0xA, 0xB]) s t)

/-! ### CAN and the dictionary -/

/-- NMT, SYNC, heartbeats and the errors of a CAN controller (R410, R411, R414, R425, R428, R432): a command acts on the node that it
addresses, SYNC and heartbeats restart their timeouts, a timeout raises its event once, a controller in bus-off counts it and
recovers, and the oldest EMCY leaves after the inhibit time.
Its clauses follow the model's choices of log 12 and 107 where the spec is silent. -/
def Obligations.CanNode : Prop :=
  (∀ (c : Fin 2) (cs node : Byte) (s : State), ∃ t, exec (.nmtCommand c cs node) s = .next t ∧
    (canServed s c = false ∨ (node ≠ 0#8 ∧ node.toNat ≠ nodeId s c) → frame [] noReg s t) ∧
    (canServed s c = true → node = 0#8 ∨ node.toNat = nodeId s c →
      (∀ p ∈ [(1#8, 1), (2#8, 2), (128#8, 0)], cs = p.1 → nmtOf t c = (if nmtOf s c = 3 then 3 else p.2)) ∧
      (cs = 129#8 ∨ cs = 130#8 → nmtOf t c = 3 ∧ 0x80 + c.val ∈ t.reinit ∧ fget t (R.CAN_STAT c) F.CAN_STAT_BUS = 0) ∧
      fget t (R.CAN_CNT c) F.CAN_CNT_RX_FRAMES = satN F.CAN_CNT_RX_FRAMES.width (fget s (R.CAN_CNT c) F.CAN_CNT_RX_FRAMES + 1)) ∧
    frame (.com :: .reinit :: evParts) (inBlocks [0x13]) s t) ∧
  (∀ (c : Fin 2) (s : State), ∃ t, exec (.syncRx c) s = .next t ∧ (nodeHears s c = false → frame [] noReg s t) ∧
    (nodeHears s c = true → t.com.syncAt = some (now s)) ∧ frame [.com] (only [R.CAN_CNT c]) s t) ∧
  (∀ (t0 : Nat) (s : State), s.com.syncAt = some t0 → ∃ t, exec .syncLost s = .next t ∧
    (od s 0x1006 0 ≠ 0 → 2 * t0 + 3 * cyclePeriod s ≤ 2 * now s → t.com.syncAt = none ∧ evFlag t 586 = true) ∧
    (od s 0x1006 0 = 0 ∨ 2 * now s < 2 * t0 + 3 * cyclePeriod s → frame [] noReg s t) ∧ frame (.com :: evParts) (onlyEv []) s t) ∧
  (∀ (c : Fin 2) (s : State), ∃ t, exec (.heartbeatTx c) s = .next t ∧
    (canServed s c = true → od s 0x1017 0 ≠ 0 → nmtOf s c ≠ 3 →
      tget 0 s.com.hbSent c + ticksMs (od s 0x1017 0) ≤ now s →
      t.tx = s.tx ++ [.can c (0x700 + nodeId s c) [BitVec.ofNat 8 (nmtCode (nmtOf s c))]] ∧ tget 0 t.com.hbSent c = now s) ∧
    (canServed s c = false ∨ od s 0x1017 0 = 0 ∨ nmtOf s c = 3 → frame [] noReg s t) ∧ frame [.com, .tx] noReg s t) ∧
  (∀ (c : Fin 2) (node : BitVec 7) (st : Byte) (s : State), ∃ t, exec (.heartbeatRx c node st) s = .next t ∧
    (nodeHears s c = false → frame [] noReg s t) ∧
    (∀ j, j < 4 → nodeHears s c = true → lookup t.com.hbSeen j =
      (if (hbEntry s j).1 = node.toNat ∧ (hbEntry s j).2 ≠ 0 then some (now s) else lookup s.com.hbSeen j)) ∧
    frame [.com] (only [R.CAN_CNT c]) s t) ∧
  (∀ (j : Fin 4) (t0 : Nat) (s : State), lookup s.com.hbSeen j = some t0 → ∃ t, exec (.hbLost j) s = .next t ∧
    ((hbEntry s j).2 ≠ 0 → t0 + ticksMs (hbEntry s j).2 ≤ now s → lookup t.com.hbSeen j = none ∧ evFlag t 585 = true ∧
      flag t (R.CAN_STAT 0) F.CAN_STAT_HB_LOST = true) ∧
    ((hbEntry s j).2 = 0 ∨ now s < t0 + ticksMs (hbEntry s j).2 → frame [] noReg s t) ∧
    frame (.com :: evParts) (onlyEv [R.CAN_STAT 0]) s t) ∧
  (∀ (c : Fin 2) (s : State), ∃ t, exec (.busOff c) s = .next t ∧
    (canEn s c = true → fget s (R.CAN_STAT c) F.CAN_STAT_BUS ≠ 2 → fget t (R.CAN_STAT c) F.CAN_STAT_BUS = 2 ∧
      flag t (R.CAN_STAT c) F.CAN_STAT_BUS_OFF = true ∧ evFlag t (568 + 4 * c.val) = true ∧
      fget t (R.CAN_CNT c) F.CAN_CNT_BUS_OFFS = satN F.CAN_CNT_BUS_OFFS.width (fget s (R.CAN_CNT c) F.CAN_CNT_BUS_OFFS + 1)) ∧
    (canEn s c = false ∨ fget s (R.CAN_STAT c) F.CAN_STAT_BUS = 2 → frame [] noReg s t) ∧
    frame evParts (onlyEv [R.CAN_STAT c, R.CAN_CNT c]) s t) ∧
  (∀ (c : Fin 2) (s : State), ∃ t, exec (.busOffRecovery c) s = .next t ∧
    (fget s (R.CAN_STAT c) F.CAN_STAT_BUS = 2 → fget t (R.CAN_STAT c) F.CAN_STAT_BUS = 0 ∧
      fget t (R.CAN_STAT c) F.CAN_STAT_TEC = 0 ∧ fget t (R.CAN_STAT c) F.CAN_STAT_REC = 0) ∧
    (fget s (R.CAN_STAT c) F.CAN_STAT_BUS ≠ 2 → frame [] noReg s t) ∧
    bitsKept s t (R.CAN_STAT c) [F.CAN_STAT_BUS, F.CAN_STAT_TEC, F.CAN_STAT_REC] ∧ frame [] (only [R.CAN_STAT c]) s t) ∧
  (∀ (c : Fin 2) (enter : Bool) (tec rec : Byte) (s : State), ∃ t, exec (.canErrorPassive c enter tec rec) s = .next t ∧
    (canEn s c = true → fget s (R.CAN_STAT c) F.CAN_STAT_BUS ≠ 2 → fget t (R.CAN_STAT c) F.CAN_STAT_TEC = tec.toNat ∧
      fget t (R.CAN_STAT c) F.CAN_STAT_REC = rec.toNat ∧ fget t (R.CAN_STAT c) F.CAN_STAT_BUS = b2n enter ∧
      (enter = true → flag t (R.CAN_STAT c) F.CAN_STAT_ERR_PASSIVE = true ∧ evFlag t (569 + 4 * c.val) = true)) ∧
    (canEn s c = false ∨ fget s (R.CAN_STAT c) F.CAN_STAT_BUS = 2 → frame [] noReg s t) ∧
    frame evParts (onlyEv [R.CAN_STAT c]) s t) ∧
  (∀ (c : Fin 2) (s : State), ∃ t, exec (.txTo c) s = .next t ∧ (canEn s c = false → frame [] noReg s t) ∧
    (canEn s c = true → flag t (R.CAN_STAT c) F.CAN_STAT_TX_TO = true ∧ evFlag t (571 + 4 * c.val) = true) ∧
    frame evParts (onlyEv [R.CAN_STAT c]) s t) ∧
  (∀ s : State, ∃ t, exec .emcySend s = .next t ∧
    (s.evt.emcy = [] ∨ now s < s.evt.emcyAt ∨ nodeBuses s = [] ∨ nmtOf s 0 = 3 → frame [] noReg s t) ∧
    (∀ m ms, s.evt.emcy = m :: ms → s.evt.emcyAt ≤ now s → nodeBuses s ≠ [] → nmtOf s 0 ≠ 3 →
      t.evt.emcy = ms ∧ t.evt.emcyAt = now s + 100 * ticksUs 1 * od s 0x1015 0 ∧
      t.tx = s.tx ++ (nodeBuses s).map (fun c => .can c (od s 0x1014 0 % 0x800)
        (leBytes 2 m.code ++ leBytes 1 m.errReg ++ leBytes 2 m.event ++ leBytes 2 m.count ++ [0#8]))) ∧
    frame [.evt, .tx] noReg s t)

/-- PDOs and SDO requests (R405, R409, R413, R414, R432): a receive PDO of the mapped length is applied in order, one of another length
raises its event, a twin from the other bus is dropped, a transmit PDO leaves on each bus of the node, and a request is answered on the
bus that it came by, by the SDO server with FD = 0 (expedited or by blocks, as it asks) and by the USDO server with FD = 1.
Its clauses follow the model's choices of log 12 and 113 where the spec is silent. -/
def Obligations.CanTransfers : Prop :=
  (∀ (c : Fin 2) (n : Fin 16) (d : List Byte) (ovr : Bool) (s : State), ∃ t, exec (.rpdoRx c n d ovr) s = .next t ∧
    (nodeHears s c = false → frame [] noReg s t) ∧
    (nodeHears s c = true → ovr = true → flag t (R.CAN_STAT c) F.CAN_STAT_RX_OVR = true ∧ evFlag t (570 + 4 * c.val) = true ∧
      fget t (R.CAN_CNT c) F.CAN_CNT_RX_OVR = satN F.CAN_CNT_RX_OVR.width (fget s (R.CAN_CNT c) F.CAN_CNT_RX_OVR + 1) ∧
      frame evParts (onlyEv [R.CAN_STAT c, R.CAN_CNT c]) s t) ∧
    (nodeHears s c = true → ovr = false → pdoLive s (0x1400 + n.val) = false ∨ rpdoTwin s c n = true →
      frame [] (only [R.CAN_CNT c]) s t) ∧
    (nodeHears s c = true → ovr = false → pdoLive s (0x1400 + n.val) = true → rpdoTwin s c n = false →
      (d.length ≠ pdoBytes (pdoMap s (0x1600 + n.val)) → evFlag t 587 = true ∧ frame evParts (onlyEv [R.CAN_CNT c]) s t) ∧
      (d = [] → pdoMap s (0x1600 + n.val) = [] → lookup t.com.rpdo n = some (c.val, now s) ∧ frame [.com] (only [R.CAN_CNT c]) s t) ∧
      (∀ v : Word, d = leBytes 4 v.toNat → pdoMap s (0x1600 + n.val) = [(0x6A00, 1, 4)] →
        rd t R.EGO_DXY = v ∧ lookup t.com.rpdo n = some (c.val, now s) ∧ frame [.com] (only [R.CAN_CNT c, R.EGO_DXY]) s t))) ∧
  (∀ (n : Fin 16) (s : State), ∃ t, exec (.tpdoTx n) s = .next t ∧
    (pdoLive s (0x1800 + n.val) = false ∨ pdoMap s (0x1A00 + n.val) = [] → frame [] noReg s t) ∧
    (pdoLive s (0x1800 + n.val) = true → pdoMap s (0x1A00 + n.val) ≠ [] →
      t.tx = s.tx ++ (nodeBuses s).map (fun c => .can c (od s (0x1800 + n.val) 1 % 0x800) (tpdoData s (pdoMap s (0x1A00 + n.val))))) ∧
    frame [.tx] noReg s t) ∧
  (∀ (c : Fin 2) (k : BitVec 16) (h : SdoHead) (i : BitVec 16) (j : Byte) (w : Option (List Byte)) (s : State),
    ∃ t, exec (.sdoRequest c k h i j w) s = .next t ∧ (nodeHears s c = false ∨ nmtOf s c = 3 → frame [] noReg s t) ∧
      (nodeHears s c = true → nmtOf s c ≠ 3 →
        (h.bad = true → t.tx = s.tx ++ [.can c (0x580 + nodeId s 0) (if canFd s then
            usdoHead h 0x7F i.toNat j.toNat ++ leBytes 2 0 ++ leBytes 4 Abort.badOp
          else leBytes 1 0x80 ++ leBytes 2 i.toNat ++ leBytes 1 j.toNat ++ leBytes 4 Abort.badOp)] ∧
          fget t (R.CAN_CNT c) F.CAN_CNT_RX_FRAMES =
            satN F.CAN_CNT_RX_FRAMES.width (fget s (R.CAN_CNT c) F.CAN_CNT_RX_FRAMES + k.toNat) ∧
          frame [.tx] (only [R.CAN_CNT c]) s t) ∧
        (h.bad = false → w = none → i = 0x1018#16 → j = 1#8 →
          (canFd s = false → h.block = false → t.tx = s.tx ++ [.can c (0x580 + nodeId s 0)
            (leBytes 1 0x43 ++ leBytes 2 0x1018 ++ leBytes 1 1 ++ leBytes 4 0x00000A1F)]) ∧
          (canFd s = false → h.block = true → t.tx = s.tx ++
            (sdoUpload true 0x1018 1 (leBytes 4 0x00000A1F)).map (fun f => .can c (0x580 + nodeId s 0) (sdoPad f))) ∧
          (canFd s = true → t.tx = s.tx ++ [.can c (0x580 + nodeId s 0)
            (usdoHead h 0x31 0x1018 1 ++ [7#8, 4#8] ++ leBytes 4 0x00000A1F)]) ∧ frame [.tx] (only [R.CAN_CNT c]) s t) ∧
        (∀ v : Word, h.bad = false → w = some (leBytes 4 v.toNat) → i = 0x6A00#16 → j = 1#8 → rd t R.EGO_DXY = v ∧
          (canFd s = false → h.block = false → t.tx = s.tx ++ [.can c (0x580 + nodeId s 0)
            (leBytes 1 0x60 ++ leBytes 2 0x6A00 ++ leBytes 1 1 ++ leBytes 4 0)]) ∧
          (canFd s = false → h.block = true → t.tx = s.tx ++
            (sdoDownload true 0x6A00 1 (leBytes 4 v.toNat)).map (fun f => .can c (0x580 + nodeId s 0) (sdoPad f))) ∧
          (canFd s = true → t.tx = s.tx ++ [.can c (0x580 + nodeId s 0) (usdoHead h 0x21 0x6A00 1)]) ∧
          frame [.tx] (only [R.CAN_CNT c, R.EGO_DXY]) s t)))

/-- Management messages (R405 to R408): a message on a port that is not served is not answered, a bad one and an access that fails are
answered with an abort, a read with the object's bytes, a message for another position of the ring is passed on the shorter way round,
or on in its direction where it came round the ring, at most eight from one port, and an answer goes back to the source of its
request, one that is too long for its path as an abort.
Its clauses follow the model's choices of log 109 and 112 where the spec is silent. -/
def Obligations.ManagementMessages : Prop :=
  (∀ (p : Fin 3) (h : MgmtHdr) (bad : Bool) (len : Word) (s : State), ∃ t, exec (.mgmtRead (.lane p) h bad len) s = .next t ∧
    (pathServed s (.lane p) = false → frame [] noReg s t) ∧
    (pathServed s (.lane p) = true →
      (bad = true → t = done (mgmtReply s (.lane p) (mgmtBytes 4 h Abort.badOp [])) ∧ frame [.lanes] noReg s t) ∧
      (bad = false → toOther s h = true →
        (ringRanked s = false ∨ (rstate s ≠ 2 ∧ rstate s ≠ 3) ∨ ringSize s ≤ h.dest.val →
          t = done (mgmtReply s (.lane p) (mgmtBytes 4 h Abort.noForward []))) ∧
        (ringRanked s = true → rstate s = 2 ∨ rstate s = 3 → h.dest.val < ringSize s →
          (8 ≤ (s.com.fwd.filter (fun f => samePath f.path (.lane p))).length →
            t = done (mgmtReply s (.lane p) (mgmtBytes 4 h Abort.tooMany []))) ∧
          (∀ o : Nat, o = ringOut s (if p = 0 then exportPort s h.dest else 3 - p.val) →
            (s.com.fwd.filter (fun f => samePath f.path (.lane p))).length < 8 →
            t.com.fwd = s.com.fwd ++ [⟨.lane p, h.tag.toNat, o⟩] ∧
            (vcOf t o 0).out = (vcOf s o 0).out ++ [rawFrame 0 8 0 false (padWords (mgmtBytes 1 h (min len.toNat 4096) []))])) ∧ frame [.lanes, .com] noReg s t) ∧
      (bad = false → toOther s h = false → h.index = 0x1018#16 → h.sub = 1#8 → h.ofs = 0#32 → 4 ≤ len.toNat →
        t = done (mgmtReply s (.lane p) (mgmtBytes 3 h 4 (leBytes 4 0x00000A1F))) ∧ frame [.lanes] noReg s t) ∧
      (∀ e : Nat, bad = false → toOther s h = false → objRead s h.index.toNat h.sub.toNat h.ofs.toNat = (s, .error e) →
        t = done (mgmtReply s (.lane p) (mgmtBytes 4 h e []))))) ∧
  (∀ (k : Fin 2) (ip : Word) (port : BitVec 16) (h : MgmtHdr) (d : List Byte) (s : State),
    ∃ t, exec (.mgmtWrite (.udp k ip port) h d) s = .next t ∧
      (ethServed s k = false → frame [] noReg s t) ∧
      (ethServed s k = true → pathServed s (.udp k ip port) = false → flag t (R.ETH_STAT k) F.ETH_STAT_RX_DROP = true ∧
        evFlag t (578 + 4 * k.val) = true ∧ t.tx = s.tx ∧ frame evParts (onlyEv [R.ETH_CNT k, R.ETH_STAT k]) s t) ∧
      (ethServed s k = true → pathServed s (.udp k ip port) = true →
        (1024 < d.length → t.tx = s.tx ++ [.udp k ip.toNat port.toNat
          (fget s (R.ETH_UDP k) F.ETH_UDP_MGMT_PORT) (mgmtBytes 4 h Abort.length [])] ∧ frame [.tx] (only [R.ETH_CNT k]) s t) ∧
        (∀ v : Word, toOther s h = false → d = leBytes 4 v.toNat → h.index = 0x6A00#16 → h.sub = 1#8 →
          rd t R.EGO_DXY = v ∧ t.tx = s.tx ++ [.udp k ip.toNat port.toNat
            (fget s (R.ETH_UDP k) F.ETH_UDP_MGMT_PORT) (mgmtBytes 3 h 0 [])] ∧ frame [.tx] (only [R.ETH_CNT k, R.EGO_DXY]) s t) ∧
        (toOther s h = false → h.index = 0x1018#16 → h.sub = 1#8 → d.length = 4 → t.tx = s.tx ++ [.udp k ip.toNat port.toNat
          (fget s (R.ETH_UDP k) F.ETH_UDP_MGMT_PORT) (mgmtBytes 4 h Abort.writeRo [])] ∧ frame [.tx] (only [R.ETH_CNT k]) s t))) ∧
  (∀ (p : Fin 3) (msg : List Byte) (s : State), ∃ t, exec (.mgmtResponse p msg) s = .next t ∧
    (s.sys.held.isSome = true ∨ laneUp s p = false ∨ takeFwd p (ofLeBytes (msg.take 2)) s.com.fwd = none → frame [] noReg s t) ∧
    (∀ (f : MgmtFwd) (l : List MgmtFwd), s.sys.held = none → laneUp s p = true →
      takeFwd p (ofLeBytes (msg.take 2)) s.com.fwd = some (f, l) →
      t = done (mgmtReply { s with com := { s.com with fwd := l } } f.path (relayed f.path msg)) ∧ frame [.com, .lanes, .tx] noReg s t))

/-! ### Ethernet, events and the view -/

/-- The SGMII ports (R415, R416, R417, R433): link changes, ARP and ICMP answered for the port's own address, any other frame dropped and
counted, event messages taken and sent in their two forms with corrected timestamps, over UDP only with an address, a Sync taken by the
clock of the selected port at most once per interval, its absence a fault, and the read that latches the mapping.
Its clauses follow the model's choices of log 108 where the spec is silent. -/
def Obligations.EthernetPorts : Prop :=
  (∀ (k : Fin 2) (target ip : Word) (mac : BitVec 48) (form : EthForm) (s : State), ∃ t, exec (.ethArp k target mac ip form) s = .next t ∧
    (ethServed s k = false → frame [] noReg s t) ∧
    (ethServed s k = true → form = .badFcs → fget t (R.ETH_CNT k) F.ETH_CNT_CRC_ERR =
      satN F.ETH_CNT_CRC_ERR.width (fget s (R.ETH_CNT k) F.ETH_CNT_CRC_ERR + 1) ∧ frame [] (only [R.ETH_CNT k]) s t) ∧
    (ethServed s k = true → form ≠ .badFcs → fget t (R.ETH_CNT k) F.ETH_CNT_RX_FRAMES =
        satN F.ETH_CNT_RX_FRAMES.width (fget s (R.ETH_CNT k) F.ETH_CNT_RX_FRAMES + 1) ∧
      (form = .plain → ethIp s k ≠ 0 → target.toNat = ethIp s k → ∃ b, t.tx = s.tx ++ [.eth k 0x0806 b] ∧
        (b.drop 8).take 6 = beBytes 6 (ethMac s k) ∧ (b.drop 14).take 4 = beBytes 4 (ethIp s k) ∧ (b.drop 18).take 6 = beBytes 6 mac.toNat) ∧
      (form = .other ∨ ethIp s k = 0 ∨ target.toNat ≠ ethIp s k → t.tx = s.tx ∧
        flag t (R.ETH_STAT k) F.ETH_STAT_RX_DROP = true ∧ evFlag t (578 + 4 * k.val) = true ∧
        fget t (R.ETH_CNT k) F.ETH_CNT_RX_DROP = satN F.ETH_CNT_RX_DROP.width (fget s (R.ETH_CNT k) F.ETH_CNT_RX_DROP + 1))) ∧
    frame (.tx :: evParts) (onlyEv [R.ETH_CNT k, R.ETH_STAT k]) s t) ∧
  (∀ (k : Fin 2) (dst ip : Word) (body : List Byte) (s : State), ∃ t, exec (.icmpEcho k dst ip body) s = .next t ∧
    (ethServed s k = false → frame [] noReg s t) ∧
    (ethServed s k = true → ethIp s k ≠ 0 → dst.toNat = ethIp s k → body.length ≤ 1476 → t.tx = s.tx ++ [.eth k 1 (beBytes 4 ip.toNat ++ body)]) ∧
    (ethServed s k = true → ethIp s k = 0 ∨ dst.toNat ≠ ethIp s k ∨ 1476 < body.length → t.tx = s.tx ∧ evFlag t (578 + 4 * k.val) = true) ∧
    frame (.tx :: evParts) (onlyEv [R.ETH_CNT k, R.ETH_STAT k]) s t) ∧
  (∀ (k : Fin 2) (an : Bool) (s : State), ∃ t, exec (.linkUp k an) s = .next t ∧
    (flag s (R.ETH_CFG k) F.ETH_CFG_EN = true → flag s (R.ETH_STAT k) F.ETH_STAT_LINK = false →
      flag t (R.ETH_STAT k) F.ETH_STAT_LINK = true ∧ flag t (R.ETH_STAT k) F.ETH_STAT_LINK_UP = true ∧
      flag t (R.ETH_STAT k) F.ETH_STAT_AN_DONE = (an && flag s (R.ETH_CFG k) F.ETH_CFG_AN_EN) ∧ evFlag t (576 + 4 * k.val) = true) ∧
    (flag s (R.ETH_CFG k) F.ETH_CFG_EN = false ∨ flag s (R.ETH_STAT k) F.ETH_STAT_LINK = true → frame [] noReg s t) ∧
    frame evParts (onlyEv [R.ETH_STAT k]) s t) ∧
  (∀ (k : Fin 2) (s : State), ∃ t, exec (.linkDown k) s = .next t ∧ flag t (R.ETH_STAT k) F.ETH_STAT_LINK = false ∧
    (flag s (R.ETH_STAT k) F.ETH_STAT_LINK = false → frame [] noReg s t) ∧
    (flag s (R.ETH_STAT k) F.ETH_STAT_LINK = true → flag t (R.ETH_STAT k) F.ETH_STAT_LINK_DOWN = true ∧
      flag t (R.ETH_STAT k) F.ETH_STAT_AN_DONE = false ∧ evFlag t (577 + 4 * k.val) = true) ∧
    frame evParts (onlyEv [R.ETH_STAT k]) s t) ∧
  (∀ (k : Fin 2) (tick i : BitVec 64) (m : PtpFrame) (can : Bool) (s : State),
    can = (flag s (R.ETH_CFG k) F.ETH_CFG_PTP_EN && (!m.udp || decide (ethIp s k ≠ 0))) →
    ∃ t, exec (.ptpMessage k tick m i) s = .next t ∧
      (ethServed s k = false → frame [] noReg s t) ∧
      (ethServed s k = true → m.egress = false → can = false → t.com = s.com ∧ flag t (R.ETH_STAT k) F.ETH_STAT_RX_DROP = true ∧
        evFlag t (578 + 4 * k.val) = true) ∧
      (ethServed s k = true → m.egress = false → can = true →
        lookup t.com.ptpStamp k = some ((tick.toNat * 8 : Nat) + signed 16 (fget s (R.ETH_TS_CORR k) F.ETH_TS_CORR_RX_CORR)) ∧
        (m.type = .sync → k.val = ptpPort s → t.com.ptpSync = some (tick.toNat, i.toNat) ∧
          ((∀ t0, s.com.ptpAt = some t0 → t0 + i.toNat ≤ tick.toNat) → t.com.ptp.refTick = tick.toNat ∧ t.com.ptpAt = some tick.toNat) ∧
          (∀ t0, s.com.ptpAt = some t0 → tick.toNat < t0 + i.toNat → t.com.ptp = s.com.ptp)) ∧
        (m.type ≠ .sync ∨ k.val ≠ ptpPort s → t.com.ptp = s.com.ptp ∧ t.com.ptpSync = s.com.ptpSync)) ∧
      (ethServed s k = true → m.egress = true → can = true → ptpSends s k m.type = true →
        lookup t.com.ptpStamp k = some ((tick.toNat * 8 : Nat) + signed 16 (fget s (R.ETH_TS_CORR k) F.ETH_TS_CORR_TX_CORR)) ∧
        (m.udp = false → t.tx = s.tx ++ [.eth k 0x88F7 (ptpBytes s k m.type)]) ∧
        (m.udp = true → t.tx = s.tx ++ [.udp k (if m.type = .pdelayReq ∨ m.type = .pdelayResp then 0xE000006B else 0xE0000181)
          319 319 (ptpBytes s k m.type)])) ∧
      (ethServed s k = true → m.egress = true → can = false ∨ ptpSends s k m.type = false → frame [] noReg s t) ∧
      (m.egress = false → t.tx = s.tx) ∧
      frame (.com :: .free :: .tx :: evParts) (onlyEv [R.ETH_CNT k, R.ETH_STAT k]) s t) ∧
  (∀ (k : Fin 2) (t0 i : Nat) (s : State), s.com.ptpSync = some (t0, i) → ∃ t, exec (.ptpSyncTimeout k) s = .next t ∧
    (k.val = ptpPort s → s.com.ptp.state = 2 → t0 + 3 * i ≤ now s → t.com.ptpSync = none ∧
      flag t (R.ETH_STAT k) F.ETH_STAT_PTP_FAULT = true ∧ evFlag t (579 + 4 * k.val) = true) ∧
    (k.val ≠ ptpPort s ∨ s.com.ptp.state ≠ 2 ∨ now s < t0 + 3 * i → frame [] noReg s t) ∧
    frame (.com :: evParts) (onlyEv [R.ETH_STAT k]) s t) ∧
  (∀ s : State, ∃ t, exec .ptpMapRead s = .next t ∧ t.com = { s.com with ptpLatch := s.com.ptp } ∧ frame [.com] noReg s t)

/-- The event block's timed acts and the view of the unit words (R420, R421, R423, R427, R429): the view is refreshed every 10 ms and
shows every unit's word, a word that changed under one GEN is published anew, IRQ_N returns 200 ns after its release, and a notice
leaves once its gathering has ended.
Its clauses follow the model's choices of log 115 where the spec is silent. -/
def Obligations.NoticesAndView : Prop :=
  (∀ s : State, ∃ t, exec .viewRefresh s = .next t ∧
    (s.sys.held.isSome = true ∨ fget s R.SECU_STAT F.SECU_STAT_STAGE ≠ 1 ∨ now s < s.com.viewAt + ticksMs 10 → frame [] noReg s t) ∧
    (s.sys.held = none → fget s R.SECU_STAT F.SECU_STAT_STAGE = 1 → s.com.viewAt + ticksMs 10 ≤ now s → t.com.viewAt = now s ∧
      (∀ u ∈ unitList, (tget 0#32 t.com.view u).toNat % 0x10000 = (unitWord s u).toNat % 0x10000 ∧
        ((unitWord s u).toNat / 0x10000 = (tget 0#32 s.com.view u).toNat / 0x10000 → unitWord s u ≠ tget 0#32 s.com.view u →
          evFlag t Ev.viewMismatch = true ∧
          (tget 0#32 t.com.view u).toNat / 0x10000 = ((unitWord s u).toNat / 0x10000 + 1) % 0x10000) ∧
        ((unitWord s u).toNat / 0x10000 ≠ (tget 0#32 s.com.view u).toNat / 0x10000 → tget 0#32 t.com.view u = unitWord s u))) ∧
    frame (.com :: evParts) (onlyEv []) s t) ∧
  (∀ (u : Byte) (s : State), ∃ t, exec (.evtRepub u) s = .next t ∧
    (isUnit u.toNat = true → (unitWord s u.toNat).toNat % 0x10000 = unitStateNow s u.toNat →
      (unitWord t u.toNat).toNat = ((unitWord s u.toNat).toNat / 0x10000 + 1) % 0x10000 * 0x10000 + (unitWord s u.toNat).toNat % 0x10000) ∧
    frame [] noReg s t) ∧
  (∀ (k : Fin 2) (t0 : Nat) (s : State), lookup s.evt.irqRel k = some t0 → ∃ t, exec (.irqReassert k) s = .next t ∧
    (t0 ≤ now s → lookup t.evt.irqRel k = none) ∧ (now s < t0 → frame [] noReg s t) ∧ frame [.evt] noReg s t) ∧
  (∀ (n : Notice) (l : List Notice) (s : State), s.evt.hostNotes = n :: l → ∃ t, exec (.noticeSend false) s = .next t ∧
    (now s < n.due ∨ hostServed s = false → frame [] noReg s t) ∧
    (n.due ≤ now s → hostServed s = true → t.evt = { s.evt with hostNotes := l } ∧
      (vcOf t 0 0).out = (vcOf s 0 0).out ++ [rawFrame 0 0xA 0 false (noticeBytes n)]) ∧ frame [.evt, .lanes] noReg s t) ∧
  (∀ (n : Notice) (l : List Notice) (s : State), s.evt.ethNotes = n :: l → ∃ t, exec (.noticeSend true) s = .next t ∧
    (now s < n.due ∨ noticePorts s = [] → frame [] noReg s t) ∧
    (n.due ≤ now s → noticePorts s ≠ [] → t.evt = { s.evt with ethNotes := l } ∧
      t.tx = s.tx ++ (noticePorts s).map (fun k => .udp k (rd s (R.ETH_PEER_IP k)).toNat (fget s (R.ETH_UDP k) F.ETH_UDP_PEER_PORT)
        (fget s (R.ETH_UDP k) F.ETH_UDP_MGMT_PORT) (noticeBytes n))) ∧ frame [.evt, .tx] noReg s t)

/-! ### Security -/

/-- Commands of SEC (R443, R444, R446 to R453): a command that the mode and the seals permit starts with its argument and sets BUSY, one
that they do not permit gives ERR = STATE, and while one runs another does nothing but name itself in CMD. The update path and the
kernel-image allocation (R441, R445, R448): bytes of the inactive bank are taken in order and within the bank and wait to be programmed,
each sector is erased before the first byte that falls into it, the delay words in use become the supplement record, in the slot that is
not in force, and no write by another master changes a byte of the kernel-image allocation: one
that the master's reach covers is discarded with WPROT, any other is a decode error.
Its clauses follow the model's choices of log 92, 94, 95 and 96 where the spec is silent. -/
def Obligations.SecurityAndUpdate : Prop :=
  (∀ s : State, ∃ t, exec .verifyKset s = .next t ∧ secStarts 1 [] s t) ∧
  (∀ s : State, ∃ t, exec .verifyBank s = .next t ∧ secFetches 2 s t) ∧
  (∀ s : State, ∃ t, exec .activate s = .next t ∧ secFetches 3 s t) ∧
  (∀ s : State, ∃ t, exec .activateReset s = .next t ∧ secFetches 4 s t) ∧
  (∀ s : State, ∃ t, exec .confirm s = .next t ∧ secFetches 5 s t) ∧
  (∀ s : State, ∃ t, exec .genOpk s = .next t ∧ secFetches 6 s t) ∧
  (∀ s : State, ∃ t, exec .makeCsr s = .next t ∧ secFetches 7 s t) ∧
  (∀ s : State, ∃ t, exec .installOpcert s = .next t ∧ secFetches 8 s t) ∧
  (∀ s : State, ∃ t, exec .enrolOwner s = .next t ∧ secFetches 9 s t) ∧
  (∀ (nonce : List Byte) (key : Bool) (s : State), ∃ t, exec (.attest nonce key) s = .next t ∧
    secStarts 10 (nonce ++ leBytes 1 (b2n key)) s t) ∧
  (∀ s : State, ∃ t, exec .dbgChallenge s = .next t ∧ secFetches 11 s t) ∧
  (∀ s : State, ∃ t, exec .dbgUnlock s = .next t ∧ secFetches 12 s t) ∧
  (∀ s : State, ∃ t, exec .recoverBoot s = .next t ∧ secStarts 13 [] s t) ∧
  (∀ (o : BitVec 23) (d : List Byte) (s : State), ∃ t, exec (.bankWrite o d) s = .next t ∧
    (bankSize < o.toNat + d.length ∨ updateOpen s = false ∨
      (if o = 0#23 then 0 else s.sec.programmed) + 0x20000 < o.toNat + d.length → frame [] noReg s t) ∧
    (o.toNat + d.length ≤ bankSize → updateOpen s = true →
      o.toNat + d.length ≤ (if o = 0#23 then 0 else s.sec.programmed) + 0x20000 →
      t.sec.verified = none ∧ t.sec.programmed = (if o = 0#23 then 0 else s.sec.programmed) ∧
      t.sec.buf = (if o = 0#23 then [] else s.sec.buf) ++ d.zipIdx.map (fun p => (o.toNat + p.2, p.1))) ∧ frame [.sec] noReg s t) ∧
  (∀ (n : BitVec 18) (s : State), ∃ t, exec (.bankBytesProgrammed n) s = .next t ∧
    t.sec.buf = s.sec.buf.drop (min n.toNat s.sec.buf.length) ∧
    t.sec.programmed = s.sec.programmed + min n.toNat s.sec.buf.length ∧
    (∀ (o a : Nat) (b : Byte), s.sec.buf = [(o, b)] → 0 < n.toNat → a = bankBase (1 - fwBank s) + o → flashGet t a = b ∧
      (∀ p, p ≠ a → p / 0x10000 = a / 0x10000 →
        flashGet t p = if s.sec.erased.contains (a / 0x10000) then flashGet s p else 0xFF#8) ∧
      (∀ p, p / 0x10000 ≠ a / 0x10000 → flashGet t p = flashGet s p)) ∧ frame [.sec] noReg s t) ∧
  (∀ s : State, ∃ t, exec .saveDly s = .next t ∧ (updateOpen s = false → frame [] noReg s t) ∧
    (updateOpen s = true → recordWritten 6 (delayRegs.flatMap (fun a => leBytes 4 (rd s a).toNat)) [] s t) ∧ frame [.sec] noReg s t) ∧
  (∀ (m : Master) (a : BitVec 40) (d : List Byte) (s : State), ∃ t, exec (.kimageWrite m a d) s = .next t ∧
    (∀ x, inKimage x = true → mget t x = mget s x) ∧ memKept s t (within a.toNat d.length) ∧
    ((∀ i, i < d.length → inKimage (a.toNat + i) = false) → frame [] noReg s t) ∧
    (∀ i x, i < d.length → inKimage (a.toNat + i) = true → firstOutside s m a.toNat d.length true = some x → decodeError (x % 2 ^ 40) true s t) ∧
    (∀ i, i < d.length → inKimage (a.toNat + i) = true → firstOutside s m a.toNat d.length true = none →
      flag t R.SHT_STAT F.SHT_STAT_WPROT = true ∧ evFlag t Ev.schedWprot = true) ∧
    frame (.mem :: .poison :: .dram :: evParts) (inBlocks [0, 8, 0xF]) s t)

/-- What a SEC command leaves (R436 to R440, R442 to R444, R446 to R453, R455): BUSY clears, ERR tells the first check that failed, and only a
command without an error has its effect: a verified kernel set in the other half, a switch of the control cores, a confirmed version,
a key, a request for its certificate, a certificate, an owner, a signed report, a challenge, or an open debug port.
Its clauses follow the model's choices of log 92, 93, 94, 95 and 111 where the spec is silent. -/
def Obligations.SecurityResults : Prop :=
  (∀ (v : SecVerdict) (b : BootIn) (s : State), s.sec.run = none → ∃ t, exec (.secCommandDone v b) s = .next t ∧ frame [] noReg s t) ∧
  (∀ (v : SecVerdict) (b : BootIn) (t0 n h d e : Nat) (l : List Byte) (s : State), s.sec.run = some (1, t0) →
    n = mrd s (secArgAt s + 0x14) 4 + mrd s (secArgAt s + 0x18) 4 → l = (blockRead s (secArgAt s) (min n 0x40000 + 0x10A0)).2 →
    e = ksetErr s (listReader l) n v.purpose → h = 1 - activeHalf s → d = 0x0100D00000 + 0x40000 * h →
    ∃ t, exec (.secCommandDone v b) s = .next t ∧ t.sec.run = none ∧ secBusy t = false ∧ fget t R.SEC_CMD_STAT F.SEC_CMD_STAT_ERR = e ∧
      (e ≠ 0 → t.mem = s.mem ∧ flag t R.SECU_STAT F.SECU_STAT_REJECT = true ∧ evFlag t (if e = 5 then 556 else 555) = true ∧
        fget t R.SEC_CNT F.SEC_CNT_REJECTS = satN F.SEC_CNT_REJECTS.width (fget s R.SEC_CNT F.SEC_CNT_REJECTS + 1)) ∧
      (e = 0 → mbytes t d n = l.take n ∧ memKept s t (within d n) ∧ secArgAt t = d ∧ tget [] t.sec.ksets h = sha384 (l.take n)) ∧
      frame (.sec :: .mem :: .poison :: .dram :: .free :: evParts) (inBlocks [0, 0xF, 0x15]) s t) ∧
  (∀ (v : SecVerdict) (b : BootIn) (t0 e : Nat) (s : State), s.sec.run = some (2, t0) → e = inactiveErr s v →
    ∃ t, exec (.secCommandDone v b) s = .next t ∧ t.sec.run = none ∧ fget t R.SEC_CMD_STAT F.SEC_CMD_STAT_ERR = e ∧
      t.sec.verified = (if e = 0 then some (infoAt (bankReader s (1 - fwBank s))) else none) ∧
      (e ≠ 0 → e ≠ 10 → flag t R.SECU_STAT F.SECU_STAT_REJECT = true ∧ evFlag t (if e = 5 then 556 else 555) = true) ∧
      frame (.sec :: evParts) (inBlocks [0x15]) s t) ∧
  (∀ (v : SecVerdict) (b : BootIn) (t0 e at_ : Nat) (i : ImageInfo) (s : State), s.sec.run = some (3, t0) → e = inactiveErr s v →
    i = infoAt (bankReader s (1 - fwBank s)) → at_ = (if s.sec.codeBank = 0 then 0x100C0000 else 0x10000000) →
    ∃ t, exec (.secCommandDone v b) s = .next t ∧ t.sec.run = none ∧
      (s.sec.verified = none → fget t R.SEC_CMD_STAT F.SEC_CMD_STAT_ERR = 6 ∧ fwBank t = fwBank s ∧ t.mem = s.mem) ∧
      (s.sec.verified.isSome = true → e ≠ 0 → fget t R.SEC_CMD_STAT F.SEC_CMD_STAT_ERR = e ∧ fwBank t = fwBank s ∧ t.mem = s.mem ∧
        t.sec.switch = s.sec.switch) ∧
      (s.sec.verified.isSome = true → e = 0 → i.stateFmt ≠ s.sec.running.stateFmt →
        fget t R.SEC_CMD_STAT F.SEC_CMD_STAT_ERR = 7 ∧ fwBank t = fwBank s ∧ t.mem = s.mem) ∧
      (s.sec.verified.isSome = true → e = 0 → i.stateFmt = s.sec.running.stateFmt → fget t R.SEC_CMD_STAT F.SEC_CMD_STAT_ERR = 0 ∧
        mbytes t at_ i.codeLen = flashBytes s (bankBase (1 - fwBank s) + i.codeOfs) i.codeLen ∧ memKept s t (within at_ i.codeLen) ∧
        (modeOf s = .scan → t.sec.switch = some i ∧ fwBank t = fwBank s) ∧
        (modeOf s ≠ .scan → fwBank t = 1 - fwBank s ∧ flag t R.SECU_STAT F.SECU_STAT_TRIAL = true ∧ t.sec.running = i ∧
          t.sec.switch = none ∧ t.sec.codeBank = 1 - s.sec.codeBank ∧ evFlag t 557 = true ∧
          (bootHdr t).map (fun h => (h.active, h.trial, h.tries)) = some (1 - fwBank s, true, 0))) ∧
      frame (.sec :: .mem :: .poison :: evParts) (inBlocks [0x15]) s t) ∧
  (∀ (v : SecVerdict) (b : BootIn) (t0 : Nat) (s : State), s.sec.run = some (4, t0) → ∃ t, exec (.secCommandDone v b) s = .next t ∧
    (s.sec.verified = none → fget t R.SEC_CMD_STAT F.SEC_CMD_STAT_ERR = 6 ∧ t.sys = s.sys) ∧
    (s.sec.verified.isSome = true → v.flash = false → fget t R.SEC_CMD_STAT F.SEC_CMD_STAT_ERR = 10 ∧ t.sys = s.sys) ∧
    (s.sec.verified.isSome = true → v.flash = true → fget t R.SEC_CMD_STAT F.SEC_CMD_STAT_ERR = 0 ∧
      (bootHdr t).map (fun h => (h.active, h.trial, h.tries)) = some (1 - fwBank s, true, 0) ∧
      (s.sys.reset = none → s.sys.held = none → s.sys.orderly = none → t.sys.reset = some (4, now s))) ∧
    memKept s t (gapArea s) ∧ frame (.sec :: .sys :: .ctl :: gapParts ++ evParts) (inBlocks [0, 4, 6, 7, 8, 0xB, 0xC, 0x15]) s t) ∧
  (∀ (v : SecVerdict) (b : BootIn) (t0 : Nat) (s : State), s.sec.run = some (5, t0) → ∃ t, exec (.secCommandDone v b) s = .next t ∧
    (v.flash = false → fget t R.SEC_CMD_STAT F.SEC_CMD_STAT_ERR = 10 ∧ rd t R.SEC_OTP = rd s R.SEC_OTP) ∧
    (v.flash = true → fget t R.SEC_CMD_STAT F.SEC_CMD_STAT_ERR = 0 ∧ flag t R.SECU_STAT F.SECU_STAT_TRIAL = false ∧
      arcOf t = max (arcOf s) (satN 6 s.sec.running.svn)) ∧
    frame [.sec] (only [R.SEC_CMD_STAT, R.SEC_OTP, R.SECU_STAT]) s t) ∧
  (∀ (v : SecVerdict) (b : BootIn) (t0 : Nat) (s : State), s.sec.run = some (6, t0) → ∃ t, exec (.secCommandDone v b) s = .next t ∧
    (v.flash = true → (∃ d k, 1 ≤ d ∧ d < ecN ∧ t.sec.opk = some (d, Config.wrapped s.sec.wrapKey d k)) ∧ t.sec.opcert = [] ∧
      flag t R.SECU_STAT F.SECU_STAT_OPK = true ∧ flag t R.SECU_STAT F.SECU_STAT_OPCERT = false ∧
      (s.sec.arg ≠ [1#8] → t.sec.run = none ∧ fget t R.SEC_CMD_STAT F.SEC_CMD_STAT_ERR = 0) ∧
      (s.sec.arg = [1#8] → modeOf s ≠ .boot → t.sec.run = some (7, now s))) ∧
    (v.flash = false → fget t R.SEC_CMD_STAT F.SEC_CMD_STAT_ERR = 10 ∧ t.sec.opk = s.sec.opk ∧ t.sec.opcert = s.sec.opcert) ∧
    frame [.sec, .free] (only [R.SEC_CMD, R.SEC_CMD_STAT, R.SECU_STAT]) s t) ∧
  (∀ (v : SecVerdict) (b : BootIn) (t0 : Nat) (s : State), s.sec.run = some (7, t0) → ∃ t, exec (.secCommandDone v b) s = .next t ∧
    (∀ d w, s.sec.opk = some (d, w) → fget t R.SEC_CMD_STAT F.SEC_CMD_STAT_ERR = 0 ∧ ∃ k, t.sec.csr = csrBytes Config.serial.toNat
      (ecPublic d) (ecdsaSign d (csrInfo Config.serial.toNat (ecPublic d)) k)) ∧
    (s.sec.opk = none → fget t R.SEC_CMD_STAT F.SEC_CMD_STAT_ERR = 9 ∧ t.sec.csr = s.sec.csr) ∧
    frame [.sec, .free] (only [R.SEC_CMD_STAT]) s t) ∧
  (∀ (v : SecVerdict) (b : BootIn) (t0 : Nat) (ok : Bool) (s : State), s.sec.run = some (8, t0) →
    (ok = true ↔ ∃ d w c l, s.sec.opk = some (d, w) ∧ chainOf s.sec.arg = some (c :: l) ∧ c.key = ecPublic d ∧ ownerChain s (c :: l) = true) →
    ∃ t, exec (.secCommandDone v b) s = .next t ∧
      (ok = true → v.flash = true → t.sec.opcert = s.sec.arg ∧ flag t R.SECU_STAT F.SECU_STAT_OPCERT = true ∧ evFlag t 561 = true ∧
        fget t R.SEC_CMD_STAT F.SEC_CMD_STAT_ERR = 0) ∧
      (ok = true → v.flash = false → fget t R.SEC_CMD_STAT F.SEC_CMD_STAT_ERR = 10 ∧ t.sec.opcert = s.sec.opcert) ∧
      (ok = false → fget t R.SEC_CMD_STAT F.SEC_CMD_STAT_ERR = 9 ∧ t.sec.opcert = s.sec.opcert) ∧
      frame (.sec :: evParts) (onlyEv [R.SEC_CMD_STAT, R.SECU_STAT]) s t) ∧
  (∀ (v : SecVerdict) (b : BootIn) (t0 : Nat) (s : State), s.sec.run = some (9, t0) → ∃ t, exec (.secCommandDone v b) s = .next t ∧
    (certOf s.sec.arg = none → fget t R.SEC_CMD_STAT F.SEC_CMD_STAT_ERR = 3 ∧ t.sec.owners = s.sec.owners) ∧
    (∀ c, certOf s.sec.arg = some c →
      (4 ≤ s.sec.owners.length ∨ (s.sec.owners ≠ [] ∧ transferOk s (sha384 c.key) v.transfer = false) →
        fget t R.SEC_CMD_STAT F.SEC_CMD_STAT_ERR = 8 ∧ t.sec.owners = s.sec.owners) ∧
      (s.sec.owners.length < 4 → s.sec.owners = [] ∨ transferOk s (sha384 c.key) v.transfer = true →
        (signedBy c c.key = false → fget t R.SEC_CMD_STAT F.SEC_CMD_STAT_ERR = 3 ∧ t.sec.owners = s.sec.owners) ∧
        (signedBy c c.key = true → v.flash = false → fget t R.SEC_CMD_STAT F.SEC_CMD_STAT_ERR = 10 ∧ t.sec.owners = s.sec.owners) ∧
        (signedBy c c.key = true → v.flash = true → fget t R.SEC_CMD_STAT F.SEC_CMD_STAT_ERR = 0 ∧
          t.sec.owners = s.sec.owners ++ [sha384 c.key] ∧ t.sec.anchors = s.sec.anchors ++ [s.sec.arg] ∧
          fget t R.SECU_STAT F.SECU_STAT_OWNER = s.sec.owners.length + 1 ∧ evFlag t 561 = true))) ∧
    frame (.sec :: evParts) (onlyEv [R.SEC_CMD_STAT, R.SECU_STAT]) s t) ∧
  (∀ (v : SecVerdict) (b : BootIn) (t0 d : Nat) (key : Bool) (s : State), s.sec.run = some (10, t0) →
    key = decide (s.sec.arg.getD 32 0#8 = 1#8) → ∃ t, exec (.secCommandDone v b) s = .next t ∧
      (key = false ∧ d = Config.identityKey ∨ key = true ∧ s.sec.opk.map (·.1) = some d →
        fget t R.SEC_CMD_STAT F.SEC_CMD_STAT_ERR = 0 ∧ evFlag t 560 = true ∧ ∃ k, t.sec.report =
          reportBody s (s.sec.arg.take 32) key ++ ecdsaSign d (reportBody s (s.sec.arg.take 32) key) k) ∧
      (key = true → s.sec.opk = none → fget t R.SEC_CMD_STAT F.SEC_CMD_STAT_ERR = 9 ∧ t.sec.report = s.sec.report) ∧
      frame (.sec :: .free :: evParts) (onlyEv [R.SEC_CMD_STAT]) s t) ∧
  (∀ (v : SecVerdict) (b : BootIn) (t0 : Nat) (s : State), s.sec.run = some (11, t0) → ∃ t, exec (.secCommandDone v b) s = .next t ∧
    fget t R.SEC_CMD_STAT F.SEC_CMD_STAT_ERR = 0 ∧ (∃ c, t.sec.challenge = some c ∧ c.length = 32) ∧
    frame [.sec, .free] (only [R.SEC_CMD_STAT]) s t) ∧
  (∀ (v : SecVerdict) (b : BootIn) (t0 e : Nat) (ok : Bool) (s : State), s.sec.run = some (12, t0) →
    e = signedErr s 7 (listReader s.sec.arg) 64 v.purpose →
    ok = (decide (e = 0) && s.sec.challenge.any (fun c => decide ((listReader s.sec.arg) 0 36 = serialBytes ++ c))) →
    ∃ t, exec (.secCommandDone v b) s = .next t ∧
      (8 ≤ s.sec.dbgFails → fget t R.SEC_CMD_STAT F.SEC_CMD_STAT_ERR = 11 ∧ frame [.sec] (only [R.SEC_CMD_STAT]) s t) ∧
      (s.sec.dbgFails < 8 → evFlag t (if ok then 558 else 559) = true ∧
        t.sec.dbgFails = (if ok then s.sec.dbgFails else s.sec.dbgFails + 1) ∧
        fget t R.SECU_STAT F.SECU_STAT_DBG = (if ok then 1 else fget s R.SECU_STAT F.SECU_STAT_DBG) ∧
        (fget t R.SEC_CMD_STAT F.SEC_CMD_STAT_ERR = 0 ↔ ok = true) ∧ (e ≠ 0 → fget t R.SEC_CMD_STAT F.SEC_CMD_STAT_ERR = e)) ∧
      frame (.sec :: .free :: evParts) (onlyEv [R.SEC_CMD_STAT, R.SECU_STAT, R.SEC_CNT]) s t) ∧
  (∀ (v : SecVerdict) (b : BootIn) (t0 e : Nat) (i : ImageInfo) (s : State), s.sec.run = some (13, t0) →
    e = imageErr s (windowReader s) 0x140000 v.purpose → i = infoAt (windowReader s) →
    ∃ t, exec (.secCommandDone v b) s = .next t ∧
      (e ≠ 0 → fget t R.SEC_CMD_STAT F.SEC_CMD_STAT_ERR = e ∧
        fget t R.SECU_STAT F.SECU_STAT_STAGE = fget s R.SECU_STAT F.SECU_STAT_STAGE ∧ frame (.sec :: evParts) (inBlocks [0x15]) s t) ∧
      (e = 0 → recFind s 5 b.board0 b.board1 = none → fget t R.SECU_STAT F.SECU_STAT_STAGE = 1 ∧
        flag t R.SECU_STAT F.SECU_STAT_BOARD_BAD = true ∧ t.sec.running = i ∧ t.sec.codeBank = 0 ∧
        mbytes t 0x10000000 i.codeLen = mbytes s (0x100C0000 + i.codeOfs) i.codeLen))

/-! ### Modes and resets -/

/-- Mode requests (R459 to R462): a request for the present mode does nothing, one that is refused shows its REASON and leaves the mode,
one that takes effect at once shows the mode, and any other begins to leave; the new mode comes once every shot is over, with a switch
of the cores that waited for a frame start, and BOOT leads to BYPASS, SCAN or STANDBY.
Its clauses follow the model's choices of log 106 and 145 where the spec is silent. -/
def Obligations.ModeChanges : Prop :=
  (∀ (m : BitVec 3) (s : State), ∃ t, exec (.modeRequest m) s = .next t ∧
    (modeOfCode m.toNat = some (modeOf s) → frame [] (only [R.SYS_MODE]) s t ∧ bitsKept s t R.SYS_MODE [F.SYS_MODE_REQ]) ∧
    (∀ r : Nat, modeOfCode m.toNat ≠ some (modeOf s) → (modeOfCode m.toNat).elim (some 1) (modeReason s) = some r →
      modeOf t = modeOf s ∧ flag t R.SYS_MODE F.SYS_MODE_REFUSED = true ∧ fget t R.SYS_MODE F.SYS_MODE_REASON = r % 16 ∧
      fget t R.SYS_CNT F.SYS_CNT_REFUSE_CNT = satN F.SYS_CNT_REFUSE_CNT.width (fget s R.SYS_CNT F.SYS_CNT_REFUSE_CNT + 1) ∧
      frame [] (only [R.SYS_MODE, R.SYS_CNT]) s t) ∧
    (∀ b : Mode, modeOfCode m.toNat = some b → b ≠ modeOf s → modeReason s b = none →
      (modeOf s = .standby ∨ (modeOf s = .safeHold ∧ b = .scan) → modeOf t = b ∧ evFlag t Ev.modeChange = true) ∧
      (modeOf s = .standby → b = .calibrate → flag s R.SHT_CTRL F.SHT_CTRL_CAL_RUN = true →
        t.sht.refTick = now s ∧ t.sht.seq = 0 ∧ t.sht.frameTick = none) ∧
      (modeOf s ≠ .standby → ¬ (modeOf s = .safeHold ∧ b = .scan) → modeOf t = modeOf s ∧ t.sys.target = some b.code ∧
        flag t R.SYS_MODE F.SYS_MODE_BUSY = true ∧ memKept s t (gapArea s) ∧
        frame (.sys :: gapParts ++ evParts) (inBlocks [0, 8, 0xB]) s t))) ∧
  (∀ (m : Nat) (s : State), s.sys.target = some m → ∃ t, exec .modeLeaveDone s = .next t ∧
    (shotsOver s = false → frame [] noReg s t) ∧ (shotsOver s = true → modeOf t = (modeOfCode m).getD .standby ∧
      ((modeOfCode m).getD .standby ≠ .scan → t.sec.switch = none))) ∧
  (∀ s : State, ∃ t, exec .bootComplete s = .next t ∧ (bootOver s = false → frame [] noReg s t) ∧
    (bootOver s = true → (1760 ≤ tCtl16 s → modeOf t = .bypass) ∧
      (tCtl16 s < 1760 → flag s R.SYS_CFG F.SYS_CFG_AUTO = true → s.sys.autoOk = true → scanReason s = none → modeOf t = .scan) ∧
      (∀ r : Nat, tCtl16 s < 1760 → flag s R.SYS_CFG F.SYS_CFG_AUTO = true → s.sys.autoOk = true → scanReason s = some r →
        modeOf t = .standby ∧ flag t R.SYS_MODE F.SYS_MODE_REFUSED = true ∧ fget t R.SYS_MODE F.SYS_MODE_REASON = r % 16) ∧
      (tCtl16 s < 1760 → flag s R.SYS_CFG F.SYS_CFG_AUTO = false ∨ s.sys.autoOk = false → modeOf t = .standby) ∧
      (s.sys.por = false → evFlag t Ev.warmReset = true)))

/-- Warm resets (R463 to R466, R471): a source begins the sequence, which withdraws every permit, or waits for an orderly stop; after the
scanners have parked, at most 300 ms later, the reset is asserted: the timebase, the SDRAM and the flash stand, every register that R465
does not keep takes its reset value, and the outputs are low. Power-on reset, the release of a reset and the test port (R319, R442, R443, R464,
R465, R492): a pulse of RESET_N below 0.2 µs is ignored, one of 0.2 to 1 µs has an undefined response and stops the model, one of 1 µs
resets everything but what OTP and flash hold, and the device leaves reset into the firmware of a good bank, which the boot header
names, or into RECOVERY.
Its clauses follow the model's choices of log 98, 103 and 104 where the spec is silent. -/
def Obligations.Resets : Prop :=
  (∀ (fw : Bool) (s : State), ∃ t, exec (.warmResetRequest fw) s = .next t ∧
    (s.sys.reset.isSome = true ∨ s.sys.held.isSome = true → frame [] noReg s t) ∧
    (s.sys.reset = none → s.sys.held = none → s.sys.orderly.isSome = true →
      t.sys.later = some (s.sys.later.getD (if fw then 5 else 1)) ∧ frame [.sys] noReg s t) ∧
    (s.sys.reset = none → s.sys.held = none → s.sys.orderly = none → t.sys.reset = some (if fw then 5 else 1, now s) ∧
      flag t R.SYS_MODE F.SYS_MODE_BUSY = true ∧ (s.variantAN = false → ∀ k : Fin 2, (safPair t k).on = false)) ∧
    memKept s t (gapArea s) ∧ frame (.sys :: .ctl :: gapParts ++ evParts) (inBlocks [0, 4, 6, 7, 8, 0xB, 0xC]) s t) ∧
  (∀ s : State, ∃ t, exec .coreWatchdog s = .next t ∧
    (s.sys.held.isSome = true ∨ fget s R.SECU_STAT F.SECU_STAT_STAGE ≠ 1 ∨
      now s < s.sys.kickAt + ticksMs (max 1 (fget s R.SYS_CFG F.SYS_CFG_WDT_MS)) → frame [] noReg s t) ∧
    (s.sys.held = none → fget s R.SECU_STAT F.SECU_STAT_STAGE = 1 →
      s.sys.kickAt + ticksMs (max 1 (fget s R.SYS_CFG F.SYS_CFG_WDT_MS)) ≤ now s → s.sys.reset = none → s.sys.orderly = none →
      t.sys.reset = some (2, now s) ∧ flag t R.SYS_MODE F.SYS_MODE_BUSY = true) ∧
    memKept s t (gapArea s) ∧ frame (.sys :: .ctl :: gapParts ++ evParts) (inBlocks [0, 4, 6, 7, 8, 0xB, 0xC]) s t) ∧
  (∀ s : State, ∃ t, exec .kick s = .next t ∧ t.sys = { s.sys with kickAt := now s } ∧ frame [.sys] noReg s t) ∧
  (∀ (c t0 : Nat) (s : State), s.sys.reset = some (c, t0) → ∃ t, exec .warmResetAssert s = .next t ∧
    (now s < t0 + ticksMs 1 → frame [] noReg s t) ∧
    (t0 + ticksMs 1 ≤ now s → scannersStill s = false → now s < t0 + ticksMs 300 → t.sys = s.sys ∧ modeOf t = modeOf s) ∧
    ((t0 + ticksMs 1 ≤ now s ∧ scannersStill s = true) ∨ t0 + ticksMs 300 ≤ now s →
      t.sys.held = some (now s) ∧ t.sys.reset = none ∧ t.tb = s.tb ∧ t.pending = s.pending ∧ modeOf t = .boot ∧
      fget t R.SYS_CAUSE F.SYS_CAUSE_CAUSE = c % 16 ∧ fget t R.SYS_CAUSE F.SYS_CAUSE_FROM = (modeOf s).code ∧
      fget t R.SYS_CAUSE F.SYS_CAUSE_WARM_CNT = satN F.SYS_CAUSE_WARM_CNT.width (fget s R.SYS_CAUSE F.SYS_CAUSE_WARM_CNT + 1) ∧
      (∀ a, a ∉ keptRegs → rd t a = regReset a) ∧ (∀ a ∈ drcKeptRegs, rd t a = rd s a) ∧
      (∀ a, mget t a = if 0x1000000000 ≤ a then mget s a else memDefault a) ∧
      t.sec.flash = s.sec.flash ∧ t.sec.owners = s.sec.owners ∧ t.sec.opk = s.sec.opk ∧ t.sec.dbgFails = s.sec.dbgFails ∧
      t.pins.emitTrig = [] ∧ t.saf.outs = [] ∧ t.emg.emit = s.emg.emit ∧ t.emg.sect = s.emg.sect ∧
      (∀ k : Fin 16, flag t (R.BANK_STAT k) F.BANK_STAT_INH = flag s (R.BANK_STAT k) F.BANK_STAT_INH))) ∧
  (∀ (low : BitVec 32) (s : State), 2 ≤ low.toNat → low.toNat < 10 → exec (.powerOnReset low) s = .fault .resetPulseUndefined) ∧
  (∀ (low : BitVec 32) (s : State), low ≠ 0#32 → low.toNat < 2 → ∃ t, exec (.powerOnReset low) s = .next t ∧ frame [] noReg s t) ∧
  (∀ (low : BitVec 32) (s : State), low = 0#32 ∨ 10 ≤ low.toNat → ∃ t, exec (.powerOnReset low) s = .next t ∧
    t.sys.held.isSome = true ∧ t.sys.por = true ∧ modeOf t = .boot ∧ t.mem = [] ∧ t.poison = [] ∧ t.pending = s.pending ∧
    (∀ a, a ≠ R.SEC_OTP → a ≠ R.SECU_STAT → rd t a = regReset a) ∧ arcOf t = arcOf s ∧
    fget t R.SECU_STAT F.SECU_STAT_OWNER = fget s R.SECU_STAT F.SECU_STAT_OWNER ∧
    t.sec.flash = s.sec.flash ∧ t.sec.otpRoot = s.sec.otpRoot ∧ t.sec.owners = s.sec.owners ∧ t.sec.opk = s.sec.opk ∧
    t.sec.opcert = s.sec.opcert ∧ t.sec.anchors = s.sec.anchors ∧ t.sec.fuse = s.sec.fuse ∧ t.sec.dbgFails = 0 ∧
    t.sec.run = none ∧ t.tx = s.tx) ∧
  (∀ (b : BootIn) (s u : State), u = romKeys s b → ∃ t, exec (.resetRelease b) s = .next t ∧ (releaseDue s = false → frame [] noReg s t) ∧
    (releaseDue s = true → bankErr u 0 b.bank0 ≠ 0 → bankErr u 1 b.bank1 ≠ 0 → fget t R.SECU_STAT F.SECU_STAT_STAGE = 2 ∧
      modeOf t = modeOf s ∧ t.sec.recKey = u.sec.recKey ∧ t.sec.codeKey = u.sec.codeKey ∧ t.sec.wrapKey = u.sec.wrapKey ∧ t.sys.held = none ∧ flag t (R.LN_CTRL 0) F.LN_CTRL_EN = true ∧ flag t R.SECU_STAT F.SECU_STAT_REJECT = true ∧
      t.sec.flashMode = (if s.sys.por then flashModeOf s.pins.strapFl else s.sec.flashMode)) ∧
    (∀ i, releaseDue s = true → bootHdr u = none → bankErr u 0 b.bank0 = 0 → recFind u 5 b.board0 b.board1 = none →
      i = infoAt (bankReader u 0) → fget t R.SECU_STAT F.SECU_STAT_STAGE = 1 ∧ fwBank t = 0 ∧ modeOf t = modeOf s ∧ t.sys.held = none ∧
      flag t R.SECU_STAT F.SECU_STAT_BOARD_BAD = true ∧ t.sec.running = i ∧
      mbytes t 0x10000000 i.codeLen = flashBytes u (bankBase 0 + i.codeOfs) i.codeLen ∧ t.tb = (if s.sys.por then 0#64 else s.tb)) ∧
    (releaseDue s = true → bootHdr u = none → bankErr u 0 b.bank0 ≠ 0 → bankErr u 1 b.bank1 = 0 → recFind u 5 b.board0 b.board1 = none →
      fget t R.SECU_STAT F.SECU_STAT_STAGE = 1 ∧ fwBank t = 1 ∧ flag t R.SECU_STAT F.SECU_STAT_FALLBACK = true ∧
      (bootHdr t).map (fun h => (h.active, h.trial)) = some (1, false)) ∧
    (∀ (h : BootHdr) (k : Nat) (tr : Bool), releaseDue s = true → bootHdr u = some h → tr = (h.trial && decide (h.tries < 3)) →
      k = (if h.trial = true ∧ 3 ≤ h.tries then 1 - h.active else h.active) → bankErr u k (bankPurpose b k) = 0 →
      recFind u 5 b.board0 b.board1 = none → fget t R.SECU_STAT F.SECU_STAT_STAGE = 1 ∧ fwBank t = k ∧
      flag t R.SECU_STAT F.SECU_STAT_TRIAL = tr ∧
      (tr = true → (bootHdr t).map (fun h => (h.active, h.trial, h.tries)) = some (h.active, true, h.tries + 1)))) ∧
  (∀ s : State, ∃ t, exec .jtagTrst s = .next t ∧ t.pins = { s.pins with tap := .idcode } ∧ frame [.pins] noReg s t)

/-- The test access port (R452): BYPASS, IDCODE and SAMPLE/PRELOAD can always be loaded; EXTEST, EXTEST_PULSE, EXTEST_TRAIN and core debug
access only while DBG reads UNLOCKED or OPEN; and whatever is shifted into the boundary cell of a protected output drives it low. What an
instruction that is not available selects is the model's choice (log 140). -/
def Obligations.TestAccessPort : Prop :=
  (∀ (i : TapInst) (s : State), i ∈ [.bypass, .idcode, .samplePreload] → (tapLoad s i).pins.tap = i) ∧
  (∀ (i : TapInst) (s : State), i ∈ [.extest, .extestPulse, .extestTrain, .coreDebug] →
    (fget s R.SECU_STAT F.SECU_STAT_DBG = 1 ∨ fget s R.SECU_STAT F.SECU_STAT_DBG = 2 → (tapLoad s i).pins.tap = i) ∧
    (fget s R.SECU_STAT F.SECU_STAT_DBG = 0 → (tapLoad s i).pins.tap = .bypass)) ∧
  (∀ (i : TapInst) (s : State), frame [.pins] noReg s (tapLoad s i) ∧ (tapLoad s i).pins.emitTrig = s.pins.emitTrig) ∧
  (∀ (e : Fin 128) (b g : Fin 16) (p c : Fin 2) (v : Bool),
    ∀ x ∈ [Cell.emitTrig e, .resref b, .biasref g, .ossdA p, .ossdB p, .mirEn c, .bypHold], cellDrive x v = false)

/-- Re-initialising one function (R467, R468): GO is refused while another is under way, in BOOT and on a scanner that moves; the unit is
in class REINIT until it has completed, and then its event is raised.
Its clauses follow the model's choices of log 99 where the spec is silent. -/
def Obligations.FunctionReinit : Prop :=
  (∀ (k : Fin 64) (s : State), ∃ t, exec (.tileReinit k) s = .next t ∧
    (flag s R.SYS_REINIT F.SYS_REINIT_BUSY = true ∨ modeOf s = .boot →
      flag t R.SYS_REINIT F.SYS_REINIT_REFUSED = true ∧ frame [] (only [R.SYS_REINIT]) s t) ∧
    (flag s R.SYS_REINIT F.SYS_REINIT_BUSY = false → modeOf s ≠ .boot → k.val ∈ t.reinit ∧
      flag t R.SYS_REINIT F.SYS_REINIT_BUSY = true ∧ t.sys.reinit = some (1, k.val, now s) ∧
      ∀ c : Fin 16, (gtChan t (16 * k.val + c.val)).bgRate = 0) ∧
    memKept s t (fun a => within (0x0200000000 + 0x40000 * k) 0x20000 a || gapArea s a) ∧
    frame (.fe :: .gt :: .tdc :: .pool :: .reinit :: .sys :: gapParts ++ evParts) (tilesAnd [0, 4, 8, 9, 0xA, 0xB]) s t) ∧
  (∀ (c : Fin 2) (s : State), ∃ t, exec (.canReinit c) s = .next t ∧
    (flag s R.SYS_REINIT F.SYS_REINIT_BUSY = true ∨ modeOf s = .boot →
      flag t R.SYS_REINIT F.SYS_REINIT_REFUSED = true ∧ frame [] (only [R.SYS_REINIT]) s t) ∧
    (flag s R.SYS_REINIT F.SYS_REINIT_BUSY = false → modeOf s ≠ .boot → 0x80 + c.val ∈ t.reinit ∧ nmtOf t c = 3 ∧
      fget t (R.CAN_STAT c) F.CAN_STAT_TEC = 0 ∧ t.sys.reinit = some (5, c.val, now s)) ∧
    frame (.com :: .reinit :: .sys :: evParts) (inBlocks [0, 0x13]) s t) ∧
  (∀ (a : Fin 4) (s : State), ∃ t, exec (.axisReinit a) s = .next t ∧
    (flag s R.SYS_REINIT F.SYS_REINIT_BUSY = true ∨ modeOf s = .boot ∨ axisIdle s a = false →
      flag t R.SYS_REINIT F.SYS_REINIT_REFUSED = true ∧ frame [] (only [R.SYS_REINIT]) s t) ∧
    (flag s R.SYS_REINIT F.SYS_REINIT_BUSY = false → modeOf s ≠ .boot → axisIdle s a = true → 0x90 + a.val ∈ t.reinit ∧
      (axis t a).integ = 0 ∧ (axis t a).sect = [] ∧ (axis t a).swap = none ∧ fget t (R.AX_CNT a) F.AX_CNT_OVR_RUN = 0) ∧
    frame [.ctl, .reinit, .sys] (only [R.SYS_REINIT, R.AX_CNT a, R.AX_SWAP a]) s t) ∧
  (∀ (u : Byte) (s : State), ∃ t, exec (.funcReinitDone u) s = .next t ∧
    (u.toNat ∉ s.reinit ∨ reinitReady s u.toNat = false → frame [] noReg s t) ∧
    (u.toNat ∈ s.reinit → reinitReady s u.toNat = true → u.toNat ∉ t.reinit ∧ evFlag t Ev.funcReinit = true ∧
      (∀ k i t0 : Nat, s.sys.reinit = some (k, i, t0) → reinitUnit k i = u.toNat →
        flag t R.SYS_REINIT F.SYS_REINIT_BUSY = false ∧ t.sys.reinit = none)) ∧
    frame (.reinit :: .sys :: .com :: .tx :: .fe :: evParts) (tilesAnd [0, 0xE, 0x13]) s t)

/-! ### Registers -/

/-- A write of one word (R10 to R12, R25, R29, R281, R430, R458): while the reset is held nothing happens; a master that does not reach
the address, and an address of the register region where no register stands, give a decode error; a word of the control-core memory is
stored; in a register that does nothing besides, an RW field takes the written value, an RO field keeps its own, a written 1 clears a W1C
bit unless hardware has set it in the same cycle, and an RWS or RWM field that is closed keeps its value and raises its event.
Its clauses follow the model's choices of logs 14 and 128 where the spec is silent. -/
def Obligations.RegisterAccess : Prop :=
  (∀ (m : Master) (a : BitVec 40) (v : Word) (s : State), ∃ t, exec (.registerWrite m a v) s = .next t ∧
    (s.sys.held.isSome = true → frame [] noReg s t) ∧
    (∀ x, s.sys.held = none → firstOutside s m a.toNat 4 true = some x → decodeError (x % 2 ^ 40) true s t) ∧
    (s.sys.held = none → firstOutside s m a.toNat 4 true = none → regionOf s a.toNat = .regs → windowOf a.toNat = none →
      regDesc a.toNat = none → decodeError a.toNat true s t) ∧
    (s.sys.held = none → firstOutside s m a.toNat 4 true = none → regionOf s a.toNat = .sram → poisoned s a.toNat 4 = false →
      mbytes t a.toNat 4 = leBytes 4 v.toNat ∧ memKept s t (within a.toNat 4) ∧ frame [.mem] noReg s t)) ∧
 (∀ (m : Master) (a : BitVec 40) (v : Word) (fs : List Fld) (s : State), s.sys.held = none → m = .core ∨ m = .host →
    windowOf a.toNat = none → regDesc a.toNat = some fs → ∃ t, exec (.registerWrite m a v) s = .next t ∧
      (safAbsent s a.toNat = true → frame [] noReg s t) ∧
      (safAbsent s a.toNat = false → plainReg a.toNat = true →
        (∀ f ∈ fs, f.acc = .rw → commandFld a.toNat f = false → fget t a.toNat f = getFld v f) ∧
        (∀ f ∈ fs, f.acc = .ro → fget t a.toNat f = fget s a.toNat f) ∧
        (∀ f ∈ fs, f.acc = .w1c → getFld (rd t a.toNat) f = getFld (rd s a.toNat &&& ~~~ (v &&& ~~~ setNow s a.toNat)) f) ∧
        (∀ f ∈ fs, f.acc = .rws → commandFld a.toNat f = false →
          fget t a.toNat f = (if sealsOpen s then getFld v f else fget s a.toNat f) ∧
          (sealsOpen s = false → evFlag t Ev.rwsDiscard = true)) ∧
        (∀ f ∈ fs, f.acc = .rwm → commandFld a.toNat f = false →
          fget t a.toNat f = (if rwmFor s (decide (m = .core)) then getFld v f else fget s a.toNat f) ∧
          (rwmFor s (decide (m = .core)) = false → evFlag t Ev.rwmDiscard = true)) ∧
        frame evParts (onlyEv [a.toNat, R.CM_CHECK]) s t))

/-- Clearing counters (R56 and the register tables of every block): a block's counters read zero, or 1 where an event was set in the same cycle, PEAK of the ticket queues starts again
from the present occupancy, and every other bit of every register, and every other part of the state, stays.
Its clauses follow the model's choices of logs 117 and 128 where the spec is silent. -/
def Obligations.CountersCleared : Prop :=
  ∀ (b : CntBlock) (s : State), ∃ t, exec (.cntClr b) s = .next t ∧ (∀ a ∈ cntRegs b, rd t a = 0#32) ∧
    (∀ p ∈ cntFlds b, fget t p.1 p.2 = cntLeft s p.1) ∧
    (b = .enp → ∀ c : Fin 16, fget t (R.CL_Q c) F.CL_Q_PEAK = fget s (R.CL_Q c) F.CL_Q_OCC) ∧
    (∀ a, a ∉ cntRegs b → bitsKept s t a
      ((cntFlds b).filterMap (fun p => if p.1 = a then some p.2 else none) ++ if b = .enp then [F.CL_Q_PEAK] else [])) ∧
    frame [] (only (cntRegs b ++ (cntFlds b).map (·.1) ++ if b = .enp then (List.range 16).map R.CL_Q else [])) s t

/-! ### Functions of the rules -/

/-- DLL calibration (R69): POS of a tap in both clock modes, and in low-power mode a fine part that takes odd values only. -/
def Obligations.DllPositions : Prop :=
  ∀ (u i : Nat) (tap : Fin 128) (s : State), usesTable s u i = false →
    (lowPower s = false → posOf s u i tap = 16 * tap.val + 8) ∧
    (lowPower s = true → posOf s u i tap = 32 * tap.val + 16 ∧ posOf s u i tap / 16 % 2 = 1 ∧
      ∀ e : TdcEdge, e.tap = tap → edgeTime s u i e = 128 * e.tick.toNat + (2 * tap.val + 1))

/-- The temperature of a calibration unit (R310), in 1/192 °C: of its nearest sensor, else the mean of the neighbours that are not
ignored, else T_ctl. -/
def Obligations.UnitTemperature : Prop :=
  ∀ (u n : Nat) (ns : List Nat) (s : State), u < 65 → n = (if u = 64 then 16 else u / 4) →
    ns = (sensorNeighbours n).filter (fun k => !sensorIgnored s k) →
    (sensorIgnored s n = false → unitTemp s u = 12 * sensorTemp16 s n) ∧
    (sensorIgnored s n = true → ns ≠ [] → ns.length * unitTemp s u = 12 * (ns.map (sensorTemp16 s)).sum) ∧
    (sensorIgnored s n = true → ns = [] → unitTemp s u = 12 * tCtl16 s)

/-- The confirmed version (R447): CONFIRM raises ARC to the running image's SVN where that is higher and writes a boot header with
TRIAL = 0; from then on the check that every image passes before it boots or is activated rejects one with a lower SVN, whichever bank
holds it. -/
def Obligations.ConfirmedVersion : Prop :=
  ∀ (v : SecVerdict) (b : BootIn) (t0 : Nat) (s : State), s.sec.run = some (5, t0) → v.flash = true → s.sec.running.svn < 64 →
    ∃ t, exec (.secCommandDone v b) s = .next t ∧ arcOf t = max (arcOf s) s.sec.running.svn ∧
      (∃ h, bootHdr t = some h ∧ h.trial = false ∧ h.active = fwBank s) ∧
      ∀ (k : Nat) (p : List Byte) (u : State), (infoAt (bankReader u k)).svn < s.sec.running.svn → arcOf t ≤ arcOf u → bankErr u k p ≠ 0

/-! ### The machine -/

/-- A step runs the command at the front of the queue with the queue's rest; with no command waiting, time passes (log 15, the model's
choice): the timebase counts one tick, two in low-power mode, unless the ring alignment holds it (R65, R392). -/
def Obligations.StepRuns : Prop :=
  (∀ (c : Instr) (l : List Instr) (s : State), step { s with pending := c :: l } = exec c { s with pending := l }) ∧
  (∀ s : State, s.pending = [] → ∃ t, step s = .next t ∧
    (s.ring.hold = 0 → t.tb = s.tb + (if flag s R.TDC_CLK F.TDC_CLK_CUR_MODE then 2#64 else 1#64) ∧
      t.pins.emitTrig = s.pins.emitTrig.filter (fun p => decide (now t < p.2)) ∧ frame [.tb, .pins] noReg s t) ∧
    (s.ring.hold ≠ 0 → t.tb = s.tb ∧ t.stepped = s.stepped - (if flag s R.TDC_CLK F.TDC_CLK_CUR_MODE then 2 else 1) ∧
      t.ring = { s.ring with hold := s.ring.hold - 1 } ∧ frame [.ring, .tb] noReg s t) ∧ t.units = s.units)

/-- The machine after reset (R28, R65, R420, R464): no command waits, the timebase and every unit word are 0, every register reads its
reset value, memory lists nothing, and the data are canonical. Where the spec states no reset value, that value is the model's choice
(logs 1 and 2). -/
def Obligations.ResetState : Prop :=
  State.reset.pending = [] ∧ State.reset.tb = 0#64 ∧ State.reset.mem = [] ∧ State.reset.poison = [] ∧
  (∀ a, rd State.reset a = regReset a) ∧ (∀ a, mget State.reset a = memDefault a) ∧ (∀ u, unitWord State.reset u = 0#32) ∧
  canonical State.reset = true ∧ unitsInv State.reset = true

/-- An invariant that every step keeps (R418 to R420): STATE of every unit's word is the state that R419 gives the unit, from the first
command after power-on reset on; and every command leaves it so whatever stood there before. Every command is executed in every state,
but a pulse of RESET_N of 0.2 to 1 µs, whose response is undefined (R492).
Its clauses follow the model's choices of log 104 where the spec is silent. -/
def Obligations.UnitStates : Prop :=
  (∀ s t : State, step s = .next t → unitsInv s = true → unitsInv t = true) ∧
  (∀ (c : Instr) (s t : State), exec c s = .next t → unitsTrue t = true) ∧
  (∀ (c : Instr) (s : State), (∀ w, c = .powerOnReset w → w.toNat < 2 ∨ 10 ≤ w.toNat) →
    ∃ t, exec c s = .next t ∧ unitsTrue t = true)

/-- Memory stays in its canonical form, rising addresses and no entry equal to what an unlisted byte reads as, under the commands that
store to it: the device's tables and buffers, DMA, the kernel-image allocation, exported histograms and the SDRAM's initialisation.
Its clauses follow the model's choices of log 1 where the spec is silent. -/
def Obligations.MemoryCanonical : Prop :=
  ∀ (m : Master) (a : BitVec 40) (d : List Byte) (p : Fin 3) (f : LaneFrame) (ok : Bool) (n : Fin 16) (tail : BitVec 12) (ch : Fin 1024)
    (b : Fin 2) (i : Fin 64) (l : BitVec 9),
    ∀ c ∈ [Instr.kimageWrite m a d, .exportRx p f ok, .dmaDoorbell n tail, .dmaBeatResponse n, .bufferClearDone ch b, .ticketPost i,
      .tilthSweep, .tilthClear, .drcInit, .checkDone l],
    ∀ s t : State, exec c s = .next t → Memory.wf s.mem = true → Memory.wf t.mem = true
end

