-- ==== Sys2Proof/Laws/Table.lean ====
section
/-! SUPPORT. Laws of the sparse tables: what is read after a write, and the canonical form. -/

namespace Sys2Proof.Machine

theorem lookup_eraseKey_same {α : Type} (l : List (Nat × α)) (a : Nat) : lookup (eraseKey l a) a = none := by
  induction l with
  | nil => rfl
  | cons p l ih =>
    obtain ⟨k, w⟩ := p
    by_cases h : k = a
    · simpa [eraseKey, h] using ih
    · simp only [eraseKey, ne_eq, decide_not, List.filter_cons, h, decide_false, Bool.not_false, if_true, lookup, if_false]
      simpa [eraseKey] using ih

theorem lookup_eraseKey_ne {α : Type} (l : List (Nat × α)) {a b : Nat} (h : b ≠ a) : lookup (eraseKey l a) b = lookup l b := by
  induction l with
  | nil => rfl
  | cons p l ih =>
    obtain ⟨k, w⟩ := p
    by_cases hk : k = a
    · subst hk
      simp only [eraseKey, ne_eq, decide_not, List.filter_cons, decide_true, Bool.not_true, Bool.false_eq_true, if_false, lookup, h.symm]
      simpa [eraseKey] using ih
    · simp only [eraseKey, ne_eq, decide_not, List.filter_cons, hk, decide_false, Bool.not_false, if_true, lookup]
      split
      · rfl
      · simpa [eraseKey] using ih

theorem lookup_insertKey_ne {α : Type} (l : List (Nat × α)) {a b : Nat} (v : α) (h : b ≠ a) :
    lookup (insertKey l a v) b = lookup l b := by
  induction l with
  | nil => simp [insertKey, lookup, h.symm]
  | cons p l ih =>
    obtain ⟨k, w⟩ := p
    simp only [insertKey]
    split
    · simp [lookup, h.symm]
    · simp [lookup, ih]

theorem lookup_insertKey_same {α : Type} (l : List (Nat × α)) (a : Nat) (v : α) (h : lookup l a = none) :
    lookup (insertKey l a v) a = some v := by
  induction l with
  | nil => simp [insertKey, lookup]
  | cons p l ih =>
    obtain ⟨k, w⟩ := p
    by_cases hk : k = a
    · simp [lookup, hk] at h
    · simp only [lookup, hk, if_false] at h
      simp only [insertKey]
      split
      · simp [lookup]
      · simp [lookup, hk, ih h]

/-- A key reads as it was written, in any table. -/
theorem tget_tput_same {α : Type} [DecidableEq α] (d : α) (l : List (Nat × α)) (a : Nat) (v : α) :
    tget d (tput d l a v) a = v := by
  unfold tget tput
  split
  · next h => simp [lookup_eraseKey_same, h]
  · simp [lookup_insertKey_same _ _ _ (lookup_eraseKey_same l a)]

/-- A write leaves every other key as it was. -/
theorem tget_tput_ne {α : Type} [DecidableEq α] (d d' : α) (l : List (Nat × α)) {a b : Nat} (v : α) (h : b ≠ a) :
    tget d' (tput d l a v) b = tget d' l b := by
  unfold tget tput
  split
  · rw [lookup_eraseKey_ne l h]
  · rw [lookup_insertKey_ne _ v h, lookup_eraseKey_ne l h]

theorem tget_tput {α : Type} [DecidableEq α] (d : α) (l : List (Nat × α)) (a b : Nat) (v : α) :
    tget d (tput d l a v) b = if b = a then v else tget d l b := by
  split
  · next h => subst h; exact tget_tput_same d l b v
  · next h => exact tget_tput_ne d d l v h

/-! ### Canonical form -/

/-- Rising keys as a relation on neighbours. -/
theorem risingKeys_iff {α : Type} (l : List (Nat × α)) : risingKeys l = true ↔ l.Pairwise (fun p q => p.1 < q.1) := by
  induction l with
  | nil => simp [risingKeys]
  | cons p l ih =>
    obtain ⟨k, w⟩ := p
    cases l with
    | nil => simp [risingKeys]
    | cons q l =>
      obtain ⟨k', w'⟩ := q
      simp only [risingKeys, Bool.and_eq_true, decide_eq_true_eq, ih, List.pairwise_cons]
      constructor
      · rintro ⟨h, h1, h2⟩
        refine ⟨?_, h1, h2⟩
        intro a ha
        rcases List.mem_cons.mp ha with rfl | ha
        · exact h
        · exact lt_trans h (h1 a ha)
      · rintro ⟨h, h1, h2⟩
        exact ⟨h _ (List.mem_cons_self ..), h1, h2⟩

theorem eraseKey_pairwise {α : Type} {l : List (Nat × α)} (a : Nat) (h : l.Pairwise (fun p q => p.1 < q.1)) :
    (eraseKey l a).Pairwise (fun p q => p.1 < q.1) := h.filter _

theorem mem_eraseKey {α : Type} {l : List (Nat × α)} {a : Nat} {p : Nat × α} : p ∈ eraseKey l a ↔ p ∈ l ∧ p.1 ≠ a := by
  simp [eraseKey]

theorem mem_insertKey {α : Type} {l : List (Nat × α)} {a : Nat} {v : α} {p : Nat × α} :
    p ∈ insertKey l a v ↔ p = (a, v) ∨ p ∈ l := by
  induction l with
  | nil => simp [insertKey]
  | cons q l ih =>
    obtain ⟨k, w⟩ := q
    simp only [insertKey]
    split
    · simp
    · simp only [List.mem_cons, ih]; tauto

theorem insertKey_pairwise {α : Type} {l : List (Nat × α)} (a : Nat) (v : α) (h : l.Pairwise (fun p q => p.1 < q.1))
    (hn : ∀ p ∈ l, p.1 ≠ a) : (insertKey l a v).Pairwise (fun p q => p.1 < q.1) := by
  induction l with
  | nil => simp [insertKey]
  | cons q l ih =>
    obtain ⟨k, w⟩ := q
    rw [List.pairwise_cons] at h
    simp only [insertKey]
    split
    · next hk =>
      refine List.pairwise_cons.mpr ⟨?_, List.pairwise_cons.mpr h⟩
      intro p hp
      rcases List.mem_cons.mp hp with rfl | hp
      · exact hk
      · exact lt_trans hk (h.1 p hp)
    · next hk =>
      have hka : k ≠ a := hn (k, w) (List.mem_cons_self ..)
      refine List.pairwise_cons.mpr ⟨?_, ih h.2 (fun p hp => hn p (List.mem_cons_of_mem _ hp))⟩
      intro p hp
      rcases mem_insertKey.mp hp with rfl | hp
      · simp only; omega
      · exact h.1 p hp

/-- A write keeps the canonical form of a table whose unlisted value may depend on the key. -/
theorem tput_canonical {α : Type} [DecidableEq α] (d : Nat → α) {l : List (Nat × α)} (a : Nat) (v : α)
    (h : (risingKeys l && l.all (fun c => c.2 != d c.1)) = true) :
    (risingKeys (tput (d a) l a v) && (tput (d a) l a v).all (fun c => c.2 != d c.1)) = true := by
  simp only [Bool.and_eq_true, risingKeys_iff, List.all_eq_true, bne_iff_ne] at h ⊢
  unfold tput
  split
  · exact ⟨eraseKey_pairwise a h.1, fun c hc => h.2 c (mem_eraseKey.mp hc).1⟩
  · next hv =>
    refine ⟨insertKey_pairwise a v (eraseKey_pairwise a h.1) (fun p hp => (mem_eraseKey.mp hp).2), ?_⟩
    intro c hc
    rcases mem_insertKey.mp hc with rfl | hc
    · exact hv
    · exact h.2 c (mem_eraseKey.mp hc).1

/-- A selection of entries keeps the canonical form. -/
theorem filter_canonical {α : Type} [DecidableEq α] (d : Nat → α) {l : List (Nat × α)} (q : Nat × α → Bool)
    (h : (risingKeys l && l.all (fun c => c.2 != d c.1)) = true) :
    (risingKeys (l.filter q) && (l.filter q).all (fun c => c.2 != d c.1)) = true := by
  simp only [Bool.and_eq_true, risingKeys_iff, List.all_eq_true, bne_iff_ne] at h ⊢
  exact ⟨h.1.filter _, fun c hc => h.2 c (List.mem_filter.mp hc).1⟩

end Sys2Proof.Machine
end

