-- ==== Sys2Proof/Laws/Regs.lean ====
section
/-! SUPPORT. Laws of registers and fields: what is read after a write, and what sending, drawing an open value and ending a
command leave as it was. -/

namespace Sys2Proof.Machine

/-! ### Registers -/

theorem rd_wr (s : State) (a b : Nat) (v : Word) : rd (wr s a v) b = if b = a then v else rd s b := by
  unfold rd wr
  simp only
  split
  · next h => subst h; exact tget_tput_same ..
  · next h => exact tget_tput_ne _ _ _ _ h

@[simp] theorem rd_wr_same (s : State) (a : Nat) (v : Word) : rd (wr s a v) a = v := by rw [rd_wr, if_pos rfl]

theorem rd_wr_ne (s : State) {a b : Nat} (v : Word) (h : b ≠ a) : rd (wr s a v) b = rd s b := by rw [rd_wr, if_neg h]

theorem rd_fset_ne (s : State) {a b : Nat} (f : Fld) (v : Nat) (h : b ≠ a) : rd (fset s a f v) b = rd s b := rd_wr_ne s _ h

theorem fget_fset_reg (s : State) {a b : Nat} (f g : Fld) (v : Nat) (h : b ≠ a) : fget (fset s a f v) b g = fget s b g := by
  unfold fget; rw [rd_fset_ne s f v h]

/-! ### Fields of a word -/

/-- A bit of the ones of a field. -/
theorem maskOf_bit (f : Fld) (h : f.lo ≤ f.hi) (hh : f.hi < 32) (i : Nat) :
    (maskOf f).getLsbD i = (decide (f.lo ≤ i) && decide (i ≤ f.hi)) := by
  unfold maskOf Fld.width
  rw [BitVec.getLsbD_ofNat, Nat.testBit_mul_two_pow, Nat.testBit_two_pow_sub_one]
  by_cases h1 : f.lo ≤ i <;> by_cases h2 : i ≤ f.hi <;> simp [h1, h2] <;> omega

/-- A bit of a word with a field replaced. -/
theorem putFld_bit (w : Word) (f : Fld) (v : Nat) (h : f.lo ≤ f.hi) (hh : f.hi < 32) (i : Nat) :
    (putFld w f v).getLsbD i = if f.lo ≤ i ∧ i ≤ f.hi then v.testBit (i - f.lo) else w.getLsbD i := by
  unfold putFld
  rw [BitVec.getLsbD_or, BitVec.getLsbD_and, BitVec.getLsbD_not, maskOf_bit f h hh, BitVec.getLsbD_shiftLeft,
    BitVec.getLsbD_ofNat, Nat.testBit_mod_two_pow]
  unfold Fld.width
  by_cases h1 : f.lo ≤ i <;> by_cases h2 : i ≤ f.hi <;> by_cases h3 : i < 32 <;> simp [h1, h2, h3] <;> try omega
  · have e1 : ¬ i < f.lo := by omega
    have e2 : i - f.lo < 32 := by omega
    have e3 : i ≤ f.hi - f.lo + f.lo := by omega
    simp [e1, e2, e3]
  · exact BitVec.getLsbD_of_ge w i (by omega)

/-- A bit of a field's value. -/
theorem getFld_bit (w : Word) (f : Fld) (i : Nat) :
    (getFld w f).testBit i = (decide (i < f.width) && w.getLsbD (i + f.lo)) := by
  unfold getFld
  rw [Nat.testBit_mod_two_pow, Nat.testBit_div_two_pow, BitVec.testBit_toNat]

/-- A field reads as it was written, modulo its width. -/
theorem getFld_putFld_same (w : Word) (f : Fld) (v : Nat) (h : f.lo ≤ f.hi) (hh : f.hi < 32) :
    getFld (putFld w f v) f = v % 2 ^ f.width := by
  apply Nat.eq_of_testBit_eq
  intro i
  rw [getFld_bit, putFld_bit w f v h hh, Nat.testBit_mod_two_pow]
  unfold Fld.width
  by_cases h1 : i < f.hi - f.lo + 1
  · have : i + f.lo ≤ f.hi := by omega
    simp [h1, this]
  · simp [h1]

/-- A write of a field leaves every other field of the word as it was. -/
theorem getFld_putFld_ne (w : Word) (f g : Fld) (v : Nat) (h : f.lo ≤ f.hi) (hh : f.hi < 32) (hd : g.hi < f.lo ∨ f.hi < g.lo) (hg : g.lo ≤ g.hi) :
    getFld (putFld w f v) g = getFld w g := by
  apply Nat.eq_of_testBit_eq
  intro i
  rw [getFld_bit, getFld_bit, putFld_bit w f v h hh]
  unfold Fld.width
  by_cases h1 : i < g.hi - g.lo + 1
  · have : ¬ (f.lo ≤ i + g.lo ∧ i + g.lo ≤ f.hi) := by omega
    simp [h1, this]
  · simp [h1]

theorem fget_fset_same (s : State) (a : Nat) (f : Fld) (v : Nat) (h : f.lo ≤ f.hi) (hh : f.hi < 32) :
    fget (fset s a f v) a f = v % 2 ^ f.width := by
  unfold fget fset; rw [rd_wr_same]; exact getFld_putFld_same _ _ _ h hh

theorem fget_fset_ne (s : State) (a : Nat) (f g : Fld) (v : Nat) (h : f.lo ≤ f.hi) (hh : f.hi < 32)
    (hd : g.hi < f.lo ∨ f.hi < g.lo) (hg : g.lo ≤ g.hi) : fget (fset s a f v) a g = fget s a g := by
  unfold fget fset; rw [rd_wr_same]; exact getFld_putFld_ne _ _ _ _ h hh hd hg

/-- A write of a field leaves the register's bits outside it as they were. -/
theorem fset_bit (s : State) (a : Nat) (f : Fld) (v : Nat) (h : f.lo ≤ f.hi) (hh : f.hi < 32) (i : Nat) (hi : i < f.lo ∨ f.hi < i) :
    (rd (fset s a f v) a).getLsbD i = (rd s a).getLsbD i := by
  unfold fset; rw [rd_wr_same, putFld_bit _ _ _ h hh, if_neg (by omega)]

/-! ### Ending a command, sending, open values -/

@[simp] theorem rd_done (s : State) (a : Nat) : rd (done s) a = rd s a := by unfold rd done; rfl
@[simp] theorem fget_done (s : State) (a : Nat) (f : Fld) : fget (done s) a f = fget s a f := by unfold fget; rw [rd_done]
@[simp] theorem flag_done (s : State) (a : Nat) (f : Fld) : flag (done s) a f = flag s a f := by unfold flag; rw [fget_done]
@[simp] theorem rd_send (s : State) (i : TxItem) (a : Nat) : rd (send s i) a = rd s a := by unfold rd send; rfl
@[simp] theorem rd_noteSet (s : State) (a : Nat) (m : Word) (b : Nat) : rd (noteSet s a m) b = rd s b := by unfold rd noteSet; rfl

/-- Setting a field to 1 is a write of the field. -/
theorem rd_fon (s : State) (a : Nat) (f : Fld) (b : Nat) : rd (fon s a f) b = rd (fset s a f 1) b := by
  unfold fon
  split
  · unfold fset; rw [rd_wr, rd_wr, rd_noteSet, rd_noteSet]
  · rfl

theorem fget_fon_same (s : State) (a : Nat) (f : Fld) (h : f.lo ≤ f.hi) (hh : f.hi < 32) : fget (fon s a f) a f = 1 % 2 ^ f.width := by
  unfold fget; rw [rd_fon]; exact fget_fset_same s a f 1 h hh

@[simp] theorem rd_openVal (s : State) (a : Nat) : rd (openVal s).2 a = rd s a := by unfold rd openVal; rfl

end Sys2Proof.Machine
end

