-- ==== Sys2Proof/Laws/Frame.lean ====
section
/-! SUPPORT. Frames: how they compose, what the shared operations may change, and what raising an event may change. -/

namespace Sys2Proof.Machine

variable {ps qs : List Part} {own own' : Nat → Bool} {s t u : State}

/-! ### Composition -/

theorem Part.same_refl (p : Part) (s : State) : p.same s s := by cases p <;> first | rfl | exact ⟨rfl, rfl⟩

theorem Part.same_trans (p : Part) (h : p.same s t) (k : p.same t u) : p.same s u := by
  cases p <;> simp only [Part.same] at h k ⊢
  case sht => rw [← h, ← k]
  case capture => exact ⟨k.1.trans h.1, k.2.trans h.2⟩
  case tb => exact ⟨k.1.trans h.1, k.2.trans h.2⟩
  case ring => rw [← h, ← k]
  all_goals exact k.trans h

theorem frame_refl (ps : List Part) (own : Nat → Bool) (s : State) : frame ps own s s :=
  ⟨fun p _ => p.same_refl s, fun _ _ => rfl⟩

theorem frame_trans (h : frame ps own s t) (k : frame ps own t u) : frame ps own s u :=
  ⟨fun p hp => p.same_trans (h.1 p hp) (k.1 p hp), fun a ha => (k.2 a ha).trans (h.2 a ha)⟩

theorem frame_mono (h : frame ps own s t) (hp : ∀ p ∈ ps, p ∈ qs) (ho : ∀ a, own a = true → own' a = true) :
    frame qs own' s t :=
  ⟨fun p hq => h.1 p (fun hh => hq (hp p hh)), fun a ha => h.2 a (by
    cases hb : own a with
    | false => rfl
    | true => rw [ho a hb] at ha; exact ha)⟩

/-! ### Registers -/

theorem frame_wr {a : Nat} (h : frame ps own s t) (ha : own a = true) (v : Word) : frame ps own s (wr t a v) := by
  refine frame_trans h ⟨fun p _ => by cases p <;> first | rfl | exact ⟨rfl, rfl⟩, fun b hb => ?_⟩
  rw [rd_wr_ne]
  rintro rfl
  rw [ha] at hb
  exact absurd hb (by decide)

theorem frame_fset {a : Nat} (h : frame ps own s t) (ha : own a = true) (f : Fld) (v : Nat) : frame ps own s (fset t a f v) :=
  frame_wr h ha _

theorem frame_noteSet (h : frame ps own s t) (a : Nat) (m : Word) : frame ps own s (noteSet t a m) :=
  frame_trans h ⟨fun p _ => by cases p <;> first | rfl | exact ⟨rfl, rfl⟩, fun b _ => by unfold rd noteSet; rfl⟩
theorem frame_fon {a : Nat} (h : frame ps own s t) (ha : own a = true) (f : Fld) : frame ps own s (fon t a f) := by
  unfold fon
  split
  · exact frame_fset (frame_noteSet h a _) ha f 1
  · exact frame_fset h ha f 1
theorem frame_foff {a : Nat} (h : frame ps own s t) (ha : own a = true) (f : Fld) : frame ps own s (foff t a f) := frame_wr h ha _
theorem frame_fsetB {a : Nat} (h : frame ps own s t) (ha : own a = true) (f : Fld) (b : Bool) : frame ps own s (fsetB t a f b) :=
  frame_wr h ha _
theorem frame_fadd {a : Nat} (h : frame ps own s t) (ha : own a = true) (f : Fld) (n : Nat) : frame ps own s (fadd t a f n) :=
  frame_wr h ha _
theorem frame_finc {a : Nat} (h : frame ps own s t) (ha : own a = true) (f : Fld) : frame ps own s (finc t a f) := frame_wr h ha _
theorem frame_fwrap {a : Nat} (h : frame ps own s t) (ha : own a = true) (f : Fld) : frame ps own s (fwrap t a f) := frame_wr h ha _
theorem frame_fmax {a : Nat} (h : frame ps own s t) (ha : own a = true) (f : Fld) (v : Nat) : frame ps own s (fmax t a f v) :=
  frame_wr h ha _

/-! ### Other shared operations -/

theorem frame_done (h : frame ps own s t) : frame ps own s (done t) :=
  frame_trans h ⟨fun p _ => by cases p <;> simp only [Part.same, done, and_self], fun b _ => rd_done t b⟩

theorem frame_send (h : frame ps own s t) (hp : Part.tx ∈ ps) (i : TxItem) : frame ps own s (send t i) :=
  frame_trans h ⟨fun p hn => by unfold send; cases p <;> first | exact absurd hp hn | rfl | exact ⟨rfl, rfl⟩, fun b _ => rd_send t i b⟩

theorem frame_openVal (h : frame ps own s t) (hp : Part.free ∈ ps) : frame ps own s (openVal t).2 :=
  frame_trans h ⟨fun p hn => by unfold openVal; cases p <;> first | exact absurd hp hn | rfl | exact ⟨rfl, rfl⟩, fun b _ => rd_openVal t b⟩

theorem frame_openBool (h : frame ps own s t) (hp : Part.free ∈ ps) : frame ps own s (openBool t).2 := frame_openVal h hp

theorem frame_openQuot (h : frame ps own s t) (hp : Part.free ∈ ps) (a b : Nat) : frame ps own s (openQuot t a b).2 := by
  unfold openQuot; split
  · exact h
  · exact frame_openBool h hp

theorem frame_openDivI (h : frame ps own s t) (hp : Part.free ∈ ps) (a : Int) (b : Nat) : frame ps own s (openDivI t a b).2 := by
  unfold openDivI; split
  · exact h
  · exact frame_openBool h hp

theorem frame_onlyIf (c : Bool) (f : State → State) (h : frame ps own s t) (hf : frame ps own s (f t)) : frame ps own s (onlyIf c f t) := by
  unfold onlyIf; split
  · exact hf
  · exact h

theorem frame_foldl {α : Type} (f : State → α → State) (l : List α) (hf : ∀ t, ∀ x ∈ l, frame ps own s t → frame ps own s (f t x)) :
    ∀ t, frame ps own s t → frame ps own s (l.foldl f t) := by
  induction l with
  | nil => exact fun _ h => h
  | cons x l ih =>
    exact fun t h => ih (fun u y hy => hf u y (List.mem_cons_of_mem _ hy)) _ (hf t x (List.mem_cons_self ..) h)

/-! ### Replacing one part -/

theorem frame_variantAN (h : frame ps own s t) (hp : Part.variantAN ∈ ps) (x : Bool) : frame ps own s { t with variantAN := x } :=
  frame_trans h ⟨fun p hn => by cases p <;> first | exact absurd hp hn | rfl | exact ⟨rfl, rfl⟩, fun b _ => by unfold rd; rfl⟩

theorem frame_tb (h : frame ps own s t) (hp : Part.tb ∈ ps) (x : BitVec 64) : frame ps own s { t with tb := x } :=
  frame_trans h ⟨fun p hn => by cases p <;> first | exact absurd hp hn | rfl | exact ⟨rfl, rfl⟩, fun b _ => by unfold rd; rfl⟩

theorem frame_mem (h : frame ps own s t) (hp : Part.mem ∈ ps) (x : List Host.Cell) : frame ps own s { t with mem := x } :=
  frame_trans h ⟨fun p hn => by cases p <;> first | exact absurd hp hn | rfl | exact ⟨rfl, rfl⟩, fun b _ => by unfold rd; rfl⟩

theorem frame_poison (h : frame ps own s t) (hp : Part.poison ∈ ps) (x : List Nat) : frame ps own s { t with poison := x } :=
  frame_trans h ⟨fun p hn => by cases p <;> first | exact absurd hp hn | rfl | exact ⟨rfl, rfl⟩, fun b _ => by unfold rd; rfl⟩

theorem frame_reinit (h : frame ps own s t) (hp : Part.reinit ∈ ps) (x : List Nat) : frame ps own s { t with reinit := x } :=
  frame_trans h ⟨fun p hn => by cases p <;> first | exact absurd hp hn | rfl | exact ⟨rfl, rfl⟩, fun b _ => by unfold rd; rfl⟩

theorem frame_pins (h : frame ps own s t) (hp : Part.pins ∈ ps) (x : Pins) : frame ps own s { t with pins := x } :=
  frame_trans h ⟨fun p hn => by cases p <;> first | exact absurd hp hn | rfl | exact ⟨rfl, rfl⟩, fun b _ => by unfold rd; rfl⟩

theorem frame_evt (h : frame ps own s t) (hp : Part.evt ∈ ps) (x : EvtState) : frame ps own s { t with evt := x } :=
  frame_trans h ⟨fun p hn => by cases p <;> first | exact absurd hp hn | rfl | exact ⟨rfl, rfl⟩, fun b _ => by unfold rd; rfl⟩

theorem frame_fe (h : frame ps own s t) (hp : Part.fe ∈ ps) (x : FeState) : frame ps own s { t with fe := x } :=
  frame_trans h ⟨fun p hn => by cases p <;> first | exact absurd hp hn | rfl | exact ⟨rfl, rfl⟩, fun b _ => by unfold rd; rfl⟩

theorem frame_tdc (h : frame ps own s t) (hp : Part.tdc ∈ ps) (x : TdcState) : frame ps own s { t with tdc := x } :=
  frame_trans h ⟨fun p hn => by cases p <;> first | exact absurd hp hn | rfl | exact ⟨rfl, rfl⟩, fun b _ => by unfold rd; rfl⟩

theorem frame_gt (h : frame ps own s t) (hp : Part.gt ∈ ps) (x : GtState) : frame ps own s { t with gt := x } :=
  frame_trans h ⟨fun p hn => by cases p <;> first | exact absurd hp hn | rfl | exact ⟨rfl, rfl⟩, fun b _ => by unfold rd; rfl⟩

theorem frame_emg (h : frame ps own s t) (hp : Part.emg ∈ ps) (x : EmgState) : frame ps own s { t with emg := x } :=
  frame_trans h ⟨fun p hn => by cases p <;> first | exact absurd hp hn | rfl | exact ⟨rfl, rfl⟩, fun b _ => by unfold rd; rfl⟩

theorem frame_ps (h : frame ps own s t) (hp : Part.ps ∈ ps) (x : PsState) : frame ps own s { t with ps := x } :=
  frame_trans h ⟨fun p hn => by cases p <;> first | exact absurd hp hn | rfl | exact ⟨rfl, rfl⟩, fun b _ => by unfold rd; rfl⟩

theorem frame_saf (h : frame ps own s t) (hp : Part.saf ∈ ps) (x : SafState) : frame ps own s { t with saf := x } :=
  frame_trans h ⟨fun p hn => by cases p <;> first | exact absurd hp hn | rfl | exact ⟨rfl, rfl⟩, fun b _ => by unfold rd; rfl⟩

theorem frame_modOvl (h : frame ps own s t) (hp : Part.modOvl ∈ ps) (x : List Nat) : frame ps own s { t with modOvl := x } :=
  frame_trans h ⟨fun p hn => by cases p <;> first | exact absurd hp hn | rfl | exact ⟨rfl, rfl⟩, fun b _ => by unfold rd; rfl⟩

theorem frame_hk (h : frame ps own s t) (hp : Part.hk ∈ ps) (x : HkState) : frame ps own s { t with hk := x } :=
  frame_trans h ⟨fun p hn => by cases p <;> first | exact absurd hp hn | rfl | exact ⟨rfl, rfl⟩, fun b _ => by unfold rd; rfl⟩

theorem frame_slq (h : frame ps own s t) (hp : Part.slq ∈ ps) (x : SlqState) : frame ps own s { t with slq := x } :=
  frame_trans h ⟨fun p hn => by cases p <;> first | exact absurd hp hn | rfl | exact ⟨rfl, rfl⟩, fun b _ => by unfold rd; rfl⟩

theorem frame_pool (h : frame ps own s t) (hp : Part.pool ∈ ps) (x : PoolState) : frame ps own s { t with pool := x } :=
  frame_trans h ⟨fun p hn => by cases p <;> first | exact absurd hp hn | rfl | exact ⟨rfl, rfl⟩, fun b _ => by unfold rd; rfl⟩

theorem frame_tilt (h : frame ps own s t) (hp : Part.tilt ∈ ps) (x : TiltState) : frame ps own s { t with tilt := x } :=
  frame_trans h ⟨fun p hn => by cases p <;> first | exact absurd hp hn | rfl | exact ⟨rfl, rfl⟩, fun b _ => by unfold rd; rfl⟩

theorem frame_ctl (h : frame ps own s t) (hp : Part.ctl ∈ ps) (x : CtlState) : frame ps own s { t with ctl := x } :=
  frame_trans h ⟨fun p hn => by cases p <;> first | exact absurd hp hn | rfl | exact ⟨rfl, rfl⟩, fun b _ => by unfold rd; rfl⟩

theorem frame_thm (h : frame ps own s t) (hp : Part.thm ∈ ps) (x : ThmState) : frame ps own s { t with thm := x } :=
  frame_trans h ⟨fun p hn => by cases p <;> first | exact absurd hp hn | rfl | exact ⟨rfl, rfl⟩, fun b _ => by unfold rd; rfl⟩

theorem frame_drc (h : frame ps own s t) (hp : Part.drc ∈ ps) (x : DrcState) : frame ps own s { t with drc := x } :=
  frame_trans h ⟨fun p hn => by cases p <;> first | exact absurd hp hn | rfl | exact ⟨rfl, rfl⟩, fun b _ => by unfold rd; rfl⟩

theorem frame_dram (h : frame ps own s t) (hp : Part.dram ∈ ps) (x : DramUse) : frame ps own s { t with dram := x } :=
  frame_trans h ⟨fun p hn => by cases p <;> first | exact absurd hp hn | rfl | exact ⟨rfl, rfl⟩, fun b _ => by unfold rd; rfl⟩

/-- A request to the SDRAM changes the controller's queues alone (R341, R344). -/
theorem frame_drcUse (h : frame ps own s t) (hp : Part.dram ∈ ps) (a n : Nat) (w : Bool) : frame ps own s (drcUse t a n w) := by
  unfold drcUse; split
  · exact h
  · exact frame_dram h hp _

theorem frame_host (h : frame ps own s t) (hp : Part.host ∈ ps) (x : HostState) : frame ps own s { t with host := x } :=
  frame_trans h ⟨fun p hn => by cases p <;> first | exact absurd hp hn | rfl | exact ⟨rfl, rfl⟩, fun b _ => by unfold rd; rfl⟩

theorem frame_sec (h : frame ps own s t) (hp : Part.sec ∈ ps) (x : SecState) : frame ps own s { t with sec := x } :=
  frame_trans h ⟨fun p hn => by cases p <;> first | exact absurd hp hn | rfl | exact ⟨rfl, rfl⟩, fun b _ => by unfold rd; rfl⟩

theorem frame_com (h : frame ps own s t) (hp : Part.com ∈ ps) (x : ComState) : frame ps own s { t with com := x } :=
  frame_trans h ⟨fun p hn => by cases p <;> first | exact absurd hp hn | rfl | exact ⟨rfl, rfl⟩, fun b _ => by unfold rd; rfl⟩

theorem frame_sys (h : frame ps own s t) (hp : Part.sys ∈ ps) (x : SysState) : frame ps own s { t with sys := x } :=
  frame_trans h ⟨fun p hn => by cases p <;> first | exact absurd hp hn | rfl | exact ⟨rfl, rfl⟩, fun b _ => by unfold rd; rfl⟩

theorem frame_dec (h : frame ps own s t) (hp : Part.dec ∈ ps) (x : List (Nat × DecChan)) : frame ps own s { t with dec := x } :=
  frame_trans h ⟨fun p hn => by cases p <;> first | exact absurd hp hn | rfl | exact ⟨rfl, rfl⟩, fun b _ => by unfold rd; rfl⟩

theorem frame_dma (h : frame ps own s t) (hp : Part.dma ∈ ps) (x : List (Nat × DmaChan)) : frame ps own s { t with dma := x } :=
  frame_trans h ⟨fun p hn => by cases p <;> first | exact absurd hp hn | rfl | exact ⟨rfl, rfl⟩, fun b _ => by unfold rd; rfl⟩

theorem frame_lanes (h : frame ps own s t) (hp : Part.lanes ∈ ps) (x : List (Nat × LanePort)) : frame ps own s { t with lanes := x } :=
  frame_trans h ⟨fun p hn => by cases p <;> first | exact absurd hp hn | rfl | exact ⟨rfl, rfl⟩, fun b _ => by unfold rd; rfl⟩

theorem frame_tx (h : frame ps own s t) (hp : Part.tx ∈ ps) (x : List TxItem) : frame ps own s { t with tx := x } :=
  frame_trans h ⟨fun p hn => by cases p <;> first | exact absurd hp hn | rfl | exact ⟨rfl, rfl⟩, fun b _ => by unfold rd; rfl⟩

theorem frame_pending (h : frame ps own s t) (hp : Part.pending ∈ ps) (x : List Instr) : frame ps own s { t with pending := x } :=
  frame_trans h ⟨fun p hn => by cases p <;> first | exact absurd hp hn | rfl | exact ⟨rfl, rfl⟩, fun b _ => by unfold rd; rfl⟩

theorem frame_sht (h : frame ps own s t) (hp : Part.sht ∈ ps) (hc : Part.capture ∈ ps) (x : ShtState) : frame ps own s { t with sht := x } :=
  frame_trans h ⟨fun p hn => by cases p <;> first | exact absurd hp hn | exact absurd hc hn | rfl | exact ⟨rfl, rfl⟩, fun b _ => by unfold rd; rfl⟩

theorem frame_ring (h : frame ps own s t) (hp : Part.ring ∈ ps) (hc : Part.cast ∈ ps) (x : RingState) : frame ps own s { t with ring := x } :=
  frame_trans h ⟨fun p hn => by cases p <;> first | exact absurd hp hn | exact absurd hc hn | rfl | exact ⟨rfl, rfl⟩, fun b _ => by unfold rd; rfl⟩

/-! ### Raising an event -/

theorem evReg_false {a : Nat} (h : evReg a = false) : (a < blockBase 2 ∨ blockBase 2 + 0x10000 ≤ a) ∧ a ≠ R.CAP_STAT := by
  unfold evReg at h
  simp only [Bool.or_eq_false_iff, decide_eq_false_iff_not] at h
  omega

theorem evReg_block {a : Nat} (h : blockBase 2 ≤ a ∧ a < blockBase 2 + 0x10000) : evReg a = true := by
  unfold evReg; simp only [Bool.or_eq_true, decide_eq_true_eq]; exact .inl h

theorem evReg_route {n : Nat} (h : n < 640) : evReg (R.EV_ROUTE n) = true := evReg_block (by unfold R.EV_ROUTE; omega)
theorem evReg_flag {n : Nat} (h : n < 640) : evReg (R.EV_FLAG (n / 32)) = true := evReg_block (by unfold R.EV_FLAG; omega)
theorem evReg_stat : evReg R.EVT_STAT = true := by decide
theorem evReg_cap : evReg R.CAP_STAT = true := by decide

theorem evParts_evt (e : EvtState) (h : frame evParts evReg s t) : frame evParts evReg s { t with evt := e } := frame_evt h (by decide) e

theorem castRing_frame (h : frame evParts evReg s t) (k p1 p2 n r v : Nat) : frame evParts evReg s (castRing t k p1 p2 n r v) := by
  refine frame_trans h ⟨fun p hp => ?_, fun b _ => by unfold rd castRing laneOut modVc modLane; rfl⟩
  unfold castRing laneOut modVc modLane
  cases p <;> first | rfl | exact ⟨rfl, rfl⟩ | exact absurd (by decide) hp

theorem capFireCast_frame (h : frame evParts evReg s t) : frame evParts evReg s (capFireCast t) := by
  unfold capFireCast
  split
  · exact castRing_frame h ..
  · exact h

theorem capFire_frame (h : frame evParts evReg s t) : frame evParts evReg s (capFire t) := by
  have hc : ∀ (t : State) (x y : Nat), frame evParts evReg s t → frame evParts evReg s { t with sht := { t.sht with capT := x, capEnd := y } } :=
    fun t x y h => frame_trans h ⟨fun p hp => by cases p <;> first | rfl | exact ⟨rfl, rfl⟩ | exact absurd (by decide) hp, fun b _ => by unfold rd; rfl⟩
  unfold capFire
  split
  · exact capFireCast_frame (hc _ _ _ (frame_fset h evReg_cap _ _))
  · exact h

theorem capTrigger_frame (h : frame evParts evReg s t) (b : Nat) : frame evParts evReg s (capTrigger t b) := by
  unfold capTrigger; split
  · exact capFire_frame h
  · exact h

theorem evCount_frame (h : frame evParts evReg s t) {n : Nat} (hn : n < 640) : frame evParts evReg s (evCount t n) := by
  unfold evCount
  dsimp only
  split
  · exact capTrigger_frame (frame_finc h (evReg_route hn) _) _
  · exact frame_finc h (evReg_route hn) _

theorem irqRelease_frame (h : frame evParts evReg s t) (s0 : State) (n k : Nat) (f : Fld) : frame evParts evReg s (irqRelease s0 t n k f) := by
  unfold irqRelease; split
  · exact evParts_evt _ h
  · exact h

theorem evFlagSet_frame (h : frame evParts evReg s t) {n : Nat} (hn : n < 640) : frame evParts evReg s (evFlagSet t n) := by
  unfold evFlagSet setEvFlag
  exact frame_fset (frame_wr (irqRelease_frame (irqRelease_frame h ..) ..) (evReg_flag hn) _) evReg_stat _ _

theorem noteEvent_frame (h : frame evParts evReg s t) (n : Nat) (old : Bool) : frame evParts evReg s (noteEvent t n old) := by
  refine frame_trans h ⟨fun p _ => ?_, fun b _ => ?_⟩
  · unfold noteEvent; dsimp only; split <;> cases p <;> first | rfl | exact ⟨rfl, rfl⟩
  · unfold noteEvent rd; dsimp only; split <;> rfl

/-- `again` may change what raising an event may change. -/
def EvFrame (again : State → Nat → State) : Prop :=
  ∀ (s t : State) (n : Nat), n < 640 → frame evParts evReg s t → frame evParts evReg s (again t n)

theorem evNoRoom_frame {again : State → Nat → State} (ho : EvFrame again) (h : frame evParts evReg s t) (r : Bool) :
    frame evParts evReg s (evNoRoom again r t) := by
  unfold evNoRoom; split
  · exact h
  · exact ho _ _ _ (by decide) (frame_fon h evReg_stat _)

theorem evHost_frame {again : State → Nat → State} (ho : EvFrame again) (h : frame evParts evReg s t) (n c : Nat) :
    frame evParts evReg s (evHost again t n c) := by
  unfold evHost; split
  · exact evNoRoom_frame ho (evParts_evt _ h) _
  · exact h

theorem evEth_frame {again : State → Nat → State} (ho : EvFrame again) (h : frame evParts evReg s t) (n c : Nat) :
    frame evParts evReg s (evEth again t n c) := by
  unfold evEth; split
  · exact evNoRoom_frame ho (evParts_evt _ h) _
  · exact h

theorem evEmcy_frame {again : State → Nat → State} (ho : EvFrame again) (h : frame evParts evReg s t) (n c : Nat) :
    frame evParts evReg s (evEmcy again t n c) := by
  unfold evEmcy; split
  · dsimp only; split
    · exact evParts_evt _ (evParts_evt _ h)
    · exact ho _ _ _ (by decide) (frame_fon (evParts_evt _ h) evReg_stat _)
  · exact h

theorem raiseFuel_frame (fuel : Nat) : EvFrame (raiseFuel fuel) := by
  induction fuel with
  | zero => intro s t n _ h; unfold raiseFuel; exact h
  | succ k ih =>
    intro s t n hn h
    unfold raiseFuel
    split
    · exact h
    · have k := noteEvent_frame (evCount_frame h hn) n (evFlag t n)
      dsimp only
      split
      · exact k
      · unfold evRaise
        exact evEth_frame ih (evHost_frame ih (evEmcy_frame ih (evFlagSet_frame k hn) ..) ..) ..

/-- Raising an event changes the event block, the capture and its broadcast, and nothing else. -/
theorem raise_frame (s : State) {n : Nat} (hn : n < 640) : frame evParts evReg s (raise s n) :=
  raiseFuel_frame 3 s s n hn (frame_refl ..)

theorem frame_raise (h : frame ps own s t) {n : Nat} (hn : n < 640) (hp : ∀ p ∈ evParts, p ∈ ps) (ho : ∀ a, evReg a = true → own a = true) :
    frame ps own s (raise t n) := frame_trans h (frame_mono (raise_frame t hn) hp ho)

theorem frame_flagRaise {a : Nat} (h : frame ps own s t) (ha : own a = true) (f : Fld) {n : Nat} (hn : n < 640) (hp : ∀ p ∈ evParts, p ∈ ps)
    (ho : ∀ a, evReg a = true → own a = true) : frame ps own s (flagRaise t a f n) := frame_raise (frame_fon h ha f) hn hp ho

end Sys2Proof.Machine
end

