-- ==== Sys2Proof/Laws/Events.lean ====
section
/-! SUPPORT. Events: a raise sets the event's flag, and leaves every flag that is set as it is. -/

namespace Sys2Proof.Machine

theorem rd_noteEvent (s : State) (n : Nat) (old : Bool) (a : Nat) : rd (noteEvent s n old) a = rd s a := by
  unfold noteEvent rd; dsimp only; split <;> rfl

/-- No event's flag is lost from `s` to `t`. -/
def FlagsKept (s t : State) : Prop := ∀ m, m < 640 → evFlag s m = true → evFlag t m = true

theorem flagsKept_refl (s : State) : FlagsKept s s := fun _ _ h => h
theorem flagsKept_trans {s t u : State} (h : FlagsKept s t) (k : FlagsKept t u) : FlagsKept s u := fun m hm hs => k m hm (h m hm hs)

theorem flagsKept_of_rd {s t : State} (h : ∀ w, w < 20 → rd t (R.EV_FLAG w) = rd s (R.EV_FLAG w)) : FlagsKept s t := by
  intro m hm hs
  unfold evFlag at *
  rw [h (m / 32) (by omega)]; exact hs

theorem flagsKept_wr {s : State} {a : Nat} (v : Word) (h : ∀ w, w < 20 → R.EV_FLAG w ≠ a) : FlagsKept s (wr s a v) :=
  flagsKept_of_rd fun w hw => rd_wr_ne s v (h w hw)

theorem evFlag_ne_route {w n : Nat} (hw : w < 20) : R.EV_FLAG w ≠ R.EV_ROUTE n := by unfold R.EV_FLAG R.EV_ROUTE; omega
theorem evFlag_ne_stat {w : Nat} (hw : w < 20) : R.EV_FLAG w ≠ R.EVT_STAT := by unfold R.EV_FLAG R.EVT_STAT; omega
theorem evFlag_ne_cap {w : Nat} (hw : w < 20) : R.EV_FLAG w ≠ R.CAP_STAT := by unfold R.EV_FLAG R.CAP_STAT blockBase; omega

theorem bitOf_eq (n i : Nat) : bitOf n i = n.testBit i := by
  unfold bitOf; rw [Nat.testBit_eq_decide_div_mod_eq]

theorem testBit_add_pow {n i j : Nat} (hi : n.testBit i = false) : (n + 2 ^ i).testBit j = (decide (j = i) || n.testBit j) := by
  rw [Nat.add_comm]
  rcases Nat.lt_trichotomy j i with h | h | h
  · rw [Nat.testBit_two_pow_add_gt h]; simp [Nat.ne_of_lt h]
  · subst h; rw [Nat.testBit_two_pow_add_eq]; simp [hi]
  · have hd : (2 ^ i + n) / 2 ^ (i + 1) = n / 2 ^ (i + 1) := by
      have hb : n / 2 ^ i % 2 = 0 := by
        rw [Nat.testBit_eq_decide_div_mod_eq, decide_eq_false_iff_not] at hi; omega
      have e1 : (2 ^ i + n) / 2 ^ i = n / 2 ^ i + 1 := by rw [Nat.add_comm, Nat.add_div_right _ (Nat.two_pow_pos i)]
      rw [Nat.pow_succ, ← Nat.div_div_eq_div_mul, ← Nat.div_div_eq_div_mul, e1]; omega
    obtain ⟨k, rfl⟩ := Nat.exists_eq_add_of_lt h
    have e : ∀ x : Nat, x.testBit (i + k + 1) = (x / 2 ^ (i + 1)).testBit k := by
      intro x; rw [Nat.testBit_div_two_pow]; congr 1; omega
    rw [e, e, hd]; simp; omega

theorem bitOf_setBitN (n i j : Nat) : bitOf (setBitN n i true) j = (decide (j = i) || bitOf n j) := by
  unfold setBitN
  simp only [if_true]
  split
  · next h => by_cases hj : j = i
              · subst hj; simp [h]
              · simp [hj]
  · next h => rw [bitOf_eq] at h; rw [bitOf_eq, bitOf_eq, testBit_add_pow (by simpa using h)]

theorem bitOf_ofNat {x j : Nat} (h : j < 32) : bitOf (BitVec.ofNat 32 x).toNat j = bitOf x j := by
  rw [bitOf_eq, bitOf_eq, BitVec.toNat_ofNat, Nat.testBit_mod_two_pow]; simp [h]

theorem evFlag_setEvFlag (s : State) (n m : Nat) (_ : n < 640) (_ : m < 640) : evFlag (setEvFlag s n true) m = (decide (m = n) || evFlag s m) := by
  unfold evFlag setEvFlag
  simp only [if_true]
  rw [rd_wr, rd_noteSet, rd_noteSet]
  split
  · next h =>
    have hw : m / 32 = n / 32 := by unfold R.EV_FLAG at h; omega
    rw [bitOf_ofNat (by omega), bitOf_setBitN, hw]
    congr 1
    exact decide_eq_decide.mpr (by omega)
  · next h =>
    have : m ≠ n := by rintro rfl; exact h rfl
    simp [this]

theorem flagsKept_setEvFlag (s : State) {n : Nat} (hn : n < 640) : FlagsKept s (setEvFlag s n true) := by
  intro m hm h; rw [evFlag_setEvFlag s n m hn hm, h, Bool.or_true]

theorem flagsKept_fset {s : State} {a : Nat} (f : Fld) (v : Nat) (h : ∀ w, w < 20 → R.EV_FLAG w ≠ a) : FlagsKept s (fset s a f v) := flagsKept_wr _ h

theorem flagsKept_fon {s : State} {a : Nat} (f : Fld) (h : ∀ w, w < 20 → R.EV_FLAG w ≠ a) : FlagsKept s (fon s a f) :=
  flagsKept_of_rd fun w hw => by rw [rd_fon]; exact rd_fset_ne _ _ _ (h w hw)

theorem flagsKept_evt (s : State) (e : EvtState) : FlagsKept s { s with evt := e } := flagsKept_of_rd fun w _ => by unfold rd; rfl

theorem rd_castRing (t : State) (k p1 p2 n r v a : Nat) : rd (castRing t k p1 p2 n r v) a = rd t a := by
  unfold rd castRing laneOut modVc modLane; rfl

theorem rd_capFireCast (t : State) (a : Nat) : rd (capFireCast t) a = rd t a := by
  unfold capFireCast
  split
  · exact rd_castRing ..
  · rfl

theorem capFire_flags (s : State) : FlagsKept s (capFire s) := by
  apply flagsKept_of_rd
  intro w hw
  unfold capFire
  split
  · rw [rd_capFireCast, show ∀ (t : State) (x : ShtState) a, rd { t with sht := x } a = rd t a from fun _ _ _ => by unfold rd; rfl]
    exact rd_fset_ne _ _ _ (evFlag_ne_cap hw)
  · rfl

theorem noteEvent_flags (s : State) (n : Nat) (old : Bool) : FlagsKept s (noteEvent s n old) :=
  flagsKept_of_rd fun _ _ => rd_noteEvent ..

theorem evCount_flags (s : State) (n : Nat) : FlagsKept s (evCount s n) := by
  unfold evCount
  dsimp only
  have h := flagsKept_fset (s := s) (a := R.EV_ROUTE n) F.EV_ROUTE_COUNT (satN F.EV_ROUTE_COUNT.width (fget s (R.EV_ROUTE n) F.EV_ROUTE_COUNT + 1)) (fun w hw => evFlag_ne_route hw)
  split
  · unfold capTrigger; split
    · exact flagsKept_trans h (capFire_flags _)
    · exact h
  · exact h

theorem irqRelease_flags (s0 s : State) (n k : Nat) (f : Fld) : FlagsKept s (irqRelease s0 s n k f) := by
  unfold irqRelease; split
  · exact flagsKept_evt _ _
  · exact flagsKept_refl s

theorem evFlagSet_flags (s : State) {n : Nat} (hn : n < 640) : FlagsKept s (evFlagSet s n) := by
  unfold evFlagSet
  exact flagsKept_trans (flagsKept_trans (flagsKept_trans (irqRelease_flags _ _ _ _ _) (irqRelease_flags _ _ _ _ _)) (flagsKept_setEvFlag _ hn))
    (flagsKept_fset _ _ (fun w hw => evFlag_ne_stat hw))

theorem evFlagSet_sets (s : State) {n : Nat} (hn : n < 640) : evFlag (evFlagSet s n) n = true := by
  unfold evFlagSet
  exact flagsKept_fset _ _ (fun w hw => evFlag_ne_stat hw) n hn (by rw [evFlag_setEvFlag _ _ _ hn hn]; simp)

section
variable {again : State → Nat → State} (ho : ∀ s n, n < 640 → FlagsKept s (again s n))
include ho

theorem evNoRoom_flags (r : Bool) (s : State) : FlagsKept s (evNoRoom again r s) := by
  unfold evNoRoom; split
  · exact flagsKept_refl s
  · exact flagsKept_trans (flagsKept_fon _ (fun w hw => evFlag_ne_stat hw)) (ho _ _ (by decide))

theorem evHost_flags (s : State) (n c : Nat) : FlagsKept s (evHost again s n c) := by
  unfold evHost; split
  · exact flagsKept_trans (flagsKept_evt _ _) (evNoRoom_flags ho _ _)
  · exact flagsKept_refl s

theorem evEth_flags (s : State) (n c : Nat) : FlagsKept s (evEth again s n c) := by
  unfold evEth; split
  · exact flagsKept_trans (flagsKept_evt _ _) (evNoRoom_flags ho _ _)
  · exact flagsKept_refl s

theorem evEmcy_flags (s : State) (n c : Nat) : FlagsKept s (evEmcy again s n c) := by
  unfold evEmcy; split
  · dsimp only; split
    · exact flagsKept_trans (flagsKept_evt _ _) (flagsKept_evt _ _)
    · exact flagsKept_trans (flagsKept_trans (flagsKept_evt _ _) (flagsKept_fon _ (fun w hw => evFlag_ne_stat hw))) (ho _ _ (by decide))
  · exact flagsKept_refl s

theorem evRaise_flags (s : State) {n : Nat} (_ : n < 640) : FlagsKept (evFlagSet s n) (evRaise again s n) := by
  unfold evRaise
  exact flagsKept_trans (flagsKept_trans (evEmcy_flags ho _ _ _) (evHost_flags ho _ _ _)) (evEth_flags ho _ _ _)

end

theorem raiseFuel_flags (fuel : Nat) : ∀ s n, n < 640 → FlagsKept s (raiseFuel fuel s n) := by
  induction fuel with
  | zero => intro s n _; unfold raiseFuel; exact flagsKept_refl s
  | succ k ih =>
    intro s n hn
    unfold raiseFuel
    split
    · exact flagsKept_refl s
    · have k := flagsKept_trans (evCount_flags s n) (noteEvent_flags (evCount s n) n (evFlag s n))
      dsimp only
      split
      · exact k
      · exact flagsKept_trans (flagsKept_trans k (evFlagSet_flags _ hn)) (evRaise_flags ih _ hn)

/-- Raising an event keeps every flag that is set. -/
theorem raise_flags (s : State) {n : Nat} (hn : n < 640) : FlagsKept s (raise s n) := raiseFuel_flags 3 s n hn

/-- The flag of an event is 1 after its source has set it (R426), but for the safety events of a device that has no safety
island. -/
theorem evFlag_raise (s : State) {n : Nat} (hn : n < 640) (hv : ¬ (s.variantAN ∧ 536 ≤ n ∧ n < 552)) : evFlag (raise s n) n = true := by
  unfold raise raiseFuel
  rw [if_neg hv]
  dsimp only
  split
  · assumption
  · exact evRaise_flags (raiseFuel_flags 2) _ hn n hn (evFlagSet_sets _ hn)

end Sys2Proof.Machine
end

