-- ==== Sys2Proof/Laws/State.lean ====
section
/-! SUPPORT. What each shared update of the state leaves as it was, field by field, so that no proof unfolds a record update. -/

namespace Sys2Proof.Machine

/-! ### Writing a register -/

@[simp] theorem wr_pending (s : State) (a : Nat) (v : Word) : (wr s a v).pending = s.pending := rfl
@[simp] theorem wr_variantAN (s : State) (a : Nat) (v : Word) : (wr s a v).variantAN = s.variantAN := rfl
@[simp] theorem wr_tb (s : State) (a : Nat) (v : Word) : (wr s a v).tb = s.tb := rfl
@[simp] theorem wr_stepped (s : State) (a : Nat) (v : Word) : (wr s a v).stepped = s.stepped := rfl
@[simp] theorem wr_hwSet (s : State) (a : Nat) (v : Word) : (wr s a v).hwSet = s.hwSet := rfl
@[simp] theorem wr_evNow (s : State) (a : Nat) (v : Word) : (wr s a v).evNow = s.evNow := rfl
@[simp] theorem wr_free (s : State) (a : Nat) (v : Word) : (wr s a v).free = s.free := rfl
@[simp] theorem wr_mem (s : State) (a : Nat) (v : Word) : (wr s a v).mem = s.mem := rfl
@[simp] theorem wr_poison (s : State) (a : Nat) (v : Word) : (wr s a v).poison = s.poison := rfl
@[simp] theorem wr_units (s : State) (a : Nat) (v : Word) : (wr s a v).units = s.units := rfl
@[simp] theorem wr_reinit (s : State) (a : Nat) (v : Word) : (wr s a v).reinit = s.reinit := rfl
@[simp] theorem wr_pins (s : State) (a : Nat) (v : Word) : (wr s a v).pins = s.pins := rfl
@[simp] theorem wr_tx (s : State) (a : Nat) (v : Word) : (wr s a v).tx = s.tx := rfl
@[simp] theorem wr_evt (s : State) (a : Nat) (v : Word) : (wr s a v).evt = s.evt := rfl
@[simp] theorem wr_fe (s : State) (a : Nat) (v : Word) : (wr s a v).fe = s.fe := rfl
@[simp] theorem wr_tdc (s : State) (a : Nat) (v : Word) : (wr s a v).tdc = s.tdc := rfl
@[simp] theorem wr_sht (s : State) (a : Nat) (v : Word) : (wr s a v).sht = s.sht := rfl
@[simp] theorem wr_gt (s : State) (a : Nat) (v : Word) : (wr s a v).gt = s.gt := rfl
@[simp] theorem wr_emg (s : State) (a : Nat) (v : Word) : (wr s a v).emg = s.emg := rfl
@[simp] theorem wr_ps (s : State) (a : Nat) (v : Word) : (wr s a v).ps = s.ps := rfl
@[simp] theorem wr_saf (s : State) (a : Nat) (v : Word) : (wr s a v).saf = s.saf := rfl
@[simp] theorem wr_dec (s : State) (a : Nat) (v : Word) : (wr s a v).dec = s.dec := rfl
@[simp] theorem wr_modOvl (s : State) (a : Nat) (v : Word) : (wr s a v).modOvl = s.modOvl := rfl
@[simp] theorem wr_hk (s : State) (a : Nat) (v : Word) : (wr s a v).hk = s.hk := rfl
@[simp] theorem wr_slq (s : State) (a : Nat) (v : Word) : (wr s a v).slq = s.slq := rfl
@[simp] theorem wr_dma (s : State) (a : Nat) (v : Word) : (wr s a v).dma = s.dma := rfl
@[simp] theorem wr_pool (s : State) (a : Nat) (v : Word) : (wr s a v).pool = s.pool := rfl
@[simp] theorem wr_tilt (s : State) (a : Nat) (v : Word) : (wr s a v).tilt = s.tilt := rfl
@[simp] theorem wr_ctl (s : State) (a : Nat) (v : Word) : (wr s a v).ctl = s.ctl := rfl
@[simp] theorem wr_thm (s : State) (a : Nat) (v : Word) : (wr s a v).thm = s.thm := rfl
@[simp] theorem wr_drc (s : State) (a : Nat) (v : Word) : (wr s a v).drc = s.drc := rfl
@[simp] theorem wr_dram (s : State) (a : Nat) (v : Word) : (wr s a v).dram = s.dram := rfl
@[simp] theorem wr_lanes (s : State) (a : Nat) (v : Word) : (wr s a v).lanes = s.lanes := rfl
@[simp] theorem wr_host (s : State) (a : Nat) (v : Word) : (wr s a v).host = s.host := rfl
@[simp] theorem wr_ring (s : State) (a : Nat) (v : Word) : (wr s a v).ring = s.ring := rfl
@[simp] theorem wr_sec (s : State) (a : Nat) (v : Word) : (wr s a v).sec = s.sec := rfl
@[simp] theorem wr_com (s : State) (a : Nat) (v : Word) : (wr s a v).com = s.com := rfl
@[simp] theorem wr_sys (s : State) (a : Nat) (v : Word) : (wr s a v).sys = s.sys := rfl

/-! ### Writing a field -/

@[simp] theorem fset_pending (s : State) (a : Nat) (f : Fld) (v : Nat) : (fset s a f v).pending = s.pending := rfl
@[simp] theorem fset_variantAN (s : State) (a : Nat) (f : Fld) (v : Nat) : (fset s a f v).variantAN = s.variantAN := rfl
@[simp] theorem fset_tb (s : State) (a : Nat) (f : Fld) (v : Nat) : (fset s a f v).tb = s.tb := rfl
@[simp] theorem fset_stepped (s : State) (a : Nat) (f : Fld) (v : Nat) : (fset s a f v).stepped = s.stepped := rfl
@[simp] theorem fset_hwSet (s : State) (a : Nat) (f : Fld) (v : Nat) : (fset s a f v).hwSet = s.hwSet := rfl
@[simp] theorem fset_evNow (s : State) (a : Nat) (f : Fld) (v : Nat) : (fset s a f v).evNow = s.evNow := rfl
@[simp] theorem fset_free (s : State) (a : Nat) (f : Fld) (v : Nat) : (fset s a f v).free = s.free := rfl
@[simp] theorem fset_mem (s : State) (a : Nat) (f : Fld) (v : Nat) : (fset s a f v).mem = s.mem := rfl
@[simp] theorem fset_poison (s : State) (a : Nat) (f : Fld) (v : Nat) : (fset s a f v).poison = s.poison := rfl
@[simp] theorem fset_units (s : State) (a : Nat) (f : Fld) (v : Nat) : (fset s a f v).units = s.units := rfl
@[simp] theorem fset_reinit (s : State) (a : Nat) (f : Fld) (v : Nat) : (fset s a f v).reinit = s.reinit := rfl
@[simp] theorem fset_pins (s : State) (a : Nat) (f : Fld) (v : Nat) : (fset s a f v).pins = s.pins := rfl
@[simp] theorem fset_tx (s : State) (a : Nat) (f : Fld) (v : Nat) : (fset s a f v).tx = s.tx := rfl
@[simp] theorem fset_evt (s : State) (a : Nat) (f : Fld) (v : Nat) : (fset s a f v).evt = s.evt := rfl
@[simp] theorem fset_fe (s : State) (a : Nat) (f : Fld) (v : Nat) : (fset s a f v).fe = s.fe := rfl
@[simp] theorem fset_tdc (s : State) (a : Nat) (f : Fld) (v : Nat) : (fset s a f v).tdc = s.tdc := rfl
@[simp] theorem fset_sht (s : State) (a : Nat) (f : Fld) (v : Nat) : (fset s a f v).sht = s.sht := rfl
@[simp] theorem fset_gt (s : State) (a : Nat) (f : Fld) (v : Nat) : (fset s a f v).gt = s.gt := rfl
@[simp] theorem fset_emg (s : State) (a : Nat) (f : Fld) (v : Nat) : (fset s a f v).emg = s.emg := rfl
@[simp] theorem fset_ps (s : State) (a : Nat) (f : Fld) (v : Nat) : (fset s a f v).ps = s.ps := rfl
@[simp] theorem fset_saf (s : State) (a : Nat) (f : Fld) (v : Nat) : (fset s a f v).saf = s.saf := rfl
@[simp] theorem fset_dec (s : State) (a : Nat) (f : Fld) (v : Nat) : (fset s a f v).dec = s.dec := rfl
@[simp] theorem fset_modOvl (s : State) (a : Nat) (f : Fld) (v : Nat) : (fset s a f v).modOvl = s.modOvl := rfl
@[simp] theorem fset_hk (s : State) (a : Nat) (f : Fld) (v : Nat) : (fset s a f v).hk = s.hk := rfl
@[simp] theorem fset_slq (s : State) (a : Nat) (f : Fld) (v : Nat) : (fset s a f v).slq = s.slq := rfl
@[simp] theorem fset_dma (s : State) (a : Nat) (f : Fld) (v : Nat) : (fset s a f v).dma = s.dma := rfl
@[simp] theorem fset_pool (s : State) (a : Nat) (f : Fld) (v : Nat) : (fset s a f v).pool = s.pool := rfl
@[simp] theorem fset_tilt (s : State) (a : Nat) (f : Fld) (v : Nat) : (fset s a f v).tilt = s.tilt := rfl
@[simp] theorem fset_ctl (s : State) (a : Nat) (f : Fld) (v : Nat) : (fset s a f v).ctl = s.ctl := rfl
@[simp] theorem fset_thm (s : State) (a : Nat) (f : Fld) (v : Nat) : (fset s a f v).thm = s.thm := rfl
@[simp] theorem fset_drc (s : State) (a : Nat) (f : Fld) (v : Nat) : (fset s a f v).drc = s.drc := rfl
@[simp] theorem fset_dram (s : State) (a : Nat) (f : Fld) (v : Nat) : (fset s a f v).dram = s.dram := rfl
@[simp] theorem fset_lanes (s : State) (a : Nat) (f : Fld) (v : Nat) : (fset s a f v).lanes = s.lanes := rfl
@[simp] theorem fset_host (s : State) (a : Nat) (f : Fld) (v : Nat) : (fset s a f v).host = s.host := rfl
@[simp] theorem fset_ring (s : State) (a : Nat) (f : Fld) (v : Nat) : (fset s a f v).ring = s.ring := rfl
@[simp] theorem fset_sec (s : State) (a : Nat) (f : Fld) (v : Nat) : (fset s a f v).sec = s.sec := rfl
@[simp] theorem fset_com (s : State) (a : Nat) (f : Fld) (v : Nat) : (fset s a f v).com = s.com := rfl
@[simp] theorem fset_sys (s : State) (a : Nat) (f : Fld) (v : Nat) : (fset s a f v).sys = s.sys := rfl

/-! ### Writing a byte of memory -/

@[simp] theorem mset_pending (s : State) (a : Nat) (v : Byte) : (mset s a v).pending = s.pending := rfl
@[simp] theorem mset_variantAN (s : State) (a : Nat) (v : Byte) : (mset s a v).variantAN = s.variantAN := rfl
@[simp] theorem mset_tb (s : State) (a : Nat) (v : Byte) : (mset s a v).tb = s.tb := rfl
@[simp] theorem mset_stepped (s : State) (a : Nat) (v : Byte) : (mset s a v).stepped = s.stepped := rfl
@[simp] theorem mset_hwSet (s : State) (a : Nat) (v : Byte) : (mset s a v).hwSet = s.hwSet := rfl
@[simp] theorem mset_evNow (s : State) (a : Nat) (v : Byte) : (mset s a v).evNow = s.evNow := rfl
@[simp] theorem mset_free (s : State) (a : Nat) (v : Byte) : (mset s a v).free = s.free := rfl
@[simp] theorem mset_regs (s : State) (a : Nat) (v : Byte) : (mset s a v).regs = s.regs := rfl
@[simp] theorem mset_poison (s : State) (a : Nat) (v : Byte) : (mset s a v).poison = s.poison := rfl
@[simp] theorem mset_units (s : State) (a : Nat) (v : Byte) : (mset s a v).units = s.units := rfl
@[simp] theorem mset_reinit (s : State) (a : Nat) (v : Byte) : (mset s a v).reinit = s.reinit := rfl
@[simp] theorem mset_pins (s : State) (a : Nat) (v : Byte) : (mset s a v).pins = s.pins := rfl
@[simp] theorem mset_tx (s : State) (a : Nat) (v : Byte) : (mset s a v).tx = s.tx := rfl
@[simp] theorem mset_evt (s : State) (a : Nat) (v : Byte) : (mset s a v).evt = s.evt := rfl
@[simp] theorem mset_fe (s : State) (a : Nat) (v : Byte) : (mset s a v).fe = s.fe := rfl
@[simp] theorem mset_tdc (s : State) (a : Nat) (v : Byte) : (mset s a v).tdc = s.tdc := rfl
@[simp] theorem mset_sht (s : State) (a : Nat) (v : Byte) : (mset s a v).sht = s.sht := rfl
@[simp] theorem mset_gt (s : State) (a : Nat) (v : Byte) : (mset s a v).gt = s.gt := rfl
@[simp] theorem mset_emg (s : State) (a : Nat) (v : Byte) : (mset s a v).emg = s.emg := rfl
@[simp] theorem mset_ps (s : State) (a : Nat) (v : Byte) : (mset s a v).ps = s.ps := rfl
@[simp] theorem mset_saf (s : State) (a : Nat) (v : Byte) : (mset s a v).saf = s.saf := rfl
@[simp] theorem mset_dec (s : State) (a : Nat) (v : Byte) : (mset s a v).dec = s.dec := rfl
@[simp] theorem mset_modOvl (s : State) (a : Nat) (v : Byte) : (mset s a v).modOvl = s.modOvl := rfl
@[simp] theorem mset_hk (s : State) (a : Nat) (v : Byte) : (mset s a v).hk = s.hk := rfl
@[simp] theorem mset_slq (s : State) (a : Nat) (v : Byte) : (mset s a v).slq = s.slq := rfl
@[simp] theorem mset_dma (s : State) (a : Nat) (v : Byte) : (mset s a v).dma = s.dma := rfl
@[simp] theorem mset_pool (s : State) (a : Nat) (v : Byte) : (mset s a v).pool = s.pool := rfl
@[simp] theorem mset_tilt (s : State) (a : Nat) (v : Byte) : (mset s a v).tilt = s.tilt := rfl
@[simp] theorem mset_ctl (s : State) (a : Nat) (v : Byte) : (mset s a v).ctl = s.ctl := rfl
@[simp] theorem mset_thm (s : State) (a : Nat) (v : Byte) : (mset s a v).thm = s.thm := rfl
@[simp] theorem mset_drc (s : State) (a : Nat) (v : Byte) : (mset s a v).drc = s.drc := rfl
@[simp] theorem mset_dram (s : State) (a : Nat) (v : Byte) : (mset s a v).dram = s.dram := rfl
@[simp] theorem mset_lanes (s : State) (a : Nat) (v : Byte) : (mset s a v).lanes = s.lanes := rfl
@[simp] theorem mset_host (s : State) (a : Nat) (v : Byte) : (mset s a v).host = s.host := rfl
@[simp] theorem mset_ring (s : State) (a : Nat) (v : Byte) : (mset s a v).ring = s.ring := rfl
@[simp] theorem mset_sec (s : State) (a : Nat) (v : Byte) : (mset s a v).sec = s.sec := rfl
@[simp] theorem mset_com (s : State) (a : Nat) (v : Byte) : (mset s a v).com = s.com := rfl
@[simp] theorem mset_sys (s : State) (a : Nat) (v : Byte) : (mset s a v).sys = s.sys := rfl

/-! ### Zeroing an area -/

@[simp] theorem mzero_pending (s : State) (a n : Nat) : (mzero s a n).pending = s.pending := rfl
@[simp] theorem mzero_variantAN (s : State) (a n : Nat) : (mzero s a n).variantAN = s.variantAN := rfl
@[simp] theorem mzero_tb (s : State) (a n : Nat) : (mzero s a n).tb = s.tb := rfl
@[simp] theorem mzero_stepped (s : State) (a n : Nat) : (mzero s a n).stepped = s.stepped := rfl
@[simp] theorem mzero_hwSet (s : State) (a n : Nat) : (mzero s a n).hwSet = s.hwSet := rfl
@[simp] theorem mzero_evNow (s : State) (a n : Nat) : (mzero s a n).evNow = s.evNow := rfl
@[simp] theorem mzero_free (s : State) (a n : Nat) : (mzero s a n).free = s.free := rfl
@[simp] theorem mzero_regs (s : State) (a n : Nat) : (mzero s a n).regs = s.regs := rfl
@[simp] theorem mzero_poison (s : State) (a n : Nat) : (mzero s a n).poison = s.poison := rfl
@[simp] theorem mzero_units (s : State) (a n : Nat) : (mzero s a n).units = s.units := rfl
@[simp] theorem mzero_reinit (s : State) (a n : Nat) : (mzero s a n).reinit = s.reinit := rfl
@[simp] theorem mzero_pins (s : State) (a n : Nat) : (mzero s a n).pins = s.pins := rfl
@[simp] theorem mzero_tx (s : State) (a n : Nat) : (mzero s a n).tx = s.tx := rfl
@[simp] theorem mzero_evt (s : State) (a n : Nat) : (mzero s a n).evt = s.evt := rfl
@[simp] theorem mzero_fe (s : State) (a n : Nat) : (mzero s a n).fe = s.fe := rfl
@[simp] theorem mzero_tdc (s : State) (a n : Nat) : (mzero s a n).tdc = s.tdc := rfl
@[simp] theorem mzero_sht (s : State) (a n : Nat) : (mzero s a n).sht = s.sht := rfl
@[simp] theorem mzero_gt (s : State) (a n : Nat) : (mzero s a n).gt = s.gt := rfl
@[simp] theorem mzero_emg (s : State) (a n : Nat) : (mzero s a n).emg = s.emg := rfl
@[simp] theorem mzero_ps (s : State) (a n : Nat) : (mzero s a n).ps = s.ps := rfl
@[simp] theorem mzero_saf (s : State) (a n : Nat) : (mzero s a n).saf = s.saf := rfl
@[simp] theorem mzero_dec (s : State) (a n : Nat) : (mzero s a n).dec = s.dec := rfl
@[simp] theorem mzero_modOvl (s : State) (a n : Nat) : (mzero s a n).modOvl = s.modOvl := rfl
@[simp] theorem mzero_hk (s : State) (a n : Nat) : (mzero s a n).hk = s.hk := rfl
@[simp] theorem mzero_slq (s : State) (a n : Nat) : (mzero s a n).slq = s.slq := rfl
@[simp] theorem mzero_dma (s : State) (a n : Nat) : (mzero s a n).dma = s.dma := rfl
@[simp] theorem mzero_pool (s : State) (a n : Nat) : (mzero s a n).pool = s.pool := rfl
@[simp] theorem mzero_tilt (s : State) (a n : Nat) : (mzero s a n).tilt = s.tilt := rfl
@[simp] theorem mzero_ctl (s : State) (a n : Nat) : (mzero s a n).ctl = s.ctl := rfl
@[simp] theorem mzero_thm (s : State) (a n : Nat) : (mzero s a n).thm = s.thm := rfl
@[simp] theorem mzero_drc (s : State) (a n : Nat) : (mzero s a n).drc = s.drc := rfl
@[simp] theorem mzero_dram (s : State) (a n : Nat) : (mzero s a n).dram = s.dram := rfl
@[simp] theorem mzero_lanes (s : State) (a n : Nat) : (mzero s a n).lanes = s.lanes := rfl
@[simp] theorem mzero_host (s : State) (a n : Nat) : (mzero s a n).host = s.host := rfl
@[simp] theorem mzero_ring (s : State) (a n : Nat) : (mzero s a n).ring = s.ring := rfl
@[simp] theorem mzero_sec (s : State) (a n : Nat) : (mzero s a n).sec = s.sec := rfl
@[simp] theorem mzero_com (s : State) (a n : Nat) : (mzero s a n).com = s.com := rfl
@[simp] theorem mzero_sys (s : State) (a n : Nat) : (mzero s a n).sys = s.sys := rfl

/-! ### Clearing poison -/

@[simp] theorem unpoison_pending (s : State) (a n : Nat) : (unpoison s a n).pending = s.pending := rfl
@[simp] theorem unpoison_variantAN (s : State) (a n : Nat) : (unpoison s a n).variantAN = s.variantAN := rfl
@[simp] theorem unpoison_tb (s : State) (a n : Nat) : (unpoison s a n).tb = s.tb := rfl
@[simp] theorem unpoison_stepped (s : State) (a n : Nat) : (unpoison s a n).stepped = s.stepped := rfl
@[simp] theorem unpoison_hwSet (s : State) (a n : Nat) : (unpoison s a n).hwSet = s.hwSet := rfl
@[simp] theorem unpoison_evNow (s : State) (a n : Nat) : (unpoison s a n).evNow = s.evNow := rfl
@[simp] theorem unpoison_free (s : State) (a n : Nat) : (unpoison s a n).free = s.free := rfl
@[simp] theorem unpoison_regs (s : State) (a n : Nat) : (unpoison s a n).regs = s.regs := rfl
@[simp] theorem unpoison_mem (s : State) (a n : Nat) : (unpoison s a n).mem = s.mem := rfl
@[simp] theorem unpoison_units (s : State) (a n : Nat) : (unpoison s a n).units = s.units := rfl
@[simp] theorem unpoison_reinit (s : State) (a n : Nat) : (unpoison s a n).reinit = s.reinit := rfl
@[simp] theorem unpoison_pins (s : State) (a n : Nat) : (unpoison s a n).pins = s.pins := rfl
@[simp] theorem unpoison_tx (s : State) (a n : Nat) : (unpoison s a n).tx = s.tx := rfl
@[simp] theorem unpoison_evt (s : State) (a n : Nat) : (unpoison s a n).evt = s.evt := rfl
@[simp] theorem unpoison_fe (s : State) (a n : Nat) : (unpoison s a n).fe = s.fe := rfl
@[simp] theorem unpoison_tdc (s : State) (a n : Nat) : (unpoison s a n).tdc = s.tdc := rfl
@[simp] theorem unpoison_sht (s : State) (a n : Nat) : (unpoison s a n).sht = s.sht := rfl
@[simp] theorem unpoison_gt (s : State) (a n : Nat) : (unpoison s a n).gt = s.gt := rfl
@[simp] theorem unpoison_emg (s : State) (a n : Nat) : (unpoison s a n).emg = s.emg := rfl
@[simp] theorem unpoison_ps (s : State) (a n : Nat) : (unpoison s a n).ps = s.ps := rfl
@[simp] theorem unpoison_saf (s : State) (a n : Nat) : (unpoison s a n).saf = s.saf := rfl
@[simp] theorem unpoison_dec (s : State) (a n : Nat) : (unpoison s a n).dec = s.dec := rfl
@[simp] theorem unpoison_modOvl (s : State) (a n : Nat) : (unpoison s a n).modOvl = s.modOvl := rfl
@[simp] theorem unpoison_hk (s : State) (a n : Nat) : (unpoison s a n).hk = s.hk := rfl
@[simp] theorem unpoison_slq (s : State) (a n : Nat) : (unpoison s a n).slq = s.slq := rfl
@[simp] theorem unpoison_dma (s : State) (a n : Nat) : (unpoison s a n).dma = s.dma := rfl
@[simp] theorem unpoison_pool (s : State) (a n : Nat) : (unpoison s a n).pool = s.pool := rfl
@[simp] theorem unpoison_tilt (s : State) (a n : Nat) : (unpoison s a n).tilt = s.tilt := rfl
@[simp] theorem unpoison_ctl (s : State) (a n : Nat) : (unpoison s a n).ctl = s.ctl := rfl
@[simp] theorem unpoison_thm (s : State) (a n : Nat) : (unpoison s a n).thm = s.thm := rfl
@[simp] theorem unpoison_drc (s : State) (a n : Nat) : (unpoison s a n).drc = s.drc := rfl
@[simp] theorem unpoison_dram (s : State) (a n : Nat) : (unpoison s a n).dram = s.dram := rfl
@[simp] theorem unpoison_lanes (s : State) (a n : Nat) : (unpoison s a n).lanes = s.lanes := rfl
@[simp] theorem unpoison_host (s : State) (a n : Nat) : (unpoison s a n).host = s.host := rfl
@[simp] theorem unpoison_ring (s : State) (a n : Nat) : (unpoison s a n).ring = s.ring := rfl
@[simp] theorem unpoison_sec (s : State) (a n : Nat) : (unpoison s a n).sec = s.sec := rfl
@[simp] theorem unpoison_com (s : State) (a n : Nat) : (unpoison s a n).com = s.com := rfl
@[simp] theorem unpoison_sys (s : State) (a n : Nat) : (unpoison s a n).sys = s.sys := rfl

/-! ### Sending an item -/

@[simp] theorem send_pending (s : State) (i : TxItem) : (send s i).pending = s.pending := rfl
@[simp] theorem send_variantAN (s : State) (i : TxItem) : (send s i).variantAN = s.variantAN := rfl
@[simp] theorem send_tb (s : State) (i : TxItem) : (send s i).tb = s.tb := rfl
@[simp] theorem send_stepped (s : State) (i : TxItem) : (send s i).stepped = s.stepped := rfl
@[simp] theorem send_hwSet (s : State) (i : TxItem) : (send s i).hwSet = s.hwSet := rfl
@[simp] theorem send_evNow (s : State) (i : TxItem) : (send s i).evNow = s.evNow := rfl
@[simp] theorem send_free (s : State) (i : TxItem) : (send s i).free = s.free := rfl
@[simp] theorem send_regs (s : State) (i : TxItem) : (send s i).regs = s.regs := rfl
@[simp] theorem send_mem (s : State) (i : TxItem) : (send s i).mem = s.mem := rfl
@[simp] theorem send_poison (s : State) (i : TxItem) : (send s i).poison = s.poison := rfl
@[simp] theorem send_units (s : State) (i : TxItem) : (send s i).units = s.units := rfl
@[simp] theorem send_reinit (s : State) (i : TxItem) : (send s i).reinit = s.reinit := rfl
@[simp] theorem send_pins (s : State) (i : TxItem) : (send s i).pins = s.pins := rfl
@[simp] theorem send_evt (s : State) (i : TxItem) : (send s i).evt = s.evt := rfl
@[simp] theorem send_fe (s : State) (i : TxItem) : (send s i).fe = s.fe := rfl
@[simp] theorem send_tdc (s : State) (i : TxItem) : (send s i).tdc = s.tdc := rfl
@[simp] theorem send_sht (s : State) (i : TxItem) : (send s i).sht = s.sht := rfl
@[simp] theorem send_gt (s : State) (i : TxItem) : (send s i).gt = s.gt := rfl
@[simp] theorem send_emg (s : State) (i : TxItem) : (send s i).emg = s.emg := rfl
@[simp] theorem send_ps (s : State) (i : TxItem) : (send s i).ps = s.ps := rfl
@[simp] theorem send_saf (s : State) (i : TxItem) : (send s i).saf = s.saf := rfl
@[simp] theorem send_dec (s : State) (i : TxItem) : (send s i).dec = s.dec := rfl
@[simp] theorem send_modOvl (s : State) (i : TxItem) : (send s i).modOvl = s.modOvl := rfl
@[simp] theorem send_hk (s : State) (i : TxItem) : (send s i).hk = s.hk := rfl
@[simp] theorem send_slq (s : State) (i : TxItem) : (send s i).slq = s.slq := rfl
@[simp] theorem send_dma (s : State) (i : TxItem) : (send s i).dma = s.dma := rfl
@[simp] theorem send_pool (s : State) (i : TxItem) : (send s i).pool = s.pool := rfl
@[simp] theorem send_tilt (s : State) (i : TxItem) : (send s i).tilt = s.tilt := rfl
@[simp] theorem send_ctl (s : State) (i : TxItem) : (send s i).ctl = s.ctl := rfl
@[simp] theorem send_thm (s : State) (i : TxItem) : (send s i).thm = s.thm := rfl
@[simp] theorem send_drc (s : State) (i : TxItem) : (send s i).drc = s.drc := rfl
@[simp] theorem send_dram (s : State) (i : TxItem) : (send s i).dram = s.dram := rfl
@[simp] theorem send_lanes (s : State) (i : TxItem) : (send s i).lanes = s.lanes := rfl
@[simp] theorem send_host (s : State) (i : TxItem) : (send s i).host = s.host := rfl
@[simp] theorem send_ring (s : State) (i : TxItem) : (send s i).ring = s.ring := rfl
@[simp] theorem send_sec (s : State) (i : TxItem) : (send s i).sec = s.sec := rfl
@[simp] theorem send_com (s : State) (i : TxItem) : (send s i).com = s.com := rfl
@[simp] theorem send_sys (s : State) (i : TxItem) : (send s i).sys = s.sys := rfl

/-! ### Drawing an open value -/

@[simp] theorem openVal_pending (s : State) : ((openVal s).2).pending = s.pending := rfl
@[simp] theorem openVal_variantAN (s : State) : ((openVal s).2).variantAN = s.variantAN := rfl
@[simp] theorem openVal_tb (s : State) : ((openVal s).2).tb = s.tb := rfl
@[simp] theorem openVal_stepped (s : State) : ((openVal s).2).stepped = s.stepped := rfl
@[simp] theorem openVal_hwSet (s : State) : ((openVal s).2).hwSet = s.hwSet := rfl
@[simp] theorem openVal_evNow (s : State) : ((openVal s).2).evNow = s.evNow := rfl
@[simp] theorem openVal_regs (s : State) : ((openVal s).2).regs = s.regs := rfl
@[simp] theorem openVal_mem (s : State) : ((openVal s).2).mem = s.mem := rfl
@[simp] theorem openVal_poison (s : State) : ((openVal s).2).poison = s.poison := rfl
@[simp] theorem openVal_units (s : State) : ((openVal s).2).units = s.units := rfl
@[simp] theorem openVal_reinit (s : State) : ((openVal s).2).reinit = s.reinit := rfl
@[simp] theorem openVal_pins (s : State) : ((openVal s).2).pins = s.pins := rfl
@[simp] theorem openVal_tx (s : State) : ((openVal s).2).tx = s.tx := rfl
@[simp] theorem openVal_evt (s : State) : ((openVal s).2).evt = s.evt := rfl
@[simp] theorem openVal_fe (s : State) : ((openVal s).2).fe = s.fe := rfl
@[simp] theorem openVal_tdc (s : State) : ((openVal s).2).tdc = s.tdc := rfl
@[simp] theorem openVal_sht (s : State) : ((openVal s).2).sht = s.sht := rfl
@[simp] theorem openVal_gt (s : State) : ((openVal s).2).gt = s.gt := rfl
@[simp] theorem openVal_emg (s : State) : ((openVal s).2).emg = s.emg := rfl
@[simp] theorem openVal_ps (s : State) : ((openVal s).2).ps = s.ps := rfl
@[simp] theorem openVal_saf (s : State) : ((openVal s).2).saf = s.saf := rfl
@[simp] theorem openVal_dec (s : State) : ((openVal s).2).dec = s.dec := rfl
@[simp] theorem openVal_modOvl (s : State) : ((openVal s).2).modOvl = s.modOvl := rfl
@[simp] theorem openVal_hk (s : State) : ((openVal s).2).hk = s.hk := rfl
@[simp] theorem openVal_slq (s : State) : ((openVal s).2).slq = s.slq := rfl
@[simp] theorem openVal_dma (s : State) : ((openVal s).2).dma = s.dma := rfl
@[simp] theorem openVal_pool (s : State) : ((openVal s).2).pool = s.pool := rfl
@[simp] theorem openVal_tilt (s : State) : ((openVal s).2).tilt = s.tilt := rfl
@[simp] theorem openVal_ctl (s : State) : ((openVal s).2).ctl = s.ctl := rfl
@[simp] theorem openVal_thm (s : State) : ((openVal s).2).thm = s.thm := rfl
@[simp] theorem openVal_drc (s : State) : ((openVal s).2).drc = s.drc := rfl
@[simp] theorem openVal_dram (s : State) : ((openVal s).2).dram = s.dram := rfl
@[simp] theorem openVal_lanes (s : State) : ((openVal s).2).lanes = s.lanes := rfl
@[simp] theorem openVal_host (s : State) : ((openVal s).2).host = s.host := rfl
@[simp] theorem openVal_ring (s : State) : ((openVal s).2).ring = s.ring := rfl
@[simp] theorem openVal_sec (s : State) : ((openVal s).2).sec = s.sec := rfl
@[simp] theorem openVal_com (s : State) : ((openVal s).2).com = s.com := rfl
@[simp] theorem openVal_sys (s : State) : ((openVal s).2).sys = s.sys := rfl

/-! ### Ending a command -/

@[simp] theorem done_pending (s : State) : (done s).pending = s.pending := by simp only [done]
@[simp] theorem done_variantAN (s : State) : (done s).variantAN = s.variantAN := by simp only [done]
@[simp] theorem done_tb (s : State) : (done s).tb = s.tb := by simp only [done]
@[simp] theorem done_stepped (s : State) : (done s).stepped = s.stepped := by simp only [done]
@[simp] theorem done_hwSet (s : State) : (done s).hwSet = s.hwSet := by simp only [done]
@[simp] theorem done_evNow (s : State) : (done s).evNow = s.evNow := by simp only [done]
@[simp] theorem done_free (s : State) : (done s).free = s.free := by simp only [done]
@[simp] theorem done_regs (s : State) : (done s).regs = s.regs := by simp only [done]
@[simp] theorem done_mem (s : State) : (done s).mem = s.mem := by simp only [done]
@[simp] theorem done_poison (s : State) : (done s).poison = s.poison := by simp only [done]
@[simp] theorem done_reinit (s : State) : (done s).reinit = s.reinit := by simp only [done]
@[simp] theorem done_pins (s : State) : (done s).pins = s.pins := by simp only [done]
@[simp] theorem done_tx (s : State) : (done s).tx = s.tx := by simp only [done]
@[simp] theorem done_evt (s : State) : (done s).evt = s.evt := by simp only [done]
@[simp] theorem done_fe (s : State) : (done s).fe = s.fe := by simp only [done]
@[simp] theorem done_tdc (s : State) : (done s).tdc = s.tdc := by simp only [done]
@[simp] theorem done_sht (s : State) : (done s).sht = s.sht := by simp only [done]
@[simp] theorem done_gt (s : State) : (done s).gt = s.gt := by simp only [done]
@[simp] theorem done_emg (s : State) : (done s).emg = s.emg := by simp only [done]
@[simp] theorem done_ps (s : State) : (done s).ps = s.ps := by simp only [done]
@[simp] theorem done_saf (s : State) : (done s).saf = s.saf := by simp only [done]
@[simp] theorem done_dec (s : State) : (done s).dec = s.dec := by simp only [done]
@[simp] theorem done_modOvl (s : State) : (done s).modOvl = s.modOvl := by simp only [done]
@[simp] theorem done_hk (s : State) : (done s).hk = s.hk := by simp only [done]
@[simp] theorem done_slq (s : State) : (done s).slq = s.slq := by simp only [done]
@[simp] theorem done_dma (s : State) : (done s).dma = s.dma := by simp only [done]
@[simp] theorem done_pool (s : State) : (done s).pool = s.pool := by simp only [done]
@[simp] theorem done_tilt (s : State) : (done s).tilt = s.tilt := by simp only [done]
@[simp] theorem done_ctl (s : State) : (done s).ctl = s.ctl := by simp only [done]
@[simp] theorem done_thm (s : State) : (done s).thm = s.thm := by simp only [done]
@[simp] theorem done_drc (s : State) : (done s).drc = s.drc := by simp only [done]
@[simp] theorem done_dram (s : State) : (done s).dram = s.dram := by simp only [done]
@[simp] theorem done_lanes (s : State) : (done s).lanes = s.lanes := by simp only [done]
@[simp] theorem done_host (s : State) : (done s).host = s.host := by simp only [done]
@[simp] theorem done_ring (s : State) : (done s).ring = s.ring := by simp only [done]
@[simp] theorem done_sec (s : State) : (done s).sec = s.sec := by simp only [done]
@[simp] theorem done_com (s : State) : (done s).com = s.com := by simp only [done]
@[simp] theorem done_sys (s : State) : (done s).sys = s.sys := by simp only [done]

end Sys2Proof.Machine
end

