-- ==== Sys2Proof/Laws/Memory.lean ====
section
/-! SUPPORT. Memory: a read after a write, the bytes a store leaves as they were, and that every operation over memory keeps
its canonical form. -/

namespace Sys2Proof.Machine

/-! ### Reads after writes -/

theorem mget_mset (s : State) (a b : Nat) (v : Byte) : mget (mset s a v) b = if b = a then v else mget s b := by
  unfold mget mset
  simp only
  split
  · next h => subst h; exact tget_tput_same ..
  · next h => exact tget_tput_ne _ _ _ _ h

@[simp] theorem mget_mset_same (s : State) (a : Nat) (v : Byte) : mget (mset s a v) a = v := by rw [mget_mset, if_pos rfl]

theorem mget_mset_ne (s : State) {a b : Nat} (v : Byte) (h : b ≠ a) : mget (mset s a v) b = mget s b := by rw [mget_mset, if_neg h]

theorem mget_of_mem {s t : State} (h : t.mem = s.mem) (a : Nat) : mget t a = mget s a := by unfold mget; rw [h]

/-- A store changes no byte outside its own. -/
theorem mget_mputBytes_out (l : List Byte) : ∀ (s : State) (a b : Nat), b < a ∨ a + l.length ≤ b → mget (mputBytes s a l) b = mget s b := by
  induction l with
  | nil => intro s a b _; rfl
  | cons v l ih =>
    intro s a b h
    simp only [List.length_cons] at h
    rw [mputBytes, ih _ _ _ (by omega), mget_mset_ne _ _ (by omega)]

/-- A store leaves its bytes. -/
theorem mget_mputBytes_in (l : List Byte) : ∀ (s : State) (a i : Nat) (h : i < l.length), mget (mputBytes s a l) (a + i) = l[i] := by
  induction l with
  | nil => intro s a i h; simp at h
  | cons v l ih =>
    intro s a i h
    rw [mputBytes]
    cases i with
    | zero => rw [mget_mputBytes_out _ _ _ _ (by omega)]; simp
    | succ i =>
      have := ih (mset s a v) (a + 1) i (by simpa using h)
      rw [show a + (i + 1) = a + 1 + i by omega, this]; rfl

/-! ### Canonical form -/

theorem wf_mset {s : State} (a : Nat) (v : Byte) (h : Memory.wf s.mem = true) : Memory.wf (mset s a v).mem = true :=
  tput_canonical memDefault a v h

theorem wf_of_mem {s t : State} (e : t.mem = s.mem) (h : Memory.wf s.mem = true) : Memory.wf t.mem = true := by rw [e]; exact h

theorem wf_mputBytes (l : List Byte) : ∀ (s : State) (a : Nat), Memory.wf s.mem = true → Memory.wf (mputBytes s a l).mem = true := by
  induction l with
  | nil => intro s a h; exact h
  | cons v l ih => intro s a h; exact ih _ _ (wf_mset a v h)

theorem wf_mwr {s : State} (a n v : Nat) (h : Memory.wf s.mem = true) : Memory.wf (mwr s a n v).mem = true := wf_mputBytes _ _ _ h

theorem wf_mzero {s : State} (a n : Nat) (h : Memory.wf s.mem = true) : Memory.wf (mzero s a n).mem = true := filter_canonical memDefault _ h

theorem wf_filter {m : List Host.Cell} (q : Host.Cell → Bool) (h : Memory.wf m = true) : Memory.wf (m.filter q) = true :=
  filter_canonical memDefault q h

theorem wf_storeByte (keep : Nat → Bool) {s : State} (a : Nat) (v : Byte) (h : Memory.wf s.mem = true) :
    Memory.wf (storeByte keep s a v).mem = true := by
  unfold storeByte; split
  · exact wf_mset a v h
  · exact h

theorem wf_storeBytes (keep : Nat → Bool) (l : List Byte) :
    ∀ (s : State) (a : Nat), Memory.wf s.mem = true → Memory.wf (storeBytes keep s a l).mem = true := by
  induction l with
  | nil => intro s a h; exact h
  | cons v l ih => intro s a h; exact ih _ _ (wf_storeByte keep a v h)

/-- Raising an event changes no byte. -/
theorem raise_mem (s : State) {n : Nat} (hn : n < 640) : (raise s n).mem = s.mem := (raise_frame s hn).1 .mem (by decide)

theorem flagRaise_mem (s : State) (a : Nat) (f : Fld) {n : Nat} (hn : n < 640) : (flagRaise s a f n).mem = s.mem := by
  unfold flagRaise; rw [raise_mem _ hn]; unfold fon; split <;> rfl

theorem ueRecord_mem (s : State) (a : Nat) : (ueRecord s a).mem = s.mem := by
  unfold ueRecord
  split
  · next r h =>
    have hr : r < 4 := by
      unfold memRegion at h
      split at h <;> simp_all <;> omega
    rw [raise_mem _ (by omega)]
    unfold fon; split <;> rfl
  · unfold drcUe; dsimp only; rw [flagRaise_mem _ _ _ (by decide)]; rfl

theorem wprot_mem (s : State) : (wprot s).mem = s.mem := flagRaise_mem s _ _ (by decide)

/-- A request to the SDRAM changes no byte. -/
theorem drcUse_mem (s : State) (a n : Nat) (w : Bool) : (drcUse s a n w).mem = s.mem := by
  unfold drcUse; split <;> rfl

theorem drcUse_poison (s : State) (a n : Nat) (w : Bool) : (drcUse s a n w).poison = s.poison := by
  unfold drcUse; split <;> rfl

/-- Nothing below the SDRAM region is a request to it. -/
theorem drcUse_below {s : State} {a : Nat} (h : a < 0x1000000000) (n : Nat) (w : Bool) : drcUse s a n w = s := by
  unfold drcUse
  refine if_pos (Or.inr (Or.inl fun hr => ?_))
  unfold regionOf at hr
  split_ifs at hr
  all_goals simp_all
  all_goals omega

/-- A write by a master keeps the canonical form. -/
theorem wf_memWrite {s : State} (a : Nat) (l : List Byte) (sec : Bool) (h : Memory.wf s.mem = true) :
    Memory.wf (memWrite s a l sec).1.mem = true := by
  unfold memWrite
  split
  · exact h
  · have hs : ∀ (q : List Nat) k, Memory.wf (storeBytes k (drcUse { s with poison := q } a l.length true) a l).mem = true :=
      fun q k => wf_storeBytes k l _ _ (by rw [drcUse_mem]; exact h)
    dsimp only
    split
    · rw [ueRecord_mem]
      split
      · rw [wprot_mem]; exact hs _ _
      · exact hs _ _
    · split
      · rw [wprot_mem]; exact hs _ _
      · exact hs _ _

theorem decodeErr_mem (s : State) (a : Nat) (w : Bool) : (decodeErr s a w).mem = s.mem := by
  unfold decodeErr
  rw [raise_mem _ (by decide)]; rfl

/-- A store of a block keeps the canonical form. -/
theorem wf_blockWrite {s : State} (a : Nat) (l : List Byte) (h : Memory.wf s.mem = true) : Memory.wf (blockWrite s a l).mem = true := by
  unfold blockWrite
  split
  · rw [decodeErr_mem]; exact h
  · split
    · exact h
    · exact wf_mputBytes l _ _ (by rw [unpoison_mem, drcUse_mem]; exact h)

/-- A store into a table of the device's own keeps the canonical form. -/
theorem wf_clayStore {s : State} (a : Nat) (l : List Byte) (h : Memory.wf s.mem = true) : Memory.wf (clayStore s a l).mem = true := by
  unfold clayStore
  split
  · rw [decodeErr_mem]; exact h
  · exact wf_mputBytes l _ _ h

/-- A store into a buffer keeps the canonical form. -/
theorem wf_bufferWrite {s : State} (a : Nat) (l : List Byte) (h : Memory.wf s.mem = true) : Memory.wf (bufferWrite s a l).mem = true := by
  unfold bufferWrite
  split
  · rw [decodeErr_mem]; exact h
  · exact wf_memWrite a l false h

/-- The memory after reset is canonical. -/
theorem wf_reset : Memory.wf State.reset.mem = true := rfl

/-! ### Reads -/

/-- A read that meets corrected errors leaves the memories and their poison as they were. -/
theorem ceRead_same (s : State) (a n : Nat) : (ceRead s a n).mem = s.mem ∧ (ceRead s a n).poison = s.poison := by
  unfold ceRead
  split
  · exact ⟨rfl, rfl⟩
  · rename_i r hr
    have h4 : r < 4 := by unfold memRegion at hr; split at hr <;> simp_all <;> omega
    dsimp only
    unfold ceMeet
    split
    · exact ⟨rfl, rfl⟩
    · unfold flagRaise
      have h := raise_frame (fon (fadd (openVal s).2 (R.MEM_RCNT r) F.MEM_RCNT_CE_CNT
        ((openVal s).1.toNat % ((a + n - 1) / 8 - a / 8 + 2))) (R.MEM_RSTAT r) F.MEM_RSTAT_CE) (n := 432 + 3 * r) (by omega)
      exact ⟨(h.1 .mem (by decide)).trans rfl, (h.1 .poison (by decide)).trans rfl⟩

/-- A read of the control-core memory is clean while nothing is poisoned. -/
theorem memRead_clean {s : State} {a n : Nat} (ha : 0x10000000 ≤ a ∧ a < 0x10200000) (hp : s.poison = []) : (memRead s a n).2.2 = true := by
  have hr : ∀ t, regionOf t a = .sram := fun t => by unfold regionOf; rw [if_neg (by omega), if_pos ha]
  unfold memRead
  simp only [hr, firstPoison, drcUse_poison, (ceRead_same s a n).2, hp, List.find?_nil, reduceCtorEq, false_and, if_false]

/-! ### Reads of blocks -/

theorem mbytes_same {s t : State} (h : s.mem = t.mem) : ∀ n a, mbytes s a n = mbytes t a n
  | 0, _ => rfl
  | n + 1, a => by simp only [mbytes, mget, h, mbytes_same h n]

/-- A read of a block inside the clay memory gives its bytes. -/
theorem blockRead_clay (s : State) {a n : Nat} (h1 : 0x0100000000 ≤ a) (h2 : a + n ≤ 0x0100E00000) (hn : 0 < n) :
    (blockRead s a n).2 = mbytes s a n := by
  have hc : ∀ x, a ≤ x → x < a + n → regionOf s x = .clay := by
    intro x h h'
    unfold regionOf
    rw [if_neg (by omega), if_neg (by omega), if_pos (by omega)]
  have hf : ((List.range n).map (a + ·)).find? (fun x => decide (regionOf s x = .hole) || decide (regionOf s x = .regs)) = none := by
    rw [List.find?_eq_none]
    intro x hx
    obtain ⟨i, hi, rfl⟩ := List.mem_map.mp hx
    simp [hc (a + i) (by omega) (by have := List.mem_range.mp hi; omega)]
  have hm : (drcUse (ceRead s a n) a n false).mem = s.mem := by rw [drcUse_mem, (ceRead_same s a n).1]
  unfold blockRead
  simp only [hf]
  unfold memRead
  simp only [drcUse_below (s := ceRead s a n) (a := a) (by omega)] at hm ⊢
  rw [if_neg (by
    rintro ⟨h, -⟩
    have : regionOf (ceRead s a n) a = .clay := by
      unfold regionOf
      rw [if_neg (by omega), if_neg (by omega), if_pos (by omega)]
    rw [this] at h; cases h)]
  split <;> exact mbytes_same hm n a

theorem mbytes_range (s : State) : ∀ (n a : Nat), mbytes s a n = (List.range n).map (fun i => mget s (a + i))
  | 0, _ => rfl
  | n + 1, a => by
    rw [List.range_succ_eq_map, List.map_cons, List.map_map, mbytes, mbytes_range s n]
    simp [Function.comp_def, Nat.add_comm, Nat.add_left_comm]

end Sys2Proof.Machine
end

