-- ==== Sys2Proof/Laws/Signed.lean ====
section
/-! SUPPORT. Signed objects: a verdict depends on the bytes that are read, the anchor and ARC alone, and the derived keys do not enter
the verdict on an image. -/

namespace Sys2Proof.Machine

theorem listReader_getD (l : List Byte) (d : Byte) {o n : Nat} (h : o + n ≤ l.length) :
    (List.range n).map (fun i => l.getD (o + i) d) = listReader l o n := by
  apply List.ext_getElem
  · simp [listReader]; omega
  · intro i h1 h2
    simp at h1
    simp [listReader, List.getD_eq_getElem?_getD, List.getElem?_eq_getElem (show o + i < l.length by omega)]

/-- The verdict on a signed object depends on its bytes, the anchor and ARC alone. -/
theorem signedErr_readers {s t : State} {r q : Reader} {kind n len : Nat} (p : List Byte) (hr : ∀ o k, o + k ≤ len → r o k = q o k)
    (hl : n + 0xA0 + wordAt q (n + 4) ≤ len) (hc : ∀ l, chainEnds s kind l = chainEnds t kind l) (ha : arcOf s = arcOf t) :
    signedErr s kind r n p = signedErr t kind q n p := by
  have hw : ∀ o, o ≤ 0x9C → wordAt r (n + o) = wordAt q (n + o) := fun o h => by unfold wordAt; rw [hr _ _ (by omega)]
  have hch : chainAt r n = chainAt q n := by unfold chainAt; rw [hw 4 (by omega), hr _ _ hl]
  unfold signedErr
  simp only [svnAt, hc, ha, hch, hw 0 (by omega), hw 4 (by omega), hw 8 (by omega), hr 0 (n + 16) (by omega), hr (n + 0x10) 48 (by omega),
    hr (n + 0x40) 48 (by omega), hr (n + 0x70) 48 (by omega)]
  rfl

theorem chainEnds_same {s t : State} (h1 : s.sec.otpRoot = t.sec.otpRoot) (h2 : s.sec.owners = t.sec.owners)
    (h3 : s.sec.rootKey = t.sec.rootKey) (h4 : s.sec.anchors = t.sec.anchors) (kind : Nat) (l : List Cert) :
    chainEnds s kind l = chainEnds t kind l := by
  simp only [chainEnds, anchorDigest, anchorKey, h1, h2, h3, h4]
  rfl

theorem chainEnds_flash (s : State) (f : List (Nat × Byte)) :
    ∀ kind l, chainEnds { s with sec := { s.sec with flash := f } } kind l = chainEnds s kind l := chainEnds_same rfl rfl rfl rfl

theorem chainEnds_mem (s : State) (m : List Host.Cell) : ∀ kind l, chainEnds { s with mem := m } kind l = chainEnds s kind l :=
  chainEnds_same rfl rfl rfl rfl

theorem bankErr_derived (s : State) (k : Nat) (p : List Byte) : bankErr (deriveKeys s) k p = bankErr s k p := by
  have ha : arcOf (deriveKeys s) = arcOf s := by simp only [arcOf, fget, rd, deriveKeys]
  have hr : bankReader (deriveKeys s) k = bankReader s k := by
    funext o n
    unfold bankReader flashReader flashBytes
    exact List.map_congr_left (fun i _ => by simp only [flashGet, deriveKeys])
  have hc := chainEnds_same (s := deriveKeys s) (t := s) (by simp only [deriveKeys]) (by simp only [deriveKeys]) (by simp only [deriveKeys])
    (by simp only [deriveKeys]) 1
  unfold bankErr imageErr signedErr
  simp only [ha, hr, hc]

end Sys2Proof.Machine
end

