-- ==== Sys2Proof/WellFormed.lean ====
section
/-! DEFINITION. Commands that the outside can send: the relations between operands that their types leave open. -/

namespace Sys2Proof

/-- Order of an edge in 1/128 of a tick as the taps show it. -/
def TdcEdge.order (e : TdcEdge) : Nat := 128 * e.tick.toNat + e.tap.val

/-- A low pulse falls after it has risen (R38). -/
def PulseIn.wf (p : PulseIn) : Bool := match p.fall with | some f => decide (p.rise.order ≤ f.order) | none => true

/-- Counts of an interpolator: 128 taps, and the total they add up to (R71). -/
def FillCount.wf (c : FillCount) : Bool :=
  let sum := (c.taps.map BitVec.toNat).sum
  decide (c.taps.length = 128) &&
    (decide (sum = c.total.toNat) || (decide (sum ≤ c.total.toNat) && c.taps.contains 0xFFFF#16))

/-- A frame carries at most 520 whole words (R382). -/
def LaneFrame.wf (f : LaneFrame) : Bool := decide (f.body.length % 8 = 0) && decide (f.body.length ≤ 4160)

/-- Lane l exists on port p: 8 lanes on H, 4 on U and D (R374). -/
def laneExists (p : Fin 3) (l : Fin 8) : Bool := decide (p.val = 0) || decide (l.val < 4)

/-- Lanes of a port. -/
def lanesOf (p : Fin 3) : Nat := if p.val = 0 then 8 else 4

/-- Data of a management message over its path (R407). -/
def MgmtPath.fits (path : MgmtPath) (n : Nat) : Bool :=
  match path with | .lane _ => decide (n ≤ 4096) | .udp _ _ _ => decide (n ≤ 1024)

/-- Bytes from an address stay within the 40-bit address space (R8). -/
def inSpace (a n : Nat) : Bool := decide (1 ≤ n) && decide (a + n ≤ 2 ^ 40)

/-- Whether a command can be sent. -/
def Instr.wellFormed (c : Instr) : Bool :=
  match c with
  | .registerWrite _ a _ => decide (a.toNat % 4 = 0)
  | .pulseRecord _ p => p.wf
  | .calFillEnd u c => decide (c.length = if u.val < 64 then 32 else 16) && c.all FillCount.wf
  | .schedRowWrite _ o d => decide (1 ≤ d.length) && decide (o.val + d.length ≤ 128)
  | .thmCapture c => decide (c.length = 28)
  | .autocap c => decide (c.length = 28)
  | .recalDone c => decide (c.length = 8) && c.all (fun l => decide (l.length = 28))
  | .trackersSettled p l => decide (l.length = lanesOf p)
  | .wordLock p l => decide (l.length = lanesOf p)
  | .tapWrite p l _ => laneExists p l
  | .prbsCheckerSync p l => laneExists p l
  | .prbsBitError p l => laneExists p l
  | .laneFrameRx _ f _ => f.wf
  | .exportRx _ f _ => f.wf
  | .streamRx _ f => f.wf
  | .hostWrite _ _ _ d => decide (1 ≤ d.length) && decide (d.length ≤ 4096)
  | .mgmtWrite p _ d => p.fits d.length
  | .mgmtResponse _ m => decide (16 ≤ m.length)
  | .rpdoRx _ _ d _ => decide (d.length ≤ 64)
  | .attest n _ => decide (n.length = 32)
  | .bankWrite _ d => decide (1 ≤ d.length)
  | .kimageWrite _ a d => inSpace a.toNat d.length
  | _ => true

end Sys2Proof
end

