-- ==== Sys2Proof/Tests/Slice0.lean ====
section
/-! SUPPORT. Tests: terms that the well-formedness check refuses, single steps against the spec's worked figures, and for every
statement with hypotheses a state and operands that meet them. -/

namespace Sys2Proof.Tests

open Sys2Proof.Machine

set_option Elab.async false

/-! ### Builders -/

/-- The state after reset. -/
def z : State := State.reset
/-- The timebase at a tick. -/
def clk (n : Nat) (s : State) : State := { s with tb := BitVec.ofNat 64 n }
/-- The mode by its code. -/
def md (m : Nat) (s : State) : State := fset s R.SYS_MODE F.SYS_MODE_MODE m
/-- A lane port in a state. -/
def ln (p st : Nat) (s : State) : State := fset s (R.LN_STAT p) F.LN_STAT_STATE st
/-- Both seals open. -/
def openSeals (s : State) : State := { s with pins := { s.pins with sealA := true, sealB := true } }

def msg0 : ArmMsg where
  seq := 7
  row := 3
  idx := 0
  depth := 16
  frame := 0
  fire := 1000
  code := 0
  binw := 0
  winOfs := 0
  gate := 0
  trip2 := false
  prev := none
  safety := false
  emitter := 9
  scanner := 0
  withheld := false
  listen := [(0, 1)]

def win0 : Win where
  msg := msg0
  pending := false
  gainNew := false
  inject := false
  inj := (0, 0, false)
  pulses := []
  recs := []
  lastFall := none
  lastRise := 0
  dropped := 0
  clamped := false
  ofs := some 0
  subst := false
  gap := false
  decided := false
  never := false

def shot0 : Shot where
  msg := msg0
  bank := 1
  fired := false
  second := false
  edges := []
  waited := false
  fbTick := none
  ok := none
  ofs := none
  vpre := none
  vpost := none
  skip := false
  fbLost := false
  settled := false

def row0 : Row where
  num := 3
  valid := true
  trip2 := false
  gate := 0
  emitter := 9
  start := 0
  depth := 16
  period := 2500
  binw := 0
  winOfs := 0
  codeMask := 1
  jspan := 0
  listen := []
  places := []
  safety := false
  scanner := 0
  sliceId := 0

def slot0 : Slot where
  row := { row0 with start := 1000 }
  frame := 0
  frameTick := 0
  seq0 := 0
  next := 0
  prev := none
  refs := (none, none)
  resolved := 0

def slice0 : Slice where
  row := row0
  frame := 0
  frameTick := 0
  queue := 5
  stored := true
  ext := false
  place := 0
  ref := some (none, none)
  compl := []
  cover := []
  points := 0

def tick0 : Ticket where
  tile := 0
  ch := 0
  buf := 0
  sparse := true
  trip2 := false
  tripLost := false
  gen := 0
  row := 3
  frame := 0
  shots := 16
  sat := false
  biasMove := false
  subst := false
  conv := false
  totMean := 0
  full := 0
  bgBin := 0
  deadline := 5000
  stolen := false
  entry := 0
  slot := 0

def run0 : Run where
  tk := tick0
  buf := 0
  fetchAt := 0
  beats := 1
  fetched := true
  kstart := some 0
  chpar := 0
  chofs := 0
  count := 0
  kind := 0
  binw := 0
  winOfs := 0
  slot := none
  remote := none

def frame0 : LaneFrame where
  vc := 0
  type := 1
  seq := 0
  queue := 0
  last := false
  nak := false
  ackVc := 0
  ack := 0
  grant := 0
  grantVc := 0
  body := []

def hdr0 : MgmtHdr := ⟨false, 0, 0, 0x1018, 1, 0⟩

/-- A state with one shot. -/
def shooting (x : Shot) (s : State) : State := { s with sht := { s.sht with shots := [x] } }
/-- A state with a SEC command that runs. -/
def running (n : Nat) (s : State) : State := { s with sec := { s.sec with run := some (n, 0) } }

/-! ### Signed objects, made with OpenSSL -/

/-- A root certificate of P-384, self-signed, and one that it has issued, of a key that signs. -/
def rootCert : List Byte := beBytes 430 0x308201aa30820130a0030201020214337f67458ed6381dbb2c03bfabe69ace0c4b9047300a06082a8648ce3d040303300c310a300806035504030c0152301e170d3236313132383132303434355a170d3236313230373132303434355a300c310a300806035504030c01523076301006072a8648ce3d020106052b81040022036200042955e45e7db4d93b8673fb08e9a2d605de29cdcd6c46aaed2e9fc0da63bde7672327a86436e07407dff04a5e408c3b3a35e372f015ade8f18162cea069498fd07ac449976a58debc0c9c3afcf481645ed11753352799d437f8d8ab1a8da34438a3533051301d0603551d0e04160414f4a9164edcadfef0d85f94c68a0309b5c43309da301f0603551d23041830168014f4a9164edcadfef0d85f94c68a0309b5c43309da300f0603551d130101ff040530030101ff300a06082a8648ce3d040303036800306502302ce8d242d8577b45a75282296e7ba3e2da14268bcab3a2144da382399c50f1e40350e675cd53002af3f5fc5d584ec2ec023100cd2511a2ad75297336694567529deb3929b2f584c1604e47d82931cefb43a06a3dd3274de664b487aeacdce83a2fe5f2
def leafCert : List Byte := beBytes 405 0x3082019130820117a003020102020101300a06082a8648ce3d040303300c310a300806035504030c0152301e170d3236313132383132303434355a170d3236313230373132303434355a300c310a300806035504030c01533076301006072a8648ce3d020106052b8104002203620004107b00f23c2d06449a10fece2247b23c209e167be9bf2f1986d58430286254736fd90c0165528fee51163580b6b9cfc518ac1cb0ed8edb41db881d549493a103481ac6097c067f5d70a8cf71f53feac0eba8d5415d95088181caeb48416e689ba34d304b30090603551d1304023000301d0603551d0e041604146e2462892076f1fd673c738d463a41f0a6a0a94f301f0603551d23041830168014f4a9164edcadfef0d85f94c68a0309b5c43309da300a06082a8648ce3d040303036800306502310090b6a1da1a94dabe6f6c2edff066d3a4848fe97bec0dfdd5ae411e88b198863390eeadf3671452e47e646c616bdafba4023004658395a5b58c073cc8cf5c129befab3279054202ee8639dd2728bda078ec41112e14819750f7066049da96499272fd
def rootPub : List Byte := (rootCert.drop 130).take 97
/-- The private key of the issued certificate. -/
def leafKey : Nat := 0x610c4beb3d7b465099b027c1cc881df32da87dcd82983920c44c46937f8500db95ce72deb2de4204bbf95bb4601ea34f

/-- A body with its signature block and chain (R437): KIND, SVN and the signature. -/
def signed (kind svn sig : Nat) (body : List Byte) : List Byte :=
  let l := body ++ leBytes 4 (0x4B530001 + 0x100 * kind) ++ leBytes 4 405 ++ leBytes 4 svn ++ leBytes 4 0
  l ++ sha384 l ++ beBytes 96 sig ++ leafCert

/-- A header with the CRC of R154 and R440 at its end. -/
def withCrc (l : List Byte) : List Byte := l ++ leBytes 4 (crc32c l).toNat

/-- A firmware image of SVN 3 that is nothing but its header, a kernel set image, and a safety record of 64 zeros. -/
def image0 : List Byte := signed 1 3 0x2bfcddce972aa3b4eb33f1def291d44358016206742bcdce2671ebf5559cad53cd7807fdae3736e719c4821012247e9994c2300bf0ffd347d67c72a47322ecd4d1236c7a1f5bded145856ac51e4bdea217716111ce3a55d2d4fbe80626c5360a
  (withCrc (leBytes 4 0x30000 ++ leBytes 4 64 ++ List.replicate 52 0#8))
def kset0 : List Byte := signed 2 0 0xa993f0b5a95d3149b2464d859059a46aef61f962842271f296b87855aae5e30b0f827a01f2aa340e8479555e4e87e4ea45421db63d9bfb8b6431bc09fe65b97b5e4ec1305cf5b46de6f858445123cdd283f4c0979e6006ce91e573bbd3ebd2af
  (withCrc (leBytes 4 0x10000 ++ List.replicate 16 0#8 ++ leBytes 4 64 ++ List.replicate 36 0#8))
def record0 : List Byte := signed 3 0 0x27619a44d437929c7e6f6e18312a0d1b2651bed6aee6f5b030dbf2b6af710e69ce5dbeaef345020093f5961268da76c3558d4b9e1e868a725a91d599362d730b1a894c328b006e82ae49f50a488e1841e313ddb32a94405abcafc39689a78d8c (List.replicate 64 0#8)

/-- A device whose OTP holds the digest of that root. -/
def trusted (s : State) : State := { s with sec := { s.sec with rootKey := rootPub, otpRoot := sha384 rootPub } }

/-- Bytes as a table from an address; what an unlisted address reads as is left out. -/
def table (d : Byte) : Nat → List Byte → List (Nat × Byte)
  | _, [] => []
  | a, b :: l => if b = d then table d (a + 1) l else (a, b) :: table d (a + 1) l

theorem lookup_table_below (d : Byte) : ∀ (l : List Byte) {a b : Nat}, b < a → lookup (table d a l) b = none
  | [], _, _, _ => rfl
  | x :: l, a, b, h => by
    unfold table
    split
    · exact lookup_table_below d l (by omega)
    · rw [lookup, if_neg (by omega)]; exact lookup_table_below d l (by omega)

theorem tget_table (d : Byte) : ∀ (l : List Byte) (a i : Nat), tget d (table d a l) (a + i) = l.getD i d
  | [], _, _ => rfl
  | x :: l, a, 0 => by
    unfold table tget
    split
    · rw [lookup_table_below d l (by omega)]; simp [*]
    · simp [lookup]
  | x :: l, a, i + 1 => by
    have h := tget_table d l (a + 1) i
    rw [show a + 1 + i = a + (i + 1) from by omega] at h
    unfold tget at h ⊢
    unfold table
    split
    · simpa using h
    · rw [lookup, if_neg (by omega)]; simpa using h

/-- Bytes in the flash, and in memory. -/
def flashed (a : Nat) (l : List Byte) (s : State) : State := { s with sec := { s.sec with flash := table 0xFF#8 a l } }
def placed (a : Nat) (l : List Byte) (s : State) : State := { s with mem := table 0#8 a l }

theorem flashed_reader (a : Nat) (l : List Byte) (s : State) {o n : Nat} (h : o + n ≤ l.length) :
    flashReader (flashed a l s) a o n = listReader l o n := by
  rw [← listReader_getD l 0xFF#8 h]
  unfold flashReader flashBytes
  refine List.map_congr_left (fun i _ => ?_)
  rw [Nat.add_assoc]
  exact tget_table 0xFF#8 l a (o + i)

theorem placed_reader {a : Nat} (ha : 0x20000 ≤ a) (l : List Byte) (s : State) {o n : Nat} (h : o + n ≤ l.length) :
    mbytes (placed a l s) (a + o) n = listReader l o n := by
  rw [← listReader_getD l 0#8 h, mbytes_range]
  refine List.map_congr_left (fun i _ => ?_)
  rw [Nat.add_assoc]
  unfold mget memDefault
  rw [if_neg (by omega)]
  exact tget_table 0#8 l a (o + i)

theorem lookup_table_above (d : Byte) : ∀ (l : List Byte) {a b : Nat}, a + l.length ≤ b → lookup (table d a l) b = none
  | [], _, _, _ => rfl
  | x :: l, a, b, h => by
    rw [List.length_cons] at h
    unfold table
    split
    · exact lookup_table_above d l (by omega)
    · rw [lookup, if_neg (by omega)]; exact lookup_table_above d l (by omega)

theorem lookup_append_none : ∀ {l m : List (Nat × Byte)} {a : Nat}, lookup l a = none → lookup (l ++ m) a = lookup m a
  | [], _, _, _ => rfl
  | (k, v) :: l, m, a, h => by
    rw [lookup] at h
    split at h
    · cases h
    · rw [List.cons_append, lookup, if_neg (by assumption)]; exact lookup_append_none h

/-- FIPS 180-4, the example "abc". -/
theorem test_sha384 : sha384 [0x61#8, 0x62#8, 0x63#8] =
    beBytes 48 0xcb00753f45a35e8bb5a03d699ac65007272c32ab0eded1631a8b605a43ff5bed8086072ba1e7cc2358baeca134c825a7 := by decide +kernel

/-- RFC 4231, test case 1. -/
theorem test_hmac384 : hmac384 (List.replicate 20 0x0B#8) [0x48#8, 0x69#8, 0x20#8, 0x54#8, 0x68#8, 0x65#8, 0x72#8, 0x65#8] =
    beBytes 48 0xafd03944d84895626b0825f4ab46907f15f9dadbe4101ec682aa034c7cebc59cfaea9ea9076ede7f4af152e8b2fa9cb6 := by decide +kernel

/-- R438: the safety record signed under the root passes while no owner is enrolled, and not after. -/
theorem test_signed_record : signedErr (trusted z) 3 (listReader record0) 64 [3#8] = 0 ∧
    (let s : State := trusted z
     signedErr { s with sec := { s.sec with owners := [[]], anchors := [leafCert] } } 3 (listReader record0) 64 [3#8] = 3) := by decide +kernel

/-! ### Ill-formed commands, which the check refuses -/

theorem test_wf_unaligned_write : Instr.wellFormed (.registerWrite .core 0x0800000002 0) = false := by decide +kernel
theorem test_wf_pulse_falls_first :
    Instr.wellFormed (.pulseRecord 0 ⟨⟨10, 0⟩, some ⟨9, 0⟩, none, false⟩) = false := by decide +kernel
theorem test_wf_fill_without_counts : Instr.wellFormed (.calFillEnd 0 []) = false := by decide +kernel
theorem test_wf_row_beyond_end : Instr.wellFormed (.schedRowWrite 0 127 [0, 0]) = false := by decide +kernel
theorem test_wf_capture_short : Instr.wellFormed (.thmCapture [0]) = false := by decide +kernel
theorem test_wf_autocap_short : Instr.wellFormed (.autocap [0]) = false := by decide +kernel
theorem test_wf_recal_short : Instr.wellFormed (.recalDone []) = false := by decide +kernel
theorem test_wf_trackers_of_port_u : Instr.wellFormed (.trackersSettled 1 (List.replicate 8 0)) = false := by decide +kernel
theorem test_wf_word_lock_short : Instr.wellFormed (.wordLock 0 [0]) = false := by decide +kernel
theorem test_wf_tap_of_lane_4_on_d : Instr.wellFormed (.tapWrite 2 4 0) = false := by decide +kernel
theorem test_wf_sync_of_lane_4_on_u : Instr.wellFormed (.prbsCheckerSync 1 4) = false := by decide +kernel
theorem test_wf_error_of_lane_7_on_u : Instr.wellFormed (.prbsBitError 1 7) = false := by decide +kernel
theorem test_wf_half_word_frame : Instr.wellFormed (.laneFrameRx 0 { frame0 with body := [1] } true) = false := by decide +kernel
theorem test_wf_export_half_word : Instr.wellFormed (.exportRx 1 { frame0 with body := [1] } true) = false := by decide +kernel
theorem test_wf_stream_half_word : Instr.wellFormed (.streamRx 0 { frame0 with body := [1] }) = false := by decide +kernel
theorem test_wf_host_write_empty : Instr.wellFormed (.hostWrite true 0 0 []) = false := by decide +kernel
theorem test_wf_mgmt_write_long_udp :
    Instr.wellFormed (.mgmtWrite (.udp 0 0 0) hdr0 (List.replicate 1025 0)) = false := by decide +kernel
theorem test_wf_response_short : Instr.wellFormed (.mgmtResponse 0 []) = false := by decide +kernel
theorem test_wf_rpdo_long : Instr.wellFormed (.rpdoRx 0 0 (List.replicate 65 0) false) = false := by decide +kernel
theorem test_wf_nonce_short : Instr.wellFormed (.attest [0] false) = false := by decide +kernel
theorem test_wf_bank_write_empty : Instr.wellFormed (.bankWrite 0 []) = false := by decide +kernel
theorem test_wf_beyond_address_space :
    Instr.wellFormed (.kimageWrite .dma 0xFFFFFFFFFF [0, 0]) = false := by decide +kernel

/-! ### States that meet the statements' hypotheses -/

theorem wit_FrontEndSettings :
    (feOrderOk 0x8#32 = true ∧ feOrderOk 0x7#32 = false) ∧
    (firing z = false ∧ windowPending z 5 = false ∧ firing (md 4 z) = true) ∧
    ((feChan (modFe (clk 1250000 z) 5 (fun c => { c with stagedAt := some 0 })) 5).stagedAt = some 0 ∧ 0 + ticksMs 1 ≤ now (clk 1250000 z)) ∧
    flag (fon z (R.FE_TILE_CTRL 63) F.FE_TILE_CTRL_AUTOTRIM) (R.FE_TILE_CTRL 63) F.FE_TILE_CTRL_AUTOTRIM = true ∧
    fget (fset z (R.FE_MODE 0 5) F.FE_MODE_DCR_BW 0) (R.FE_MODE 0 5) F.FE_MODE_DCR_BW = 0 ∧
    (let s := fset z (R.FE_MODE 0 5) F.FE_MODE_DCR_BW 1
     fget s (R.FE_MODE 0 5) F.FE_MODE_DCR_BW ≠ 0 ∧ dcrHeld s 5 = false) ∧
    (let s := modFe (fon (fset (clk 100000 z) (R.FE_MODE 0 5) F.FE_MODE_DCR_BW 1) (R.FE_MODE 0 5) F.FE_MODE_DCR_HOLD) 5
        (fun c => { c with wins := [{ win0 with pending := true }], heldVal := some (7, true) })
     fget s (R.FE_MODE 0 5) F.FE_MODE_DCR_BW ≠ 0 ∧ dcrHeld s 5 = true ∧ (feChan s 5).heldFrom + ticksUs 10 ≤ now s ∧
       (feChan s 5).heldVal = some (7, true) ∧ windowPending s 5 = true ∧ now (clk 12499 s) < (feChan s 5).heldFrom + ticksUs 10) := by
  decide +kernel

theorem wit_PulsesAndBias :
    (let s := modFe (clk 100000 z) 5 (fun c => { c with wins := [{ win0 with pending := true }] })
     (feChan s 5).wins.find? (fun w => w.pending && decide (w.msg.seq = (7#48).toNat)) = some { win0 with pending := true } ∧
       winClose msg0 ≤ now s) ∧
    feState (fset z (R.FE_STAT 0 5) F.FE_STAT_STATE feActive) 5 = feActive ∧
    fget (fset z (R.FE_MODE 0 5) F.FE_MODE_DCR_BW 1) (R.FE_MODE 0 5) F.FE_MODE_DCR_BW ≠ 0 ∧
    feState (fset z (R.FE_STAT 0 5) F.FE_STAT_STATE feOverload) 5 = feOverload ∧
    fget z (R.BIAS_LIM 3) F.BIAS_LIM_MAX < (1#14).toNat ∧
    (biasZero (md 2 z) 3 = false ∧ fget (md 2 z) (R.BIAS_STAT 3) F.BIAS_STAT_OUT ≤ fget (md 2 z) (R.BIAS_LIM 3) F.BIAS_LIM_MAX) ∧
    (let s := modBias (fset z (R.BIAS_MON 3) F.BIAS_MON_HI 5) 3 (fun g => { g with hiRun := 2 })
     (biasGrp s 3).hiRun = 2 ∧ fget s (R.BIAS_MON 3) F.BIAS_MON_HI < (6#10).toNat) ∧
    (let s := modBias (clk 10 z) 3 (fun g => { g with holdEnd := some 10 })
     (biasGrp s 3).holdEnd = some 10 ∧ 10 ≤ now s ∧ feState (fset s (R.FE_STAT 12 0) F.FE_STAT_STATE feGated) (64 * 3) = feGated) := by
  decide +kernel

theorem wit_TimebaseAndClock :
    (let s := wr (md 2 z) R.TB_LOAD_LO 1#32
     rwmOk s = true ∧ ringFollower s = false ∧ s.tb.toNat + 1 ≤ (rd s R.TB_LOAD_HI).toNat * 2 ^ 32 + (rd s R.TB_LOAD_LO).toNat) ∧
    rwmOk (md 4 z) = false ∧
    (let s := wr (fon (md 2 z) R.TDC_CLK F.TDC_CLK_CUR_MODE) R.TB_LOAD_LO 2#32
     rwmOk s = true ∧ ringFollower s = false ∧ lowPower s = true ∧
       s.tb.toNat + 2 ≤ (rd s R.TB_LOAD_HI).toNat * 2 ^ 32 + (rd s R.TB_LOAD_LO).toNat) ∧
    (let s := fon (md 2 z) R.RING_CFG F.RING_CFG_RING_EN
     rwmOk s = true ∧ ringFollower s = true) ∧
    (tileRuns z 63 = true ∧ z.tb = 0#64 ∧ (1#64) ≠ z.tb) ∧
    (z.tdc.clk = .stable ∧ z.tdc.filling = false ∧ lowPower z = false) ∧
    ({ z with tdc := { z.tdc with filling := true } } : State).tdc.filling = true ∧
    (let s : State := { clk 125000 z with tdc := { z.tdc with clk := .relock } }
     s.tdc.clk = .relock ∧ s.tdc.relockAt + ticksUs 100 ≤ now s ∧ reqDiffers (fon s R.TDC_CLK F.TDC_CLK_REQ_MODE) = true) ∧
    64 ∉ z.tdc.unlocked := by decide +kernel

theorem wit_CalibrationFills :
    (let s := fon (fon (md 4 (clk 1000000000 z)) R.TDC_CTRL F.TDC_CTRL_ROLL_EN) R.TDC_CTRL F.TDC_CTRL_CAL_MODE
     modeOf s = .scan ∧ flag s R.TDC_CTRL F.TDC_CTRL_ROLL_EN = true ∧ flag s R.TDC_CTRL F.TDC_CTRL_CAL_MODE = true ∧
       s.tdc.filling = false ∧ s.tdc.clk = .stable ∧ bandOf s ≠ 5 ∧ s.tdc.lastFillEnd + ticksMs (fillPause s) ≤ now s) ∧
    (modeOf z ≠ .calibrate ∧ modeOf (md 3 z) = .calibrate ∧ bandOf (md 3 z) ≠ 5) ∧
    (let s : State := fset { clk 1000000000 z with tdc := { z.tdc with filling := true } } R.TDC_CAL_STAT F.TDC_CAL_STAT_FILL_UNIT 64
     s.tdc.filling = true ∧ s.tdc.fillAt + ticksMs (fillMs s) ≤ now s ∧ flag s R.TDC_CTRL F.TDC_CTRL_FILL_ALL = false ∧
       fget s R.TDC_CAL_STAT F.TDC_CAL_STAT_FILL_UNIT = 64 ∧ s.tdc.clk ≠ .waitFill) ∧
    (let s : State := { z with tdc := { z.tdc with newTabs := [(32 * 64 + 15, CalTab.none)] } }
     bankWaiting s 15 = [] ∧ lookup s.tdc.newTabs (32 * 64 + 15) = some CalTab.none) := by decide +kernel

theorem wit_AuxAndGate :
    auxSelected z 0 false = false ∧
    (let s := fset (fon z (R.AUX_CFG 0) F.AUX_CFG_EN) (R.AUX_CFG 0) F.AUX_CFG_EDGE 2
     (auxSelected s 0 true = true ∨ auxSelected s 0 false = true) ∧ flag s (R.AUX_CFG 0) F.AUX_CFG_EN = true ∧
       fget s (R.AUX_CFG 0) F.AUX_CFG_MODE = 0 ∧ fget s (R.AUX_CFG 0) F.AUX_CFG_PRESC = 0 ∧ (auxChan s 0).presc = 0 ∧
       (auxChan s 0).fifo.length < 16) ∧
    (let s := fset (fon (modAux (clk 2000000000 z) 5 (fun x => { x with lastEdge := some 0 })) (R.AUX_CFG 5) F.AUX_CFG_EN) (R.AUX_CFG 5) F.AUX_CFG_MODE 1
     (auxChan s 5).lastEdge = some 0 ∧ flag s (R.AUX_CFG 5) F.AUX_CFG_EN = true ∧ fget s (R.AUX_CFG 5) F.AUX_CFG_MODE = 1 ∧
       0 + ticksMs (max 1 (fget s (R.AUX_CFG 5) F.AUX_CFG_TIMEOUT)) ≤ now s) ∧
    (let s : State := { clk 100000 z with tdc := { z.tdc with gatePend := some (0, true) } }
     s.tdc.gatePend = some (0, true) ∧ 0 + gateFilt128 s ≤ 128 * now s ∧ s.tdc.gateRaw ≠ true) := by decide +kernel

theorem wit_ScheduleAndFrames :
    (flag z R.SHT_VAL F.SHT_VAL_BUSY = false ∧ flag (fon z R.SHT_VAL F.SHT_VAL_BUSY) R.SHT_VAL F.SHT_VAL_BUSY = true) ∧
    (let s : State := { z with sht := { z.sht with frozen := some (1, 0) } }
     s.sht.frozen = some (1, 0) ∧ validate s (1, 0) = some (1, 1)) ∧
    (modeOf (md 2 z) = .standby ∧ modeOf z ≠ .standby ∧ z.sht.seq < 2 ^ 48) ∧
    (modeOf (md 3 z) = .calibrate ∧ flag (md 3 z) R.SHT_CTRL F.SHT_CTRL_CAL_RUN = false) ∧
    (firstOutside z .host (rowAddr z 16383 + 127) 1 true = none ∧ regionOf z (rowAddr z 16383 + 127) ≠ .sdram ∧ z.poison = [] ∧
      clayProtected z (rowAddr z 16383 + 127) = false) ∧
    (let s := wr z R.SHT_TAB_BASE 0x03FF0000#32
     firstOutside s .host (rowAddr s 16383 + 127) 1 true = some (rowAddr s 16383 + 127)) ∧
    (let s : State := { z with sht := { z.sht with frozen := some (2, 1) } }
     (validate s (2, 1)).isSome = true ∧ ∀ r ∈ [1, 2], validate s (2, 1) ≠ some (2, r)) ∧
    (let s : State := { z with sht := { z.sht with pendRange := some (1, 2) } }
     s.sht.pendRange = some (1, 2) ∧ z.sht.pendRange = none) ∧
    (let s : State := { md 4 (clk 20000000 z) with sht := { z.sht with frameTick := some 0 } }
     frameSrc s = 0 ∧ firing s = true ∧ nextFrameAt s ≤ now s ∧ modeBusy s = false ∧ nextFrameAt { s with tb := 0 } > now { s with tb := 0 }) ∧
    (let s : State := { fset (md 4 (clk 1 z)) R.SHT_CTRL F.SHT_CTRL_FRAME_SRC 2 with sht := { z.sht with frameTick := some 0 } }
     frameSrc s = 2 ∧ firing s = true ∧ s.sht.frameTick = some 0 ∧ now s < 0 + frameLen s ∧
       ({ s with sht := z.sht } : State).sht.frameTick = none ∧ modeBusy s = false ∧ s.sht.markLost = false ∧
       s.sht.frameTick.getD s.sht.refTick + 2 * frameLen s ≤ now (clk 1000000000 s)) ∧
    (firing z = false ∧ fget z R.CAP_STAT F.CAP_STAT_STATE ≠ 1 ∧ ringTalks z = false) := by decide +kernel

theorem wit_ShotsAndCapture :
    (z.sht.nextRow = none ∧ firing z = false) ∧
    (let s : State := { md 4 z with sht := { z.sht with nextRow := some 0, frameTick := some 0 } }
     s.sht.nextRow = some 0 ∧ s.sht.frameTick = some 0 ∧ firing s = true ∧ s.sht.markLost = false ∧ s.tdc.frameHeld = false ∧ s.sht.slots.length < 64) ∧
    (let s := shooting shot0 (md 4 (clk 1000 z))
     shotOf s 7 = some shot0 ∧ shot0.fired = false ∧ shot0.msg.fire ≤ now s ∧ trigAllowed s (9 / 8) = true ∧ trigAllowed (md 2 s) (9 / 8) = false) ∧
    (let x := { shot0 with fired := true }
     let s := shooting x (clk 2000 z)
     shotOf s 7 = some x ∧ x.second = false ∧ x.msg.fire + codeTicks x.msg.code ≤ now s ∧ x.waited = false ∧
       waitEnd (clk 100000 s) x ≤ now (clk 100000 s) ∧ bankWaiting s 1 = [x] ∧ bankWaiting s 0 = []) ∧
    (64 ∈ ({ z with tdc := { z.tdc with unlocked := [64] } } : State).tdc.unlocked ∧ 64 ∉ z.tdc.unlocked) ∧
    (ringFollower (fon z R.RING_CFG F.RING_CFG_RING_EN) = true ∧ ringFollower z = false ∧ capState z = 0 ∧ 0 < (rd (wr z R.CAP_LEN 64#32) R.CAP_LEN).toNat) ∧
    (∀ k ∈ [1, 2, 3, 4], capState (fset z R.CAP_STAT F.CAP_STAT_STATE k) = k) ∧
    (z.sht.capEnd ≤ now z ∧ z.sht.capT + 16 * fget z R.CAP_WIN F.CAP_WIN_POST ≤ now (clk 1000000 z)) := by decide +kernel

/-- The state in which the first shot of `slot0` is due to be decided, and the plan that finds it: 400 ns before its fire time. -/
def arming : State := { md 4 (clk 500 z) with sht := { z.sht with slots := [(0, slot0)] } }

theorem arming_runs : firing arming = true ∧ arming.sht.markLost = false ∧ arming.tdc.frameHeld = false ∧ govTurn arming 4 = true ∧
    bankHalted arming 1 = false ∧ now arming = 500 ∧ tickStep arming = 1 ∧ now z = 0 := by
  refine ⟨?_, ?_, ?_, ?_, ?_, ?_, ?_, ?_⟩ <;> decide +kernel

theorem candOf_jittered (s : State) (k : Nat) (x : Slot) (h : x.row.jspan = 0) :
    (candOf s k x).jittered = x.frameTick + x.row.start + x.next * x.row.period := by
  show _ + jitterOf (drawOf s ((x.seq0 + x.next) % 2 ^ 48)) x.row.jspan = _
  rw [h]
  generalize drawOf s _ = u
  unfold jitterOf; omega

theorem candidates_one (s : State) (k : Nat) (x : Slot) (h : s.sht.slots = [(k, x)]) (hd : x.next < x.row.depth) :
    candidates s = [candOf s k x] := by
  unfold candidates
  rw [h]
  simp [hd, candInsert]

theorem planShots_one (s : State) (c : Cand) (hb : bankHalted s c.bank = false) :
    planShots s [c] [] [] = [⟨c, c.jittered, false⟩] := by
  have hp : postponed s c [] [] = c.jittered := by simp [postponed, lookup]
  simp only [planShots, hb, hp, Bool.false_eq_true, if_false]
  rw [if_neg (by omega)]

theorem wit_ShotsAndCapture_arm : ∃ p, firstDue (planShots arming (candidates arming) arming.sht.lastEmit arming.sht.lastBank) = some p ∧
    bankHalted arming p.c.bank = false ∧ p.due ≤ now arming ∧ now arming < p.due + tickStep arming ∧ p.congest = false ∧ now z < p.due := by
  obtain ⟨-, -, -, -, hb, hn, ht, hz⟩ := arming_runs
  have hj : (candOf arming 0 slot0).jittered = 1000 := by rw [candOf_jittered arming 0 slot0 rfl]; rfl
  have hd : Planned.due ⟨candOf arming 0 slot0, 1000, false⟩ = 500 := rfl
  refine ⟨⟨candOf arming 0 slot0, 1000, false⟩, ?_, hb, ?_, ?_, rfl, ?_⟩
  · rw [candidates_one arming 0 slot0 rfl (by decide), show arming.sht.lastEmit = [] from rfl, show arming.sht.lastBank = [] from rfl,
      planShots_one arming (candOf arming 0 slot0) hb, hj, firstDue, firstDue]
  all_goals rw [hd]; simp [hn, ht, hz]

/-- Memory bytes from an address. -/
def put (a : Nat) (l : List Byte) (s : State) : State := mputBytes s a l
/-- An engine in a state of ENG_STAT. -/
def en (e st : Nat) (s : State) : State := fset s (R.ENG_STAT e) F.ENG_STAT_STATE st
/-- Histogram buffer 0 of channel 21. -/
def buf (f : Hist → Hist) (s : State) : State := modBuf s 21 0 f
/-- The engine 33 with a run. -/
def runs (r : Run) (s : State) : State := modEng (en 33 2 s) 33 (fun x => { x with run := some r })

def echo0 : Echo where
  ch := 0
  row := 3
  frame := 0
  time := 1000
  trip := false
  intensity := 5
  width := 6
  sat := false
  biasMove := false
  subst := false
  summed := false
  pileup := false
  walkEst := false
  ecount := 1
  eidx := 0
  bg := 0
  walk := 0
  sumMiss := false
  more := false
  tmpl := 0
  shots := 16
  snr := 0
  tot := 0
  doneAt := 0
  cl := 0
  chofs := 0
  light := false

theorem wit_TileDecisions :
    (let s : State := { z with sht := { z.sht with armMsgs := [msg0] } }
     s.sht.armMsgs = msg0 :: [] ∧ 17 ∉ listenChans msg0.listen ∧ 0 ∈ listenChans msg0.listen ∧ tileRuns s 0 = true ∧ z.sht.armMsgs = []) ∧
    (let s := modBuf (modFe (md 4 z) 21 (fun c => { c with wins := [{ win0 with gainNew := true }] })) 21 0
        (fun h => { h with st := .filling, hr := { h.hr with row := 4, frame := 0 } })
     winOf s 21 7 = some { win0 with gainNew := true } ∧ assignedBuf s 21 3 0 = false) ∧
    fillingBuf (buf (fun h => { h with st := .filling, hr := { h.hr with row := 3 } }) z) 21 3 0 = some 0 ∧
    (∀ w, winOf z 21 7 = some w → w.pending = true ∨ w.ofs = none) ∧
    (let s := buf (fun h => { h with st := .filling, converting := true }) z
     ((gtChan s 21).buf 0).converting = true ∧ ((gtChan s 21).buf 0).st = .filling) ∧
    (∀ f : Fin 2, ((gtChan z 21).buf f).converting = false) := by decide +kernel

theorem wit_HistogramBuffers :
    (∀ b ∈ [true, false], let s := buf (fun h => { h with st := .filling, lost := b }) (clk 1000 z)
     histReady s 21 ((gtChan s 21).buf 0) = true ∧ ((gtChan s 21).buf 0).lost = b ∧ (postOf s 1).length < 31) ∧
    32 ≤ (postOf (setPost z 1 (List.replicate 32 tick0)) 1).length ∧
    (∀ f : Fin 2, histReady z 21 ((gtChan z 21).buf f) = false) ∧
    (∀ q ∈ [true, false], let s := buf (fun h => { h with st := .posted, deadline := 5, queued := q }) (clk 5 z)
      ((gtChan s 21).buf 0).st = .posted ∧ ((gtChan s 21).buf 0).deadline ≤ now s ∧ ((gtChan s 21).buf 0).queued = q) ∧
    (∀ hr ∈ [none, some (HistRow.init, HistSet.init)], let s := buf (fun h => { h with st := .clearing, clearAt := 5, nextRow := hr }) (clk 133 z)
      ((gtChan s 21).buf 0).st = .clearing ∧ ((gtChan s 21).buf 0).clearAt + 128 ≤ now s ∧ ((gtChan s 21).buf 0).nextRow = hr) ∧
    (let s := setPost (clk 16 z) 63 [tick0]
     postOf s 63 = tick0 :: [] ∧ tick0.entry + 16 ≤ now s ∧ (tqOf s (63 / 4)).length < 1024 ∧ qTurn s (63 / 4) (63 % 4) = true ∧
       now z < tick0.entry + 16) := by decide +kernel

theorem wit_TicketTakes :
    (let s := setTq (buf (fun h => { h with st := .posted }) (en 33 1 z)) 2 [{ tick0 with tile := 1, ch := 5 }]
     mayTake s 33 = true ∧ takeFrom s 2 (engState s 33 = engIdle) = some 2 ∧ qTurn s 2 (takeTurn 33 2) = true ∧ tqOf s 2 = { tick0 with tile := 1, ch := 5 } :: [] ∧
       firstPoison s (tqAddr s 2 0) 16 = none ∧ 0 < dlDiff s { tick0 with tile := 1, ch := 5 } ∧
       ((gtChan s 21).buf 0).st = .posted ∧ bufGen s 21 0 = 0) ∧
    dlDiff (clk 5000 z) tick0 ≤ 0 ∧ mayTake z 33 = false ∧
    (let s := setTq (fon (en 33 1 z) R.ENP_CTRL F.ENP_CTRL_STEAL_EN) 3 (List.replicate 16 tick0)
     stealing s 33 = true ∧ victimOf s 2 = some 3 ∧ qTurn s 3 21 = true ∧ stealGrant s 3 2 = true ∧ stealing z 33 = false) ∧
    (let s := setTq (fon (en 33 1 (en 65 1 z)) R.ENP_CTRL F.ENP_CTRL_STEAL_EN) 3 (List.replicate 16 tick0)
     victimOf s 4 = some 3 ∧ stealing s 65 = true ∧ stealGrant s 3 4 = decide (thiefRank 3 4 < thiefRank 3 2)) ∧
    (let s : State := { clk 40 z with pool := { z.pool with moves := [⟨33, 40, [tick0]⟩] } }
     s.pool.moves.find? (fun m => decide (m.eng = 33 ∧ m.due ≤ now s)) = some ⟨33, 40, [tick0]⟩ ∧ tget 0 s.pool.tqWr 2 < 1024) ∧
    (let r := { run0 with fetched := false, kstart := none }
     let s := runs r (clk 2 z)
     fetching (eng s 33) = some (r, false) ∧ r.fetchAt + 2 * r.beats ≤ now s ∧
       firstPoison s (areaAddr (16 * r.tk.tile + r.tk.ch) r.tk.buf) 64 = none) ∧
    (let r := { run0 with fetched := false, kstart := none }
     let s := modEng (runs run0 (clk 2 z)) 33 (fun x => { x with next := some r })
     fetching (eng s 33) = some (r, true)) ∧ fetching (eng z 33) = none := by decide +kernel

theorem wit_KernelRuns :
    (let s := runs run0 (clk 1000000 z)
     (eng s 33).run = some run0 ∧ run0.kstart = some 0 ∧ 0 + kernelCycles run0 ≤ now s ∧ 0 + kernelCycles run0 + 64 < now s ∧
       runOver s run0 0 = true) ∧
    (let s := runs run0 (clk (kernelCycles run0) z)
     (eng s 33).run = some run0 ∧ 0 + kernelCycles run0 ≤ now s ∧ runOver s run0 0 = false ∧ runPoison s 33 run0 = none ∧
       (runEchoes s 33 run0).length ≤ credits s 2 ∧ (∀ x, sliceOf s run0.tk.row run0.tk.frame = some x → x.stored = true) ∧
       (runPoison { s with poison := [0x030021C000] } 33 run0).isSome = true) ∧
    (eng z 33).run = none ∧
    (let s : State := { en 33 0 z with pool := { z.pool with src := [(0, 0x0100D00000)] } }
     engState s 33 = engLoad ∧ lookup s.pool.src (activeBank s) = some 0x0100D00000 ∧ swapState s = 0 ∧
       (∀ b ∈ neededBanks s, ∀ a, lookup s.pool.src b = some a → imgCrcOk s a = true) ∧
       0x0100D00000 + 0x10000 ≤ engAddr 33 ∧ imgCrcOk (put 0x0100D0001C [1#8] s) 0x0100D00000 = false) ∧
    (∀ r ∈ [true, false], (eng (modEng z 33 (fun x => { x with reinit := r })) 33).reinit = r) := by decide +kernel

theorem wit_SelfTestAndSwap :
    (engState (en 33 3 z) 33 = engDrain ∧ (eng (en 33 3 z) 33).run = none ∧ engState (en 33 4 z) 33 = engTest ∧ engState z 33 ≠ engTest) ∧
    (let s := en 33 4 z
     now s ≤ (eng s 33).testAt + stSlot s ∧ s.poison = [] ∧ firstPoison s (engAddr 33) 0x10000 = none ∧
       (firstPoison { s with poison := [engAddr 33 + 8] } (engAddr 33) 0x10000).isSome = true ∧ (eng s 33).testAt + stSlot s ≤ now (clk 10000000 s)) ∧
    (let a := 0x0100D00000
     let s := put (a + 0x3C) (leBytes 4 0x2179eeb6) (put a (leBytes 4 7 ++ leBytes 4 0x40) z)
     swapState s = 0 ∧ imgHdrOk s a = true ∧ imgHdrOk z a = false) ∧
    (rd (wr z R.ENP_KSRC_LO 0x00D00000#32) R.ENP_KSRC_LO).toNat + 1 * 2 ^ 32 = 0x0100D00000 ∧
    (∀ k ∈ [0, 1, 2, 3], swapState (fset z R.ENP_KSWAP F.ENP_KSWAP_STATE k) = k) ∧
    swapping z = false ∧ swapping (fset z R.ENP_KSWAP F.ENP_KSWAP_STATE 2) = true ∧
    (let s : State := { fset z R.ENP_KSWAP F.ENP_KSWAP_STATE 1 with pool := { z.pool with src := [(1, 0x0100D00000)] } }
     swapState s = 1 ∧ lookup s.pool.src (1 - activeBank s) = some 0x0100D00000 ∧
       (∀ e ∈ List.range 256, 1 - activeBank s ∈ (eng s e).banks ∨ (engState s e ≠ engIdle ∧ engState s e ≠ engBusy))) ∧
    firstPoison z 0x0100D00000 0x40 = none ∧
    z.pool.swapAt + ticksUs 200 ≤ now (clk 250000 z) ∧
    (∀ k ∈ poolTickets z, (k.frame + 2 ^ 16 - fget z R.ENP_KSWAP F.ENP_KSWAP_SWAP_FRAME) % 2 ^ 16 < 2 ^ 15) := by decide +kernel

theorem wit_PointsAndSlices :
    (let s : State := { z with ps := { z.ps with echoes := [echo0], slices := [slice0] } }
     firstReady z false = none ∧ firstReady z true = none ∧ firstReady s true = some (0, echo0) ∧
       firstReady ({ s with ps := { s.ps with slices := [] } } : State) false = some (0, echo0) ∧
       sliceOf s echo0.row echo0.frame = some slice0 ∧ slice0.refFor echo0 = some none) ∧
    (let x := { slice0 with ref := some (some 5, none) }
     let s : State := { z with ps := { z.ps with echoes := [echo0], slices := [x] } }
     firstReady s true = some (0, echo0) ∧ x.refFor echo0 = some (some 5)) ∧
    (let s : State := { clk 1000000000 z with ps := { z.ps with slices := [slice0] } }
     sliceOf s 3 (0#32).toNat = some slice0 ∧ sliceReady s slice0 = true ∧
       slice0.frameTick + rowEnd s slice0.row + ticksUs (100 * max 1 (fget s R.PS_CTRL F.PS_CTRL_SLICE_TO)) ≤ now s) ∧
    (∀ x, sliceOf z 3 0 = some x → sliceReady z x = false) ∧
    (let s : State := { clk 1000000000 z with ps := { z.ps with slots := [(0xFFFF, ⟨0, 0⟩)] } }
     lookup s.ps.slots (0xFFFF#16).toNat = some ⟨0, 0⟩ ∧ 0 + ticksUs (100 * max 1 (fget s R.PS_SUM F.PS_SUM_SUM_AGE)) ≤ now s) := by
  decide +kernel

theorem wit_TilthTable :
    (let s := fon z R.TT_CTRL F.TT_CTRL_EN
     flag s R.TT_CTRL F.TT_CTRL_EN = true ∧ flag s R.TT_STAT F.TT_STAT_CLR_BUSY = false ∧ firstPoison s (ttBase s) 256 = none) ∧
    (modeOf (md 4 z) = .scan ∧ modeOf z ≠ .scan ∧ 0x20000 ≤ ttBase (wr z R.TT_BASE_LO 0x02000000#32)) := by decide +kernel

theorem wit_SteeringAxes :
    (axBank z 3 = 0 ∧ axBank z 3 ≠ 1 ∧ coefReserved 0 = false) ∧
    (let s := fset (fset (modAxis z 3 (fun x => { x with base := 2047, len := 2 })) (R.AX_CFG 3) F.AX_CFG_TYPE 1) (R.SCN_STAT 1) F.SCN_STAT_STATE 3
     trjProtected s 3 2047 = true ∧ trjProtected s 3 0 = true ∧ trjProtected s 3 1 = false) ∧
    ((axis z 3).swap = none ∧ axType z 3 = 0 ∧ axType (fset z (R.AX_CFG 3) F.AX_CFG_TYPE 1) 3 ≠ 0 ∧
      (axis (modAxis z 3 (fun x => { x with swap := some true })) 3).swap.isSome = true) ∧
    ctlRuns z 3 = false ∧
    (let s := clk 1000000 (fset (fon z R.CTL_CTRL F.CTL_CTRL_EN) (R.AX_CFG 3) F.AX_CFG_TYPE 1)
     ctlRuns s 3 = true ∧ (axInstants s 3).2 ≠ 0 ∧ 2 ≤ (axInstants s 3).2 ∧ enginePick s = some (3 : Fin 4).val ∧ overloaded s = false ∧
       overloaded (fset s R.CTL_LOAD F.CTL_LOAD_LOAD 1025) = true ∧
       enginePick (fset s R.CTL_LOAD F.CTL_LOAD_LOAD 1025) = some (3 : Fin 4).val ∧ enginePick z = none) ∧
    (let s := fset (fset z (R.AX_CNT 3) F.AX_CNT_OVR_RUN 3) (R.SCN_STAT 1) F.SCN_STAT_STATE 3
     fget s (R.AX_CNT 3) F.AX_CNT_OVR_RUN = 3 ∧ scnMoving s 1 = true) := by decide +kernel

/-! ### A safety image that passes every check (R269, R278) -/

/-- A safety image with one set and no fields, its body CRC and its header CRC. -/
def imgOf (b h : Nat) : SafImage :=
  [(0, 1#8), (2, 2#8), (4, 0x40#8), (5, 0x67#8), (8, BitVec.ofNat 8 b), (9, BitVec.ofNat 8 (b / 256)),
   (10, BitVec.ofNat 8 (b / 256 / 256)), (11, BitVec.ofNat 8 (b / 256 / 256 / 256)), (0x3C, BitVec.ofNat 8 h),
   (0x3D, BitVec.ofNat 8 (h / 256)), (0x3E, BitVec.ofNat 8 (h / 256 / 256)), (0x3F, BitVec.ofNat 8 (h / 256 / 256 / 256)),
   (0x40, 1#8), (0x41, 2#8), (0x43, 2#8), (0x44, 1#8), (0x46, 0xE8#8), (0x47, 3#8), (0x48, 1#8), (0x4B, 1#8), (0x62, 4#8),
   (0x66, 4#8), (0x6A, 4#8), (0x6E, 4#8), (0x72, 4#8), (0x76, 4#8), (0x7A, 4#8), (0x7E, 4#8)]

theorem imgOf_rest (b h o n : Nat) (ho : 0x80 ≤ o) : imgBytes (imgOf b h) o n = List.replicate n 0#8 := by
  have : ∀ i, tget 0#8 (imgOf b h) (o + i) = 0#8 := by
    intro i
    simp only [imgOf, tget, lookup]
    repeat (rw [if_neg (by omega)])
    rfl
  simp [imgBytes, this]

theorem imgOf_word (b h o : Nat) (ho : 0x80 ≤ o) : imgW (imgOf b h) o = 0 := by
  simp only [imgW, imgOf_rest b h o 4 ho]; rfl

/-- Four bytes of a word read back. -/
theorem leWord (b : Nat) (hb : b < 2 ^ 32) : ofLeBytes [BitVec.ofNat 8 b, BitVec.ofNat 8 (b / 256),
    BitVec.ofNat 8 (b / 256 / 256), BitVec.ofNat 8 (b / 256 / 256 / 256)] = b := by
  simp only [ofLeBytes, BitVec.toNat_ofNat]; omega

/-- The body CRC, and the header CRC over it. -/
def bodyCrc : Nat := (crc32c (imgBytes (imgOf 0 0) 0x40 0x6700)).toNat
def hdrWord : Word := crc32c (imgBytes (imgOf bodyCrc 0) 0 0x3C)
def hdrCrc : Nat := hdrWord.toNat
def img : SafImage := imgOf bodyCrc hdrCrc

theorem imgOf_tail (b h i : Nat) : tget 0#8 (imgOf b h) (0x40 + i) = tget 0#8 ((imgOf 0 0).drop 12) (0x40 + i) := by
  simp only [imgOf, tget, lookup]
  repeat (rw [if_neg (show ¬ (_ : Nat) = 64 + i by omega)])
  rfl

theorem imgOf_body (b h : Nat) : imgBytes (imgOf b h) 0x40 0x6700 = imgBytes (imgOf 0 0) 0x40 0x6700 :=
  List.map_congr_left fun i _ => (imgOf_tail b h i).trans (imgOf_tail 0 0 i).symm

theorem imgOf_head (b h : Nat) : imgBytes (imgOf b h) 0 0x3C = imgBytes (imgOf b 0) 0 0x3C := by
  refine List.map_congr_left fun i hi => ?_
  have hi : i < 60 := List.mem_range.mp hi
  interval_cases i <;> rfl

theorem img_hdr : safHdrBad img = false := by
  have h1 : imgW img 0x3C = hdrCrc := leWord _ (BitVec.isLt _)
  have h2 : imgBytes img 0 0x3C = imgBytes (imgOf bodyCrc 0) 0 0x3C := imgOf_head _ _
  have h3 : imgF img 0 31 16 = 2 := by decide +kernel
  have h4 : imgW img 4 = safImageSize := by decide +kernel
  simp only [safHdrBad, h1, h2, h3, h4]
  simp [hdrCrc, hdrWord]

theorem img_body : safBodyBad img = false := by
  have h1 : imgW img 8 = bodyCrc := leWord _ (BitVec.isLt _)
  have h2 : imgBytes img 0x40 (safImageSize - 0x40) = imgBytes (imgOf 0 0) 0x40 0x6700 := imgOf_body _ _
  simp only [safBodyBad, h1, h2]
  simp [bodyCrc]

theorem imgOf_F (b h o hi lo : Nat) (ho : 0x80 ≤ o) : imgF (imgOf b h) o hi lo = 0 := by
  simp [imgF, imgOf_word b h o ho, bitsOf]

theorem field_far (i : Nat) : 0x80 ≤ fieldAt i := by simp only [fieldAt]; omega

theorem img_poly : safPolyBad img = false := by
  have h : ∀ i, fieldRole img i = 0 := fun i => imgOf_F _ _ _ _ _ (field_far i)
  simp [safPolyBad, h]

theorem img_small : (let m := img
    let out := fun (v lo hi : Nat) => decide (v < lo) || decide (hi < v)
    let used := fun (o bits : Nat) => ((BitVec.ofNat 32 (imgW m o)) &&& ~~~(BitVec.ofNat 32 bits)) != 0#32
    out (cfgNms m) 2 16 || out (cfgPers m) 0 8 || out (cfgXcLim m) 2 64 || out (cfgMinPts m) 1 16 ||
    out (cfgFrameMax m) 1000 50000 || out (cfgAgeB m) 1 1000 || out (cfgHitB m) 1 16 || out (cfgPbDr m) 1 1000 ||
    used 0x4C 0xC000FFFF || used 0x5C 0xFFFF || used 0x90 0x7777 ||
    (List.range 8).any (fun i => out (cfgDisc m i) 4 500 || out (cfgFilt m i) 0 20 || used (0x60 + 4 * i) 0xF1FF1F00) ||
    (List.range 2).any (fun p => used (0x80 + 4 * p) 0x8000FFFF)) = false := by decide +kernel

theorem img_range : safRangeBad img = false := by
  have hs := img_small
  have h0 : (imgBytes img 0x0C 0x30).any (fun b => b != 0#8) = false := by
    rw [List.any_eq_false]
    intro b hb
    obtain ⟨i, hi, rfl⟩ := List.mem_map.mp hb
    have hi : i < 48 := List.mem_range.mp hi
    interval_cases i <;> decide
  have hf : ∀ i, fieldRole img i = 0 := fun i => imgOf_F _ _ _ _ _ (field_far i)
  have hn : ∀ i, fieldNv img i = 0 := fun i => imgOf_F _ _ _ _ _ (field_far i)
  have hz : ∀ o n, 0x80 ≤ o → (imgBytes img o n).any (fun b => b != 0#8) = false := by
    intro o n ho
    rw [img, imgOf_rest _ _ o n ho]; simp
  have hw : ∀ o, 0x80 ≤ o → imgW img o = 0 := fun o ho => imgOf_word _ _ o ho
  have h2 : decide (imgF img 0 15 0 = 0) = false := by decide +kernel
  have h3 : (List.range 64).any (fun i =>
    ((BitVec.ofNat 32 (imgW img (fieldAt i))) &&& ~~~(BitVec.ofNat 32 0xC07F0000)) != 0#32 ||
    (imgBytes img (fieldAt i + 8) 8).any (fun b => b != 0#8) || (decide (fieldRole img i = 0) && decide (fieldNv img i ≠ 0)) ||
    (imgBytes img (fieldAt i + 0x10 + 4 * min 64 (fieldNv img i)) (4 * (64 - min 64 (fieldNv img i)))).any (fun b => b != 0#8)) = false := by
    rw [List.any_eq_false]
    intro i _
    have := field_far i
    simp [hw _ this, hn, hz (fieldAt i + 8) 8 (by omega), hz (fieldAt i + 16) 256 (by omega)]
  have h4 : (List.range 1024).any (fun n =>
    ((BitVec.ofNat 32 (imgW img (0x4740 + 8 * n))) &&& ~~~(BitVec.ofNat 32 0xFFFF)) != 0#32) = false := by
    rw [List.any_eq_false]
    intro i _
    simp [hw (0x4740 + 8 * i) (by omega)]
  have h5 := hz 0x94 0xAC (by omega)
  simp only [safRangeBad, h0, h2, h3, h4, h5, Bool.false_or, Bool.or_false]
  exact hs

/-- STANDBY with an image staged and a CRC expected. -/
def committingOf (w : Word) (m : SafImage) : State :=
  let s := wr (md 2 z) R.SAF_EXP_CRC w
  { s with saf := { s.saf with stage := m, commitAt := some 0, commitMode := true } }

theorem committingOf_crc (w : Word) (m : SafImage) : rd (committingOf w m) R.SAF_EXP_CRC = w :=
  (rd_wr_same (md 2 z) R.SAF_EXP_CRC w : _)

theorem committingOf_stage (w : Word) (m : SafImage) : (committingOf w m).saf.stage = m := rfl

/-- The state at the end of a commit of that image. -/
def committing : State := committingOf hdrWord img

theorem committing_img : stagedImage committing = img := by
  have h : img.all (fun p => decide (p.1 < safImageSize)) = true := by decide +kernel
  rw [stagedImage, committing, committingOf_stage, List.filter_eq_self]
  exact List.all_eq_true.mp h

theorem img_crc : imgW img 0x3C = hdrWord.toNat := leWord _ (BitVec.isLt _)

theorem committing_crc : (rd committing R.SAF_EXP_CRC).toNat = imgW img 0x3C := by
  rw [committing, committingOf_crc, img_crc]

theorem committing_bank : safBankBad committing img = false := by decide +kernel

/-- The commit of a good image (R269): every check passes. -/
theorem wit_SafetyInputsAndCommit_passes : committing.saf.commitAt = some 0 ∧ committing.saf.commitMode = true ∧
    safVerify committing (stagedImage committing) true false = 0 := by
  refine ⟨rfl, rfl, ?_⟩
  rw [committing_img]
  simp [safVerify, img_hdr, img_body, img_range, img_poly, committing_crc, committing_bank]

/-- A scanner in a state. -/
def sc (c st : Nat) (s : State) : State := fset s (R.SCN_STAT c) F.SCN_STAT_STATE st

theorem wit_Scanners :
    (let s := fset (fon (md 4 z) R.CTL_CTRL F.CTL_CTRL_EN) (R.AX_CFG (fastAxis z 1)) F.AX_CFG_TYPE 2
     (scnState s 1 = scnOff ∨ scnState s 1 = scnFault) ∧ flag s R.CTL_CTRL F.CTL_CTRL_EN = true ∧
       (modeOf s = .calibrate ∨ modeOf s = .scan ∨ modeOf s = .safeHold) ∧ axType s (fastAxis s 1) ≠ 0 ∧
       axType s (otherAxis (fastAxis s 1)) ≠ 2) ∧
    (scnMoving z 1 = false ∧ scnMoving (sc 1 3 z) 1 = true) ∧
    (∀ k ∈ [0, 4], let s := fset (sc 1 scnPark (clk 2000000000 z)) (R.SCN_STAT 1) F.SCN_STAT_CAUSE k
     scnState s 1 = scnPark ∧ (scanner s 1).parkAt + parkTicks s 1 ≤ now s ∧ fget s (R.SCN_STAT 1) F.SCN_STAT_CAUSE = k) ∧
    (let s := sc 1 scnSweep (clk 100000000000 z)
     (scnState s 1 = scnSweep ∨ scnState s 1 = scnRamp) ∧ (scanner s 1).startAt + startToTicks s 1 ≤ now s) := by decide +kernel

def resv0 : Resv := ⟨7, 1000, 9, [], 0, 0, 500⟩

theorem wit_PulseEnergy :
    (let s := shooting shot0 (clk 1000 z)
     shotOf s (7#48).toNat = some shot0 ∧ vPreAt shot0.msg.fire ≤ 128 * now s ∧ shot0.msg.withheld = false) ∧
    (let x := { shot0 with fbTick := some 128000 }
     let s := shooting x (clk 100000 z)
     shotOf s (7#48).toNat = some x ∧ vPostAt s x.bank 128000 ≤ 128 * now s) ∧
    (∀ x ∈ [{ shot0 with ok := some false }, { shot0 with ok := some true, skip := true },
        { shot0 with ok := some true, vpre := some 8000, vpost := some 0, fbTick := some 128000 }],
      let s : State := { shooting x (clk 100000 z) with emg := { z.emg with resv := [resv0] } }
      shotOf s (7#48).toNat = some x ∧ settleReady s x = true ∧ govTurn s 2 = true ∧
        (∀ y ∈ s.sht.shots, settleReady s y = true → x.msg.fire ≤ y.msg.fire) ∧
        s.emg.resv.find? (fun r => r.seq = (7#48).toNat) = some resv0) ∧
    (let s : State := { z with emg := { z.emg with act := [(R.BANK_SNS 1, 0xFFFFFFFF#32), (R.BANK_CAL 1, 0xFFFFFFFF#32)] } }
     e1Max s < eMeas s 1 8000 0) ∧
    (measPending z 1 = false ∧ govTurn z 3 = true ∧ measPending (shooting shot0 (clk 1000 z)) 1 = true ∧
      govTurn { z with emg := { z.emg with turn := (0, 4) } } 3 = false) ∧
    (let s : State := { z with emg := { z.emg with storeRun := [(1, 2)], act := [(R.BANK_SNS 1, 0xFFFFFFFF#32), (R.BANK_CAL 1, 0xFFFFFFFF#32)] } }
     measPending s 1 = false ∧ govTurn s 3 = true ∧ 2 ≤ tget 0 s.emg.storeRun 1 ∧
       sealFld s (R.BANK_CFG 1) F.BANK_CFG_ESTORE_MAX * 100 * (2 * vSqDen) <
         sealFld s (R.BANK_CAL 1) F.BANK_CAL_CRES * 25 * senseSq s 1 8000) := by decide +kernel

theorem wit_EmissionControl :
    (rwmOk (md 2 z) = true ∧ rwmOk (md 4 z) = false ∧ sealsOpen z = false ∧ sealsOpen (openSeals z) = true ∧
      modeOf (openSeals (md 2 z)) = .standby ∧ modeOf z ≠ .standby) ∧
    (govTurn z 3 = true ∧ govTurn { z with emg := { z.emg with turn := (0, 4) } } 3 = false) ∧
    (flag (fon z (R.SEC_STAT 1) F.SEC_STAT_STALL_INH) (R.SEC_STAT 1) F.SEC_STAT_STALL_INH = true ∧
      flag z (R.SEC_STAT 1) F.SEC_STAT_STALL_INH = false) := by decide +kernel

/-- STANDBY with open seals, where EXP_CRC is the CRC of the staged words plus d. -/
def expects (d : Word) : State := wr (openSeals (md 2 z)) R.EMG_EXP_CRC (stagedCrc (openSeals (md 2 z)) + d)

theorem stagedCrc_expects (s : State) (w : Word) : stagedCrc (wr s R.EMG_EXP_CRC w) = stagedCrc s := by
  have h : ∀ a ∈ sealedRegs, a ≠ R.EMG_EXP_CRC := by decide +kernel
  unfold stagedCrc
  generalize sealedRegs = l at h
  congr 1
  induction l with
  | nil => rfl
  | cons a l ih =>
    rw [List.flatMap_cons, List.flatMap_cons, ih fun x hx => h x (List.mem_cons_of_mem _ hx), rd_wr_ne s w (h a (List.mem_cons_self ..))]

theorem expects_staged (d : Word) : stagedCrc (expects d) = stagedCrc (openSeals (md 2 z)) := stagedCrc_expects _ _

theorem wit_EmissionControl_commit : (sealsOpen (expects 0) = true ∧ modeOf (expects 0) = .standby) ∧
    rd (expects 0) R.EMG_EXP_CRC = stagedCrc (expects 0) ∧ rd (expects 1) R.EMG_EXP_CRC ≠ stagedCrc (expects 1) := by
  refine ⟨⟨rfl, ?_⟩, ?_, ?_⟩
  · unfold modeOf fget expects; rw [rd_wr_ne _ _ (by decide)]; rfl
  · rw [expects_staged, expects, rd_wr_same]; simp
  · rw [expects_staged, expects, rd_wr_same]; simp

/-- An OSSD output that is on. -/
def onOut (o : Nat) (p : Option Nat) (s : State) : State := modOssd s o (fun x => { x with on := true, pulse := p })
/-- The island with an active configuration of one empty set. -/
def active (s : State) : State := { fon s R.SAF_STAT F.SAF_STAT_ACTIVE with saf := { s.saf with cfg := imgOf 0 0 ++ [(0x4C, 1)] } }

theorem wit_SafetyOutputs :
    (modeOf (md 4 z) = .scan ∧ z.sys.reset = none ∧ z.sys.orderly = none ∧ z.variantAN = false ∧ z.sys.held = none) ∧
    ({ z with variantAN := true } : State).variantAN = true ∧
    (modeOf (md 5 z) = .safeHold ∧ modeOf z ≠ .safeHold ∧ readbacksAgree (md 5 z) = true) ∧
    ((ossd (onOut 3 none z) 3).on = true ∧ (∀ k : Fin 4, (ossd (onOut 3 none z) k).pulse = none) ∧ (ossd z 3).on = false ∧
      pulseDue (onOut 3 none z) 3 = true ∧ pulseDue { z with saf := { z.saf with pulsePhase := some 1 } } 3 = false) ∧
    (let s := onOut 3 (some 0) (clk 1000000 z)
     (ossd s 3).pulse = some 0 ∧ 0 + ticksUs 200 ≤ now s ∧ readbackBad s 3 true = true ∧
       crossBad (onOut 0 none s) 0 false = true) ∧
    (∀ o : Fin 4, readbackBad z o false = false ∧ crossBad z o false = false) := by decide +kernel

theorem wit_SafetyOutputs_pair :
    (let s := active (md 4 (clk 1000000000 z))
     s.variantAN = false ∧ pairCond s 1 = true ∧ cfgManual s.saf.cfg 1 = false ∧ (safPair s 1).on = false ∧
      (safPair s 1).okSince.getD (now s) + ticksMs (cfgRstDly s.saf.cfg 1) ≤ now s ∧ (ossd s 1).pulse = none ∧ (ossd s 3).pulse = none) ∧
    pairCond z 1 = false := by decide +kernel

def sframe : SafFrame := ⟨0, 0, some 10, false, false, []⟩

theorem wit_SafetyInputsAndCommit :
    (safActive (active z) = true ∧ (safInput z 7).lvA = false ∧ xor (safInput z 7).lvB (cfgAnti z.saf.cfg 7) = false) ∧
    (let s := modInput (fset (active (clk 1000000000 z)) R.SAF_INSTATE F.SAF_INSTATE_STATE (2 * 4 ^ 7)) 7 (fun x => { x with discAt := some 0 })
     (safInput s 7).discAt = some 0 ∧ safActive s = true ∧ inState s 7 = 2 ∧ 0 + ticksMs (cfgDisc s.saf.cfg 7) ≤ now s) ∧
    (let s : State := { clk 700000000 z with saf := { z.saf with sealSince := some 0 } }
     s.saf.sealSince = some 0 ∧ s.variantAN = false ∧ 0 + ticksMs 500 < now s ∧ flag s R.SAF_STAT F.SAF_STAT_SEAL_DISC = false) ∧
    (let s : State := { clk 10000000 z with saf := { z.saf with frames := [sframe] } }
     s.saf.frames = sframe :: [] ∧ sframe.next = some 10 ∧ 10 + ticksUs 2800 ≤ now s ∧ now z < 10 + ticksUs 2800) ∧
    (let s := active (md 4 (clk 1000000000 z))
     safActive s = true ∧ modeOf s = .scan ∧ s.saf.maxAt + ticksUs (cfgFrameMax s.saf.cfg) < now s) ∧
    (sealsOpen z = false ∧ sealsOpen (openSeals z) = true ∧ (openSeals z).variantAN = false ∧
      flag (openSeals z) R.SAF_STAT F.SAF_STAT_CMT_BUSY = false) ∧
    (let s : State := { z with saf := { z.saf with commitAt := some 0 } }
     s.saf.commitAt = some 0 ∧ s.saf.commitMode = false ∧ (1 : Nat) ≠ 0) ∧
    safVerify z (stagedImage z) true false = 2 := by decide +kernel

theorem wit_HousekeepingSequencer :
    (z.hk.phase = .stopped ∧ ({ z with hk := { z.hk with phase := .ready } } : State).hk.phase ≠ .stopped) ∧
    (let s : State := { fon z (R.HKS_CFG 63) F.HKS_CFG_EN with hk := { z.hk with phase := .ready, next := 63 } }
     s.hk.phase = .ready ∧ s.hk.next = 63 ∧ hkDue s 63 = true ∧ srcNamed (getFld (hkCfgNow s 63) F.HKS_CFG_SRC) = true) ∧
    (∀ i : Fin 64, getFld (hkCfgNow z i) F.HKS_CFG_EN = 0) ∧
    (let s : State := { clk 6250 z with hk := { z.hk with phase := .atBreak } }
     s.hk.phase = .atBreak ∧ s.hk.conv.breakAt + ticksUs 5 ≤ now s) ∧
    (let s : State := { clk 6250 z with hk := { z.hk with phase := .made } }
     s.hk.phase = .made ∧ hkStartAt s.hk.conv ≤ now s) ∧
    (let s : State := { clk 6250 z with hk := { z.hk with phase := .integrating } }
     s.hk.phase = .integrating ∧ hkStartAt s.hk.conv + 2000 * s.hk.conv.t ≤ now s ∧ isCapture s.hk.conv.cfg = false) ∧
    (let s : State := { clk 1000000 z with hk := { z.hk with phase := .checking } }
     s.hk.phase = .checking ∧ hkEndAt s.hk.conv ≤ now s) ∧
    (lookup z.hk.res (63 : Fin 64) = none ∧
      lookup ({ z with hk := { z.hk with res := [(63, 5, 7)], latch := some 63 } } : State).hk.res (63 : Fin 64) = some (5, 7) ∧
      ({ z with hk := { z.hk with res := [(63, 5, 7)], latch := some 63 } } : State).hk.latch = some (63 : Fin 64).val) := by decide +kernel

theorem wit_DecimationChain :
    (getFld (0#32) F.DEC_CFG_EN = 0 ∧ getFld (0x80000000#32) F.DEC_CFG_EN = 1 ∧ flag z (R.DEC_CFG 7) F.DEC_CFG_EN = false ∧
      (0x80040000#32 &&& 0xFFFC0000#32 = rd (wr z (R.DEC_CFG 7) 0x80040000#32) (R.DEC_CFG 7))) ∧
    (let s := modDec (clk 10 z) 7 (fun x => { x with restarts := [(10, 5#32)] })
     (decChan s 7).restarts = (10, 5#32) :: [] ∧ 10 ≤ now s ∧ now z < 10) ∧
    (let s : State := { modDec (fon z (R.DEC_CFG 7) F.DEC_CFG_EN) 7 (fun x => { x with silent := false }) with modOvl := [0] }
     0 ∈ s.modOvl ∧ decRuns s 7 = true ∧ decSrc s 7 = 0 ∧ now s % decPeriod (decChan s 7).cfg = 0 ∧ ownCause s 7 = true) ∧
    (firstHole z (histAddr z 7 0) 16 = none ∧ regionOf z (histAddr z 7 0) ≠ .sdram) ∧
    (decRuns z 7 = false ∧ flag z (R.DEC_LIN 7) F.DEC_LIN_LIN_EN = false) := by decide +kernel

theorem wit_ThermalControl :
    (z.hk.phase = .stopped ∧ z.sys.held = none) ∧
    (let s : State := { clk 4000 z with hk := { z.hk with phase := .integrating, conv := { z.hk.conv with cfg := putFld 0 F.HKS_CFG_SRC 0x40, t := 1 } } }
     s.sys.held = none ∧ s.hk.phase ≠ .stopped ∧ isCapture s.hk.conv.cfg = true ∧ 0 < s.hk.conv.t ∧
       s.hk.conv.breakAt + 2000 * s.hk.conv.t ≤ now s ∧ s.thm.applied ≠ some s.hk.conv.breakAt) ∧
    (liveSensors z ≠ [] ∧ liveSensors (wr ((List.range 28).foldl (fun s i => fon s (R.THM_SENS i) F.THM_SENS_IGN) z) R.THM_IGN 0x0FFFFFFF#32) = []) ∧
    (z.thm.autoAt + ticksMs 1 ≤ now (clk 20000000 z) ∧ now z < z.thm.autoAt + ticksMs 1) ∧
    (let s : State := { clk 7 z with thm := { z.thm with holdEnd := some 7 } }
     s.thm.holdEnd = some 7 ∧ 7 ≤ now s) ∧
    ((modeOf z ≠ .standby ∧ modeOf z ≠ .calibrate) ∧ (modeOf (md 3 z) = .standby ∨ modeOf (md 3 z) = .calibrate) ∧ z.thm.recal = none) ∧
    (let s : State := { clk 10000000 z with thm := { z.thm with recal := some 0 } }
     s.thm.recal = some 0 ∧ 0 + ticksMs 8 ≤ now s) ∧
    (let s : State := { clk 2500000 z with sys := { z.sys with orderly := some 0 } }
     s.sys.orderly = some 0 ∧ s.sys.withdrawn = false ∧ 0 + ticksMs 2 ≤ now s ∧ s.variantAN = false) ∧
    (let s : State := { clk 60000000 z with sys := { z.sys with orderly := some 0, withdrawn := true } }
     s.sys.orderly = some 0 ∧ s.sys.withdrawn = true ∧ 0 + ticksMs 48 ≤ now s) ∧
    (z.sys.tripped = false ∧ ({ z with sys := { z.sys with tripped := true } } : State).sys.tripped = true) ∧
    (let s : State := { clk 1250000000 z with sys := { z.sys with held := some 0, tripped := true } }
     s.sys.held = some 0 ∧ s.sys.tripped = true ∧ 0 + ticksMs 1000 ≤ now s) := by decide +kernel

theorem wit_ScrubAndAllocation :
    (scrubOn z 3 = true ∧ (scrubOf z 3).1 < regionLines 3 ∧ ((1#8).getLsbD (0 : Fin 8) = true) ∧
      scrubOn (wr z (R.MEM_RCFG 3) 0#32) 3 = false) ∧
    (let s := clk 2000000000 z
     (scrubOf s 3).2 + ticksMs (10 * max 1 (fget s (R.MEM_RCFG 3) F.MEM_RCFG_PASS)) ≤ now s) ∧
    regionLines 3 ≤ (scrubOf ({ z with drc := { z.drc with scrub := [(3, regionLines 3, 0)] } } : State) 3).1 ∧
    (rwmOk (md 4 z) = false ∧ rwmOk (md 2 z) = true ∧ z.drc.cmAt = none) ∧
    ({ z with drc := { z.drc with cmAt := some 0 } } : State).drc.cmAt.isSome = true := by decide +kernel

/-- The SDRAM controller in a state. -/
def dr (st : Nat) (s : State) : State := fset s R.DRC_STAT F.DRC_STAT_STATE st

theorem wit_SdramInitialisation :
    (drcState z = drcOff ∧ flag (fon z R.DRC_GEOM F.DRC_GEOM_PRESENT) R.DRC_GEOM F.DRC_GEOM_PRESENT = true ∧
      drcState (dr drcSelfRef z) = drcSelfRef ∧ drcState (dr drcReady z) ≠ drcOff) ∧
    (∀ p ∈ [(drcReset, ticksUs 200), (drcCkeWait, ticksUs 500), (drcMrs, 0), (drcZqcl, 512 * drcRanks (drcWord z R.DRC_GEOM))],
      let s := dr p.1 (clk 1000000 z)
      drcState s = p.1 ∧ s.drc.since + p.2 ≤ now s) ∧
    (drcState (dr drcCheck z) = drcCheck ∧ drcState (dr drcTrain z) = drcTrain ∧
      ({ z with drc := { z.drc with kept := true } } : State).drc.kept = true) ∧
    (let s := dr drcReady (md 3 z)
     drcState s = drcReady ∧ modeOf s = .calibrate ∧ flag s R.SHT_CTRL F.SHT_CTRL_CAL_RUN = false) := by decide +kernel

theorem wit_SdramAlertsAndRefresh :
    (drcState (dr drcReady z) = drcReady ∧ z.drc.alertAt = none) ∧
    (let s : State := { dr drcReady (clk 10000 z) with drc := { z.drc with alertAt := some 0, replays := [(5, 3)] } }
     s.drc.alertAt = some 0 ∧ drcState s = drcReady ∧ 0 + ticksUs 1 < now s ∧ s.drc.alertAt.isSome = true ∧
       tget 0 s.drc.replays 4 < 3 ∧ 3 ≤ tget 0 s.drc.replays 5) ∧
    (let s : State := { clk 10 z with drc := { z.drc with refAt := [(0, 10), (1, 20)] } }
     lookup s.drc.refAt (0 : Fin 2) = some 10 ∧ 10 ≤ now s ∧ lookup s.drc.refAt (1 : Fin 2) = some 20 ∧ now s < 20 ∧
       lookup z.drc.refAt (0 : Fin 2) = none) ∧
    (pulled z = 0 ∧ pulled (fset z R.DRC_REF F.DRC_REF_PULLED 2) ≠ 0 ∧ owed (fset z R.DRC_REF F.DRC_REF_OWED 7) = 7) ∧
    (z.drc.force = 0 ∧ ({ z with drc := { z.drc with force := 1 } } : State).drc.force ≠ 0) ∧
    (drcState z ≠ drcReady ∧ fget (fset z R.DRC_CTRL F.DRC_CTRL_TSRC 0) R.DRC_CTRL F.DRC_CTRL_TSRC = 0 ∧ flag z R.DRC_STAT F.DRC_STAT_HOT = false) ∧
    (let s := fon (clk 2000000000 z) R.DRC_GEOM F.DRC_GEOM_PRESENT
     flag s R.DRC_GEOM F.DRC_GEOM_PRESENT = true ∧ s.drc.lost = false ∧ s.drc.reportAt.getD s.drc.since + ticksMs 1000 ≤ now s) := by
  decide +kernel

theorem wit_SdramRequests :
    (let s := fset (clk 1000000000 z) (R.DRC_PORT 5) F.DRC_PORT_LAT_TGT 1
     fget s (R.DRC_PORT 5) F.DRC_PORT_LAT_TGT ≠ 0 ∧ (0#64).toNat ≤ now s ∧ (5, (0#64).toNat) ∉ s.drc.crit ∧
       25 * fget s (R.DRC_PORT 5) F.DRC_PORT_LAT_TGT ≤ 2 * (now s - (0#64).toNat)) ∧
    (let s := dr drcReady (fset (fon z R.DRC_GEOM F.DRC_GEOM_PRESENT) R.DRC_GEOM F.DRC_GEOM_CAP 4)
     regionOf s 0x1000000000 = .sdram ∧ drcServes s = true ∧ s.dram.wq.length ≤ 64) ∧
    (regionOf z 0x1000000000 ≠ .sdram ∨ drcServes z = false) ∧
    (let s := dr drcReady (fon z R.DRC_PD F.DRC_PD_PD_EN)
     drcState s = drcReady ∧ flag s R.DRC_PD F.DRC_PD_PD_EN = true ∧ 0 < drcRanks (drcWord s R.DRC_GEOM)) ∧
    (drcState z ≠ drcReady ∧ flag (foff z R.DRC_PD F.DRC_PD_PD_EN) R.DRC_PD F.DRC_PD_PD_EN = false) := by decide +kernel

/-! ### DMA, lane ports and rings -/

/-- DMA channel 15 in execution. -/
def dm (st : Nat) (f : DmaChan → DmaChan) (s : State) : State := modDma (setDmaState s 15 st) 15 f
/-- A descriptor: source, destination, one row of a length, flags. -/
def desc (src dst len fl : Nat) : List Word :=
  [BitVec.ofNat 32 src, BitVec.ofNat 32 (src / 2 ^ 32), BitVec.ofNat 32 dst, BitVec.ofNat 32 (dst / 2 ^ 32), BitVec.ofNat 32 (len + 2 ^ 16),
   0#32, 0#32, BitVec.ofNat 32 fl]

theorem wit_DmaTransfers :
    (let s := wr (fset (fon z (R.DMA_CFG 15) F.DMA_CFG_EN) (R.DMA_CFG 15) F.DMA_CFG_RING_N 4) (R.DMA_RING_LO 15) 0x10000000#32
     flag s (R.DMA_CFG 15) F.DMA_CFG_EN = true ∧ dmaState s 15 = 0 ∧ fget s (R.DMA_HEAD 15) F.DMA_HEAD_HEAD ≠ (1#12).toNat ∧
       dmaDescAddr s 15 = 0x10000000 ∧ s.poison = []) ∧
    flag z (R.DMA_CFG 15) F.DMA_CFG_EN = false ∧
    (dmaDescBad z { DmaChan.init with desc := desc 0x10000000 0x10001000 16 0 } = false ∧
      dmaDescBad z { DmaChan.init with desc := desc 0x10000000 0x10001000 16 1 } = true) ∧
    (let s := dm 2 (fun x => { x with desc := desc 0x10000000 0x10001000 16 0 }) z
     dmaState s 15 = 2 ∧ (dmaChan s 15).moved < (dmaChan s 15).total ∧ (dmaChan s 15).outward = false ∧
       16 = min ((dmaChan s 15).rowLen - (dmaChan s 15).moved % (dmaChan s 15).rowLen) (64 - 0x10001000 % 64) ∧
       (dmaChan s 15).src (dmaChan s 15).moved = (0x10000000 : Int) ∧ (dmaChan s 15).dst (dmaChan s 15).moved = (0x10001000 : Int) ∧
       s.poison = [] ∧ regionOf s 0x10001000 = .sram ∧ firstPoison s 0x10001000 16 = none) ∧
    (let s := dm 2 (fun x => { x with desc := desc 0x20000000 0x10001000 16 0 }) z
     (dmaChan s 15).src (dmaChan s 15).moved = (0x20000000 : Int) ∧ regionOf s 0x20000000 = .hole) ∧
    (let s := dm 2 (fun x => { x with outs := [⟨240, 0, 16, 0⟩] }) z
     (dmaChan s 15).outs.find? (fun o => o.tag = (240#8).toNat) = some ⟨240, 0, 16, 0⟩ ∧ (240#8).toNat / 16 = 15) ∧
    (∀ o ∈ (dmaChan z 15).outs, o.tag ≠ (240#8).toNat) := by decide +kernel

/-- The reads of these transfers are clean. -/
theorem wit_DmaTransfers_read (s : State) (n : Nat) (hn : n ≤ 64) (hp : s.poison = []) : (dmaRead s ((0x10000000 : Nat) : Int) n).2.2 = true := by
  have hr : dmaReaches s ((0x10000000 : Nat) : Int) false = true := rfl
  have h : min n 64 = n := by omega
  show (if (dmaReadLine s _ (min n 64)).2.2 = false ∨ n = min n 64 then _ else _ : State × List Byte × Bool).2.2 = true
  rw [if_pos (.inr h.symm), dmaReadLine, if_pos hr]
  exact memRead_clean (by decide) hp

theorem wit_DmaTransfers_outward :
    (let s := dm 2 (fun x => { x with desc := desc 0x10000000 0x10001000 16 0x20000000 }) z
     dmaState s 15 = 2 ∧ (dmaChan s 15).moved < (dmaChan s 15).total ∧ (dmaChan s 15).outward = true ∧ dmaRoom s (dmaChan s 15) = true) := by
  decide +kernel

theorem wit_DmaCompletion :
    (let s := dm 2 (fun x => { x with desc := desc 0x10000000 0x10001000 16 0x80000000, moved := 16 }) z
     dmaState s 15 = 2 ∧ (dmaChan s 15).moved = (dmaChan s 15).total ∧ (dmaChan s 15).outs = [] ∧
       (bitOf ((dmaChan s 15).word 7) 30 = false ∨ (dmaChan s 15).trailer = true) ∧ (dmaChan s 15).writesBack = false ∧
       bitOf ((dmaChan s 15).word 7) 31 = true) ∧
    (let s := fset (fset (dm 2 (fun x => { x with desc := desc 0x10000000 0x10001000 16 0x40000000, moved := 16 }) z)
        (R.DMA_CFG 15) F.DMA_CFG_RING_N 4) (R.DMA_TAIL 15) F.DMA_TAIL_TAIL 1
     bitOf ((dmaChan s 15).word 7) 30 = true ∧ (dmaChan s 15).trailer = false ∧ (dmaChan s 15).writesBack = false ∧
       (dmaChan s 15).outward = false ∧ (dmaChan s 15).dst ((dmaChan s 15).total - 1) + 1 = (0x10001010 : Int) ∧
       regionOf s 0x10001010 = .sram ∧ firstPoison s 0x10001010 4 = none ∧
       fget s (R.DMA_HEAD 15) F.DMA_HEAD_HEAD + 1 = fget s (R.DMA_TAIL 15) F.DMA_TAIL_TAIL ∧
       fget s (R.DMA_TAIL 15) F.DMA_TAIL_TAIL < fget s (R.DMA_CFG 15) F.DMA_CFG_RING_N) ∧
    (flag (fon z (R.DMA_STAT 15) F.DMA_STAT_STOPPED) (R.DMA_STAT 15) F.DMA_STAT_STOPPED = true ∧
      flag z (R.DMA_STAT 15) F.DMA_STAT_STOPPED = false ∧ flag z (R.DMA_CFG 15) F.DMA_CFG_EN = false) := by decide +kernel

theorem wit_LaneTraining :
    (∀ k ∈ [lnDisabled, lnDetect, lnClock, lnLock, lnDeskew, lnParam, lnActive, lnStandby, lnDeep, lnPrbs], lnState (ln 2 k z) 2 = k) ∧
    ((lanePort z 2).check ≤ now z ∧ (lanePort z 2).paramAt ≤ now z ∧ (lanePort z 2).missed = false ∧ (lanePort z 2).deep = false) ∧
    (lanePort (modLane z 2 (fun x => { x with deep := true })) 2).deep = true ∧
    (paramBad 2 2 4 = true ∧ ∃ k < 16, paramBad 2 1 k = false) ∧
    (let s := ln 2 lnParam (clk 100000000 z)
     lnClock ≤ lnState s 2 ∧ lnState s 2 ≤ lnParam ∧ (lanePort s 2).since + trainLimit (lnState s 2) ≤ now s) := by decide +kernel

theorem wit_LaneDownAndLowPower :
    (let s := ln 2 lnActive z
     lnClock ≤ lnState s 2 ∧ lnState s 2 ≤ lnStandby ∧ lnState s 2 ≤ lnActive ∧ lnIdle s 2 = true ∧ refusesDeep s 2 = false) ∧
    refusesDeep (fset (ln 2 lnActive z) R.RING_STAT F.RING_STAT_RSTATE 2) 2 = true ∧
    (lnState z 2 < lnClock ∧ lnStandby < lnState (ln 2 lnPrbs z) 2) ∧
    (let s := ln 2 lnActive (modLane (clk 125000 z) 2 (fun x => { x with lp := some (1, 0, 0) }))
     (lanePort s 2).lp = some ((1#2).toNat, 0, 0) ∧ lnState s 2 = lnActive ∧ 0 + ticksUs 10 ≤ now s ∧ 0 + ticksUs 100 ≤ now s) := by
  decide +kernel

theorem wit_LanePatternsAndTaps :
    (lnState z 2 = lnDisabled ∧ lnState (ln 2 lnPrbs z) 2 = lnPrbs ∧ 3 < laneCount 2 ∧ laneCount 2 ≤ 7) ∧
    (flag (fon z (R.LN_PRBS 2 3) F.LN_PRBS_PLOCK) (R.LN_PRBS 2 3) F.LN_PRBS_PLOCK = true) ∧
    ((63#11).toNat < 64 ∧ 64 ≤ (64#11).toNat ∧ trackerRuns (ln 2 lnActive z) 2 = true ∧ trackerRuns z 2 = false) ∧
    (63 < getFld (0xFFFFFFFF#32) F.LN_TX_C_PRE + getFld (0xFFFFFFFF#32) F.LN_TX_C_MAIN + getFld (0xFFFFFFFF#32) F.LN_TX_C_POST) ∧
    (getFld (0#32) F.LN_TX_C_PRE + getFld (0#32) F.LN_TX_C_MAIN + getFld (0#32) F.LN_TX_C_POST ≤ 63) := by decide +kernel

/-- Virtual channel v of port 2. -/
def vcs (v : Nat) (f : Vc → Vc) (s : State) : State := modVc (ln 2 lnActive s) 2 v f

theorem wit_LaneSending :
    (let s := vcs 0 (fun x => { x with out := [frame0], credit := 1 }) z
     0 ∈ portVcs 2 ∧ lnState s 2 = lnActive ∧ (vcOf s 2 0).resend = 0 ∧ (vcOf s 2 0).out = frame0 :: [] ∧
       frameUnits frame0 ≤ (vcOf s 2 0).credit ∧ retryHeld s 2 < 64) ∧
    (vcOf z 2 0).credit < frameUnits frame0 ∧
    (let s := vcs 0 (fun x => { x with unacked := [frame0], resend := 1 }) z
     (vcOf s 2 0).resend ≠ 0 ∧ (vcOf s 2 0).unacked[(vcOf s 2 0).unacked.length - (vcOf s 2 0).resend]? = some frame0) ∧
    (let s := vcs 3 (fun x => { x with out := [frame0], credit := 1 }) z
     (vcOf s 2 3).out = frame0 :: [] ∧ laneUp s 2 = true ∧ laneUp z 2 = false ∧ frameUnits frame0 ≤ (vcOf s 2 3).credit) ∧
    (let s := vcs 0 (fun x => { x with ackDue := true }) (clk 10000000 z)
     (vcOf s 2 0).ackDue = true ∧ (lanePort s 2).lastAck + 125 * max 1 (fget s (R.LN_CFG 2) F.LN_CFG_ACK_DLY) ≤ now s) := by decide +kernel

theorem wit_LaneSending_stream :
    (let s := modQueue (fset (fon (modVc (ln 0 lnActive z) 0 2 (fun x => { x with credit := 100 })) (R.SLQ_CFG 255) F.SLQ_CFG_EN)
        (R.SLQ_CFG 255) F.SLQ_CFG_SINK 0) 255 (fun x => { x with units := [⟨none, true, List.replicate 16 0#8, [16], [(false, 0)], 0⟩] })
     lnState s 0 = lnActive ∧ slqHead (slqQueue s 255) = some (⟨none, true, List.replicate 16 0#8, [16], [(false, 0)], 0⟩, 0, 16, true) ∧
       sinkBad s (slqQueue s 255) ((slqQueue s 255).rd - 0) ⟨none, true, List.replicate 16 0#8, [16], [(false, 0)], 0⟩ 0 16 = none ∧
       (vcOf s 0 2).rewound = [] ∧ flag s (R.SLQ_CFG 255) F.SLQ_CFG_EN = true ∧
       sinkPort s 255 = (0 : Fin 3) ∧ (slqQueue s 255).marks.length < 32 ∧ ceilDiv (16 + ceilDiv 16 8 * 8) 64 ≤ (vcOf s 0 2).credit) := by
  decide +kernel

theorem wit_LaneReceiving :
    (let s := ln 2 lnActive z
     laneUp s 2 = true ∧ frame0.vc ≠ 3 ∧ frame0.vc.val ∈ portVcs 2 ∧ unsequenced { frame0 with type := 3 } = false ∧
       unsequenced { frame0 with type := 0 } = true ∧ frame0.seq.toNat = ((vcOf s 2 0).rx + 1) % 4096 ∧
       ({ frame0 with seq := 5 } : LaneFrame).seq.toNat ≠ ((vcOf s 2 0).rx + 1) % 4096) ∧
    (let s := vcs 0 (fun x => { x with unacked := [frame0] }) (clk 100000000 z)
     (vcOf s 2 0).unacked.findIdx? (fun f => f.seq.toNat = (0#12).toNat) = some 0 ∧
       (vcOf s 2 0).unacked.findIdx? (fun f => f.seq.toNat = (9#12).toNat) = none ∧
       (vcOf s 2 0).replays < max 1 (fget s (R.LN_CFG 2) F.LN_CFG_REPLAY_MAX) ∧ (vcOf s 2 0).unacked ≠ [] ∧
       (vcOf s 2 0).sentAt + ticksUs (max 1 (fget s (R.LN_CFG 2) F.LN_CFG_REPLAY_TO)) ≤ now s) ∧
    (let s := vcs 0 (fun x => { x with replays := 1000 }) z
     max 1 (fget s (R.LN_CFG 2) F.LN_CFG_REPLAY_MAX) ≤ (vcOf s 2 0).replays) ∧
    (let s := fon (fon (ln 2 lnActive z) (R.SLQ_CFG 0) F.SLQ_CFG_EN) (R.SLQ_CFG 0) F.SLQ_CFG_SRC
     streamQueue s frame0.queue.toNat = true ∧ streamQueue z 0 = false ∧ (lanePort s 2).held = [] ∧ (streamTake s 2 frame0).2 = true) ∧
    (lanePort (modLane z 2 (fun x => { x with held := [frame0] })) 2).held = frame0 :: [] := by decide +kernel

theorem wit_HostAccesses :
    (let s := wr (wr (ln 0 lnActive z) R.HWIN1_BASE_HI 0#32) R.HWIN1_BASE_LO 0x10000000#32
     hostServed s = true ∧ hostServed z = false ∧ ([1#8] : List Byte) ≠ [] ∧ inRecovery s = false ∧ 0x10000000 ≤ winAddr s true 8 ∧
       winAddr s true 8 + 4096 ≤ 0x10200000 ∧ poisoned s (winAddr s true 8) 4096 = false ∧ readsOut s < 64 ∧ s.host.held = []) ∧
    ((4#32).toNat % 4 = 0 ∧ (4#32).toNat < 0x1000000 ∧ (regDesc (0x0800000000 + (4#32).toNat)).isSome = true) ∧
    (let s := wr (wr (ln 0 lnActive z) R.HWIN1_BASE_HI 0#32) R.HWIN1_BASE_LO 0x20000000#32
     regionOf s (winAddr s true 0) = .hole) ∧
    (let s : State := { z with host := { z.host with cpls := [⟨true, 5, 0, [1#8]⟩] } }
     s.host.cpls = ⟨true, 5, 0, [1#8]⟩ :: [] ∧ s.host.held = []) := by decide +kernel

/-- A ring member at a position, with RSTATE. -/
def ring (pos : Option Nat) (st : Nat) (s : State) : State :=
  { fset (fon s R.RING_CFG F.RING_CFG_RING_EN) R.RING_STAT F.RING_STAT_RSTATE st with ring := { s.ring with pos := pos } }

theorem wit_RingFormationAndExports :
    (let s := ln 1 lnActive (ln 2 lnActive (fon (ring (some 0) 0 z) R.RING_STAT F.RING_STAT_MASTER))
     (ringMaster s && portsActive s && decide (rstate s = 0)) = true) ∧
    (let s := fset (ln 1 lnActive (ln 2 lnActive (fon (ring (some 0) 4 (clk 2000000000 z)) R.RING_STAT F.RING_STAT_MASTER))) R.RING_STAT F.RING_STAT_ERR 1
     (ringMaster s && portsActive s && decide (rstate s = 4) && decide (fget s R.RING_STAT F.RING_STAT_ERR = 1) &&
       decide (s.ring.enumAt + ticksMs 1000 ≤ now s)) = true) ∧
    (let s := ring none 0 z
     standalone s = false ∧ ringMaster s = false ∧ s.ring.seen.head? ≠ some (0, 0) ∧ standalone z = true) ∧
    (let s := fon (ring (some 0) 1 (clk 200000000 z)) R.RING_STAT F.RING_STAT_MASTER
     ringMaster s = true ∧ rstate s = 1 ∧ (0#8).toNat = s.ring.enumSeq ∧ (1#8).toNat ≠ s.ring.enumSeq ∧
       (0#11).toNat = fget s R.RING_CFG F.RING_CFG_RING_ID ∧ s.ring.enumAt + ticksMs 100 ≤ now s) ∧
    (let s := fset (fset (ln 2 lnActive (ln 1 lnActive (ring (some 0) 2 z))) R.PS_SUM F.PS_SUM_SUM_SLOTS 4) R.PS_SUM_BASE_HI F.PS_SUM_BASE_HI_ADDR 1
     firstHole s (sumAddr s (sumSlotFor s).1) 64 = none ∧ regionOf s (sumAddr s (sumSlotFor s).1) ≠ .sdram ∧ passing s 2 = false ∧
       laneUp s 2 = true ∧ ringRanked s = true ∧ s.ring.pos = some (frame0.queue.toNat % 32) ∧ fget s R.PS_SUM F.PS_SUM_SUM_SLOTS ≠ 0 ∧
       s.ring.pos ≠ some (({ frame0 with queue := 1 } : LaneFrame).queue.toNat % 32) ∧ laneUp s (3 - 2) = true ∧ laneUp z (3 - 2) = false) ∧
    (let s := modLane z 2 (fun x => { x with vcs := [(0, { (vcOf z 2 0) with unacked := [frame0] })] })
     (vcOf s 2 0).unacked.findIdx? (fun g => g.seq.toNat = frame0.ack.toNat) = some 0) ∧
    (let s := ring none 0 z
     passing { s with pins := { s.pins with bypHold := true } } 2 = true) := by
  refine ⟨?_, ?_, ?_, ?_, ?_, ?_, ?_⟩ <;> decide +kernel

theorem wit_RingBroadcasts_join :
    (let s := modLane (modLane (ring (some 3) 0 z) 1 (fun x => { x with partner := some (1, 2, false) })) 2
        (fun x => { x with partner := some (1, 4, true) })
     bitOf (7#32).toNat (s.ring.pos.getD 0) = false ∧ joinFits s (8#6).toNat = true ∧ rstate s = 0) ∧
    (let s := modLane (modLane (ring (some 3) 0 z) 1 (fun x => { x with partner := some (1, 4, false) })) 2
        (fun x => { x with partner := some (1, 6, true) })
     bitOf (7#32).toNat (s.ring.pos.getD 0) = false ∧ joinFits s (8#6).toNat = false) := by decide +kernel

theorem wit_RingBroadcasts :
    (ringRanked z = false ∧ ringRanked (ring (some 3) 2 z) = true ∧ (ring (some 3) 2 z).ring.pos ≠ some (5 : Fin 32).val ∧
      ((5 : Fin 32).val, (9#8).toNat) ∉ (ring (some 3) 2 z).ring.seen ∧ (ring (some 3) 2 z).ring.pos = some (3 : Fin 32).val) ∧
    (∀ k ∈ [0, 1, 2, 3], rstate (ring (some 3) k z) = k) ∧
    (bitOf (8#32).toNat ((ring (some 3) 0 z).ring.pos.getD 0) = true ∧ bitOf (7#32).toNat ((ring (some 3) 0 z).ring.pos.getD 0) = false) ∧
    ((1, 2) ∉ z.ring.breaks ∧ ({ z with ring := { z.ring with breaks := [(1, 2)] } } : State).ring.breaks = [(1, 2)]) ∧
    (frameSrc (fset z R.SHT_CTRL F.SHT_CTRL_FRAME_SRC 3) = 3 ∧ frameSrc z ≠ 3 ∧ now z ≤ (5#64).toNat + fget z R.RING_CFG F.RING_CFG_FS_LEAD ∧
      (5#64).toNat + fget z R.RING_CFG F.RING_CFG_FS_LEAD < now (clk 2000000000 z)) ∧
    (capState z = 0 ∧ 0 < (rd (wr z R.CAP_LEN 64#32) R.CAP_LEN).toNat) := by decide +kernel

theorem wit_RingTime :
    (let s : State := ln 2 lnActive (ring (some 3) 2 (clk 10000000 z))
     let s : State := { s with ring := { s.ring with refSel := 2, t1 := some 5, steps := 1 } }
     ringFollower s = true ∧ s.ring.refSel ≠ 0 ∧ laneUp s s.ring.refSel = true ∧ s.ring.reqAt + ticksUs 100 ≤ now s ∧
       standalone s = false ∧ s.ring.t1 = some 5 ∧ (0#8).toNat = s.ring.number ∧ flag s R.CLK_STAT F.CLK_STAT_HOLDOVER = false ∧
       s.ring.n < 63 ∧ s.ring.steps ≠ 0 ∧ s.ring.stepAt + ticksUs 10 ≤ now s) ∧
    (63 ≤ ({ z with ring := { z.ring with n := 63, good := 2 } } : State).ring.n ∧ (0 : Int).natAbs ≤ 64 * 400 ∧
      64 * 12800 < (-64 * 6400 * 3 : Int).natAbs ∧ (-64 * 6400 * 3 : Int) < 0 ∧ 64 * 12800 < (64 * 6400 * 3 : Int).natAbs) ∧
    (let s := fon (fon (modLane (ring (some 3) 2 z) 2 (fun x => { x with partner := some (1, 0, true) })) R.CLK_STAT F.CLK_STAT_HOLDOVER)
        R.CLK_STAT (refOkFld 2)
     true = (lanePort s 2).partner.elim false (·.2.2) ∧ ringFollower s = true ∧ flag s R.CLK_STAT F.CLK_STAT_HOLDOVER = true ∧
       refMayChange s = true ∧ s.ring.refSel ≠ 2 ∧ flag s R.CLK_STAT (refOkFld 2) = true) ∧
    (standalone z = true ∧ z.ring.steps = 0 ∧ ringFollower z = false) := by decide +kernel

theorem wit_ReferencesAndGating :
    (z.ring.refSel = 0 ∧ z.ring.refSel ≠ 2 ∧ flag z R.CLK_STAT F.CLK_STAT_HOLDOVER = false) ∧
    (let s : State := { fon z R.CLK_STAT F.CLK_STAT_HOLDOVER with ring := { z.ring with pullIn := true } }
     flag s R.CLK_STAT F.CLK_STAT_HOLDOVER = true ∧ s.ring.refSel = 0 ∧ s.ring.pullIn = true) ∧
    (flag (fon z R.CLK_STAT (refOkFld 0)) R.CLK_STAT (refOkFld z.ring.refSel) = true ∧
      flag (foff z R.CLK_STAT (refOkFld 0)) R.CLK_STAT (refOkFld z.ring.refSel) = false) ∧
    (rwmOk (md 2 z) = true ∧ rwmOk (md 4 z) = false) ∧
    (now z % 1250 = 0 ∧ now (clk 1249 z) % 1250 ≠ 0 ∧ domainRuns z 59 = domainOn z 59 ∧ domainRuns z 0 ≠ domainOn z 0) := by decide +kernel

/-- A controller that is enabled, out of BOOT, in a state of NMT. -/
def can (c st : Nat) (s : State) : State := fset (fon (md 4 s) (R.CAN_CFG c) F.CAN_CFG_EN) (R.CAN_STAT c) F.CAN_STAT_NMT st
/-- A dictionary object of communication. -/
def odSet (i sub v : Nat) (s : State) : State := { s with com := { s.com with od := insertKey s.com.od (0x100 * i + sub) v } }

def emcy0 : Emcy := ⟨0x1000, 1, 3, 0⟩

theorem wit_CanNode :
    (let s := can 0 1 z
     canServed s 0 = true ∧ canServed z 0 = false ∧ nodeHears s 0 = true ∧ nodeHears z 0 = false ∧ canEn s 0 = true ∧
       fget s (R.CAN_STAT 0) F.CAN_STAT_BUS ≠ 2 ∧ canEn (foff z (R.CAN_CFG 0) F.CAN_CFG_EN) 0 = false) ∧
    (let s : State := odSet 0x1006 0 1000 (clk 10000000 z)
     let s : State := { s with com := { s.com with syncAt := some 0 } }
     s.com.syncAt = some 0 ∧ od s 0x1006 0 ≠ 0 ∧ 2 * 0 + 3 * cyclePeriod s ≤ 2 * now s ∧ od z 0x1006 0 = 0) ∧
    (let s := odSet 0x1017 0 100 (can 0 1 (clk 200000000 z))
     canServed s 0 = true ∧ od s 0x1017 0 ≠ 0 ∧ nmtOf s 0 ≠ 3 ∧ tget 0 s.com.hbSent 0 + ticksMs (od s 0x1017 0) ≤ now s) ∧
    (let s := odSet 0x1016 4 (0x7F * 0x10000 + 100) (clk 200000000 z)
     let s : State := { s with com := { s.com with hbSeen := [(3, 0)] } }
     (hbEntry s 3).1 = (127#7).toNat ∧ (hbEntry s 3).2 ≠ 0 ∧ lookup s.com.hbSeen 3 = some 0 ∧ 0 + ticksMs (hbEntry s 3).2 ≤ now s) ∧
    (fget (fset z (R.CAN_STAT 1) F.CAN_STAT_BUS 2) (R.CAN_STAT 1) F.CAN_STAT_BUS = 2) ∧
    (let s : State := { can 0 1 z with evt := { z.evt with emcy := [emcy0] } }
     s.evt.emcy = emcy0 :: [] ∧ s.evt.emcyAt ≤ now s ∧ nodeBuses s ≠ [] ∧ nmtOf s 0 ≠ 3 ∧ z.evt.emcy = []) := by decide +kernel

theorem wit_CanTransfers :
    (let s := odSet 0x1600 0 1 (odSet 0x1600 1 0x6A000120 (odSet 0x1400 1 0x200 (can 0 1 z)))
     nodeHears s 0 = true ∧ pdoLive s 0x1400 = true ∧ rpdoTwin s 0 0 = false ∧ pdoMap s 0x1600 = [(0x6A00, 1, 4)] ∧
       ([1#8] : List Byte).length ≠ pdoBytes (pdoMap s 0x1600)) ∧
    (let s := odSet 0x160F 0 0 (odSet 0x140F 1 0x200 (can 0 1 z))
     pdoLive s 0x140F = true ∧ pdoMap s 0x160F = []) ∧
    (pdoLive z 0x1400 = false ∧ nodeHears z 0 = false) ∧
    (let s := odSet 0x1A0F 0 1 (odSet 0x1A0F 1 0x6A000120 (odSet 0x180F 1 0x180 (can 0 1 z)))
     pdoLive s 0x180F = true ∧ pdoMap s 0x1A0F ≠ []) ∧
    (nodeHears (can 0 1 z) 0 = true ∧ nmtOf (can 0 1 z) 0 ≠ 3) := by decide +kernel

/-- A port of SGMII that is up, out of BOOT, with an address. -/
def eth (k : Nat) (s : State) : State :=
  wr (fon (fon (fon (md 4 s) (R.ETH_CFG k) F.ETH_CFG_EN) (R.ETH_CFG k) F.ETH_CFG_PTP_EN) (R.ETH_STAT k) F.ETH_STAT_LINK) (R.ETH_IP k) 0x0A000001#32
/-- Firmware runs. -/
def fw (s : State) : State := fset s R.SECU_STAT F.SECU_STAT_STAGE 1

theorem wit_ManagementMessages :
    (let s := ln 2 lnActive (fw z)
     pathServed s (.lane 2) = true ∧ pathServed z (.lane 2) = false ∧ toOther s hdr0 = false ∧ hdr0.index = 0x1018#16 ∧
       hdr0.sub = 1#8 ∧ hdr0.ofs = 0#32) ∧
    (let s := ln 2 lnActive (ring (some 3) 2 (fw z))
     let h := { hdr0 with fwd := true, dest := 5 }
     toOther s h = true ∧ ringRanked s = true ∧ rstate s = 2 ∧ (s.com.fwd.filter (fun f => decide (f.path = .lane 2))).length < 8) ∧
    (let s : State := { z with com := { z.com with fwd := List.replicate 8 ⟨.lane 2, 1, 1⟩ } }
     8 ≤ (s.com.fwd.filter (fun f => decide (f.path = .lane 2))).length ∧ ringRanked z = false) ∧
    (objRead z 0xFFFF 0 0).2 = .error 0x06020000 ∧
    (let s := fon (fw (eth 1 z)) (R.ETH_CFG 1) F.ETH_CFG_MGMT_EN
     ethServed s 1 = true ∧ pathServed s (.udp 1 5 6) = true ∧ ethServed z 1 = false ∧
       pathServed (foff s (R.ETH_CFG 1) F.ETH_CFG_MGMT_EN) (.udp 1 5 6) = false) ∧
    (let s : State := { ln 2 lnActive z with com := { z.com with fwd := [⟨.lane 0, 0x0201, 2⟩] } }
     s.sys.held = none ∧ laneUp s 2 = true ∧ takeFwd 2 (ofLeBytes ([1#8, 2#8, 3#8].take 2)) s.com.fwd = some (⟨.lane 0, 0x0201, 2⟩, []) ∧
       takeFwd 2 0 z.com.fwd = none) := by decide +kernel

theorem wit_EthernetPorts :
    (let s := eth 1 z
     ethServed s 1 = true ∧ ethIp s 1 ≠ 0 ∧ (0x0A000001#32).toNat = ethIp s 1 ∧ (1#32).toNat ≠ ethIp s 1 ∧ ethServed z 1 = false ∧
       flag s (R.ETH_CFG 1) F.ETH_CFG_PTP_EN = true ∧ flag s (R.ETH_STAT 1) F.ETH_STAT_LINK = true) ∧
    (flag (fon z (R.ETH_CFG 1) F.ETH_CFG_EN) (R.ETH_CFG 1) F.ETH_CFG_EN = true ∧ flag z (R.ETH_STAT 1) F.ETH_STAT_LINK = false) ∧
    (ptpPort z = 0 ∨ ptpPort z = 1) ∧
    (let s : State := { clk 1000 z with com := { z.com with ptpSync := some (0, 100), ptp := { z.com.ptp with state := 2 } } }
     s.com.ptpSync = some (0, 100) ∧ s.com.ptp.state = 2 ∧ 0 + 3 * 100 ≤ now s) := by decide +kernel

theorem wit_NoticesAndView :
    (let s := fw (clk 20000000 z)
     s.sys.held = none ∧ fget s R.SECU_STAT F.SECU_STAT_STAGE = 1 ∧ s.com.viewAt + ticksMs 10 ≤ now s ∧ fget z R.SECU_STAT F.SECU_STAT_STAGE ≠ 1) ∧
    (let s : State := { z with units := [(63, BitVec.ofNat 32 (unitStateNow z 63))] }
     isUnit 63 = true ∧ (unitWord s 63).toNat % 0x10000 = unitStateNow s 63) ∧
    (let s : State := { clk 250 z with evt := { z.evt with irqRel := [(1, 250)] } }
     lookup s.evt.irqRel 1 = some 250 ∧ 250 ≤ now s ∧ now z < 250) ∧
    (let s : State := { ln 0 lnActive (clk 250 z) with evt := { z.evt with hostNotes := [⟨[(1, 2, 3)], 250⟩] } }
     s.evt.hostNotes = ⟨[(1, 2, 3)], 250⟩ :: [] ∧ 250 ≤ now s ∧ hostServed s = true) ∧
    (let s : State := { wr (eth 1 (clk 250 z)) (R.ETH_PEER_IP 1) 5#32 with evt := { z.evt with ethNotes := [⟨[(1, 2, 3)], 250⟩] } }
     s.evt.ethNotes = ⟨[(1, 2, 3)], 250⟩ :: [] ∧ 250 ≤ now s ∧ noticePorts s ≠ [] ∧ noticePorts z = []) := by decide +kernel

theorem wit_SecurityAndUpdate :
    (∀ n ∈ [1, 2, 3, 4, 5, 6, 7, 8, 9, 10, 11, 12], secBusy z = false ∧ secPermits (openSeals (md 2 z)) n = true) ∧
    (secPermits (fset z R.SECU_STAT F.SECU_STAT_STAGE 2) 13 = true ∧ secPermits z 1 = false ∧
      secBusy (fon z R.SEC_CMD_STAT F.SEC_CMD_STAT_BUSY) = true) ∧
    (let s := wr (wr (openSeals (md 2 z)) R.SEC_ARG_LO 0x10000000#32) R.SEC_LEN 8#32
     secPermits s 8 = true ∧ holeIn s (secArgAt s) (secArgMax s) = none ∧ regionOf s (secArgAt s) ≠ .sdram ∧
       firstPoison { s with poison := [0x10000000] } (secArgAt s) (secArgMax s) = some 0x10000000 ∧ memRegion s 0x10000000 = some 3 ∧
       holeIn (wr s R.SEC_ARG_LO 0x20000000#32) 0x20000000 8 = some 0x20000000) ∧
    (updateOpen (fw z) = true ∧ updateOpen z = false ∧ (0#23).toNat + 4 ≤ bankSize ∧ bankSize < (0x7FFFFF#23).toNat + 2 ∧
      (fw z).sec.programmed + 0x20000 < (0x20000#23).toNat + 4) ∧
    (let s : State := { z with sec := { z.sec with buf := [(0x10000, 5#8)] } }
     s.sec.buf = [(0x10000, 5#8)] ∧ 0 < (1#18).toNat ∧ s.sec.erased.contains ((bankBase (1 - fwBank s) + 0x10000) / 0x10000) = false ∧
       ({ s with sec := { s.sec with erased := [0x91] } } : State).sec.erased.contains ((bankBase (1 - fwBank s) + 0x10000) / 0x10000) = true) ∧
    (inKimage (0x0100D7FFFF#40).toNat = true ∧ inKimage (0x0100D80000#40).toNat = false ∧
      firstOutside z .scheduler (0x0100D7FFFF#40).toNat 1 true = some 0x0100D7FFFF ∧
      ∀ m ∈ [Master.core, .dma, .host, .engine 255], firstOutside z m (0x0100D7FFFF#40).toNat 1 true = none) := by
  decide +kernel

def boot0 : BootIn := ⟨[], [1#8], [1#8], [], [], [], [], []⟩

/-- A device with an image in bank `k`, and one with it in the recovery window. -/
def inBank (k : Nat) : State := flashed (bankBase k) image0 (trusted z)
def inWindow : State := placed 0x100C0000 image0 (trusted z)

/-- R437 to R440: the image that OpenSSL signed passes; with an SVN below ARC, and with another root, it does not. -/
theorem test_signed_image : signedErr (trusted z) 1 (listReader image0) 64 [1#8] = 0 ∧
    signedErr (fset (trusted z) R.SEC_OTP F.SEC_OTP_ARC 4) 1 (listReader image0) 64 [1#8] = 5 ∧
    signedErr { z with sec := { z.sec with rootKey := rootPub, otpRoot := [] } } 1 (listReader image0) 64 [1#8] = 3 ∧
    imageErr (trusted z) (listReader (image0.drop 1)) 0x140000 [1#8] = 2 := by decide +kernel

/-- What stands where the image stands passes as the image does. -/
theorem image_good {s : State} {r : Reader} {room : Nat} (hb : imageHdrBad r room = false) (hw : wordAt r 4 = 64)
    (hr : ∀ o k, o + k ≤ 629 → r o k = listReader image0 o k) (hc : ∀ l, chainEnds s 1 l = chainEnds (trusted z) 1 l)
    (ha : arcOf s = arcOf (trusted z)) : imageErr s r room [1#8] = 0 := by
  unfold imageErr
  rw [if_neg (by simp [hb]), hw, signedErr_readers [1#8] hr (by decide +kernel) hc ha, test_signed_image.1]

theorem image0_length : image0.length = 629 := by decide +kernel

theorem inBank_good (k : Nat) (hk : k < 2) : bankErr (inBank k) k [1#8] = 0 ∧ bankErr (romKeys (inBank k) boot0) k [1#8] = 0 := by
  have hr : ∀ o n, o + n ≤ 629 → bankReader (inBank k) k o n = listReader image0 o n := fun o n h =>
    flashed_reader (bankBase k) image0 (trusted z) (by rw [image0_length]; exact h)
  have h0 : bankErr (inBank k) k [1#8] = 0 := by
    obtain rfl | rfl : k = 0 ∨ k = 1 := by omega
    · exact image_good (by decide +kernel) (by decide +kernel) hr (chainEnds_flash _ _ 1) (by decide +kernel)
    · exact image_good (by decide +kernel) (by decide +kernel) hr (chainEnds_flash _ _ 1) (by decide +kernel)
  exact ⟨h0, (bankErr_derived _ k _).trans h0⟩

theorem wit_SecurityResults_image :
    (inactiveErr (inBank 1) ⟨[1#8], [], true⟩ = 0 ∧ inactiveErr (inBank 1) ⟨[1#8], [], false⟩ = 10 ∧ inactiveErr (trusted z) ⟨[1#8], [], true⟩ = 2) ∧
    ((infoAt (bankReader (inBank 1) 1)).stateFmt = (inBank 1).sec.running.stateFmt ∧
      (∀ s : State, s.sec.running.stateFmt = 9 → (infoAt (bankReader (inBank 1) 1)).stateFmt ≠ s.sec.running.stateFmt) ∧
      (inBank 1).sec.verified = none ∧ modeOf (inBank 1) ≠ .scan ∧ modeOf (md 4 (inBank 1)) = .scan) ∧
    imageErr inWindow (windowReader inWindow) 0x140000 [1#8] = 0 ∧ imageErr z (windowReader z) 0x140000 [1#8] ≠ 0 ∧
    recFind inWindow 5 [] [] = none := by
  have hi : inactiveErr (inBank 1) ⟨[1#8], [], true⟩ = 0 := by
    unfold inactiveErr
    rw [if_pos rfl, show fwBank (inBank 1) = 0 from by decide +kernel]
    exact (inBank_good 1 (by omega)).1
  refine ⟨⟨hi, by decide +kernel, by decide +kernel⟩, ⟨by decide +kernel, fun s h => ?_, by decide +kernel, by decide +kernel, by decide +kernel⟩,
    image_good (by decide +kernel) (by decide +kernel) (fun o n h => placed_reader (by decide) image0 _ (by rw [image0_length]; exact h))
      (chainEnds_mem _ _ 1) (by decide +kernel), by decide +kernel, by decide +kernel⟩
  rw [h]; decide +kernel

/-- A kernel set image at ARG, which VERIFY_(chainEnds_same rfl rfl rfl rfl _)ET is to verify. -/
def ksetAt : State := fset (wr (placed 0x0100300000 kset0 (trusted (running 1 z))) R.SEC_ARG_LO 0x00300000#32) R.SEC_ARG_HI F.SEC_ARG_HI_ADDR 1

theorem test_signed_kset : ksetErr (trusted z) (listReader kset0) 64 [2#8] = 0 := by decide +kernel

theorem wit_SecurityResults_kset : ksetAt.sec.run = some (1, 0) ∧
    mrd ksetAt (secArgAt ksetAt + 0x14) 4 + mrd ksetAt (secArgAt ksetAt + 0x18) 4 = 64 ∧
    ksetErr ksetAt (listReader (blockRead ksetAt (secArgAt ksetAt) (min 64 0x40000 + 0x10A0)).2) 64 [2#8] = 0 ∧
    ksetErr z (listReader []) 64 [2#8] ≠ 0 := by
  have hl : kset0.length = 629 := by decide +kernel
  have hm : ksetAt.mem = (placed 0x0100300000 kset0 (trusted (running 1 z))).mem := rfl
  have hr : ∀ o n, o + n ≤ 629 → listReader (blockRead ksetAt 0x0100300000 (min 64 0x40000 + 0x10A0)).2 o n = listReader kset0 o n := by
    intro o n h
    rw [blockRead_clay _ (by decide) (by decide) (by decide), mbytes_range, ← placed_reader (a := 0x0100300000) (by decide) kset0
      (trusted (running 1 z)) (by rw [hl]; exact h), mbytes_range]
    apply List.ext_getElem
    · simp [listReader]; omega
    · intro i h1 h2
      simp [listReader, mget, hm, Nat.add_assoc]
  have hw : ∀ o, o ≤ 625 → wordAt (listReader (blockRead ksetAt 0x0100300000 (min 64 0x40000 + 0x10A0)).2) o = wordAt (listReader kset0) o :=
    fun o h => by unfold wordAt; rw [hr _ _ (by omega)]
  refine ⟨rfl, by decide +kernel, ?_, by decide +kernel⟩
  rw [show secArgAt ksetAt = 0x0100300000 from by decide +kernel, ← test_signed_kset]
  unfold ksetErr
  rw [hw 0 (by omega), hw 0x3C (by omega), hr 0 0x3C (by omega),
    signedErr_readers (s := ksetAt) (t := trusted z) (kind := 2) (n := 64) [2#8] hr (by decide +kernel) (chainEnds_same rfl rfl rfl rfl _) (by decide +kernel)]

/-- A device with an operational key, the certificate of that key as the argument, and one owner. -/
def owned (s : State) : State :=
  { s with sec := { s.sec with opk := some (leafKey, []), arg := leafCert, owners := [sha384 rootPub], anchors := [rootCert] } }

theorem wit_SecurityResults_install :
    ((chainOf (owned z).sec.arg).elim false (fun l => match l with
       | c :: l => decide (c.key = ecPublic leafKey) && ownerChain (owned z) (c :: l)
       | [] => false)) = true ∧ ((chainOf (owned z).sec.arg).elim true (fun l => ownerChain z l)) = false := by decide +kernel

theorem wit_SecurityResults_owner : certOf z.sec.arg = none ∧ z.sec.owners = [] ∧
    (certOf rootCert).elim false (fun c => signedBy c c.key && !transferOk (owned z) (sha384 c.key) [8#8]) = true ∧
    (certOf leafCert).elim true (fun c => signedBy c c.key) = false ∧ (owned z).sec.owners ≠ [] ∧ (owned z).sec.owners.length < 4 ∧
    4 ≤ ({ z with sec := { z.sec with owners := List.replicate 4 [] } } : State).sec.owners.length := by decide +kernel

theorem wit_SecurityResults :
    z.sec.run = none ∧ (∀ n ∈ List.range 14, (running n z).sec.run = some (n, 0)) ∧
    (({ z with sec := { z.sec with verified := some z.sec.running } } : State).sec.verified.isSome = true ∧ z.sec.verified = none) ∧
    (z.sec.arg ≠ [1#8] ∧ ({ z with sec := { z.sec with arg := [1#8] } } : State).sec.arg = [1#8] ∧ modeOf (md 2 z) ≠ .boot) ∧
    (owned z).sec.opk.isSome = true ∧ z.sec.opk = none ∧
    (let s : State := { z with sec := { z.sec with arg := List.replicate 32 0#8 ++ [1#8] } }
     s.sec.arg.getD 32 0#8 = 1#8 ∧ z.sec.arg.getD 32 0#8 ≠ 1#8) ∧
    (z.sec.dbgFails < 8 ∧ 8 ≤ ({ z with sec := { z.sec with dbgFails := 8 } } : State).sec.dbgFails ∧
      signedErr z 7 (listReader z.sec.arg) 64 [] ≠ 0) := by decide +kernel

theorem wit_ModeChanges :
    (modeOfCode (1#3).toNat = some (modeOf z) ∧ modeOfCode (6#3).toNat ≠ some (modeOf z) ∧
      (modeOfCode (6#3).toNat).elim (some 1) (modeReason z) = some 1) ∧
    (let s := fon (md 2 z) R.CM_CHECK F.CM_CHECK_OK
     modeOf s = .standby ∧ modeOfCode (4#3).toNat = some .scan ∧ Mode.scan ≠ modeOf s ∧ modeReason s .scan = none ∧
       modeReason (foff s R.CM_CHECK F.CM_CHECK_OK) .scan = some 2) ∧
    (let s := md 4 z
     modeOf s ≠ .standby ∧ modeReason s .standby = none) ∧
    (let s := fon (md 5 z) R.CM_CHECK F.CM_CHECK_OK
     modeOf s = .safeHold ∧ modeReason s .scan = none) ∧
    (let s : State := { z with sys := { z.sys with target := some 2 } }
     s.sys.target = some 2 ∧ shotsOver s = true ∧ shotsOver (shooting shot0 s) = false) ∧
    (bootOver z = false ∧  z.sys.autoOk = true) := by decide +kernel

theorem wit_ModeChanges_boot :
    (let s : State := fon (fw { z with pool := { z.pool with engines := [] } }) R.SYS_CFG F.SYS_CFG_AUTO
     let s := (List.range 256).foldl (fun s e => fset s (R.ENG_STAT e) F.ENG_STAT_STATE engIdle) s
     bootOver s = true ∧ tCtl16 s < 1760 ∧ flag s R.SYS_CFG F.SYS_CFG_AUTO = true ∧ flag (foff s R.SYS_CFG F.SYS_CFG_AUTO) R.SYS_CFG F.SYS_CFG_AUTO = false ∧
       1760 ≤ tCtl16 (fset s R.THM_TCTL F.THM_TCTL_T_CTL 1760) ∧ scanReason s = none ∧
       scanReason (foff s R.CM_CHECK F.CM_CHECK_OK) = some 2) := by decide +kernel

theorem wit_Resets_boot :
    (let s : State := { z with sys := { z.sys with held := some 0 } }
     releaseDue s = true ∧ bankErr (romKeys s boot0) 0 boot0.bank0 ≠ 0 ∧ bankErr (romKeys s boot0) 1 boot0.bank1 ≠ 0 ∧
       bootHdr (romKeys s boot0) = none ∧ recFind (romKeys s boot0) 5 boot0.board0 boot0.board1 = none) ∧
    (bankErr (romKeys (inBank 0) boot0) 0 boot0.bank0 = 0 ∧ bootHdr (romKeys (inBank 0) boot0) = none) ∧
    (bankErr (romKeys (inBank 1) boot0) 0 boot0.bank0 ≠ 0 ∧ bankErr (romKeys (inBank 1) boot0) 1 boot0.bank1 = 0 ∧
      bootHdr (romKeys (inBank 1) boot0) = none) := by
  refine ⟨by decide +kernel, ⟨(inBank_good 0 (by omega)).2, by decide +kernel⟩, by decide +kernel, (inBank_good 1 (by omega)).2, by decide +kernel⟩

/-- A boot header at the start of the flash, and the image in bank 0. -/
def headed (h : BootHdr) : State := { inBank 0 with sec := { (inBank 0).sec with flash := table 0xFF#8 0 (hdrBytes h) ++ (inBank 0).sec.flash } }

theorem wit_Resets_header :
    (∀ h ∈ [(⟨1, 0, true, 2⟩ : BootHdr), ⟨1, 0, false, 0⟩, ⟨1, 1, true, 3⟩], bootHdr (romKeys (headed h) boot0) = some h ∧
      (if h.trial = true ∧ 3 ≤ h.tries then 1 - h.active else h.active) = 0) ∧
    bankErr (romKeys (headed ⟨1, 0, true, 2⟩) boot0) 0 (bankPurpose boot0 0) = 0 := by
  refine ⟨by decide +kernel, (bankErr_derived _ 0 _).trans (image_good (by decide +kernel) (by decide +kernel) (fun o n h => ?_) (fun l => (chainEnds_flash _ _ 1 l).trans (chainEnds_flash _ _ 1 l))
    (by decide +kernel))⟩
  rw [← flashed_reader (bankBase 0) image0 (trusted z) (by rw [image0_length]; exact h)]
  unfold bankReader flashReader flashBytes
  refine List.map_congr_left (fun i _ => ?_)
  show (lookup (table 0xFF#8 0 (hdrBytes ⟨1, 0, true, 2⟩) ++ (inBank 0).sec.flash) _).getD _ = _
  rw [lookup_append_none (lookup_table_above _ _ (by
    rw [show (hdrBytes ⟨1, 0, true, 2⟩).length = 16 from by decide +kernel]; unfold bankBase; omega))]
  rfl

theorem wit_Resets :
    (z.sys.reset = none ∧ z.sys.held = none ∧ z.sys.orderly = none ∧ z.variantAN = false) ∧
    ({ z with sys := { z.sys with orderly := some 0 } } : State).sys.orderly.isSome = true ∧
    (let s := fw (clk 100000000000 z)
     fget s R.SECU_STAT F.SECU_STAT_STAGE = 1 ∧ s.sys.kickAt + ticksMs (max 1 (fget s R.SYS_CFG F.SYS_CFG_WDT_MS)) ≤ now s) ∧
    (let s : State := { clk 1250000 z with sys := { z.sys with reset := some (2, 0) } }
     s.sys.reset = some (2, 0) ∧ 0 + ticksMs 1 ≤ now s ∧ scannersStill s = true ∧ now z < 0 + ticksMs 1) ∧
    (2 ≤ (2#32).toNat ∧ (9#32).toNat < 10 ∧ (1#32 ≠ 0#32) ∧ (1#32).toNat < 2 ∧ 10 ≤ (10#32).toNat) ∧
    releaseDue (md 2 z) = false := by decide +kernel

theorem wit_FunctionReinit :
    (flag (fon z R.SYS_REINIT F.SYS_REINIT_BUSY) R.SYS_REINIT F.SYS_REINIT_BUSY = true ∧ modeOf z = .boot ∧
      flag z R.SYS_REINIT F.SYS_REINIT_BUSY = false ∧ modeOf (md 4 z) ≠ .boot ∧ axisIdle z 3 = true ∧ axisIdle (sc 1 3 z) 3 = false) ∧
    (let s : State := { z with reinit := [63], sys := { z.sys with reinit := some (1, 63, 0) } }
     (63#8).toNat ∈ s.reinit ∧ reinitReady s 63 = true ∧ s.sys.reinit = some (1, 63, 0) ∧ reinitUnit 1 63 = (63#8).toNat ∧
       (63#8).toNat ∉ z.reinit) := by decide +kernel

theorem wit_TestAccessPort :
    (∀ k ∈ [0, 1, 2], fget (fset z R.SECU_STAT F.SECU_STAT_DBG k) R.SECU_STAT F.SECU_STAT_DBG = k) := by decide +kernel

theorem wit_RegisterAccess :
    (z.sys.held = none ∧ ({ z with sys := { z.sys with held := some 0 } } : State).sys.held.isSome = true) ∧
    (firstOutside z .dma (0x0800000004#40).toNat 4 true = some 0x0800000004 ∧ firstOutside z .core (0x20000000#40).toNat 4 true = some 0x20000000) ∧
    (firstOutside z .core (0x08000000FC#40).toNat 4 true = none ∧ regionOf z (0x08000000FC#40).toNat = .regs ∧
      windowOf (0x08000000FC#40).toNat = none ∧ regDesc (0x08000000FC#40).toNat = none) ∧
    (firstOutside z .dma (0x1000FFFC#40).toNat 4 true = none ∧ regionOf z (0x1000FFFC#40).toNat = .sram ∧ poisoned z (0x1000FFFC#40).toNat 4 = false) ∧
    (windowOf R.EGO_DXY = none ∧ (regDesc R.EGO_DXY).isSome = true ∧ safAbsent z R.EGO_DXY = false ∧ plainReg R.EGO_DXY = true) ∧
    (safAbsent ({ z with variantAN := true } : State) R.SAF_STAT = true) ∧
    (sealsOpen z = false ∧ sealsOpen (openSeals z) = true ∧ rwmFor (md 2 z) false = true ∧ rwmFor z true = true ∧ rwmFor z false = false) := by
  decide +kernel

theorem wit_DllPositions : usesTable z 64 31 = false ∧ lowPower z = false ∧ lowPower (fon z R.TDC_CLK F.TDC_CLK_CUR_MODE) = true := by
  decide +kernel

theorem wit_UnitTemperature :
    (∀ u ∈ [63, 64], sensorIgnored z (if u = 64 then 16 else u / 4) = false) ∧
    (let s := wr (fon z (R.THM_SENS 16) F.THM_SENS_IGN) R.THM_IGN 0x10000#32
     sensorIgnored s 16 = true ∧ (sensorNeighbours 16).filter (fun k => !sensorIgnored s k) ≠ []) ∧
    (let s := wr ((List.range 28).foldl (fun s i => fon s (R.THM_SENS i) F.THM_SENS_IGN) z) R.THM_IGN 0x0FFFFFFF#32
     sensorIgnored s 16 = true ∧ (sensorNeighbours 16).filter (fun k => !sensorIgnored s k) = []) := by decide +kernel

theorem wit_ConfirmedVersion :
    (let s : State := { running 5 z with sec := { (running 5 z).sec with running := ⟨7, 0, [], 0, 0, 0, 0, 0⟩ } }
     s.sec.run = some (5, 0) ∧ s.sec.running.svn < 64 ∧ (infoAt (bankReader (inBank 1) 1)).svn < s.sec.running.svn) := by
  decide +kernel

theorem wit_StepRuns : z.pending = [] ∧ z.ring.hold = 0 ∧
    ({ z with ring := { z.ring with hold := 3 } } : State).ring.hold ≠ 0 := by decide +kernel

theorem wit_UnitStates : unitsInv z = true ∧ (match exec .kick z with | .next t => unitsTrue t | _ => false) = true := by decide +kernel

theorem wit_MemoryCanonical : Memory.wf z.mem = true ∧
    (match exec (.kimageWrite .core 0x0100000000#40 [1#8]) z with | .next t => Memory.wf t.mem | _ => false) = true := by decide +kernel

/-! ### States for single clauses -/

theorem wit_PulsesAndBias_record :
    (let s := modFe (fset z (R.FE_STAT 0 5) F.FE_STAT_STATE feActive) 5 (fun c => { c with wins := [{ win0 with pending := true }] })
     tileRuns s 0 = true ∧ flag s (R.FE_TILE_CTRL 0) F.FE_TILE_CTRL_AUTOTRIM = false ∧ 0 ∉ s.tdc.unlocked ∧ comparatorsOff s 5 = false ∧
       edgeTime s 0 10 ⟨1010, 0⟩ + 160 ≤ edgeTime s 0 10 ⟨1020, 0⟩ ∧
       (feChan s 5).wins.filter (fun w => w.pending && decide (winOpen w.msg ≤ edgeTime s 0 10 ⟨1010, 0⟩ / 128) &&
         decide (edgeTime s 0 10 ⟨1010, 0⟩ / 128 < winClose w.msg)) = [{ win0 with pending := true }] ∧
       ({ win0 with pending := true } : Win).recs.length < 4 ∧ win0.lastFall = none) ∧
    now z < winClose msg0 ∧
    (let s := modBias z 3 (fun g => { g with hiRun := 2, loRun := 2 })
     fget s (R.BIAS_MON 3) F.BIAS_MON_ACTION ≠ 0 ∧ 2 ≤ fget (fset s (R.BIAS_MON 3) F.BIAS_MON_ACTION 2) (R.BIAS_MON 3) F.BIAS_MON_ACTION ∧
       (biasGrp s 3).gating = false) ∧
    (let s := modBias z 3 (fun g => { g with gating := true })
     (biasGrp s 3).gating = true ∧ (biasGrp s 3).zeroed = false ∧ (biasGrp s 3).holdEnd = none) ∧
    (let s := modBias z 3 (fun g => { g with holdEnd := some 10 })
     (biasGrp s 3).holdEnd = some 10 ∧ now s < 10) := by decide +kernel

theorem wit_TimebaseAndClock_held :
    (let s : State := { z with tdc := { z.tdc with clk := .relock, frameHeld := true }, sht := { z.sht with frameTick := some 5 } }
     s.tdc.clk = .relock ∧ s.tdc.frameHeld = true ∧ s.sht.frameTick.isSome = true) ∧ z.tdc.frameHeld = false := by decide +kernel

theorem wit_CalibrationFills_table :
    (let s : State := fset { clk 1000000000 z with tdc := { z.tdc with filling := true } } R.TDC_CAL_STAT F.TDC_CAL_STAT_FILL_UNIT 63
     let c := List.replicate 32 (⟨[], 100000⟩ : FillCount)
     s.tdc.filling = true ∧ s.tdc.fillAt + ticksMs (fillMs s) ≤ now s ∧ s.tdc.clk ≠ .waitFill ∧
       fget s R.TDC_CAL_STAT F.TDC_CAL_STAT_FILL_UNIT = 63 ∧ ([30, 31].all (fun j => fillEnough s (fillCount s 63 c j))) = true ∧
       ([30, 31].all (fun j => fillEnough s (fillCount s 63 [] j))) = false) ∧
    (let s : State := { fon z R.TDC_CTRL F.TDC_CTRL_FILL_ALL with tdc := { z.tdc with filling := true, allDone := [0] } }
     flag s R.TDC_CTRL F.TDC_CTRL_FILL_ALL = true ∧ 64 ∉ s.tdc.allDone ∧
       ([15].all (fun j => fillEnough s (fillCount s 64 (List.replicate 16 ⟨[], 100000⟩) j))) = true) := by decide +kernel

theorem wit_HistogramBuffers_second :
    (let s := modBuf (clk 1000 z) 21 1 (fun h => { h with st := .filling })
     histReady s 21 ((gtChan s 21).buf 1) = true ∧ histReady s 21 ((gtChan s 21).buf 0) = false ∧ (postOf s 1).length < 32) := by decide +kernel

theorem wit_TicketTakes_lost :
    (let r := { run0 with fetched := false, kstart := none, tk := { tick0 with tile := 1, ch := 5 } }
     let s := buf (fun h => { h with st := .held, lost := true }) (runs r (clk 2 z))
     fetching (eng s 33) = some (r, false) ∧ r.fetchAt + 2 * r.beats ≤ now s ∧
       ((gtChan s (16 * r.tk.tile + r.tk.ch)).buf r.tk.buf).lost = true ∧ ((gtChan z 21).buf 0).lost = false) := by decide +kernel

theorem wit_KernelRuns_swap :
    (let s : State := { fset (en 33 1 z) R.ENP_KSWAP F.ENP_KSWAP_STATE 1 with pool := { z.pool with src := [(1, 0x0100D00000)] } }
     engState s 33 ∈ [engIdle, engBusy, engDrain] ∧ swapState s = 1 ∧ 1 - activeBank s ∉ (eng s 33).banks ∧
       lookup s.pool.src (1 - activeBank s) = some 0x0100D00000 ∧ imgCrcOk s 0x0100D00000 = true ∧
       now s < s.pool.swapAt + ticksUs 200) ∧
    (∀ r t0, (eng (runs run0 z) 33).run = some r → r.kstart = some t0 → now (runs run0 z) < t0 + kernelCycles r) := by
  refine ⟨by decide +kernel, fun r t0 h h0 => ?_⟩
  have hr : (eng (runs run0 z) 33).run = some run0 := by decide +kernel
  rw [hr] at h
  obtain rfl := Option.some.inj h
  obtain rfl : 0 = t0 := Option.some.inj h0
  decide +kernel

theorem wit_TilthTable_clear : clayOut (ttBase (fset (wr z R.TT_BASE_LO 0x00D80000#32) R.TT_BASE_HI F.TT_BASE_HI_ADDR 1)) 32 = none ∧
    clayOut (ttBase (fset (wr z R.TT_BASE_LO 0#32) R.TT_BASE_HI F.TT_BASE_HI_ADDR 2)) 32 = some 0x0200000000 := by decide +kernel

theorem wit_PulseEnergy_post :
    (let x := { shot0 with fbTick := some 128000, ok := some false }
     let s := shooting x (clk 100000 z)
     shotOf s (7#48).toNat = some x ∧ x.ok = some false ∧ shot0.ok ≠ some false ∧ vPostAt s x.bank 128000 ≤ 128 * now s) := by decide +kernel

theorem wit_EmissionControl_stall :
    (let s : State := modScanner z 1 (fun x => { x with stalled := true })
     govTurn s 3 = true ∧ (scanner s 1).stalled = true ∧ (scanner z 1).stalled = false ∧ govTurn s 5 = true ∧
       govTurn { s with emg := { s.emg with turn := (0, 6) } } 5 = false) := by decide +kernel

theorem wit_EmissionControl_turn : govTurn (expects 0) 5 = true ∧ govTurn (expects 1) 5 = true := by decide +kernel

theorem wit_SdramInitialisation_test :
    (let s := dr drcTrain z
     drcState s = drcTrain ∧ s.drc.test = none ∧ fget s R.DRC_TEST F.DRC_TEST_RANK < drcRanks (drcWord s R.DRC_GEOM)) ∧
    (let s : State := { clk 5 z with drc := { z.drc with test := some (5, 7) } }
     s.drc.test = some (5, 7) ∧ 5 ≤ now s ∧ 7 < 512 ∧ now z < 5) := by decide +kernel

/-- A command of the retry buffer. -/
def cmd0 : DramCmd := ⟨5, 0x1000000040#40, true⟩

theorem wit_SdramAlertsAndRefresh_parity :
    (let s : State := { clk 10000 z with drc := { z.drc with alertAt := some 100 }, dram := { z.dram with cmds := [(100, cmd0)] } }
     s.drc.alertAt = some 100 ∧ parCaught s 100 [] = [cmd0] ∧ tget 0 s.drc.replays cmd0.id < 3 ∧
       3 ≤ tget 0 ({ s with drc := { s.drc with replays := [(5, 3)] } } : State).drc.replays cmd0.id) ∧
    (let s := fon (dr drcTrain z) R.DRC_CTRL F.DRC_CTRL_PAR_EN
     drcState s = drcTrain ∧ s.drc.alertAt = none ∧ flag s R.DRC_CTRL F.DRC_CTRL_PAR_EN = true ∧
       flag (foff z R.DRC_CTRL F.DRC_CTRL_PAR_EN) R.DRC_CTRL F.DRC_CTRL_PAR_EN = false) ∧
    (let s : State := { dr drcReady (clk 50000000 z) with drc := { z.drc with mprAt := some 0 } }
     drcState s = drcReady ∧ s.drc.mprAt = some 0 ∧ 0 + ticksMs 32 ≤ now s ∧ now z < 0 + ticksMs 32 ∧ z.drc.mprAt = none) ∧
    (z.drc.force = 0 ∧ owed z ≤ 3 ∧ ({ z with drc := { z.drc with alertAt := some 0 } } : State).drc.alertAt.isSome = true) := by decide +kernel

theorem wit_SdramRequests_class :
    (let s := fset (clk 10 z) (R.DRC_PORT 5) F.DRC_PORT_LAT_TGT 1
     reqClass s 5 (0#64).toNat = 1 ∧ (5, 0) ∉ s.drc.crit ∧ reqClass (clk 20 s) 5 0 = 2) ∧
    (let s := dr drcReady (fset (fon z R.DRC_GEOM F.DRC_GEOM_PRESENT) R.DRC_GEOM F.DRC_GEOM_CAP 4)
     reqTurn s 5 0 0x1000000000 = true ∧ reqTurn { s with drc := { s.drc with crit := [(4, 0)] } } 5 0 0x1000000000 = false ∧ s.drc.alertAt = none ∧
       (0x1000000000#40).toNat / 64 ∉ s.dram.wq ∧ s.dram.wq.length < 31 ∧ s.dram.wrote = false ∧
       ({ s with dram := { s.dram with wq := List.replicate 31 0 } } : State).dram.wq.length = 31 ∧
       (0x1000000000#40).toNat / 64 ∈ ({ s with dram := { s.dram with wq := [0x40000000] } } : State).dram.wq) ∧
    (let s := dr drcReady (fon (clk 100000 z) R.DRC_PD F.DRC_PD_PD_EN)
     drcState s = drcReady ∧ s.drc.alertAt = none ∧ tget s.drc.since s.dram.reqAt 0 + max 1 (fget s R.DRC_PD F.DRC_PD_PD_IDLE) ≤ now s ∧
       now z < tget z.drc.since z.dram.reqAt 0 + max 1 (fget z R.DRC_PD F.DRC_PD_PD_IDLE)) ∧
    (let s := dr drcReady (fon z R.DRC_SCRUB F.DRC_SCRUB_EN)
     patrolDue s = true ∧ firstPoison s (0x1000000000 + 64 * s.drc.patrol) 64 = none ∧ patrolDue z = false ∧
       firstPoison { s with poison := [0x1000000008] } (0x1000000000 + 64 * s.drc.patrol) 64 = some 0x1000000008) := by decide +kernel

theorem wit_DmaTransfers_turn :
    (let s := dm 2 (fun x => { x with desc := desc 0x10000000 0x10001000 16 0 }) z
     dmaTurn s 15 = true ∧ (0x60 + 15 ∉ s.reinit) ∧
       dmaTurn (fset (modDma (setDmaState s 0 2) 0 (fun x => { x with desc := desc 0x10000000 0x10001000 16 0 })) (R.DMA_CFG 0) F.DMA_CFG_PRIO 1) 15 = false) ∧
    (let s : State := { dm 2 (fun x => { x with outs := [⟨240, 0, 16, 0⟩] }) z with reinit := [0x6F] }
     s.host.held = [] ∧ 0x60 + (240#8).toNat / 16 ∈ s.reinit) ∧
    (let s : State := { z with host := { z.host with held := [.read true 0 1 8] } }
     s.host.held ≠ []) := by decide +kernel

theorem wit_DmaCompletion_readBack :
    (let s := dm 2 (fun x => { x with desc := desc 0x10000000 0x10001000 16 0, moved := 16 }) z
     dmaState s 15 = 2 ∧ (dmaChan s 15).moved = (dmaChan s 15).total ∧ (dmaChan s 15).outs = [] ∧ (dmaChan s 15).trailer = false ∧
       (dmaChan s 15).outward = false ∧ (dmaChan s 15).dst ((dmaChan s 15).total - 1) = (0x1000100F : Int) ∧ s.poison = []) ∧
    (let s := dm 2 (fun x => { x with desc := desc 0x10000000 0x20001000 16 0, moved := 16 }) z
     dmaState s 15 = 2 ∧ (dmaReadBack s (dmaChan s 15) ((dmaChan s 15).dst ((dmaChan s 15).total - 1))).2 = false) ∧
    (dmaChan (dm 2 (fun x => { x with outs := [⟨240, 0, 16, 0⟩] }) z) 15).outs ≠ [] := by decide +kernel

/-- Such a read-back is clean. -/
theorem wit_DmaCompletion_clean (s : State) (x : DmaChan) (hx : x.outward = false) (hp : s.poison = []) :
    (dmaReadBack s x ((0x1000100F : Nat) : Int)).2 = true := by
  unfold dmaReadBack
  rw [if_neg (by simp [hx])]
  show (dmaRead s ((0x1000100F : Nat) : Int) 1).2.2 = true
  have hr : dmaReaches s ((0x1000100F : Nat) : Int) false = true := rfl
  show (if (dmaReadLine s _ 1).2.2 = false ∨ 1 = 1 then _ else _ : State × List Byte × Bool).2.2 = true
  rw [if_pos (.inr rfl), dmaReadLine, if_pos hr]
  exact memRead_clean (by decide) hp

theorem wit_LaneReceiving_rewound :
    (let s := vcs 2 (fun x => { x with rewound := [frame0] }) z
     laneUp s 2 = true ∧ (vcOf s 2 2).unacked.findIdx? (fun f => f.seq.toNat = (0#12).toNat) = none ∧
       (vcOf s 2 2).rewound.findIdx? (fun f => f.seq.toNat = (0#12).toNat) = some 0 ∧
       ((vcOf s 2 2).unacked ++ (vcOf s 2 2).rewound).findIdx? (fun f => f.seq.toNat = (9#12).toNat) = none ∧ (vcOf z 2 2).rewound = []) ∧
    (let s := ring none 0 z
     let s : State := { s with pins := { s.pins with bypHold := true } }
     passing s 2 = true ∧ isEnum frame0 = false ∧ isEnum { frame0 with type := 3, body := leBytes 8 0 } = true ∧ passing z 2 = false) := by
  decide +kernel

theorem wit_HostAccesses_held :
    (let s := wr (wr (ln 0 lnActive z) R.HWIN1_BASE_HI 0#32) R.HWIN1_BASE_LO 0x10000000#32
     let s : State := { s with host := { cpls := [⟨true, 5, 0, [1#8]⟩], held := [.read true 8 1 8] } }
     hostServed s = true ∧ s.host.held ≠ [] ∧ s.host.cpls = ⟨true, 5, 0, [1#8]⟩ :: [] ∧ s.host.held = [.read true 8 1 8] ∧
       inRecovery s = false ∧ 0x10000000 ≤ winAddr s true 8 ∧ winAddr s true 8 + 8 ≤ 0x10200000 ∧ poisoned s (winAddr s true 8) 8 = false) ∧
    (let s : State := { ln 0 lnActive z with host := { cpls := List.replicate 64 ⟨true, 5, 0, [1#8]⟩, held := [] } }
     64 ≤ readsOut s) := by decide +kernel

def sdo0 : SdoHead := ⟨false, false, 5, 1⟩

theorem wit_CanTransfers_server :
    (canFd z = true ∧ canFd (foff z (R.CAN_CFG 0) F.CAN_CFG_FD) = false) ∧
    (let s := can 0 1 z
     nodeHears s 0 = true ∧ nmtOf s 0 ≠ 3 ∧ nmtOf (can 0 3 z) 0 = 3) ∧ sdo0.bad = false ∧ sdo0.block = false := by decide +kernel

theorem wit_ManagementMessages_ring :
    (let s := fset (ln 2 lnActive (ring (some 3) 2 (fw z))) R.RING_STAT F.RING_STAT_SIZE 8
     let h := { hdr0 with fwd := true, dest := 5 }
     toOther s h = true ∧ ringRanked s = true ∧ rstate s = 2 ∧ h.dest.val < ringSize s ∧ ringSize s ≤ (31 : Fin 32).val ∧
       (s.com.fwd.filter (fun f => samePath f.path (.lane 2))).length < 8) ∧
    (let s : State := { z with com := { z.com with fwd := List.replicate 8 ⟨.lane 2, 1, 1⟩ } }
     8 ≤ (s.com.fwd.filter (fun f => samePath f.path (.lane 2))).length) := by decide +kernel

theorem wit_EthernetPorts_clock :
    (let s := eth 1 z
     let s := fset s (R.ETH_CFG 0) F.ETH_CFG_PTP_SEL 1
     (flag s (R.ETH_CFG 1) F.ETH_CFG_PTP_EN && decide (ethIp s 1 ≠ 0)) = true ∧ ethServed s 1 = true ∧ ptpPort s = 1 ∧ s.com.ptpAt = none ∧
       ptpSends s 1 .sync = true ∧ ptpSends s 1 .delayReq = false ∧
       (∀ t0, ({ s with com := { s.com with ptpAt := some 5 } } : State).com.ptpAt = some t0 → t0 + 10 ≤ 15 ∧ 14 < t0 + 10)) ∧
    (let s := foff (eth 1 z) (R.ETH_CFG 1) F.ETH_CFG_PTP_EN
     flag s (R.ETH_CFG 1) F.ETH_CFG_PTP_EN = false ∧ ethServed s 1 = true) := by
  refine ⟨⟨?_, ?_, ?_, ?_, ?_, ?_, fun t0 h => ?_⟩, ?_⟩
  case refine_7 => obtain rfl := Option.some.inj h; decide
  all_goals decide +kernel

theorem wit_ModeChanges_calibrate :
    (let s := fon (md 2 z) R.SHT_CTRL F.SHT_CTRL_CAL_RUN
     modeOf s = .standby ∧ modeOfCode (3#3).toNat = some .calibrate ∧ Mode.calibrate ≠ modeOf s ∧ modeReason s .calibrate = none ∧
       flag s R.SHT_CTRL F.SHT_CTRL_CAL_RUN = true) ∧
    (modeOfCode 2).getD .standby ≠ .scan := by decide +kernel

/-! ### Single steps against the spec -/

/-- The state after a command. -/
def after (i : Instr) (s : State) : State := match exec i s with | .next t => t | _ => s

/-- 03, worked case of the 40 m return: tick 347, fine 72. -/
theorem test_edge_time : edgeTime z 22 0 { tick := 347#64, tap := 72 } = 44488 := by decide +kernel

/-- 04, worked case: shot 15 of row 4,211 draws jitter 1,133 and code 5. -/
theorem test_draw : jitterOf 0x3B9ED1A574000000#64 2500 = 1133 ∧ codeOf 0x3B9ED1A574000000#64 0xFFFF = 5 := by decide +kernel

/-- 04, worked case: END of row 4,211. -/
theorem test_row_end : rowEnd z { row0 with start := 1250000, depth := 16, period := 2500, jspan := 2500, binw := 3 } = 1291152 := by
  decide +kernel

/-- 04, worked case: row 4,211 as it stands in memory. -/
theorem test_row_read :
    (let s := put 0x0100483980 ([0x80000025, 0x001312D0, 0x001009C4, 0x00030000, 0xFFFF09C4, 0x8016FFFF].flatMap (leBytes 4)) z
     let r := rowAt (put (0x0100483980 + 0x24) (leBytes 4 0x00021073) s) 4211
     r.valid = true ∧ r.emitter = 37 ∧ r.start = 1250000 ∧ r.depth = 16 ∧ r.period = 2500 ∧ r.binw = 3 ∧ r.jspan = 2500 ∧
       r.codeMask = 0xFFFF ∧ r.listen = [(22, 0xFFFF)] ∧ r.safety = true ∧ r.scanner = 0 ∧ r.sliceId = 4211) := by decide +kernel

/-- 04, worked case: the gap record of shot 7. -/
theorem test_gap_record : GapRec.bytes ⟨1, 22, 0xFFFF, 4211, 7, 0x00045A1C0B27, 1, false, 0x2E41, 0, 0⟩ =
    [0x0116FFFF, 0x41CC0700, 0x5A1C0B27, 0x01002E41].flatMap (leBytes 4) := by decide +kernel

/-- 08, worked case: the bucket of the 40 m target. -/
theorem test_voxel_bucket : ttBucket 17 (unsigned 21 (-75)) 392 (unsigned 21 (-23)) = 8400 := by decide +kernel

/-- 15: the CRC-32C check value of its parameters. -/
theorem test_crc32c : crc32c (("123456789".toList).map (fun c => BitVec.ofNat 8 c.toNat)) = 0xE3069283#32 := by decide +kernel

/-- 01, R25: a DMA channel does not reach the register blocks. -/
theorem test_register_decode_error :
    (let t := after (.registerWrite .dma 0x0800000004#40 5#32) z
     rd t R.SYS_DECERR_LO = 4#32 ∧ fget t R.SYS_DECERR_HI F.SYS_DECERR_HI_ADDR = 8 ∧ evFlag t Ev.decodeErr = true) := by decide +kernel

/-- 09, R210: a coefficient of the inactive bank is written, one of the active bank is not. -/
theorem test_coefficients :
    (tget 0#8 (axis (after (.coeffBankWrite 3 1 0 0x11223344#32) z) 3).banks 129 = 0x33#8 ∧
      flag (after (.coeffBankWrite 3 0 0 0x11223344#32) z) R.CTL_STAT F.CTL_STAT_WPROT = true) := by decide +kernel

/-- 14, R336: INIT from OFF enters RESET with an SDRAM present. -/
theorem test_drc_init : drcState (after .drcInit (fon z R.DRC_GEOM F.DRC_GEOM_PRESENT)) = 1 ∧ drcState (after .drcInit z) = 0 := by
  decide +kernel

/-- 16, R376: taps that sum to 64 set TAP_ERR. -/
theorem test_taps : flag (after (.tapWrite 0 0 (putFld (putFld 0#32 F.LN_TX_C_MAIN 63) F.LN_TX_C_PRE 1)) z) (R.LN_TX 0 0) F.LN_TX_TAP_ERR = true := by
  decide +kernel

/-- 17, R410: NMT start and stop. -/
theorem test_nmt : nmtOf (after (.nmtCommand 0 1#8 0#8) (can 0 0 z)) 0 = 1 ∧ nmtOf (after (.nmtCommand 0 2#8 0#8) (can 0 1 z)) 0 = 2 := by
  decide +kernel

/-- 19, R460: a request for SCAN from BOOT is not listed. -/
theorem test_mode_refused :
    (let t := after (.modeRequest 4#3) z
     modeOf t = .boot ∧ fget t R.SYS_MODE F.SYS_MODE_REASON = 1) := by decide +kernel

/-- 2: the ball of RETIN[357] that R487 works out. -/
theorem test_ball : retinBall 357 = (10, 42) := by decide

/-- 20: the loss of REFCLK shows CLK_OFS as 0x8000_0000. -/
theorem test_ref_lost : rd (after (.refLost 0) z) R.CLK_OFS = 0x80000000#32 := by decide +kernel

/-- 19, R492: a pulse of 0.5 µs stops the model, one of 0.1 µs is ignored. -/
theorem test_reset_pulse : (match exec (.powerOnReset 5#32) z with | .fault f => decide (f = .resetPulseUndefined) | _ => false) = true ∧
    (match exec (.powerOnReset 1#32) z with | .next t => decide (t.sys.held = none) | _ => false) = true := by decide +kernel

end Sys2Proof.Tests
end

section
/-! What the operations that several blocks share keep: the parts and registers that each may change, the event flags that it keeps, and the
area of memory that it may write. -/

namespace Sys2Proof.Machine

/-! ### Scopes -/

/-- The registers that place the areas which the device writes for its own use: gap records (R31), the capture buffer (R105) and the
silt segments (R353). -/
def placeRegs : List Nat :=
  [R.CM_GAP_BASE, R.CM_GAP_LEN, R.CAP_BASE_LO, R.CAP_BASE_HI, R.CAP_LEN, R.CM_SPILL_BASE, R.CM_SPILL_LEN, R.SLQ_CTRL,
   R.SLQ_SD_BASE_LO, R.SLQ_SD_BASE_HI]

/-- A register that places an area, or one of the event flags. -/
def reserved (a : Nat) : Bool := decide (a ∈ placeRegs) || (decide (R.EV_FLAG 0 ≤ a) && decide (a < R.EV_FLAG 20))

/-- The device's own areas stand in `t` where they stood in `s`; the capture's write offset lies inside its buffer once it has moved. -/
structure SamePlaces (s t : State) : Prop where
  regs : ∀ a ∈ placeRegs, rd t a = rd s a
  ofs : t.sht.capOfs = s.sht.capOfs ∨ t.sht.capOfs < max 1 ((rd s R.CAP_LEN).toNat / 16)

/-- What an operation may change: parts, registers beside those of the events, and an area of memory that the state places. -/
structure Scope where
  parts : List Part
  regs : Nat → Bool
  area : State → Nat → Bool
  events : ∀ p ∈ evParts, p ∈ parts
  apart : ∀ a, regs a = true → reserved a = false
  shrinks : ∀ s t, SamePlaces s t → ∀ a, area t a = true → area s a = true

/-- From `s` to `t` nothing has changed outside the scope and what raising an event may change, and no event flag is lost. -/
structure Keeps (c : Scope) (s t : State) : Prop where
  parts : ∀ p, p ∉ c.parts → p.same s t
  regs : ∀ a, c.regs a = false → evReg a = false → rd t a = rd s a
  flags : FlagsKept s t
  ofs : t.sht.capOfs = s.sht.capOfs ∨ t.sht.capOfs < max 1 ((rd s R.CAP_LEN).toNat / 16)
  mem : memKept s t (c.area s)

/-- In state `s` the scope `c` lies within `d`. -/
structure Scope.In (c d : Scope) (s : State) : Prop where
  parts : ∀ p ∈ c.parts, p ∈ d.parts
  regs : ∀ a, c.regs a = true → d.regs a = true
  area : ∀ a, c.area s a = true → d.area s a = true

theorem placeRegs_quiet : ∀ a ∈ placeRegs, evReg a = false := by decide

variable {c d : Scope} {s t u : State}

theorem Scope.regs_place (c : Scope) {a : Nat} (ha : a ∈ placeRegs) : c.regs a = false := by
  by_contra h
  have := c.apart a (by simpa using h)
  simp [reserved, ha] at this

theorem Scope.flag_ne (c : Scope) {a : Nat} (ha : c.regs a = true) : ∀ w, w < 20 → R.EV_FLAG w ≠ a := by
  rintro w hw rfl
  have h := c.apart _ ha
  simp only [reserved, Bool.or_eq_false_iff, Bool.and_eq_false_iff, decide_eq_false_iff_not] at h
  unfold R.EV_FLAG at h
  omega

theorem Scope.regs_flag (c : Scope) {w : Nat} (hw : w < 20) : c.regs (R.EV_FLAG w) = false := by
  by_contra h
  exact c.flag_ne (by simpa using h) w hw rfl

theorem Keeps.samePlaces (h : Keeps c s t) : SamePlaces s t :=
  ⟨fun a ha => h.regs a (c.regs_place ha) (placeRegs_quiet a ha), h.ofs⟩

theorem Keeps.area_le (h : Keeps c s t) (d : Scope) : ∀ a, d.area t a = true → d.area s a = true := d.shrinks s t h.samePlaces

theorem Keeps.refl (c : Scope) (s : State) : Keeps c s s :=
  ⟨fun p _ => p.same_refl s, fun _ _ _ => rfl, flagsKept_refl s, .inl rfl, fun _ _ => rfl⟩

theorem Keeps.trans (h : Keeps c s t) (k : Keeps c t u) : Keeps c s u where
  parts p hp := p.same_trans (h.parts p hp) (k.parts p hp)
  regs a ha he := (k.regs a ha he).trans (h.regs a ha he)
  flags := flagsKept_trans h.flags k.flags
  ofs := by
    have hl : rd t R.CAP_LEN = rd s R.CAP_LEN := h.samePlaces.regs _ (by decide)
    rcases k.ofs with e | l
    · rw [e]; exact h.ofs
    · exact .inr (hl ▸ l)
  mem a ha := by
    have : c.area t a = false := by
      by_contra hc
      simp [h.area_le c a (by simpa using hc)] at ha
    exact (k.mem a this).trans (h.mem a ha)

theorem Keeps.mono (h : Keeps c s t) (i : c.In d s) : Keeps d s t where
  parts p hp := h.parts p (fun hc => hp (i.parts p hc))
  regs a ha he := h.regs a (by by_contra hc; simp [i.regs a (by simpa using hc)] at ha) he
  flags := h.flags
  ofs := h.ofs
  mem a ha := h.mem a (by by_contra hc; simp [i.area a (by simpa using hc)] at ha)

/-- One more operation of a narrower scope. -/
theorem Keeps.next (h : Keeps d s t) (k : Keeps c t u) (i : c.In d t) : Keeps d s u := h.trans (k.mono i)

theorem Keeps.frame (h : Keeps c s t) : frame c.parts (fun a => c.regs a || evReg a) s t :=
  ⟨h.parts, fun a ha => by
    rw [Bool.or_eq_false_iff] at ha
    exact h.regs a ha.1 ha.2⟩

theorem Keeps.fget (h : Keeps c s t) {a : Nat} (ha : c.regs a = false) (he : evReg a = false) (f : Fld) : fget t a f = fget s a f := by
  unfold Machine.fget; rw [h.regs a ha he]

theorem Keeps.flag (h : Keeps c s t) {a : Nat} (ha : c.regs a = false) (he : evReg a = false) (f : Fld) : flag t a f = flag s a f := by
  unfold Machine.flag; rw [h.fget ha he]

/-- A fold of operations that keep a scope keeps it. -/
theorem Keeps.foldl {α : Type} {f : State → α → State} {l : List α} (hf : ∀ t, ∀ x ∈ l, Keeps c t (f t x)) (h : Keeps c s t) :
    Keeps c s (l.foldl f t) :=
  List.foldlRecOn (motive := Keeps c s) l f h fun t ht x hx => ht.trans (hf t x hx)

/-! ### Shared operations -/

/-- Parts and registers of the scope change, no byte of memory. -/
theorem Keeps.quiet (h : Keeps c s t) (k : Machine.frame c.parts c.regs t u) (hm : u.mem = t.mem) (ho : u.sht.capOfs = t.sht.capOfs) : Keeps c s u :=
  h.trans ⟨k.1, fun a ha _ => k.2 a ha, flagsKept_of_rd fun _ hw => k.2 _ (c.regs_flag hw), .inl ho, fun a _ => mget_of_mem hm a⟩

theorem Keeps.done (h : Keeps c s t) : Keeps c s (done t) :=
  h.quiet (frame_done (frame_refl ..)) (done_mem t) (by rw [done_sht])

theorem Keeps.wr {a : Nat} (h : Keeps c s t) (ha : c.regs a = true) (v : Word) : Keeps c s (wr t a v) :=
  h.quiet (frame_wr (frame_refl ..) ha v) rfl rfl

theorem Keeps.fset {a : Nat} (h : Keeps c s t) (ha : c.regs a = true) (f : Fld) (v : Nat) : Keeps c s (fset t a f v) := h.wr ha _
theorem Keeps.foff {a : Nat} (h : Keeps c s t) (ha : c.regs a = true) (f : Fld) : Keeps c s (foff t a f) := h.wr ha _
theorem Keeps.fsetB {a : Nat} (h : Keeps c s t) (ha : c.regs a = true) (f : Fld) (b : Bool) : Keeps c s (fsetB t a f b) := h.wr ha _
theorem Keeps.fadd {a : Nat} (h : Keeps c s t) (ha : c.regs a = true) (f : Fld) (n : Nat) : Keeps c s (fadd t a f n) := h.wr ha _
theorem Keeps.finc {a : Nat} (h : Keeps c s t) (ha : c.regs a = true) (f : Fld) : Keeps c s (finc t a f) := h.wr ha _

theorem Keeps.fon {a : Nat} (h : Keeps c s t) (ha : c.regs a = true) (f : Fld) : Keeps c s (fon t a f) := by
  unfold Machine.fon
  split
  · exact (h.quiet (frame_noteSet (frame_refl ..) a _) rfl rfl).fset ha f 1
  · exact h.fset ha f 1

theorem capOfs_of_sht (h : Part.sht.same s t) : t.sht.capOfs = s.sht.capOfs := by
  have := congrArg ShtState.capOfs h
  exact this

theorem Keeps.raise (h : Keeps c s t) {n : Nat} (hn : n < 640) : Keeps c s (raise t n) := by
  have k := raise_frame t hn
  exact h.trans ⟨fun p hp => k.1 p (fun hh => hp (c.events p hh)), fun a _ he => k.2 a he, raise_flags t hn,
    .inl (capOfs_of_sht (k.1 .sht (by decide))), fun a _ => mget_of_mem (raise_mem t hn) a⟩

theorem Keeps.flagRaise {a : Nat} (h : Keeps c s t) (ha : c.regs a = true) (f : Fld) {n : Nat} (hn : n < 640) :
    Keeps c s (flagRaise t a f n) := (h.fon ha f).raise hn

/-! ### Scopes of lists -/

/-- The registers of the list are neither event flags nor place an area. -/
def unreserved (l : List Nat) : Bool := l.all (fun a => !reserved a)

/-- A scope of parts, of listed registers and of one area. -/
def Scope.of (ps : List Part) (l : List Nat) (area : State → Nat → Bool) (hl : unreserved l = true)
    (hs : ∀ s t, SamePlaces s t → ∀ a, area t a = true → area s a = true) : Scope where
  parts := ps ++ evParts
  regs := only l
  area := area
  events _ h := List.mem_append_right _ h
  apart a ha := by simpa using List.all_eq_true.mp hl a (by simpa [only] using ha)
  shrinks := hs

/-- A fixed area. -/
def fixed (p : Nat → Bool) : State → Nat → Bool := fun _ => p

theorem fixed_shrinks (p : Nat → Bool) : ∀ s t, SamePlaces s t → ∀ a, fixed p t a = true → fixed p s a = true := fun _ _ _ _ h => h

/-- What either of two scopes allows. -/
def Scope.union (c d : Scope) : Scope where
  parts := c.parts ++ d.parts
  regs a := c.regs a || d.regs a
  area s a := c.area s a || d.area s a
  events p h := List.mem_append_left _ (c.events p h)
  apart a h := by
    rcases Bool.or_eq_true_iff.mp h with h | h
    · exact c.apart a h
    · exact d.apart a h
  shrinks s t hp a h := by
    rcases Bool.or_eq_true_iff.mp h with h | h
    · simp [c.shrinks s t hp a h]
    · simp [d.shrinks s t hp a h]

theorem Scope.in_left (c d : Scope) (s : State) : c.In (c.union d) s :=
  ⟨fun _ h => List.mem_append_left _ h, fun a h => by simp [Scope.union, h], fun a h => by simp [Scope.union, h]⟩

theorem Scope.in_right (c d : Scope) (s : State) : d.In (c.union d) s :=
  ⟨fun _ h => List.mem_append_right _ h, fun a h => by simp [Scope.union, h], fun a h => by simp [Scope.union, h]⟩

theorem only_mem {l : List Nat} {a : Nat} : only l a = true ↔ a ∈ l := by simp [only]

/-- A scope of lists lies within another that allows each of its parts and registers, and its area. -/
theorem Scope.of_in {ps : List Part} {l : List Nat} {area : State → Nat → Bool} {hl : unreserved l = true}
    {hs : ∀ s t, SamePlaces s t → ∀ a, area t a = true → area s a = true} (hp : ps.all d.parts.contains = true)
    (hr : l.all d.regs = true) (ha : ∀ a, area s a = true → d.area s a = true) : (Scope.of ps l area hl hs).In d s where
  parts p h := by
    rcases List.mem_append.mp h with h | h
    · simpa using List.all_eq_true.mp hp p h
    · exact d.events p h
  regs a h := List.all_eq_true.mp hr a (only_mem.mp h)
  area := ha

theorem only_covers {l : List Nat} {own : Nat → Bool} (h : l.all own = true) : ∀ a, only l a = true → own a = true :=
  fun a ha => List.all_eq_true.mp h a (only_mem.mp ha)

theorem onlyEv_ev (l : List Nat) (a : Nat) (h : evReg a = true) : onlyEv l a = true := by simp [onlyEv, h]
theorem inBlocks_ev (l : List Nat) (a : Nat) (h : evReg a = true) : inBlocks l a = true := by simp [inBlocks, h]

/-- What a scope allows, as a frame. -/
theorem Keeps.frame_le {ps : List Part} {own : Nat → Bool} (h : Keeps c s t) (hp : ∀ p ∈ c.parts, p ∈ ps)
    (hr : ∀ a, c.regs a = true → own a = true) (he : ∀ a, evReg a = true → own a = true) : Machine.frame ps own s t :=
  frame_mono h.frame hp fun a ha => (Bool.or_eq_true_iff.mp ha).elim (hr a) (he a)

end Sys2Proof.Machine
end

section
/-! What the stores of masters and of the device's own blocks keep (R24, R25, R324, R345). -/

namespace Sys2Proof.Machine

variable {c d : Scope} {s t : State}

/-! ### Decode errors -/

/-- The registers of a decode error (R25). -/
def decodeRegs : List Nat := [R.SYS_CNT, R.SYS_DECERR_LO, R.SYS_DECERR_HI]

/-- A decode error changes its registers alone. -/
def decodeScope : Scope := .of [] decodeRegs (fixed noReg) (by decide) (fixed_shrinks _)

theorem decodeErr_keeps (s : State) (a : Nat) (w : Bool) : Keeps decodeScope s (decodeErr s a w) :=
  (((((Keeps.refl _ s).finc rfl _).wr rfl _).fsetB rfl _ _).fset rfl _ _).raise (by decide)

theorem decode_in (h : decodeRegs.all d.regs = true) : decodeScope.In d s := Scope.of_in rfl h fun _ h => absurd h Bool.false_ne_true

/-! ### Bytes -/

theorem mputBytes_eq (l : List Byte) : ∀ (s : State) (a : Nat), mputBytes s a l = { s with mem := (mputBytes s a l).mem } := by
  induction l with
  | nil => intro s a; rfl
  | cons b l ih => intro s a; rw [mputBytes, ih]; rfl

theorem storeBytes_eq (keep : Nat → Bool) (l : List Byte) :
    ∀ (s : State) (a : Nat), storeBytes keep s a l = { s with mem := (storeBytes keep s a l).mem } := by
  induction l with
  | nil => intro s a; rfl
  | cons b l ih =>
    intro s a
    rw [storeBytes, ih, storeByte]
    split <;> rfl

/-- A store with protected bytes changes no byte outside its own. -/
theorem mget_storeBytes_out (keep : Nat → Bool) (l : List Byte) :
    ∀ (s : State) (a b : Nat), b < a ∨ a + l.length ≤ b → mget (storeBytes keep s a l) b = mget s b := by
  induction l with
  | nil => intro s a b _; rfl
  | cons v l ih =>
    intro s a b h
    simp only [List.length_cons] at h
    rw [storeBytes, ih _ _ _ (by omega), storeByte]
    split
    · exact mget_mset_ne _ _ (by omega)
    · rfl

theorem within_false {b n a : Nat} (h : within b n a = false) : a < b ∨ b + n ≤ a := by
  simp only [within, decide_eq_false_iff_not] at h; omega

theorem within_true {b n a : Nat} (h : within b n a = true) : b ≤ a ∧ a < b + n := by simpa [within] using h

theorem fixed_within {b n a : Nat} (h : fixed (within b n) s a = true) : b ≤ a ∧ a < b + n := within_true h

theorem within_intro {b n a : Nat} (h1 : b ≤ a) (h2 : a < b + n) : within b n a = true := by simp [within, h1, h2]

/-- The memory alone changes, inside the scope's area. -/
theorem Keeps.memory (h : Keeps c s t) (hp : c.parts.contains .mem = true) (m : List Host.Cell)
    (hm : memKept t { t with mem := m } (c.area t)) : Keeps c s { t with mem := m } :=
  have k := frame_mem (frame_refl c.parts c.regs t) (List.contains_iff_mem.mp hp) m
  h.trans ⟨k.1, fun a ha _ => k.2 a ha, flagsKept_of_rd fun _ _ => rfl, .inl rfl, hm⟩

theorem Keeps.mputBytes (h : Keeps c s t) (hp : c.parts.contains .mem = true) (a : Nat) (l : List Byte)
    (ha : ∀ b, within a l.length b = true → c.area t b = true) : Keeps c s (mputBytes t a l) := by
  rw [mputBytes_eq]
  refine h.memory hp _ fun b hb => ?_
  rw [← mputBytes_eq]
  refine mget_mputBytes_out l t a b (within_false ?_)
  by_contra hw
  simp [ha b (by simpa using hw)] at hb

theorem Keeps.storeBytes (h : Keeps c s t) (hp : c.parts.contains .mem = true) (keep : Nat → Bool) (a : Nat) (l : List Byte)
    (ha : ∀ b, within a l.length b = true → c.area t b = true) : Keeps c s (storeBytes keep t a l) := by
  rw [storeBytes_eq]
  refine h.memory hp _ fun b hb => ?_
  rw [← storeBytes_eq]
  refine mget_storeBytes_out keep l t a b (within_false ?_)
  by_contra hw
  simp [ha b (by simpa using hw)] at hb

theorem Keeps.poison (h : Keeps c s t) (hp : c.parts.contains .poison = true) (x : List Nat) : Keeps c s { t with poison := x } :=
  h.quiet (frame_poison (frame_refl ..) (List.contains_iff_mem.mp hp) x) rfl rfl

theorem Keeps.drcUse (h : Keeps c s t) (hp : c.parts.contains .dram = true) (a n : Nat) (w : Bool) : Keeps c s (drcUse t a n w) :=
  h.quiet (frame_drcUse (frame_refl ..) (List.contains_iff_mem.mp hp) a n w) (drcUse_mem ..) (by unfold Machine.drcUse; split <;> rfl)

/-! ### Stores of the device's own blocks -/

/-- A store into a table in clay memory: its own bytes, and the registers of a decode error. -/
def clayScope (p : Nat → Bool) : Scope := .of [.mem, .poison] decodeRegs (fixed p) (by decide) (fixed_shrinks _)

theorem clayStore_keeps (s : State) (a : Nat) (l : List Byte) : Keeps (clayScope (within a l.length)) s (clayStore s a l) := by
  unfold clayStore
  split
  · exact (decodeErr_keeps s _ true).mono (decode_in rfl)
  · exact ((Keeps.refl _ s).poison rfl _).mputBytes rfl a l fun _ h => h

/-- A store of a block anywhere (R25, R337): as in clay memory, and the controller of the SDRAM. -/
def blockScope (p : Nat → Bool) : Scope :=
  .of [.mem, .poison, .dram] (R.DRC_CNT_A :: decodeRegs) (fixed p) (by decide) (fixed_shrinks _)

theorem blockWrite_keeps (s : State) (a : Nat) (l : List Byte) : Keeps (blockScope (within a l.length)) s (blockWrite s a l) := by
  unfold blockWrite
  split
  · exact (decodeErr_keeps s _ true).mono (decode_in rfl)
  · split
    · exact (Keeps.refl _ s).finc rfl _
    · exact (((Keeps.refl _ s).drcUse rfl _ _ _).poison rfl _).mputBytes rfl a l fun _ h => h

/-! ### Stores of masters -/

/-- The registers of the errors of the memories (R324, R326, R345). -/
def memErrRegs : List Nat :=
  [R.DRC_CNT_A, R.DRC_ERR_LO, R.DRC_ERR_HI, R.DRC_STAT] ++ (List.range 4).flatMap (fun r => [R.MEM_RSTAT r, R.MEM_RCNT r, R.MEM_RADDR r])

/-- A store of a master, or into a buffer: its own bytes, and the registers of the errors and of the protection (R91). -/
def bufferScope (p : Nat → Bool) : Scope :=
  .of [.mem, .poison, .dram] (R.SHT_STAT :: decodeRegs ++ memErrRegs) (fixed p) (by decide) (fixed_shrinks _)

theorem memRegion_lt {s : State} {a r : Nat} (h : memRegion s a = some r) : r < 4 := by
  unfold memRegion at h
  split at h <;> simp_all <;> omega

theorem bufferScope_mem (p : Nat → Bool) {r : Nat} (h : r < 4) :
    (bufferScope p).regs (R.MEM_RSTAT r) = true ∧ (bufferScope p).regs (R.MEM_RCNT r) = true ∧ (bufferScope p).regs (R.MEM_RADDR r) = true := by
  have hm : ∀ a ∈ [R.MEM_RSTAT r, R.MEM_RCNT r, R.MEM_RADDR r], (bufferScope p).regs a = true := fun a ha =>
    only_mem.mpr (List.mem_append_right _ (List.mem_append_right _ (List.mem_flatMap.mpr ⟨r, List.mem_range.mpr h, ha⟩)))
  exact ⟨hm _ (by simp), hm _ (by simp), hm _ (by simp)⟩

theorem ueRecord_keeps (p : Nat → Bool) (s : State) (a : Nat) : Keeps (bufferScope p) s (ueRecord s a) := by
  unfold ueRecord
  split
  · next r hr =>
    have h4 := memRegion_lt hr
    obtain ⟨h1, h2, h3⟩ := bufferScope_mem p h4
    exact ((((Keeps.refl _ s).fon h1 _).finc h2 _).fset h3 _ _).raise (by omega)
  · exact ((((Keeps.refl _ s).wr rfl _).wr rfl _).finc rfl _).flagRaise rfl _ (by decide)

theorem memWrite_keeps (s : State) (a : Nat) (l : List Byte) (sec : Bool) :
    Keeps (bufferScope (within a l.length)) s (memWrite s a l sec).1 := by
  unfold memWrite
  split
  · exact (Keeps.refl _ s).finc rfl _
  · have hs : ∀ (q : List Nat) k, Keeps (bufferScope (within a l.length)) s
        (storeBytes k (drcUse { s with poison := q } a l.length true) a l) := fun q k =>
      (((Keeps.refl _ s).poison rfl q).drcUse rfl _ _ _).storeBytes rfl k a l fun _ h => h
    have hw : ∀ (b : Bool) (q : List Nat) k, Keeps (bufferScope (within a l.length)) s
        (if b then wprot (storeBytes k (drcUse { s with poison := q } a l.length true) a l)
          else storeBytes k (drcUse { s with poison := q } a l.length true) a l) := by
      intro b q k
      split
      · exact (hs q k).flagRaise rfl _ (by decide)
      · exact hs q k
    dsimp only
    split
    · exact (hw ..).trans (ueRecord_keeps ..)
    · exact hw ..

theorem bufferWrite_keeps (s : State) (a : Nat) (l : List Byte) : Keeps (bufferScope (within a l.length)) s (bufferWrite s a l) := by
  unfold bufferWrite
  split
  · exact (decodeErr_keeps s _ true).mono (decode_in rfl)
  · exact memWrite_keeps ..

end Sys2Proof.Machine
end

section
/-! What gap records (R102 to R104), the diagnostic capture (R105) and the loss of a DLL's lock (R79) keep. -/

namespace Sys2Proof.Machine

variable {s t : State}

/-! ### Gap records -/

theorem gapArea_shrinks (s t : State) (h : SamePlaces s t) (a : Nat) (ha : gapArea t a = true) : gapArea s a = true := by
  simpa only [gapArea, gapAddr, fget, h.regs R.CM_GAP_BASE (by decide), h.regs R.CM_GAP_LEN (by decide)] using ha

/-- The registers of a gap record: its counters, those of an item that comes late (R180), GAP_LOST and a decode error's. -/
def gapRegs : List Nat := R.SHT_STAT :: R.PS_STAT :: R.PS_CNT_A :: (List.range 18).map R.GAP_CNT ++ decodeRegs

/-- A gap record: it stands in its area, and slices and safety frames take note of it. -/
def gapScope : Scope := .of gapParts gapRegs gapArea (by decide) gapArea_shrinks

theorem leBytes_length (n : Nat) : ∀ v, (leBytes n v).length = n := by
  induction n with
  | zero => intro v; rfl
  | succ n ih => intro v; simp [leBytes, ih]

theorem gapRec_length (g : GapRec) : g.bytes.length = 16 := by
  simp [GapRec.bytes, wordsBytes, leBytes_length]

theorem gapArea_of_slot {i : Nat} (hi : i < gapRoom s) {a : Nat} (ha : within (gapAddr s i) 16 a = true) : gapArea s a = true := by
  obtain ⟨h1, h2⟩ := within_true ha
  unfold gapRoom at hi
  unfold gapAddr at h1 h2
  unfold gapArea gapAddr
  exact within_intro (by omega) (by omega)

theorem gapStore_keeps (s : State) (p : GapRec → Bool) : Keeps gapScope s (gapStore s p) := by
  unfold gapStore
  refine (Keeps.refl _ s).foldl fun t g _ => ?_
  split
  · next hg =>
    refine (clayStore_keeps t _ _).mono (Scope.of_in rfl rfl fun a ha => gapArea_of_slot hg ?_)
    rwa [fixed, gapRec_length] at ha
  · exact Keeps.refl ..

/-- The list of pending gap records changes. -/
theorem Keeps.gaps (h : Keeps gapScope s t) (x : List GapRec) (l : List Nat) :
    Keeps gapScope s { t with sht := { t.sht with gaps := x, lostTiles := l } } :=
  h.quiet (frame_sht (frame_refl ..) (by decide) (by decide) _) rfl rfl

theorem Keeps.saf (h : Keeps gapScope s t) (x : SafState) : Keeps gapScope s { t with saf := x } :=
  h.quiet (frame_saf (frame_refl ..) (by decide) x) rfl rfl

theorem psLate_keeps (s : State) : Keeps gapScope s (psLate s) :=
  (((Keeps.refl _ s).fon rfl _).finc rfl _).raise (by decide)

theorem gapCnt_regs {i : Nat} (h : i < 18) : gapScope.regs (R.GAP_CNT i) = true :=
  only_mem.mpr (List.mem_append_left _ (List.mem_cons_of_mem _ (List.mem_cons_of_mem _ (List.mem_cons_of_mem _
    (List.mem_map.mpr ⟨i, List.mem_range.mpr h, rfl⟩)))))

theorem gapAdd_keeps (s : State) {reason : Nat} (hr : reason ≤ 18) (tile mask row frame first len seq : Nat) :
    Keeps gapScope s (gapAdd s reason tile mask row frame first len seq) := by
  unfold gapAdd
  split
  · exact Keeps.refl ..
  extract_lets s1 s2 p hit src q hit' i s3 src' s4
  have h1 : Keeps gapScope s s1 := (Keeps.refl _ s).fadd (gapCnt_regs (by omega)) _ _
  have h2 : Keeps gapScope s s2 := by
    unfold s2
    split
    · exact h1.saf _
    · exact h1
  clear_value s2
  split
  · exact h2.trans (psLate_keeps s2)
  have h3 : Keeps gapScope s s3 := by
    unfold s3
    split
    · exact (h2.gaps _ _).trans (gapStore_keeps ..)
    split
    · exact (h2.gaps _ _).trans (gapStore_keeps ..)
    split
    · exact (h2.gaps _ _).trans (gapStore_keeps ..)
    · exact ((h2.gaps _ _).fon rfl _).raise (by decide)
  have h4 : Keeps gapScope s s4 := h3.quiet (frame_ps (frame_refl ..) (by decide) _) rfl rfl
  clear_value s4
  split
  · exact h4.saf _
  · exact h4

/-! ### The capture buffer -/

theorem capArea_shrinks (s t : State) (h : SamePlaces s t) (a : Nat) (ha : capArea t a = true) : capArea s a = true := by
  have hb : capBase t = capBase s := by
    unfold capBase fget; rw [h.regs R.CAP_BASE_LO (by decide), h.regs R.CAP_BASE_HI (by decide)]
  have hl : rd t R.CAP_LEN = rd s R.CAP_LEN := h.regs _ (by decide)
  simp only [capArea, hb, hl, Bool.or_eq_true] at ha ⊢
  rcases ha with ha | ha
  · exact .inl ha
  · rcases h.ofs with e | l
    · exact .inr (e ▸ ha)
    · obtain ⟨h1, h2⟩ := within_true ha
      exact .inl (within_intro (by omega) (by omega))

/-- An entry of the capture buffer: a store there, and the write offset moves on. -/
def capScope : Scope := .of [.sht, .mem, .poison, .dram] (R.SHT_STAT :: decodeRegs ++ memErrRegs) capArea (by decide) capArea_shrinks

theorem pulseRec_length (r : PulseRec) : r.bytes.length = 8 := by simp [PulseRec.bytes, leBytes_length]

theorem mget_sht (s : State) (x : ShtState) (a : Nat) : mget { s with sht := x } a = mget s a := rfl

theorem capEntry_keeps (s : State) (fire idx : Nat) (fb : Bool) (code : Nat) (r : PulseRec) :
    Keeps capScope s (capEntry s fire idx fb code r) := by
  unfold capEntry
  extract_lets n head u ts
  have hl : (head ++ r.bytes).length = 16 := by simp [head, leBytes_length, pulseRec_length]
  have hu : Keeps capScope s u := (bufferWrite_keeps s _ _).mono (Scope.of_in rfl rfl fun a ha => by
    rw [fixed, hl] at ha
    simp [capScope, Scope.of, capArea, ha])
  clear_value u
  have k := frame_sht (frame_refl capScope.parts capScope.regs u) (by decide) (by decide)
    { u.sht with
      capOfs := (u.sht.capOfs + 1) % max 1 n, capTicks := ts.take n,
      capLost := (ts.drop n).foldl (fun m t => some (max t (m.getD 0))) u.sht.capLost }
  have hn : (u.sht.capOfs + 1) % max 1 n < max 1 ((rd u R.CAP_LEN).toNat / 16) := by
    rw [hu.samePlaces.regs R.CAP_LEN (by decide)]
    exact Nat.mod_lt _ (by omega)
  exact hu.trans ⟨k.1, fun a ha _ => k.2 a ha, flagsKept_of_rd fun w hw => k.2 _ (capScope.regs_flag hw), .inr hn, fun a _ => mget_sht u _ a⟩

theorem capRecords_keeps (s : State) (n : Nat) (w : Win) : Keeps capScope s (capRecords s n w) := by
  unfold capRecords
  split
  · exact (Keeps.refl _ s).foldl fun t r _ => capEntry_keeps t ..
  · exact Keeps.refl ..

/-! ### Dropped windows and lost locks -/

/-- What the front end and the histograms note of a dropped window. -/
def windowScope : Scope := .of [.fe, .gt] [] (fixed noReg) (by decide) (fixed_shrinks _)

/-- Windows dropped with their records: what the capture has of them is stored, and gap records stand for the shots (R66, R79). -/
def dropScope : Scope := gapScope.union (capScope.union windowScope)

theorem gap_in_drop (s : State) : gapScope.In dropScope s := Scope.in_left ..
theorem cap_in_drop (s : State) : capScope.In dropScope s :=
  ⟨fun p h => (Scope.in_right gapScope _ s).parts p ((Scope.in_left capScope windowScope s).parts p h),
    fun a h => (Scope.in_right gapScope _ s).regs a ((Scope.in_left capScope windowScope s).regs a h),
    fun a h => (Scope.in_right gapScope _ s).area a ((Scope.in_left capScope windowScope s).area a h)⟩

theorem dropOn_keeps (s : State) (n : Nat) (p : Win → Bool) : Keeps dropScope s (dropOn s n p).1 := by
  unfold dropOn histUnshot modFe
  extract_lets hit unopened u src v
  have hu : Keeps dropScope s u := (Keeps.refl _ s).foldl fun t w _ => (capRecords_keeps t n w).mono (cap_in_drop t)
  clear_value u
  have hv : Keeps dropScope s v := hu.quiet (frame_gt (frame_refl ..) (by decide) _) rfl rfl
  exact hv.quiet (frame_fe (frame_refl ..) (by decide) _) rfl rfl

theorem dropWindows_keeps (s : State) (u : Nat) (p : Win → Bool) : Keeps dropScope s (dropWindows s u p) := by
  unfold dropWindows
  extract_lets r msgs
  have hr : Keeps dropScope s r.1 :=
    List.foldlRecOn (motive := fun acc : State × List (ArmMsg × Nat) => Keeps dropScope s acc.1) _ _ (Keeps.refl _ s)
      fun acc h k _ => h.trans (dropOn_keeps acc.1 (16 * u + k) p)
  exact hr.foldl fun t m _ => (gapAdd_keeps t (by decide) ..).mono (gap_in_drop t)

end Sys2Proof.Machine
end

section
/-! The loss of a DLL's lock (R79), and what a record in a silt queue keeps (R353 to R355). -/

namespace Sys2Proof.Machine

variable {s t : State}

/-! ### A DLL loses its lock -/

/-- The registers that a unit's fault sets (R66, R79). -/
def lockRegs : List Nat := [R.TDC_FAULT, R.TDC_CAL_STAT, R.TDC_CNT]

/-- A fault of a calibration unit: its tables and its registers. -/
def lockScope : Scope := .of [.tdc, .sht] lockRegs (fixed noReg) (by decide) (fixed_shrinks _)

/-- A fault of a calibration unit with the windows that it costs. -/
def unlockScope : Scope := lockScope.union dropScope

theorem lock_in_unlock (s : State) : lockScope.In unlockScope s := Scope.in_left ..
theorem drop_in_unlock (s : State) : dropScope.In unlockScope s := Scope.in_right ..

theorem unlockScope_covers {own : Nat → Bool} (h : (lockRegs ++ gapRegs ++ memErrRegs).all own = true) :
    ∀ a, unlockScope.regs a = true → own a = true := by
  intro a ha
  refine List.all_eq_true.mp h a ?_
  simp only [unlockScope, dropScope, Scope.union, lockScope, gapScope, capScope, windowScope, Scope.of, Bool.or_eq_true, only_mem] at ha
  simp only [gapRegs, List.mem_append, List.mem_cons] at ha ⊢
  tauto

theorem unlockScope_area (s : State) (a : Nat) : unlockScope.area s a = (gapArea s a || capArea s a) := by
  simp [unlockScope, dropScope, Scope.union, lockScope, gapScope, capScope, windowScope, Scope.of, fixed, noReg]

/-- The lock of unit u is noted as lost, with its tables; the windows are still there. -/
def lockLost (s : State) (u : Nat) : State :=
  let s := { s with tdc := { s.tdc with
    unlocked := s.tdc.unlocked ++ [u],
    tabs := s.tdc.tabs.filter (fun p => p.1 / 32 ≠ u),
    newTabs := s.tdc.newTabs.filter (fun p => p.1 / 32 ≠ u),
    starved := s.tdc.starved.filter (fun x => x / 32 ≠ u) } }
  let s := fset s R.TDC_FAULT F.TDC_FAULT_UNLOCK_UNIT u
  raise (finc (fon s R.TDC_CAL_STAT F.TDC_CAL_STAT_DLL_UNLOCK) R.TDC_CNT F.TDC_CNT_UNLOCK_CNT) Ev.dllUnlock

/-- The windows or the shots that the unit's lost lock costs (R79). -/
def lockDrops (s : State) (u : Nat) : State :=
  if u < 64 then dropWindows s u (fun w => w.pending)
  else { s with sht := { s.sht with shots := s.sht.shots.map (fun x =>
    if x.fired && !x.waited then { x with fbLost := true } else x) } }

theorem dllUnlock_eq (s : State) (u : Nat) :
    dllUnlock s u = if s.tdc.unlocked.contains u then s else lockDrops (lockLost s u) u := rfl

theorem lockLost_keeps (s : State) (u : Nat) : Keeps lockScope s (lockLost s u) := by
  unfold lockLost
  extract_lets src v w
  have hv : Keeps lockScope s v := (Keeps.refl _ s).quiet (frame_tdc (frame_refl ..) (by decide) _) rfl rfl
  exact (((hv.fset rfl _ _).fon rfl _).finc rfl _).raise (by decide)

theorem lockDrops_keeps (s : State) (u : Nat) : Keeps unlockScope s (lockDrops s u) := by
  unfold lockDrops
  split
  · exact (dropWindows_keeps s u _).mono (drop_in_unlock s)
  · exact (Keeps.refl _ s).quiet (frame_sht (frame_refl ..) (by decide) (by decide) _) rfl rfl

theorem dllUnlock_keeps (s : State) (u : Nat) : Keeps unlockScope s (dllUnlock s u) := by
  rw [dllUnlock_eq]
  split
  · exact Keeps.refl ..
  · exact ((lockLost_keeps s u).mono (lock_in_unlock s)).trans (lockDrops_keeps ..)

/-- Dropping windows changes nothing of the fabric and none of its registers. -/
theorem lockDrops_fabric (s : State) (u : Nat) : (lockDrops s u).tdc = s.tdc ∧ rd (lockDrops s u) R.TDC_CAL_STAT = rd s R.TDC_CAL_STAT := by
  unfold lockDrops
  split
  · have h := dropWindows_keeps s u (fun w => w.pending)
    exact ⟨h.parts .tdc (by decide), h.regs _ (by decide) (by decide)⟩
  · exact ⟨rfl, rfl⟩

theorem lockLost_tdc (s : State) (u : Nat) : (lockLost s u).tdc = { s.tdc with
    unlocked := s.tdc.unlocked ++ [u],
    tabs := s.tdc.tabs.filter (fun p => p.1 / 32 ≠ u),
    newTabs := s.tdc.newTabs.filter (fun p => p.1 / 32 ≠ u),
    starved := s.tdc.starved.filter (fun x => x / 32 ≠ u) } := by
  unfold lockLost
  exact ((raise_frame _ (by decide)).1 .tdc (by decide)).trans rfl

theorem rd_finc_ne (s : State) {a b : Nat} (f : Fld) (h : b ≠ a) : rd (finc s a f) b = rd s b := rd_wr_ne s _ h

theorem fget_fon_reg (s : State) {a b : Nat} (f g : Fld) (h : b ≠ a) : fget (fon s a f) b g = fget s b g := by
  unfold fget; rw [rd_fon, rd_fset_ne s f 1 h]

theorem fget_fon_ne (s : State) (a : Nat) (f g : Fld) (h : f.lo ≤ f.hi) (hh : f.hi < 32) (hd : g.hi < f.lo ∨ f.hi < g.lo) (hg : g.lo ≤ g.hi) :
    fget (fon s a f) a g = fget s a g := by
  unfold fget; rw [rd_fon]; exact fget_fset_ne s a f g 1 h hh hd hg

theorem flag_fon_same (s : State) (a : Nat) (f : Fld) (h : f.lo = f.hi) (hh : f.hi < 32) : flag (fon s a f) a f = true := by
  unfold flag; rw [fget_fon_same s a f h.le hh]; simp [Fld.width, h]

theorem flag_foff_same (s : State) (a : Nat) (f : Fld) (h : f.lo ≤ f.hi) (hh : f.hi < 32) : flag (foff s a f) a f = false := by
  unfold flag foff; rw [fget_fset_same s a f 0 h hh]; simp

theorem flag_of_rd {a : Nat} (h : rd t a = rd s a) (f : Fld) : flag t a f = flag s a f := by unfold flag fget; rw [h]
theorem fget_of_rd {a : Nat} (h : rd t a = rd s a) (f : Fld) : fget t a f = fget s a f := by unfold fget; rw [h]

theorem lockLost_flag (s : State) (u : Nat) : flag (lockLost s u) R.TDC_CAL_STAT F.TDC_CAL_STAT_DLL_UNLOCK = true := by
  unfold lockLost
  rw [flag_of_rd ((raise_frame _ (by decide)).2 _ (by decide)), flag_of_rd (rd_finc_ne _ _ (by decide))]
  exact flag_fon_same _ _ _ rfl (by decide)

theorem lockLost_event (s : State) (u : Nat) : evFlag (lockLost s u) Ev.dllUnlock = true := by
  unfold lockLost
  exact evFlag_raise _ (by decide) fun h => absurd h.2.1 (by decide)

theorem dllUnlock_unlocked (s : State) (u : Nat) :
    (dllUnlock s u).tdc.unlocked = if s.tdc.unlocked.contains u then s.tdc.unlocked else s.tdc.unlocked ++ [u] := by
  rw [dllUnlock_eq]
  split
  · rfl
  · rw [(lockDrops_fabric ..).1, lockLost_tdc]

theorem mem_unlocked_dllUnlock (s : State) (u v : Nat) : v ∈ (dllUnlock s u).tdc.unlocked ↔ v ∈ s.tdc.unlocked ∨ v = u := by
  rw [dllUnlock_unlocked]
  split
  · next h =>
    have hu : u ∈ s.tdc.unlocked := by simpa using h
    constructor
    · exact .inl
    · rintro (h | rfl)
      · exact h
      · exact hu
  · simp

/-- The units of a list lose their locks, and every other unit that had lost it before. -/
theorem mem_unlocked_foldl (l : List (Fin 65)) : ∀ (s : State) (v : Nat),
    v ∈ (l.foldl (fun s u => dllUnlock s u.val) s).tdc.unlocked ↔ v ∈ s.tdc.unlocked ∨ ∃ u ∈ l, v = u.val := by
  induction l with
  | nil => intro s v; simp
  | cons u l ih =>
    intro s v
    rw [List.foldl_cons, ih, mem_unlocked_dllUnlock]
    simp [or_assoc]

/-! ### Silt segments -/

theorem spillArea_shrinks (s t : State) (h : SamePlaces s t) (a : Nat) (ha : spillArea t a = true) : spillArea s a = true := by
  have hg : ∀ g, segAddr t g = segAddr s g := fun g => by
    unfold segAddr fget
    rw [h.regs R.CM_SPILL_BASE (by decide), h.regs R.SLQ_SD_BASE_HI (by decide), h.regs R.SLQ_SD_BASE_LO (by decide)]
  unfold spillArea fget at *
  rwa [hg, hg, h.regs R.CM_SPILL_LEN (by decide), h.regs R.SLQ_CTRL (by decide)] at ha

/-- The registers of the silt queues that show their levels and count, and those of a store's errors. -/
def siltRegs (a : Nat) : Bool :=
  only (R.SLQ_STAT :: R.SLQ_POOL_C :: R.SLQ_POOL_S :: R.DRC_CNT_A :: decodeRegs) a ||
    (decide (R.SLQ_CFG 0 ≤ a) && decide (a < R.SLQ_CFG 256))

theorem siltRegs_apart (a : Nat) (h : siltRegs a = true) : reserved a = false := by
  rcases Bool.or_eq_true_iff.mp h with h | h
  · have : unreserved (R.SLQ_STAT :: R.SLQ_POOL_C :: R.SLQ_POOL_S :: R.DRC_CNT_A :: decodeRegs) = true := by decide
    simpa using List.all_eq_true.mp this a (only_mem.mp h)
  · simp only [Bool.and_eq_true, decide_eq_true_eq] at h
    simp only [reserved, placeRegs, List.mem_cons, List.not_mem_nil, or_false, Bool.or_eq_false_iff, Bool.and_eq_false_iff,
      decide_eq_false_iff_not, R.CM_GAP_BASE, R.CM_GAP_LEN, R.CAP_BASE_LO, R.CAP_BASE_HI, R.CAP_LEN, R.CM_SPILL_BASE, R.CM_SPILL_LEN,
      R.SLQ_CTRL, R.SLQ_SD_BASE_LO, R.SLQ_SD_BASE_HI, R.EV_FLAG, R.SLQ_CFG, blockBase] at h ⊢
    exact ⟨by omega, .inr (decide_eq_false (by omega))⟩

/-- A silt queue takes a record: its segments, its levels and counters. -/
def siltScope : Scope where
  parts := [.slq, .mem, .poison, .dram] ++ evParts
  regs := siltRegs
  area := spillArea
  events _ h := List.mem_append_right _ h
  apart := siltRegs_apart
  shrinks := spillArea_shrinks

theorem siltRegs_queue {q : Nat} (hq : q < 256) : siltScope.regs (R.SLQ_LEVEL q) = true ∧ siltScope.regs (R.SLQ_QSTAT q) = true ∧
    siltScope.regs (R.SLQ_CNT q) = true := by
  have h : ∀ a, R.SLQ_CFG 0 ≤ a → a < R.SLQ_CFG 256 → siltScope.regs a = true := fun a h1 h2 => by simp [siltScope, siltRegs, h1, h2]
  unfold R.SLQ_CFG at h
  unfold R.SLQ_LEVEL R.SLQ_QSTAT R.SLQ_CNT
  exact ⟨h _ (by omega) (by omega), h _ (by omega) (by omega), h _ (by omega) (by omega)⟩

/-- The queues and pools of silt change. -/
theorem Keeps.slq (h : Keeps siltScope s t) (x : SlqState) : Keeps siltScope s { t with slq := x } :=
  h.quiet (frame_slq (frame_refl ..) (by decide) x) rfl rfl

theorem slqShow_keeps (s : State) {q : Nat} (hq : q < 256) : Keeps siltScope s (slqShow s q) := by
  obtain ⟨hl, hs, -⟩ := siltRegs_queue hq
  unfold slqShow
  exact (((((Keeps.refl _ s).fset hl _ _).fset hl _ _).fset hs _ _).fset rfl _ _).fset rfl _ _

theorem slqTake_keeps {q : Nat} {r : Bool} : ∀ (n held : Nat) {s t : State} {l : List (Bool × Nat)},
    slqTake s q r n held = some (t, l) → Keeps siltScope s t := by
  intro n
  induction n with
  | zero =>
    intro held s t l h
    obtain ⟨rfl, -⟩ := Prod.mk.inj (Option.some.inj h)
    exact Keeps.refl ..
  | succ n ih =>
    intro held s t l h
    rw [slqTake] at h
    split at h
    · cases h
    · dsimp only at h
      split at h
      · cases h
      · next hu =>
        obtain ⟨rfl, -⟩ := Prod.mk.inj (Option.some.inj h)
        exact ((Keeps.refl _ s).slq _).trans (ih _ hu)

theorem segAddr_split (s : State) (p : Bool) (i : Nat) : segAddr s (p, i) = segAddr s (p, 0) + 1024 * i := by simp [segAddr]

theorem segStore_keeps (s : State) (g : Bool × Nat) {o : Nat} {bs : List Byte} (h : o + bs.length ≤ 1024) :
    Keeps siltScope s (segStore s g o bs) := by
  obtain ⟨p, i⟩ := g
  unfold segStore
  dsimp only
  cases p
  · simp only [Bool.false_eq_true, if_false]
    split
    · next hi =>
      refine (clayStore_keeps s _ _).mono (Scope.of_in rfl rfl fun a ha => ?_)
      obtain ⟨h1, h2⟩ := fixed_within ha
      rw [segAddr_split] at h1 h2
      exact Bool.or_eq_true_iff.mpr (.inl (within_intro (by omega) (by omega)))
    · exact Keeps.refl ..
  · simp only [if_true]
    split
    · next hi =>
      refine (blockWrite_keeps s _ _).mono (Scope.of_in rfl rfl fun a ha => ?_)
      obtain ⟨h1, h2⟩ := fixed_within ha
      rw [segAddr_split] at h1 h2
      exact Bool.or_eq_true_iff.mpr (.inr (within_intro (by omega) (by omega)))
    · exact Keeps.refl ..

theorem slqFlush_keeps (s : State) (u : SlqUnit) (a b : Nat) : Keeps siltScope s (slqFlush s u a b) := by
  unfold slqFlush
  refine (Keeps.refl _ s).foldl fun t i _ => ?_
  split
  · refine segStore_keeps t _ ?_
    rw [List.length_take]; omega
  · exact Keeps.refl ..

theorem headFill_keeps (s : State) (q : Nat) : Keeps siltScope s (headFill s q) := (Keeps.refl _ s).slq _

theorem slqNewUnit_keeps (s : State) {q : Nat} (hq : q < 256) (u : SlqUnit) : Keeps siltScope s (slqNewUnit s q u).1 := by
  unfold slqNewUnit
  split
  · exact ((Keeps.refl _ s).finc (siltRegs_queue hq).2.2 _).fon rfl _
  · next t l ht =>
    extract_lets v w
    have hw : Keeps siltScope s w := (slqTake_keeps _ _ ht).slq _
    clear_value w
    dsimp only
    refine Keeps.trans ?_ (slqShow_keeps _ hq)
    split
    · exact (hw.trans (slqFlush_keeps ..)).trans (headFill_keeps ..)
    · exact hw

theorem slqRecord_keeps (s : State) {q : Nat} (hq : q < 256) (bs : List Byte) : Keeps siltScope s (slqRecord s q bs) :=
  slqNewUnit_keeps s hq _

/-- The point stage notes the words of the header that it has sent. -/
def headerScope : Scope := siltScope.union (.of [.ps] [] (fixed noReg) (by decide) (fixed_shrinks _))

theorem emitHeader_keeps (s : State) : Keeps headerScope s (emitHeader s) := by
  unfold emitHeader
  extract_lets h u
  have hu : Keeps headerScope s u := (Keeps.refl _ s).foldl fun t q hq => by
    split
    · exact (slqRecord_keeps t (List.mem_range.mp hq) h).mono (Scope.in_left ..)
    · exact Keeps.refl ..
  clear_value u
  exact hu.quiet (frame_ps (frame_refl ..) (by decide) _) rfl rfl

end Sys2Proof.Machine
end

section
/-! The timebase (R66 to R68) and the coarse clock (R77 to R79): what each step of a load and of a mode change does and leaves unchanged. -/

namespace Sys2Proof.Machine

variable {ps : List Part} {own : Nat → Bool} {s t : State}

/-! ### One-bit fields -/

theorem fget_lt (s : State) (a : Nat) (f : Fld) : fget s a f < 2 ^ f.width := Nat.mod_lt _ (Nat.two_pow_pos _)

theorem flag_fsetB_same (s : State) (a : Nat) (f : Fld) (b : Bool) (h : f.lo = f.hi) (hh : f.hi < 32) : flag (fsetB s a f b) a f = b := by
  unfold flag fsetB
  rw [fget_fset_same s a f _ h.le hh]
  cases b <;> simp [b2n, Fld.width, h]

/-- CUR_MODE and REQ_MODE are bits. -/
theorem curMode_lt (s : State) : fget s R.TDC_CLK F.TDC_CLK_CUR_MODE < 2 := fget_lt s _ F.TDC_CLK_CUR_MODE
theorem reqMode_lt (s : State) : fget s R.TDC_CLK F.TDC_CLK_REQ_MODE < 2 := fget_lt s _ F.TDC_CLK_REQ_MODE

theorem reqDiffers_iff (s : State) :
    reqDiffers s = true ↔ fget s R.TDC_CLK F.TDC_CLK_REQ_MODE ≠ fget s R.TDC_CLK F.TDC_CLK_CUR_MODE := by simp [reqDiffers]

theorem lowPower_of_fget (h : fget t R.TDC_CLK F.TDC_CLK_CUR_MODE = fget s R.TDC_CLK F.TDC_CLK_CUR_MODE) : lowPower t = lowPower s := by
  unfold lowPower flag; rw [h]

theorem modeOf_of_rd (h : rd t R.SYS_MODE = rd s R.SYS_MODE) : modeOf t = modeOf s := by
  unfold modeOf; rw [fget_of_rd h]

/-! ### A change of the coarse clock's mode -/

/-- The registers of a mode change. -/
def clkRegs : List Nat := [R.TDC_CLK, R.TDC_CAL_STAT]

section
variable (h : frame ps own s t) (hp : Part.tdc ∈ ps) (hc : own R.TDC_CLK = true) (hf : own R.TDC_CAL_STAT = true)
include h hp

include hc hf in
theorem clkSwitch_frame : frame ps own s (clkSwitch t) := frame_tdc (frame_fon (frame_fon h hf _) hc _) hp _

include hc hf in
theorem clkWaitFrame_frame : frame ps own s (clkWaitFrame t) := by
  unfold clkWaitFrame
  extract_lets src u
  have hu : frame ps own s u := frame_fon (frame_tdc h hp _) hc _
  split
  · exact hu
  · exact clkSwitch_frame hu hp hc hf

include hc hf in
theorem clkRequest_frame : frame ps own s (clkRequest t) := by
  unfold clkRequest
  split
  · exact h
  split
  · exact frame_fon (frame_tdc h hp _) hc _
  · exact clkWaitFrame_frame h hp hc hf

include hf in
theorem fillAllGo_frame : frame ps own s (fillAllGo t) := by
  unfold fillAllGo
  split
  · exact frame_tdc (frame_fset (frame_fon h hf _) hf _ _) hp _
  · exact h

end

/-- A mode change that is asked for or that switches leaves the fields of TDC_CLK beside PEND and RELOCK. -/
theorem clkSwitch_fget (s : State) {g : Fld} (hg : g.hi < 29 ∨ 30 < g.lo) (hw : g.lo ≤ g.hi) :
    fget (clkSwitch s) R.TDC_CLK g = fget s R.TDC_CLK g := by
  have h1 := fget_fon_ne (fon s R.TDC_CAL_STAT F.TDC_CAL_STAT_XMODE) R.TDC_CLK F.TDC_CLK_RELOCK g (by decide) (by decide)
    (by simp only [F.TDC_CLK_RELOCK]; omega) hw
  have h2 := fget_fon_reg s F.TDC_CAL_STAT_XMODE g (show R.TDC_CLK ≠ R.TDC_CAL_STAT by decide)
  exact h1.trans h2

theorem fget_fon_pend (s : State) {g : Fld} (hg : g.hi < 29 ∨ 30 < g.lo) (hw : g.lo ≤ g.hi) :
    fget (fon s R.TDC_CLK F.TDC_CLK_PEND) R.TDC_CLK g = fget s R.TDC_CLK g :=
  fget_fon_ne s _ _ g (by decide) (by decide) (by simp only [F.TDC_CLK_PEND]; omega) hw

theorem fget_tdc (s : State) (x : TdcState) (a : Nat) (f : Fld) : fget { s with tdc := x } a f = fget s a f := rfl

theorem clkWaitFrame_fget (s : State) {g : Fld} (hg : g.hi < 29 ∨ 30 < g.lo) (hw : g.lo ≤ g.hi) :
    fget (clkWaitFrame s) R.TDC_CLK g = fget s R.TDC_CLK g := by
  unfold clkWaitFrame
  dsimp only
  split
  · rw [fget_fon_pend _ hg hw, fget_tdc]
  · rw [clkSwitch_fget _ hg hw, fget_fon_pend _ hg hw, fget_tdc]

theorem clkRequest_fget (s : State) {g : Fld} (hg : g.hi < 29 ∨ 30 < g.lo) (hw : g.lo ≤ g.hi) :
    fget (clkRequest s) R.TDC_CLK g = fget s R.TDC_CLK g := by
  unfold clkRequest
  split
  · rfl
  split
  · rw [fget_fon_pend _ hg hw, fget_tdc]
  · exact clkWaitFrame_fget s hg hw

theorem fon_tdc (s : State) (a : Nat) (f : Fld) : (fon s a f).tdc = s.tdc := by unfold fon; split <;> rfl

/-- Outside SCAN a mode change switches at once; in SCAN it waits for a frame. Either way it is pending. -/
theorem clkWaitFrame_waits (s : State) : (clkWaitFrame s).tdc.clk = (if modeOf s = .scan then .waitFrame else .relock) ∧
    flag (clkWaitFrame s) R.TDC_CLK F.TDC_CLK_PEND = true := by
  have hm (x : TdcState) : modeOf (fon { s with tdc := x } R.TDC_CLK F.TDC_CLK_PEND) = modeOf s :=
    modeOf_of_rd ((rd_fon ..).trans (rd_fset_ne _ _ _ (by decide)))
  have hpend (x : State) : flag (fon x R.TDC_CLK F.TDC_CLK_PEND) R.TDC_CLK F.TDC_CLK_PEND = true := flag_fon_same _ _ _ rfl (by decide)
  unfold clkWaitFrame
  dsimp only
  rw [hm]
  split
  · exact ⟨by rw [fon_tdc], hpend _⟩
  · refine ⟨rfl, ?_⟩
    unfold flag clkSwitch
    rw [fget_tdc, fget_fon_ne _ _ _ _ (by decide) (by decide) (by decide) (by decide), fget_fon_reg _ _ _ (by decide)]
    exact hpend _

/-! ### REQ_MODE -/

/-- A fill that FORCE discards, and the change that then goes on. -/
def discardFill (s : State) : State :=
  let s := fon (foff s R.TDC_CAL_STAT F.TDC_CAL_STAT_FILLING) R.TDC_CAL_STAT F.TDC_CAL_STAT_DISCARD
  clkWaitFrame { s with tdc := { s.tdc with filling := false, lastFillEnd := now s } }

/-- A change that is no longer asked for. -/
def cancelChange (s : State) : State := foff { s with tdc := { s.tdc with clk := .stable } } R.TDC_CLK F.TDC_CLK_PEND

/-- What a write of REQ_MODE does once the field is written, in each state of R77. -/
def modeAsked (force : Bool) (s : State) : State :=
  match s.tdc.clk with
  | .stable => if reqDiffers s && force && s.tdc.filling then discardFill s else clkRequest s
  | .waitFill => if !reqDiffers s then cancelChange s else if force then discardFill s else s
  | .waitFrame => if !reqDiffers s then cancelChange s else s
  | .relock => s

theorem exec_reqMode (lp force : Bool) (s : State) :
    exec (.reqMode lp force) s = .next (done (modeAsked force (fsetB s R.TDC_CLK F.TDC_CLK_REQ_MODE lp))) := rfl

section
variable (h : frame ps own s t) (hp : Part.tdc ∈ ps) (hc : own R.TDC_CLK = true) (hf : own R.TDC_CAL_STAT = true)
include h hp hc

include hf in
theorem discardFill_frame : frame ps own s (discardFill t) := by
  unfold discardFill
  extract_lets u src
  have hu : frame ps own s u := frame_fon (frame_foff h hf _) hf _
  exact clkWaitFrame_frame (frame_tdc hu hp _) hp hc hf

theorem cancelChange_frame : frame ps own s (cancelChange t) := frame_foff (frame_tdc h hp _) hc _

include hf in
theorem modeAsked_frame (force : Bool) : frame ps own s (modeAsked force t) := by
  unfold modeAsked
  split
  · split
    · exact discardFill_frame h hp hc hf
    · exact clkRequest_frame h hp hc hf
  · split
    · exact cancelChange_frame h hp hc
    · split
      · exact discardFill_frame h hp hc hf
      · exact h
  · split
    · exact cancelChange_frame h hp hc
    · exact h
  · exact h

end

theorem discardFill_fget (s : State) {g : Fld} (hg : g.hi < 29 ∨ 30 < g.lo) (hw : g.lo ≤ g.hi) :
    fget (discardFill s) R.TDC_CLK g = fget s R.TDC_CLK g := by
  unfold discardFill
  rw [clkWaitFrame_fget _ hg hw, fget_tdc, fget_fon_reg _ _ _ (by decide)]
  exact fget_fset_reg _ _ _ _ (by decide)

theorem cancelChange_fget (s : State) {g : Fld} (hg : g.hi < 29 ∨ 30 < g.lo) (hw : g.lo ≤ g.hi) :
    fget (cancelChange s) R.TDC_CLK g = fget s R.TDC_CLK g :=
  fget_fset_ne _ _ _ _ _ (by decide) (by decide) (by simp only [F.TDC_CLK_PEND]; omega) hw

theorem modeAsked_fget (force : Bool) (s : State) {g : Fld} (hg : g.hi < 29 ∨ 30 < g.lo) (hw : g.lo ≤ g.hi) :
    fget (modeAsked force s) R.TDC_CLK g = fget s R.TDC_CLK g := by
  unfold modeAsked
  split
  · split
    · exact discardFill_fget s hg hw
    · exact clkRequest_fget s hg hw
  · split
    · exact cancelChange_fget s hg hw
    · split
      · exact discardFill_fget s hg hw
      · rfl
  · split
    · exact cancelChange_fget s hg hw
    · rfl
  · rfl

/-- A change that is asked for while the clock is stable and no fill runs. -/
theorem modeAsked_stable (force : Bool) (hs : s.tdc.clk = .stable) (hf : s.tdc.filling = false) (hd : reqDiffers s = true) :
    modeAsked force s = clkWaitFrame s := by
  simp [modeAsked, clkRequest, hs, hf, hd]

/-- A change that is asked for while a fill runs waits for the fill's end. -/
theorem modeAsked_filling (hs : s.tdc.clk = .stable) (hf : s.tdc.filling = true) (hd : reqDiffers s = true) :
    (modeAsked false s).tdc.clk = .waitFill := by
  simp [modeAsked, clkRequest, hs, hf, hd, fon_tdc]

/-- Writing REQ_MODE makes it differ from CUR_MODE just where the other mode is asked for. -/
theorem reqDiffers_fsetB (s : State) (lp : Bool) : reqDiffers (fsetB s R.TDC_CLK F.TDC_CLK_REQ_MODE lp) = true ↔ lp ≠ lowPower s := by
  have hr : fget (fsetB s R.TDC_CLK F.TDC_CLK_REQ_MODE lp) R.TDC_CLK F.TDC_CLK_REQ_MODE = b2n lp :=
    (fget_fset_same _ _ _ _ (by decide) (by decide)).trans (by cases lp <;> rfl)
  have hc : fget (fsetB s R.TDC_CLK F.TDC_CLK_REQ_MODE lp) R.TDC_CLK F.TDC_CLK_CUR_MODE = fget s R.TDC_CLK F.TDC_CLK_CUR_MODE :=
    fget_fset_ne _ _ _ _ _ (by decide) (by decide) (by decide) (by decide)
  have hlt := curMode_lt s
  rw [reqDiffers_iff, hr, hc]
  unfold lowPower flag
  cases lp <;> simp [b2n] <;> omega

theorem modeOf_fsetB_req (s : State) (lp : Bool) : modeOf (fsetB s R.TDC_CLK F.TDC_CLK_REQ_MODE lp) = modeOf s :=
  modeOf_of_rd (rd_fset_ne _ _ _ (by decide))

/-! ### The end of RELOCK -/

/-- The clock runs in the other mode. -/
def clkToggled (s : State) : State :=
  let s := fset s R.TDC_CLK F.TDC_CLK_CUR_MODE (1 - fget s R.TDC_CLK F.TDC_CLK_CUR_MODE)
  foff (foff s R.TDC_CLK F.TDC_CLK_PEND) R.TDC_CLK F.TDC_CLK_RELOCK

/-- A frame start that was held is now (R78). -/
def heldStart (s : State) : State :=
  if s.tdc.frameHeld ∧ s.sht.frameTick.isSome then
    { s with
      sht := { s.sht with frameTick := some (now s), slots := s.sht.slots.map (fun p => (p.1, { p.2 with frameTick := now s })) },
      ps := { s.ps with
        slices := s.ps.slices.map (fun sl => if some sl.frameTick = s.sht.frameTick then { sl with frameTick := now s } else sl),
        frameTicks := s.ps.frameTicks.map (fun p => if some p.2 = s.sht.frameTick then (p.1, now s) else p) } } else s

/-- The clock is stable in the other mode, before what waited for it goes on. -/
def relockSettled (s : State) : State :=
  { heldStart (clkToggled s) with tdc := { (heldStart (clkToggled s)).tdc with clk := .stable, frameHeld := false } }

theorem relockEnd_eq (s : State) : relockEnd s = clkRequest (fillAllGo (relockSettled s)) := rfl

theorem rd_heldStart (s : State) (a : Nat) : rd (heldStart s) a = rd s a := by unfold heldStart; split <;> rfl

theorem rd_relockSettled (s : State) (a : Nat) : rd (relockSettled s) a = rd (clkToggled s) a := rd_heldStart ..

theorem clkToggled_cur (s : State) : fget (clkToggled s) R.TDC_CLK F.TDC_CLK_CUR_MODE = 1 - fget s R.TDC_CLK F.TDC_CLK_CUR_MODE := by
  unfold clkToggled foff
  dsimp only
  rw [fget_fset_ne _ _ _ _ _ (by decide) (by decide) (by decide) (by decide),
    fget_fset_ne _ _ _ _ _ (by decide) (by decide) (by decide) (by decide), fget_fset_same _ _ _ _ (by decide) (by decide)]
  exact Nat.mod_eq_of_lt (by simp only [F.TDC_CLK_CUR_MODE, Fld.width]; omega)

theorem clkToggled_req (s : State) : fget (clkToggled s) R.TDC_CLK F.TDC_CLK_REQ_MODE = fget s R.TDC_CLK F.TDC_CLK_REQ_MODE := by
  unfold clkToggled foff
  dsimp only
  rw [fget_fset_ne _ _ _ _ _ (by decide) (by decide) (by decide) (by decide),
    fget_fset_ne _ _ _ _ _ (by decide) (by decide) (by decide) (by decide),
    fget_fset_ne _ _ _ _ _ (by decide) (by decide) (by decide) (by decide)]

theorem relockSettled_lowPower (s : State) : lowPower (relockSettled s) = !lowPower s := by
  have hlt := curMode_lt s
  unfold lowPower flag
  rw [fget_of_rd (rd_relockSettled s _), clkToggled_cur, ← decide_not, decide_eq_decide]
  omega

/-- The mode that was asked for is the mode in which the clock now runs. -/
theorem relockSettled_reached (h : reqDiffers s = true) : reqDiffers (relockSettled s) = false := by
  have hc := curMode_lt s
  have hr := reqMode_lt s
  rw [reqDiffers_iff] at h
  rw [← Bool.not_eq_true, reqDiffers_iff, fget_of_rd (rd_relockSettled s _), fget_of_rd (rd_relockSettled s _), clkToggled_cur, clkToggled_req]
  omega

theorem relockSettled_relock (s : State) : flag (relockSettled s) R.TDC_CLK F.TDC_CLK_RELOCK = false := by
  rw [flag_of_rd (rd_relockSettled s _)]
  exact flag_foff_same _ _ _ (by decide) (by decide)

/-- A frame start that was held has the present tick. -/
theorem relockSettled_held (h : s.tdc.frameHeld = true) (hf : s.sht.frameTick.isSome = true) :
    (relockSettled s).sht.frameTick = some (now s) := by
  have hs : heldStart (clkToggled s) = _ := if_pos ⟨h, hf⟩
  unfold relockSettled
  rw [hs]
  rfl

theorem clkToggled_frame (s : State) : frame [.tdc] (only clkRegs) s (clkToggled s) :=
  frame_foff (frame_foff (frame_fset (frame_refl ..) (by decide) _ _) (by decide) _) (by decide) _

/-- No frame start was held: only the clock's state and its register change. -/
theorem relockSettled_free (h : s.tdc.frameHeld = false) : frame [.tdc] (only clkRegs) s (relockSettled s) := by
  have hs : heldStart (clkToggled s) = clkToggled s := if_neg fun hh => absurd (h.symm.trans hh.1) (by decide)
  unfold relockSettled
  rw [hs]
  exact frame_tdc (clkToggled_frame s) (by decide) _

/-- The end of RELOCK: the clock's registers and state, and the tick of a frame start that was held. -/
def relockScope : Scope := .of [.tdc, .sht, .ps] clkRegs (fixed noReg) (by decide) (fixed_shrinks _)

theorem heldStart_keeps (s : State) : Keeps relockScope s (heldStart s) := by
  unfold heldStart
  split
  · have h : ∀ x y, frame relockScope.parts relockScope.regs s { s with sht := x, ps := y } := fun x y =>
      frame_ps (frame_sht (frame_refl ..) (by decide) (by decide) x) (by decide) y
    exact (Keeps.refl _ s).quiet (h _ _) rfl rfl
  · exact Keeps.refl ..

theorem relockSettled_keeps (s : State) : Keeps relockScope s (relockSettled s) := by
  have h : Keeps relockScope s (clkToggled s) :=
    (((Keeps.refl _ s).fset (by decide) _ _).foff (by decide) _).foff (by decide) _
  exact (h.trans (heldStart_keeps _)).quiet (frame_tdc (frame_refl ..) (by decide) _) rfl rfl

/-- What follows the settled clock: a fill of all units and a further change that wait. -/
theorem relockEnd_frame (s : State) : frame [.tdc] (only clkRegs) (relockSettled s) (relockEnd s) := by
  rw [relockEnd_eq]
  exact clkRequest_frame (fillAllGo_frame (frame_refl ..) (by decide) (by decide)) (by decide) (by decide) (by decide)

theorem relockEnd_keeps (s : State) : Keeps relockScope s (relockEnd s) := by
  have h := relockEnd_frame s
  refine (relockSettled_keeps s).quiet (frame_mono h (by decide) fun _ ha => ha) ?_ ?_
  · exact h.1 .mem (by decide)
  · exact capOfs_of_sht (h.1 .sht (by decide))

theorem fillAllGo_clk (s : State) : (fillAllGo s).tdc.clk = s.tdc.clk ∧ rd (fillAllGo s) R.TDC_CLK = rd s R.TDC_CLK := by
  have h := fillAllGo_frame (ps := [.tdc]) (own := only [R.TDC_CAL_STAT]) (frame_refl _ _ s) (by decide) (by decide)
  refine ⟨?_, h.2 _ (by decide)⟩
  unfold fillAllGo
  split
  · unfold fillStart
    dsimp only
    simp only [fset_tdc, fon_tdc]
  · rfl

theorem relockEnd_lowPower (s : State) : lowPower (relockEnd s) = !lowPower s := by
  rw [relockEnd_eq, lowPower_of_fget (clkRequest_fget _ (by decide) (by decide)), lowPower_of_fget (fget_of_rd (fillAllGo_clk _).2 _),
    relockSettled_lowPower]

/-- Where the mode that was asked for is reached, no further change begins. -/
theorem relockEnd_stable (h : reqDiffers s = true) : (relockEnd s).tdc.clk = .stable ∧ flag (relockEnd s) R.TDC_CLK F.TDC_CLK_RELOCK = false := by
  obtain ⟨hc, hr⟩ := fillAllGo_clk (relockSettled s)
  have hd : reqDiffers (fillAllGo (relockSettled s)) = false := by
    have := relockSettled_reached h
    unfold reqDiffers at this ⊢
    rwa [fget_of_rd hr, fget_of_rd hr]
  have he : relockEnd s = fillAllGo (relockSettled s) := by rw [relockEnd_eq]; unfold clkRequest; rw [hd]; rfl
  rw [he, hc, flag_of_rd hr]
  exact ⟨rfl, relockSettled_relock s⟩

/-- The end of RELOCK with the header of a frame start that was held (R182). -/
def relockHeaderScope : Scope := relockScope.union headerScope

theorem relockHeader_after (s : State) : Keeps headerScope (relockEnd s) (relockHeader s) := by
  unfold relockHeader
  dsimp only
  split
  · exact emitHeader_keeps _
  · exact Keeps.refl ..

theorem relockHeader_keeps (s : State) : Keeps relockHeaderScope s (relockHeader s) :=
  ((relockEnd_keeps s).mono (Scope.in_left ..)).trans ((relockHeader_after s).mono (Scope.in_right ..))

theorem relockHeader_lowPower (s : State) : lowPower (relockHeader s) = !lowPower s := by
  rw [lowPower_of_fget ((relockHeader_after s).fget (by decide) (by decide) _), relockEnd_lowPower]

theorem relockHeader_stable (h : reqDiffers s = true) :
    (relockHeader s).tdc.clk = .stable ∧ flag (relockHeader s) R.TDC_CLK F.TDC_CLK_RELOCK = false := by
  have k := relockHeader_after s
  have ht : (relockHeader s).tdc = (relockEnd s).tdc := k.parts .tdc (by decide)
  rw [ht, k.flag (by decide) (by decide)]
  exact relockEnd_stable h

theorem frameTick_of_sht (h : Part.sht.same s t) : t.sht.frameTick = s.sht.frameTick := by
  have := congrArg ShtState.frameTick h
  exact this

theorem relockHeader_held (h : s.tdc.frameHeld = true) (hf : s.sht.frameTick.isSome = true) :
    (relockHeader s).sht.frameTick = some (now s) := by
  rw [frameTick_of_sht ((relockHeader_after s).parts .sht (by decide)), frameTick_of_sht ((relockEnd_frame s).1 .sht (by decide)),
    relockSettled_held h hf]

theorem relockHeader_free (h : s.tdc.frameHeld = false) : frame [.tdc] (only clkRegs) s (relockHeader s) := by
  have he : relockHeader s = relockEnd s := by unfold relockHeader; simp [h]
  rw [he]
  exact frame_trans (relockSettled_free h) (relockEnd_frame s)

end Sys2Proof.Machine
end

section
/-! The timebase (R65 to R68): loads and their refusals. -/

namespace Sys2Proof.Machine

variable {ps : List Part} {own : Nat → Bool} {s t : State}

/-! ### Loads -/

/-- The value of TB_LOAD. -/
def loadVal (s : State) : Nat := (rd s R.TB_LOAD_HI).toNat * 2 ^ 32 + (rd s R.TB_LOAD_LO).toNat

theorem loadVal_lt (s : State) : loadVal s < 2 ^ 64 := by
  have h1 := (rd s R.TB_LOAD_HI).isLt
  have h2 := (rd s R.TB_LOAD_LO).isLt
  unfold loadVal
  omega

/-- A broadcast on the ring changes the frames that wait on the ports, and its own number. -/
theorem frame_castRing (h : frame ps own s t) (hl : Part.lanes ∈ ps) (hc : Part.cast ∈ ps) (k p1 p2 n r v : Nat) :
    frame ps own s (castRing t k p1 p2 n r v) := by
  refine frame_trans h ⟨fun p hp => ?_, fun b _ => rd_castRing ..⟩
  unfold castRing laneOut modVc modLane
  cases p <;> first | rfl | exact ⟨rfl, rfl⟩ | exact absurd hl hp | exact absurd hc hp

/-- The step of a load that is taken, with its notice to the ring. -/
def tbLoaded (s : State) (d : Nat) : State :=
  if flag (tbStep s (BitVec.ofNat 64 d)) R.RING_CFG F.RING_CFG_RING_EN && flag (tbStep s (BitVec.ofNat 64 d)) R.RING_STAT F.RING_STAT_MASTER then
    castRing (tbStep s (BitVec.ofNat 64 d)) 5 0 0 0 0 d
  else tbStep s (BitVec.ofNat 64 d)

theorem tbLoadAt_eq (s : State) (tick : Nat) (bit : Fld) : tbLoadAt s tick bit =
    if loadVal s < tick then raise (fon (foff s R.TB_CTRL bit) R.TB_CTRL F.TB_CTRL_LOAD_LOW) Ev.tbDenied
    else tbLoaded (foff s R.TB_CTRL bit) (loadVal s - tick) := rfl

theorem tbLoaded_tb (s : State) (d : Nat) : (tbLoaded s d).tb = s.tb + BitVec.ofNat 64 d := by
  unfold tbLoaded
  split <;> rfl

theorem rd_tbLoaded (s : State) (d a : Nat) : rd (tbLoaded s d) a = rd s a := by
  unfold tbLoaded
  split
  · exact rd_castRing ..
  · rfl

theorem tbLoaded_frame (h : frame ps own s t) (ht : Part.tb ∈ ps) (hl : Part.lanes ∈ ps) (hc : Part.cast ∈ ps) (d : Nat) :
    frame ps own s (tbLoaded t d) := by
  have hs : frame ps own s (tbStep t (BitVec.ofNat 64 d)) :=
    frame_trans h ⟨fun p hn => by cases p <;> first | exact absurd ht hn | rfl | exact ⟨rfl, rfl⟩, fun _ _ => rfl⟩
  unfold tbLoaded
  split
  · exact frame_castRing hs hl hc ..
  · exact hs

/-- The count that a load leaves reaches the loaded value `k` ticks later. -/
theorem load_reaches {b : BitVec 64} {k v : Nat} (h : b.toNat + k ≤ v) (hv : v < 2 ^ 64) :
    (b + BitVec.ofNat 64 (v - (b.toNat + k)) + BitVec.ofNat 64 k).toNat = v := by
  have := b.isLt
  simp only [BitVec.toNat_add, BitVec.toNat_ofNat]
  omega

theorem tbDenied_frame (h : frame evParts (onlyEv [R.TB_CTRL]) s t) : frame evParts (onlyEv [R.TB_CTRL]) s (tbDenied t) :=
  frame_flagRaise h (by decide) _ (by decide) (fun _ h => h) (onlyEv_ev _)

/-- A refused load sets DENIED and raises its event, and the count runs on (R68). -/
theorem tbDenied_refuses (s : State) :
    (tbDenied s).tb = s.tb ∧ flag (tbDenied s) R.TB_CTRL F.TB_CTRL_DENIED = true ∧ evFlag (tbDenied s) Ev.tbDenied = true := by
  have h := tbDenied_frame (frame_refl _ _ s)
  refine ⟨(h.1 .tb (by decide)).1, ?_, evFlag_raise _ (by decide) fun hv => absurd hv.2.1 (by decide)⟩
  unfold tbDenied
  rw [flag_of_rd ((raise_frame _ (by decide)).2 _ (by decide))]
  exact flag_fon_same _ _ _ rfl (by decide)

/-- A write of an RWM field outside STANDBY and BOOT does nothing but raise its event (R12). -/
theorem rwmDiscard_refuses (s : State) : frame evParts (onlyEv [R.TB_CTRL]) s (raise s Ev.rwmDiscard) ∧ evFlag (raise s Ev.rwmDiscard) Ev.rwmDiscard = true :=
  ⟨frame_raise (frame_refl ..) (by decide) (fun _ h => h) (onlyEv_ev _), evFlag_raise _ (by decide) fun hv => absurd hv.2.2 (by decide)⟩

theorem evFlag_done (s : State) (n : Nat) : evFlag (done s) n = evFlag s n := by unfold evFlag; rw [rd_done]

end Sys2Proof.Machine
end

section
/-! O3: the commands of the timebase (R66 to R68), of the coarse clock (R77, R78) and of the DLLs (R79). -/

namespace Sys2Proof.Machine

variable {s t : State}

/-! ### The commands of the timebase -/

/-- TB_LO_READ: both words of the count, and the latch (R67). -/
theorem tbLoRead_latches (s : State) : ∃ t, exec .tbLoRead s = .next t ∧
    (rd t R.TB_HI).toNat * 2 ^ 32 + (rd t R.TB_LO).toNat = s.tb.toNat ∧ t.tdc.latch = s.tb.toNat ∧
    frame [.tdc] (only [R.TB_LO, R.TB_HI]) s t := by
  refine ⟨_, rfl, ?_, by rw [done_tdc]; rfl,
    frame_done (frame_wr (frame_wr (frame_tdc (frame_refl ..) (by decide) _) (by decide) _) (by decide) _)⟩
  have := s.tb.isLt
  rw [rd_done, rd_done, rd_wr_same, rd_wr_ne _ _ (by decide), rd_wr_same, BitVec.toNat_ofNat, BitVec.toNat_ofNat]
  unfold now
  simp only
  omega

/-- LOAD_NOW that takes effect. -/
def tbTaken (s : State) : State := tbLoadAt s (now s + if lowPower s then 2 else 1) F.TB_CTRL_LOAD_NOW

theorem exec_loadNow (s : State) :
    exec .loadNow s = .next (done (withRwm s fun s => if ringFollower s then tbDenied s else tbTaken s)) := rfl

theorem withRwm_ok (h : rwmOk s = true) (f : State → State) : withRwm s f = f s := if_pos h
theorem withRwm_discards (h : rwmOk s = false) (f : State → State) : withRwm s f = raise s Ev.rwmDiscard := if_neg (by simp [h])

theorem exec_loadNow_taken (hr : rwmOk s = true) (hf : ringFollower s = false) : exec .loadNow s = .next (done (tbTaken s)) := by
  rw [exec_loadNow, withRwm_ok hr]; simp only [hf, Bool.false_eq_true, if_false]

theorem exec_loadNow_denied (hr : rwmOk s = true) (hf : ringFollower s = true) : exec .loadNow s = .next (done (tbDenied s)) := by
  rw [exec_loadNow, withRwm_ok hr]; simp only [hf, if_true]

theorem exec_loadNow_discarded (hr : rwmOk s = false) : exec .loadNow s = .next (done (raise s Ev.rwmDiscard)) := by
  rw [exec_loadNow, withRwm_discards hr]

theorem loadNow_takes (hr : rwmOk s = true) (hf : ringFollower s = false) (h : s.tb.toNat + (if lowPower s then 2 else 1) ≤ loadVal s) :
    ∃ t, exec .loadNow s = .next t ∧ (t.tb + (if lowPower s then 2 else 1)).toNat = loadVal s ∧
      flag t R.TB_CTRL F.TB_CTRL_LOAD_NOW = false ∧ frame [.tb, .lanes, .cast] (only [R.TB_CTRL]) s t := by
  refine ⟨_, exec_loadNow_taken hr hf, ?_⟩
  have ht : tbTaken s = tbLoaded (foff s R.TB_CTRL F.TB_CTRL_LOAD_NOW) (loadVal s - (s.tb.toNat + if lowPower s then 2 else 1)) := by
    unfold tbTaken
    rw [tbLoadAt_eq, if_neg (by unfold now; omega)]
    rfl
  rw [ht, done_tb, flag_done, tbLoaded_tb, flag_of_rd (rd_tbLoaded ..)]
  refine ⟨?_, flag_foff_same _ _ _ (by decide) (by decide),
    frame_done (tbLoaded_frame (frame_foff (frame_refl ..) (by decide) _) (by decide) (by decide) (by decide) _)⟩
  have hl := load_reaches h (loadVal_lt s)
  cases hp : lowPower s <;> rw [hp] at hl <;> exact hl

theorem tbTaken_frame (s : State) : frame (.tb :: evParts) (onlyEv [R.TB_CTRL]) s (tbTaken s) := by
  have h0 : frame (.tb :: evParts) (onlyEv [R.TB_CTRL]) s (foff s R.TB_CTRL F.TB_CTRL_LOAD_NOW) := frame_foff (frame_refl ..) (by decide) _
  unfold tbTaken
  generalize (now s + if lowPower s then 2 else 1) = k
  rw [tbLoadAt_eq]
  split
  · exact frame_raise (frame_fon h0 (by decide) _) (by decide) (by decide) (onlyEv_ev _)
  · exact tbLoaded_frame h0 (by decide) (by decide) (by decide) _

theorem loadNow_refused (s : State) : ∃ t, exec .loadNow s = .next t ∧
    (rwmOk s = false → t.tb = s.tb ∧ evFlag t Ev.rwmDiscard = true) ∧
    (rwmOk s = true → ringFollower s = true →
      t.tb = s.tb ∧ flag t R.TB_CTRL F.TB_CTRL_DENIED = true ∧ evFlag t Ev.tbDenied = true) ∧
    frame (.tb :: evParts) (onlyEv [R.TB_CTRL]) s t := by
  have hsub : ∀ p ∈ evParts, p ∈ Part.tb :: evParts := by decide
  cases hr : rwmOk s
  · obtain ⟨hd, he⟩ := rwmDiscard_refuses s
    exact ⟨_, exec_loadNow_discarded hr, fun _ => ⟨by rw [done_tb]; exact (hd.1 .tb (by decide)).1, by rw [evFlag_done]; exact he⟩,
      fun h => absurd h (by decide), frame_done (frame_mono hd hsub fun _ h => h)⟩
  · cases hf : ringFollower s
    · exact ⟨_, exec_loadNow_taken hr hf, fun h => absurd h (by decide), fun _ h => absurd h (by decide), frame_done (tbTaken_frame s)⟩
    · obtain ⟨ht, hd, he⟩ := tbDenied_refuses s
      exact ⟨_, exec_loadNow_denied hr hf, fun h => absurd h (by decide), fun _ _ => ⟨by rw [done_tb, ht], by rw [flag_done, hd], by rw [evFlag_done, he]⟩,
        frame_done (frame_mono (tbDenied_frame (frame_refl ..)) hsub fun _ h => h)⟩

theorem exec_loadPps (s : State) :
    exec .loadPps s = .next (done (withRwm s fun s => if ringFollower s then tbDenied s else fon s R.TB_CTRL F.TB_CTRL_LOAD_PPS)) := rfl

theorem loadPps_asks (s : State) : ∃ t, exec .loadPps s = .next t ∧ t.tb = s.tb ∧
    (rwmOk s = true → ringFollower s = false → flag t R.TB_CTRL F.TB_CTRL_LOAD_PPS = true) ∧
    (rwmOk s = true → ringFollower s = true → flag t R.TB_CTRL F.TB_CTRL_DENIED = true) ∧
    (rwmOk s = false → evFlag t Ev.rwmDiscard = true) ∧ frame evParts (onlyEv [R.TB_CTRL]) s t := by
  refine ⟨_, exec_loadPps s, ?_⟩
  cases hr : rwmOk s
  · obtain ⟨hd, he⟩ := rwmDiscard_refuses s
    rw [withRwm_discards hr, done_tb, evFlag_done]
    exact ⟨(hd.1 .tb (by decide)).1, fun h => absurd h (by decide), fun h => absurd h (by decide), fun _ => he, frame_done hd⟩
  rw [withRwm_ok hr]
  cases hf : ringFollower s
  · have hd : frame evParts (onlyEv [R.TB_CTRL]) s (fon s R.TB_CTRL F.TB_CTRL_LOAD_PPS) := frame_fon (frame_refl ..) (by decide) _
    simp only [Bool.false_eq_true, if_false, done_tb, flag_done]
    exact ⟨(hd.1 .tb (by decide)).1, fun _ _ => flag_fon_same _ _ _ rfl (by decide), fun _ h => absurd h (by decide),
      fun h => absurd h (by decide), frame_done hd⟩
  · obtain ⟨ht, hd, -⟩ := tbDenied_refuses s
    simp only [if_true, done_tb, flag_done]
    exact ⟨ht, fun _ h => absurd h (by decide), fun _ _ => hd, fun h => absurd h (by decide), frame_done (tbDenied_frame (frame_refl ..))⟩

/-- A replica that differs sets the flag, counts and raises its event (R66). -/
def replicaNoted (s : State) : State :=
  raise (finc (fon s R.TDC_CAL_STAT F.TDC_CAL_STAT_REPLICA) R.TDC_CNT F.TDC_CNT_REPLICA_CNT) Ev.tbReplica

/-- The windows that were open since the last match are discarded. -/
def replicaDrops (s : State) (last u : Nat) : State :=
  if u < 64 then dropWindows s u (fun w => decide (winOpen w.msg ≤ now s) && decide (last ≤ winClose w.msg)) else s

theorem exec_tbReplicaCheck (u : Fin 65) (r : BitVec 64) (s : State) : exec (.tbReplicaCheck u r) s = .next (done (
    if u.val < 64 ∧ tileRuns s u.val = false then s
    else if r = s.tb then { s with tdc := { s.tdc with lastMatch := tput 0 s.tdc.lastMatch u.val (now s) } }
    else replicaDrops (replicaNoted s) (tget 0 s.tdc.lastMatch u.val) u.val)) := rfl

theorem replicaNoted_keeps (s : State) : Keeps unlockScope s (replicaNoted s) :=
  (((Keeps.refl _ s).fon (by decide) _).finc (by decide) _).raise (by decide)

theorem replicaDrops_keeps (s : State) (last u : Nat) : Keeps dropScope s (replicaDrops s last u) := by
  unfold replicaDrops; split
  · exact dropWindows_keeps ..
  · exact Keeps.refl ..

theorem replicaNoted_flag (s : State) : flag (replicaNoted s) R.TDC_CAL_STAT F.TDC_CAL_STAT_REPLICA = true ∧
    evFlag (replicaNoted s) Ev.tbReplica = true := by
  refine ⟨?_, evFlag_raise _ (by decide) fun hv => absurd hv.2.1 (by decide)⟩
  unfold replicaNoted
  rw [flag_of_rd ((raise_frame _ (by decide)).2 _ (by decide)), flag_of_rd (rd_finc_ne _ _ (by decide))]
  exact flag_fon_same _ _ _ rfl (by decide)

/-- A fault of a calibration unit, as the frame of R66 and R79 names it. -/
theorem unlockScope_frame (h : Keeps unlockScope s t) : memKept s t (fun a => gapArea s a || capArea s a) ∧
    frame (.tdc :: .fe :: .gt :: .dram :: gapParts ++ evParts) (inBlocks [0, 8, 9, 0xB, 0xF]) s t :=
  ⟨fun a ha => h.mem a (by rw [unlockScope_area]; exact ha), h.frame_le (by decide) (unlockScope_covers (by decide)) (inBlocks_ev _)⟩

theorem tbReplicaCheck_compares (u : Fin 65) (r : BitVec 64) (s : State) (hu : u.val = 64 ∨ tileRuns s u = true) :
    ∃ t, exec (.tbReplicaCheck u r) s = .next t ∧ t.tb = s.tb ∧
      (r = s.tb → tget 0 t.tdc.lastMatch u = s.tb.toNat ∧ frame [.tdc] noReg s t) ∧
      (r ≠ s.tb → flag t R.TDC_CAL_STAT F.TDC_CAL_STAT_REPLICA = true ∧ evFlag t Ev.tbReplica = true) ∧
      memKept s t (fun a => gapArea s a || capArea s a) ∧
      frame (.tdc :: .fe :: .gt :: .dram :: gapParts ++ evParts) (inBlocks [0, 8, 9, 0xB, 0xF]) s t := by
  refine ⟨_, exec_tbReplicaCheck u r s, ?_⟩
  rw [if_neg (by rintro ⟨h1, h2⟩; rcases hu with h | h <;> simp_all)]
  by_cases he : r = s.tb
  · rw [if_pos he]
    have hf : ∀ x, frame [.tdc] noReg s (done { s with tdc := x }) := fun x => frame_done (frame_tdc (frame_refl ..) (by decide) x)
    have hk : ∀ x, Keeps unlockScope s (done { s with tdc := x }) := fun x =>
      ((Keeps.refl _ s).quiet (frame_tdc (frame_refl ..) (by decide) x) rfl rfl).done
    exact ⟨((hf _).1 .tb (by decide)).1, fun _ => ⟨by rw [done_tdc]; exact tget_tput_same .., hf _⟩, fun h => absurd he h, unlockScope_frame (hk _)⟩
  · rw [if_neg he]
    obtain ⟨hfl, hev⟩ := replicaNoted_flag s
    have hd := replicaDrops_keeps (replicaNoted s) (tget 0 s.tdc.lastMatch u.val) u.val
    have hk := ((replicaNoted_keeps s).trans (hd.mono (drop_in_unlock _))).done
    refine ⟨(hk.parts .tb (by decide)).1, fun h => absurd h he, fun _ => ⟨?_, ?_⟩, unlockScope_frame hk⟩
    · rw [flag_done, hd.flag (by decide) (by decide), hfl]
    · exact hd.done.flags _ (by decide) hev

/-! ### The commands of the coarse clock and of the DLLs -/

theorem reqMode_asks (lp force : Bool) (s : State) : ∃ t, exec (.reqMode lp force) s = .next t ∧
    flag t R.TDC_CLK F.TDC_CLK_REQ_MODE = lp ∧
    fget t R.TDC_CLK F.TDC_CLK_CUR_MODE = fget s R.TDC_CLK F.TDC_CLK_CUR_MODE ∧
    (s.tdc.clk = .stable → s.tdc.filling = false → lp ≠ lowPower s →
      t.tdc.clk = (if modeOf s = .scan then .waitFrame else .relock) ∧ flag t R.TDC_CLK F.TDC_CLK_PEND = true) ∧
    (s.tdc.clk = .stable → s.tdc.filling = true → force = false → lp ≠ lowPower s → t.tdc.clk = .waitFill) ∧
    frame [.tdc] (only clkRegs) s t := by
  refine ⟨_, exec_reqMode lp force s, ?_⟩
  rw [flag_done, fget_done, done_tdc]
  refine ⟨?_, ?_, fun hs hf hd => ?_, fun hs hf hn hd => ?_,
    frame_done (modeAsked_frame (frame_fsetB (frame_refl ..) (by decide) _ _) (by decide) (by decide) (by decide) force)⟩
  · unfold flag
    rw [modeAsked_fget _ _ (by decide) (by decide)]
    exact flag_fsetB_same _ _ _ _ rfl (by decide)
  · rw [modeAsked_fget _ _ (by decide) (by decide)]
    exact fget_fset_ne _ _ _ _ _ (by decide) (by decide) (by decide) (by decide)
  · rw [flag_done, modeAsked_stable (s := fsetB s R.TDC_CLK F.TDC_CLK_REQ_MODE lp) force hs hf ((reqDiffers_fsetB s lp).mpr hd), ← modeOf_fsetB_req s lp]
    exact clkWaitFrame_waits _
  · subst hn
    exact modeAsked_filling (s := fsetB s R.TDC_CLK F.TDC_CLK_REQ_MODE lp) hs hf ((reqDiffers_fsetB s lp).mpr hd)

theorem exec_relockDone (h : s.tdc.clk = .relock) : exec .relockDone s = .next (done (relockHeader s)) := by
  have : exec .relockDone s = .next (done (if s.tdc.clk = .relock then relockHeader s else s)) := rfl
  rw [this, if_pos h]

theorem relockHeaderScope_covers {own : Nat → Bool} (hr : (clkRegs ++ R.SLQ_STAT :: R.SLQ_POOL_C :: R.SLQ_POOL_S :: R.DRC_CNT_A :: decodeRegs).all own = true)
    (hq : ∀ a, R.SLQ_CFG 0 ≤ a → a < R.SLQ_CFG 256 → own a = true) : ∀ a, relockHeaderScope.regs a = true → own a = true := by
  intro a ha
  simp only [relockHeaderScope, headerScope, siltScope, relockScope, Scope.union, Scope.of, siltRegs, Bool.or_eq_true, Bool.and_eq_true,
    decide_eq_true_eq, only_mem, List.not_mem_nil, or_false] at ha
  have hl := List.all_eq_true.mp hr a
  rw [List.mem_append] at hl
  tauto

theorem relockHeaderScope_area (s : State) (a : Nat) : relockHeaderScope.area s a = spillArea s a := by
  simp [relockHeaderScope, headerScope, siltScope, relockScope, Scope.union, Scope.of, fixed, noReg]

theorem silt_inBlocks {l : List Nat} (h : 0xE ∈ l) (a : Nat) (h1 : R.SLQ_CFG 0 ≤ a) (h2 : a < R.SLQ_CFG 256) : inBlocks l a = true := by
  unfold R.SLQ_CFG at h1 h2
  unfold inBlocks
  rw [Bool.or_eq_true, List.any_eq_true]
  exact .inl ⟨0xE, h, by simp only [decide_eq_true_eq]; omega⟩

theorem relockDone_ends (h : s.tdc.clk = .relock) : ∃ t, exec .relockDone s = .next t ∧
    lowPower t = !lowPower s ∧ (reqDiffers s = true → t.tdc.clk = .stable ∧ flag t R.TDC_CLK F.TDC_CLK_RELOCK = false) ∧
    (s.tdc.frameHeld = true → s.sht.frameTick.isSome = true → t.sht.frameTick = some (now s)) ∧
    (s.tdc.frameHeld = false → frame [.tdc] (only clkRegs) s t) ∧ memKept s t (spillArea s) ∧
    frame (.tdc :: .sht :: .ps :: .slq :: .mem :: .poison :: .dram :: evParts) (inBlocks [0, 9, 0xE, 0xF]) s t := by
  have hk := (relockHeader_keeps s).done
  refine ⟨_, exec_relockDone h, ?_, fun hd => ?_, fun hh hf => ?_, fun hh => frame_done (relockHeader_free hh), fun a ha => hk.mem a ?_,
    hk.frame_le (by decide) (relockHeaderScope_covers (by decide) (silt_inBlocks (by decide))) (inBlocks_ev _)⟩
  · rw [lowPower_of_fget (fget_done ..), relockHeader_lowPower]
  · rw [done_tdc, flag_done]; exact relockHeader_stable hd
  · rw [done_sht]; exact relockHeader_held hh hf
  · rw [relockHeaderScope_area]; exact ha

theorem exec_relockTimeout (still : List (Fin 65)) (h : s.tdc.clk = .relock) (ht : s.tdc.relockAt + ticksUs 100 ≤ now s) :
    exec (.relockTimeout still) s = .next (done (still.foldl (fun s u => dllUnlock s u.val) (relockHeader s))) := by
  have : exec (.relockTimeout still) s = .next (done (if s.tdc.clk = .relock ∧ s.tdc.relockAt + ticksUs 100 ≤ now s then
    still.foldl (fun s u => dllUnlock s u.val) (relockHeader s) else s)) := rfl
  rw [this, if_pos ⟨h, ht⟩]

theorem relockTimeout_ends (still : List (Fin 65)) (h : s.tdc.clk = .relock) (ht : s.tdc.relockAt + ticksUs 100 ≤ now s) :
    ∃ t, exec (.relockTimeout still) s = .next t ∧ lowPower t = !lowPower s ∧
      (∀ u ∈ still, u.val ∈ t.tdc.unlocked) ∧
      memKept s t (fun a => gapArea s a || capArea s a || spillArea s a) ∧
      frame (.tdc :: .fe :: .gt :: .slq :: .dram :: gapParts ++ evParts) (inBlocks [0, 8, 9, 0xB, 0xE, 0xF]) s t := by
  have hu : Keeps unlockScope (relockHeader s) (still.foldl (fun s u => dllUnlock s u.val) (relockHeader s)) :=
    (Keeps.refl ..).foldl fun t u _ => dllUnlock_keeps t u.val
  have hk : Keeps (unlockScope.union relockHeaderScope) s (done (still.foldl (fun s u => dllUnlock s u.val) (relockHeader s))) :=
    (((relockHeader_keeps s).mono (Scope.in_right ..)).trans (hu.mono (Scope.in_left ..))).done
  refine ⟨_, exec_relockTimeout still h ht, ?_, fun u hm => ?_, fun a ha => hk.mem a ?_, hk.frame_le (by decide) (fun a ha => ?_) (inBlocks_ev _)⟩
  · rw [lowPower_of_fget (fget_done ..), lowPower_of_fget (hu.fget (by decide) (by decide) _), relockHeader_lowPower]
  · rw [done_tdc]; exact (mem_unlocked_foldl ..).mpr (.inr ⟨u, hm, rfl⟩)
  · simp only [Scope.union]; rw [unlockScope_area, relockHeaderScope_area]; exact ha
  · exact (Bool.or_eq_true_iff.mp ha).elim (unlockScope_covers (by decide) a) (relockHeaderScope_covers (by decide) (silt_inBlocks (by decide)) a)

theorem dllUnlock_loses (u : Fin 65) (s : State) (h : u.val ∉ s.tdc.unlocked) : ∃ t, exec (.dllUnlock u) s = .next t ∧ u.val ∈ t.tdc.unlocked ∧
    flag t R.TDC_CAL_STAT F.TDC_CAL_STAT_DLL_UNLOCK = true ∧ evFlag t Ev.dllUnlock = true ∧
    (∀ p ∈ t.tdc.tabs, p.1 / 32 ≠ u.val) ∧ memKept s t (fun a => gapArea s a || capArea s a) ∧
    frame (.tdc :: .fe :: .gt :: .dram :: gapParts ++ evParts) (inBlocks [0, 8, 9, 0xB, 0xF]) s t := by
  have he : dllUnlock s u.val = lockDrops (lockLost s u.val) u.val := by
    rw [dllUnlock_eq, if_neg (by simpa using h)]
  obtain ⟨ht, hr⟩ := lockDrops_fabric (lockLost s u.val) u.val
  refine ⟨_, rfl, ?_, ?_, ?_, ?_, unlockScope_frame (dllUnlock_keeps s u.val).done⟩
  · rw [done_tdc]; exact (mem_unlocked_dllUnlock ..).mpr (.inr rfl)
  · rw [flag_done, he, flag_of_rd hr, lockLost_flag]
  · rw [he]; exact (lockDrops_keeps ..).done.flags _ (by decide) (lockLost_event s u.val)
  · rw [done_tdc, he, ht, lockLost_tdc]
    intro p hp
    simpa using (List.mem_filter.mp hp).2

theorem dllLock_regains (u : Fin 65) (s : State) : ∃ t, exec (.dllLock u) s = .next t ∧ u.val ∉ t.tdc.unlocked ∧ frame [.tdc] noReg s t := by
  refine ⟨_, rfl, ?_, frame_done (frame_tdc (frame_refl ..) (by decide) _)⟩
  rw [done_tdc]
  simp

/-- Settles O3: each command by its own lemma; the loads' count reaches TB_LOAD at the next tick, and what a lost lock costs lies in the areas of
the gap records and of the capture. -/
theorem timebaseAndClock : Obligations.TimebaseAndClock :=
  ⟨tbLoRead_latches, fun _ => loadNow_takes, loadNow_refused, loadPps_asks, tbReplicaCheck_compares, reqMode_asks, fun _ => relockDone_ends,
    fun still _ => relockTimeout_ends still, dllUnlock_loses, dllLock_regains⟩

end Sys2Proof.Machine
end

section
/-! The fields of a register (R8 to R10): they lie within the word and apart from each other, so a written word holds each of them by itself. -/

namespace Sys2Proof.Machine

/-- Two fields share no bit. -/
def fldsApart (f g : Fld) : Bool := decide (f.hi < g.lo) || decide (g.hi < f.lo)

/-- A field lies within a word. -/
def fldFits (f : Fld) : Bool := decide (f.lo ≤ f.hi) && decide (f.hi < 32)

/-- The fields of a register fit and are apart. -/
def wordFields : List Fld → Bool
  | [] => true
  | f :: fs => fldFits f && fs.all (fldsApart f) && wordFields fs

/-! ### The register map -/

theorem memRcfg_fields (r : Nat) : wordFields (D.MEM_RCFG r) = true := by unfold D.MEM_RCFG; split <;> rfl
theorem canCfg_fields (c : Nat) : wordFields (D.CAN_CFG c) = true := by unfold D.CAN_CFG; split <;> split <;> rfl
theorem ethCfg_fields (k : Nat) : wordFields (D.ETH_CFG k) = true := by unfold D.ETH_CFG; split <;> rfl

/-- Every register of a block has such fields. -/
def BlockFields (d : Nat → Option (List Fld)) : Prop := ∀ o, (d o).all wordFields = true

/-- The blocks whose registers have the same fields whatever their index. -/
def evenBlocks : List (Nat → Option (List Fld)) :=
  [descHKC, descTDC, descSHT, descENP, descTIL, descCTL, descEMG, descSAF, descDEC, descTHM, descSLQ, descDMA, descLNU, descEVT, descSEC,
   descSYS, descCLK, descLN 0, descLN 1, descLN 2]

theorem evenBlocks_fields : ∀ d ∈ evenBlocks, BlockFields d := by
  simp only [evenBlocks, List.forall_mem_cons, BlockFields]
  refine ⟨?_, ?_, ?_, ?_, ?_, ?_, ?_, ?_, ?_, ?_, ?_, ?_, ?_, ?_, ?_, ?_, ?_, ?_, ?_, ?_, fun _ h => absurd h List.not_mem_nil⟩
  all_goals
    intro o
    delta descHKC descTDC descSHT descENP descTIL descCTL descEMG descSAF descDEC descTHM descSLQ descDMA descLNU descEVT descSEC descSYS descCLK descLN
    repeat' split
  all_goals rfl

theorem descDRC_fields : BlockFields descDRC := by
  intro o; unfold descDRC; repeat' split
  any_goals rw [Option.all_some, memRcfg_fields]
  all_goals rfl
theorem descCAN_fields : BlockFields descCAN := by
  intro o; unfold descCAN; repeat' split
  any_goals rw [Option.all_some, canCfg_fields]
  all_goals rfl
theorem descETH_fields : BlockFields descETH := by
  intro o; unfold descETH; repeat' split
  any_goals rw [Option.all_some, ethCfg_fields]
  all_goals rfl

/-- Every register below the tile windows has fields that fit and are apart. -/
theorem regDesc_fields {a : Nat} {fs : List Fld} (ha : a < blockBase 0x20) (h : regDesc a = some fs) : wordFields fs = true := by
  suffices hs : (regDesc a).all wordFields = true by simpa [h] using hs
  unfold regDesc
  split
  · rfl
  dsimp only
  rw [if_neg (by unfold blockBase at ha; omega)]
  repeat' split
  any_goals exact descDRC_fields _
  any_goals exact descCAN_fields _
  any_goals exact descETH_fields _
  any_goals exact evenBlocks_fields _ (by simp [evenBlocks]) _
  rfl

end Sys2Proof.Machine
end

section
/-! What a write of a word leaves in each field of its register (R10 to R12, R458), and what the accesses of masters do besides (R25, R29). -/

namespace Sys2Proof.Machine

variable {s t : State}

/-! ### One field of a written word -/

theorem getFld_congr {w x : Word} {f : Fld} (h : ∀ i, f.lo ≤ i → i ≤ f.hi → w.getLsbD i = x.getLsbD i) (hf : f.lo ≤ f.hi) : getFld w f = getFld x f := by
  apply Nat.eq_of_testBit_eq
  intro i
  rw [getFld_bit, getFld_bit]
  by_cases hi : i < f.width
  · unfold Fld.width at hi
    rw [h (i + f.lo) (by omega) (by omega)]
  · simp [hi]

theorem bit_of_getFld {w x : Word} {f : Fld} (h : getFld w f = getFld x f) {i : Nat} (h1 : f.lo ≤ i) (h2 : i ≤ f.hi) :
    w.getLsbD i = x.getLsbD i := by
  have e : ∀ y : Word, (getFld y f).testBit (i - f.lo) = y.getLsbD i := by
    intro y
    have hi : i - f.lo < f.width := by unfold Fld.width; omega
    rw [getFld_bit, decide_eq_true hi, Bool.true_and, Nat.sub_add_cancel h1]
  rw [← e w, ← e x, h]

theorem fldFits_iff (f : Fld) : fldFits f = true ↔ f.lo ≤ f.hi ∧ f.hi < 32 := by simp [fldFits]
theorem fldsApart_iff (f g : Fld) : fldsApart f g = true ↔ f.hi < g.lo ∨ g.hi < f.lo := by simp [fldsApart]

/-- What a write of `v` does to the word, field by field. -/
def fldWrite (s : State) (core : Bool) (a : Nat) (v w : Word) (f : Fld) : Word :=
  if f.acc = .w1c then w &&& ~~~(v &&& maskOf f &&& ~~~(setNow s a))
  else if fldOpen s core f && (!commandFld a f || (decide (a = R.TB_CTRL) && decide (getFld v f = 0))) then putFld w f (getFld v f) else w

theorem writtenWord_eq (s : State) (core : Bool) (a : Nat) (v : Word) (fs : List Fld) :
    writtenWord s core a v fs = fs.foldl (fldWrite s core a v) (rd s a) := rfl

section
variable {core : Bool} {a : Nat} {v w : Word} {f g : Fld}

theorem w1c_bit (hf : fldFits f = true) (i : Nat) : (w &&& ~~~(v &&& maskOf f &&& ~~~(setNow s a))).getLsbD i =
    (w.getLsbD i && !(v.getLsbD i && (decide (f.lo ≤ i) && decide (i ≤ f.hi)) && !(setNow s a).getLsbD i)) := by
  obtain ⟨h1, h2⟩ := (fldFits_iff f).mp hf
  rw [BitVec.getLsbD_and, BitVec.getLsbD_not, BitVec.getLsbD_and, BitVec.getLsbD_and, BitVec.getLsbD_not, maskOf_bit f h1 h2]
  by_cases hi : i < 32
  · simp [hi]
  · simp [BitVec.getLsbD_of_ge w i (by omega)]

/-- Writing one field leaves the others. -/
theorem fldWrite_apart (hg : fldFits g = true) (hf : f.lo ≤ f.hi) (h : g.hi < f.lo ∨ f.hi < g.lo) :
    getFld (fldWrite s core a v w g) f = getFld w f := by
  obtain ⟨h1, h2⟩ := (fldFits_iff g).mp hg
  unfold fldWrite
  split
  · refine getFld_congr (fun i hi hi' => ?_) hf
    have : (decide (g.lo ≤ i) && decide (i ≤ g.hi)) = false := by
      rw [Bool.and_eq_false_iff, decide_eq_false_iff_not, decide_eq_false_iff_not]; omega
    rw [w1c_bit hg, this]
    simp
  · split
    · exact getFld_putFld_ne w g f _ h1 h2 (by omega) hf
    · rfl

/-- What a written field becomes depends on that field of the word alone. -/
theorem fldWrite_local (hf : fldFits f = true) {x : Word} (h : getFld w f = getFld x f) :
    getFld (fldWrite s core a v w f) f = getFld (fldWrite s core a v x f) f := by
  obtain ⟨h1, h2⟩ := (fldFits_iff f).mp hf
  unfold fldWrite
  split
  · refine getFld_congr (fun i hi hi' => ?_) h1
    rw [w1c_bit hf, w1c_bit hf, bit_of_getFld h hi hi']
  · split
    · rw [getFld_putFld_same _ _ _ h1 h2, getFld_putFld_same _ _ _ h1 h2]
    · exact h

theorem wordFields_mem : ∀ {fs : List Fld}, wordFields fs = true → f ∈ fs → fldFits f = true
  | g :: fs, hw, hm => by
    simp only [wordFields, Bool.and_eq_true] at hw
    obtain ⟨⟨hg, -⟩, hfs⟩ := hw
    rcases List.mem_cons.mp hm with rfl | hm
    · exact hg
    · exact wordFields_mem hfs hm

theorem fldWrite_foldl_apart : ∀ (fs : List Fld) (w : Word), wordFields fs = true → f.lo ≤ f.hi → fs.all (fldsApart f) = true →
    getFld (fs.foldl (fldWrite s core a v) w) f = getFld w f := by
  intro fs
  induction fs with
  | nil => intro w _ _ _; rfl
  | cons g fs ih =>
    intro w hw hf ha
    simp only [wordFields, List.all_cons, Bool.and_eq_true] at hw ha
    obtain ⟨⟨hg, -⟩, hfs⟩ := hw
    rw [List.foldl_cons, ih _ hfs hf ha.2, fldWrite_apart hg hf (by have := (fldsApart_iff f g).mp ha.1; omega)]

/-- In a register whose fields fit and are apart, each field is written by itself. -/
theorem fldWrite_foldl : ∀ (fs : List Fld) (w : Word), wordFields fs = true → f ∈ fs →
    getFld (fs.foldl (fldWrite s core a v) w) f = getFld (fldWrite s core a v w f) f := by
  intro fs
  induction fs with
  | nil => intro w _ h; cases h
  | cons g fs ih =>
    intro w hw hm
    simp only [wordFields, Bool.and_eq_true] at hw
    obtain ⟨⟨hg, ha⟩, hfs⟩ := hw
    rw [List.foldl_cons]
    rcases List.mem_cons.mp hm with rfl | hm
    · exact fldWrite_foldl_apart fs _ hfs ((fldFits_iff f).mp hg).1 ha
    · have hx : g.hi < f.lo ∨ f.hi < g.lo := (fldsApart_iff g f).mp (List.all_eq_true.mp ha f hm)
      have hf := wordFields_mem hfs hm
      rw [ih _ hfs hm]
      exact fldWrite_local hf (fldWrite_apart hg ((fldFits_iff f).mp hf).1 hx)

/-! ### By access class -/

variable {fs : List Fld}

theorem getFld_writtenWord (hw : wordFields fs = true) (hf : f ∈ fs) :
    getFld (writtenWord s core a v fs) f = getFld (fldWrite s core a v (rd s a) f) f := by
  rw [writtenWord_eq]; exact fldWrite_foldl fs _ hw hf

/-- A field that the write may change, and that is no command, takes the written value. -/
theorem writtenWord_open (hw : wordFields fs = true) (hf : f ∈ fs) (ho : fldOpen s core f = true) (hc : commandFld a f = false) :
    getFld (writtenWord s core a v fs) f = getFld v f := by
  obtain ⟨h1, h2⟩ := (fldFits_iff f).mp (wordFields_mem hw hf)
  have hn : f.acc ≠ .w1c := by rintro h; simp [fldOpen, h] at ho
  rw [getFld_writtenWord hw hf, fldWrite, if_neg hn, ho, hc]
  exact (getFld_putFld_same _ _ _ h1 h2).trans (Nat.mod_eq_of_lt (Nat.mod_lt _ (Nat.two_pow_pos _)))

/-- A field that is closed to the write keeps its value. -/
theorem writtenWord_closed (hw : wordFields fs = true) (hf : f ∈ fs) (ho : fldOpen s core f = false) (hn : f.acc ≠ .w1c) :
    getFld (writtenWord s core a v fs) f = fget s a f := by
  rw [getFld_writtenWord hw hf, fldWrite, if_neg hn, ho]
  rfl

/-- A written 1 clears a W1C bit that hardware has not set in the same cycle. -/
theorem writtenWord_w1c (hw : wordFields fs = true) (hf : f ∈ fs) (hc : f.acc = .w1c) :
    getFld (writtenWord s core a v fs) f = getFld (rd s a &&& ~~~ (v &&& ~~~ setNow s a)) f := by
  have hfit := wordFields_mem hw hf
  rw [getFld_writtenWord hw hf, fldWrite, if_pos hc]
  refine getFld_congr (fun i h1 h2 => ?_) ((fldFits_iff f).mp hfit).1
  have hi : i < 32 := lt_of_le_of_lt h2 ((fldFits_iff f).mp hfit).2
  rw [w1c_bit hfit, BitVec.getLsbD_and, BitVec.getLsbD_not, BitVec.getLsbD_and, BitVec.getLsbD_not]
  simp [h1, h2, hi]

end

end Sys2Proof.Machine
end

section
/-! The registers that do nothing besides holding their word, and what a write does there (R10 to R12, R430). -/

namespace Sys2Proof.Machine

variable {s t : State}

/-! ### Registers that do nothing besides -/

theorem plainReg_lt {a : Nat} (h : plainReg a = true) : a < blockBase 0x20 := by
  simp only [plainReg, Bool.and_eq_true, decide_eq_true_eq] at h
  exact h.1

theorem plainReg_hook {a : Nat} (h : plainReg a = true) {k : Hook} (hk : k ∈ hooks) : idxOf a k.base k.stride k.n = none := by
  simp only [plainReg, Bool.and_eq_true, List.all_eq_true, Option.isNone_iff_eq_none] at h
  exact h.2 k hk

theorem runHooks_plain {a : Nat} (h : plainReg a = true) (s0 s : State) (v : Word) (on : Fld → Bool) : runHooks s0 s a v on = s := by
  have ht : idxOf (a / 0x10000 * 0x10000) (blockBase 0x20) 0x10000 64 = none := by
    have := plainReg_lt h
    unfold idxOf
    rw [if_neg (by omega)]
  have hn : hooks.findSome? (fun k => (idxOf a k.base k.stride k.n).map (fun i => k.act s0 s i v on)) = none :=
    List.findSome?_eq_none_iff.mpr fun k hk => by rw [plainReg_hook h hk]; rfl
  unfold runHooks
  rw [ht, hn]

theorem idxOf_none {a base stride n i : Nat} (h : idxOf a base stride n = none) (hs : 0 < stride) (hi : i < n) : a ≠ base + i * stride := by
  rintro rfl
  unfold idxOf at h
  rw [Nat.add_sub_cancel_left, Nat.mul_mod_left, Nat.mul_div_cancel _ hs, if_pos ⟨by omega, rfl, hi⟩] at h
  cases h

/-- Neither an event's flag nor the check of the clay allocation is such a register. -/
theorem plainReg_flag {a : Nat} (h : plainReg a = true) : ∀ w, w < 20 → R.EV_FLAG w ≠ a := by
  intro w hw he
  have hk : idxOf a (R.EV_FLAG 0) 4 20 = none := plainReg_hook h (List.mem_append_left _ (List.mem_append_right _ (.tail _ (.tail _ (.head _)))))
  exact idxOf_none hk (by decide) hw (he ▸ by unfold R.EV_FLAG; omega)

theorem plainReg_cmCheck {a : Nat} (h : plainReg a = true) : a ≠ R.CM_CHECK := by
  have hm : ∀ k ∈ hooksMem, k ∈ hooks := fun k hk => by unfold hooks; simp only [List.mem_append, hk]; simp
  have hk : idxOf a R.CM_CHECK 4 1 = none := plainReg_hook h (hm _ (.tail _ (.tail _ (.head _))))
  exact idxOf_none hk (by decide) (show 0 < 1 by decide)

/-! ### The write of a register -/

/-- The events of a write that meets closed fields (R10, R12, R430). -/
def closedNoted (core : Bool) (s : State) (fs : List Fld) : State :=
  let s1 := if discards s core fs .rws then raise s Ev.rwsDiscard else s
  if discards s core fs .rwm then raise s1 Ev.rwmDiscard else s1

/-- A write in the clay allocation clears OK (R330). -/
def cmNoted (core : Bool) (s t : State) (a : Nat) (fs : List Fld) : State :=
  if cmListed a && (rwmFor s core || fs.any (fun f => decide (f.acc = .rw))) then foff t R.CM_CHECK F.CM_CHECK_OK else t

theorem fieldWrite_plain {a : Nat} (h : plainReg a = true) (core : Bool) (s : State) (v : Word) (fs : List Fld) :
    fieldWrite core s a v fs = cmNoted core s (wr (closedNoted core s fs) a (writtenWord s core a v fs)) a fs := by
  unfold fieldWrite
  exact runHooks_plain h ..

theorem closedNoted_frame (core : Bool) (s : State) (fs : List Fld) : frame evParts evReg s (closedNoted core s fs) := by
  have h1 : frame evParts evReg s (if discards s core fs .rws then raise s Ev.rwsDiscard else s) := by
    split
    · exact raise_frame s (by decide)
    · exact frame_refl ..
  unfold closedNoted
  dsimp only
  split
  · exact frame_raise h1 (by decide) (fun _ h => h) fun _ h => h
  · exact h1

theorem discards_of_closed {core : Bool} {fs : List Fld} {f : Fld} (hf : f ∈ fs) (ho : fldOpen s core f = false) : discards s core fs f.acc = true := by
  unfold discards
  rw [List.any_eq_true]
  exact ⟨f, hf, by simp [ho]⟩

theorem closedNoted_rwm {core : Bool} {fs : List Fld} (h : discards s core fs .rwm = true) : evFlag (closedNoted core s fs) Ev.rwmDiscard = true := by
  unfold closedNoted
  dsimp only
  rw [if_pos h]
  exact evFlag_raise _ (by decide) fun hv => absurd hv.2.2 (by decide)

theorem closedNoted_rws {core : Bool} {fs : List Fld} (h : discards s core fs .rws = true) : evFlag (closedNoted core s fs) Ev.rwsDiscard = true := by
  have h1 : evFlag (raise s Ev.rwsDiscard) Ev.rwsDiscard = true := evFlag_raise _ (by decide) fun hv => absurd hv.2.2 (by decide)
  unfold closedNoted
  dsimp only
  rw [if_pos h]
  split
  · exact raise_flags _ (by decide) _ (by decide) h1
  · exact h1

section
variable {a : Nat} (h : plainReg a = true) (core : Bool) (s : State) (v : Word) (fs : List Fld)
include h

/-- The register holds the written word. -/
theorem rd_fieldWrite_plain : rd (fieldWrite core s a v fs) a = writtenWord s core a v fs := by
  rw [fieldWrite_plain h]
  unfold cmNoted
  split
  · rw [foff, rd_fset_ne _ _ _ (plainReg_cmCheck h), rd_wr_same]
  · exact rd_wr_same ..

theorem fieldWrite_plain_flags : FlagsKept (closedNoted core s fs) (fieldWrite core s a v fs) := by
  have h1 := flagsKept_wr (s := closedNoted core s fs) (writtenWord s core a v fs) (plainReg_flag h)
  rw [fieldWrite_plain h]
  unfold cmNoted
  split
  · exact flagsKept_trans h1 (flagsKept_fset _ _ fun w hw => by unfold R.EV_FLAG R.CM_CHECK blockBase; omega)
  · exact h1

theorem fieldWrite_plain_frame : frame evParts (onlyEv [a, R.CM_CHECK]) s (fieldWrite core s a v fs) := by
  have h1 : frame evParts (onlyEv [a, R.CM_CHECK]) s (wr (closedNoted core s fs) a (writtenWord s core a v fs)) :=
    frame_wr (frame_mono (closedNoted_frame core s fs) (fun _ h => h) (onlyEv_ev _)) (by simp [onlyEv]) _
  rw [fieldWrite_plain h]
  unfold cmNoted
  split
  · exact frame_foff h1 (by simp [onlyEv]) _
  · exact h1

end

end Sys2Proof.Machine
end

section
/-! The two ways that a write ends outside the registers: with a decode error (R25), or in the control-core memory (R24). -/

namespace Sys2Proof.Machine

variable {s t : State}

/-! ### Decode errors -/

/-- What the control core sees of an error changes nothing but the events. -/
theorem coreSees_frame (m : Master) (b s : State) (e : Option Nat) : frame evParts evReg s (coreSees m b s e) := by
  have hevt (x : EvtState) : frame evParts evReg s { s with evt := x } := frame_evt (frame_refl ..) (by decide) x
  unfold coreSees
  split
  · split
    · unfold coreReport
      dsimp only
      split
      · exact frame_refl ..
      · split
        · exact frame_evt (hevt _) (by decide) _
        · exact frame_raise (frame_fon (hevt _) (by decide) _) (by decide) (fun _ h => h) fun _ h => h
    · exact frame_refl ..
  · exact frame_refl ..

theorem coreSees_flags (m : Master) (b s : State) (e : Option Nat) : FlagsKept s (coreSees m b s e) := by
  unfold coreSees
  split
  · split
    · unfold coreReport
      dsimp only
      split
      · exact flagsKept_refl _
      · split
        · exact flagsKept_trans (flagsKept_evt s _) (flagsKept_evt _ _)
        · exact flagsKept_trans (flagsKept_trans (flagsKept_evt s _) (flagsKept_fon _ fun w hw => evFlag_ne_stat hw)) (raise_flags _ (by decide))
    · exact flagsKept_refl _
  · exact flagsKept_refl _

theorem decodeErr_event (s : State) (x : Nat) (w : Bool) : evFlag (decodeErr s x w) Ev.decodeErr = true :=
  evFlag_raise _ (by decide) fun hv => absurd hv.2.2 (by decide)

theorem decodeErr_lo (s : State) (x : Nat) (w : Bool) : rd (decodeErr s x w) R.SYS_DECERR_LO = BitVec.ofNat 32 x := by
  unfold decodeErr
  dsimp only
  rw [(raise_frame _ (by decide)).2 _ (by decide), rd_fset_ne _ _ _ (by decide), fsetB, rd_fset_ne _ _ _ (by decide), rd_wr_same]

theorem decodeErr_hi (s : State) (x : Nat) (w : Bool) : fget (decodeErr s x w) R.SYS_DECERR_HI F.SYS_DECERR_HI_ADDR = x / 2 ^ 32 % 256 ∧
    flag (decodeErr s x w) R.SYS_DECERR_HI F.SYS_DECERR_HI_WRITE = w := by
  unfold decodeErr
  dsimp only
  constructor
  · rw [fget_of_rd ((raise_frame _ (by decide)).2 _ (by decide)), fget_fset_same _ _ _ _ (by decide) (by decide)]
    rfl
  · rw [flag_of_rd ((raise_frame _ (by decide)).2 _ (by decide)), flag, fget_fset_ne _ _ _ _ _ (by decide) (by decide) (by decide) (by decide)]
    exact flag_fsetB_same _ _ _ _ rfl (by decide)

theorem decodeErr_cnt (s : State) (x : Nat) (w : Bool) : fget (decodeErr s x w) R.SYS_CNT F.SYS_CNT_DECERR_CNT =
    satN F.SYS_CNT_DECERR_CNT.width (fget s R.SYS_CNT F.SYS_CNT_DECERR_CNT + 1) := by
  unfold decodeErr
  dsimp only
  rw [fget_of_rd ((raise_frame _ (by decide)).2 _ (by decide)), fget_of_rd (rd_fset_ne _ _ _ (by decide)), fsetB,
    fget_of_rd (rd_fset_ne _ _ _ (by decide)), fget_of_rd (rd_wr_ne _ _ (by decide)), finc, fadd,
    fget_fset_same _ _ _ _ (by decide) (by decide)]
  exact Nat.mod_eq_of_lt (lt_of_le_of_lt (Nat.min_le_right _ _) (by decide))

theorem decodeErr_frame (s : State) (x : Nat) (w : Bool) :
    frame evParts (onlyEv [R.SYS_DECERR_LO, R.SYS_DECERR_HI, R.SYS_CNT]) s (decodeErr s x w) :=
  (decodeErr_keeps s x w).frame_le (fun _ h => h) (only_covers (by decide)) (onlyEv_ev _)

theorem decodeErr_decodeError (s : State) (x : Nat) (w : Bool) : decodeError x w s (decodeErr s x w) := by
  obtain ⟨hhi, hw⟩ := decodeErr_hi s x w
  exact ⟨decodeErr_event .., decodeErr_lo .., hhi, hw, decodeErr_cnt .., decodeErr_frame ..⟩

/-- A decode error stays one through what only adds events. -/
theorem decodeError_mono {x : Nat} {w : Bool} {u : State} (h : decodeError x w s t) (hf : frame evParts evReg t u) (hk : FlagsKept t u) :
    decodeError x w s u := by
  obtain ⟨he, hlo, hhi, hw, hcnt, hfr⟩ := h
  exact ⟨hk _ (by decide) he, (hf.2 _ (by decide)).trans hlo, (fget_of_rd (hf.2 _ (by decide)) _).trans hhi,
    (flag_of_rd (hf.2 _ (by decide)) _).trans hw, (fget_of_rd (hf.2 _ (by decide)) _).trans hcnt,
    frame_trans hfr (frame_mono hf (fun _ h => h) (onlyEv_ev _))⟩

theorem decodeError_seen (m : Master) (s : State) (x : Nat) (e : Option Nat) : decodeError x true s (done (coreSees m s (decodeErr s x true) e)) :=
  decodeError_mono (decodeError_mono (decodeErr_decodeError s x true) (coreSees_frame ..) (coreSees_flags m s _ e))
    (frame_done (frame_refl ..)) (flagsKept_of_rd fun _ _ => rd_done ..)

/-! ### The control-core memory -/

theorem firstOutside_none {m : Master} {a n : Nat} {w : Bool} (h : firstOutside s m a n w = none) {i : Nat} (hi : i < n) :
    reaches m (regionOf s (a + i)) (a + i) w = true := by
  have := List.find?_eq_none.mp h (a + i) (List.mem_map_of_mem (List.mem_range.mpr hi))
  simp only [Bool.or_eq_true, not_or, Bool.not_eq_true', Bool.not_eq_false] at this
  exact this.2

theorem regionOf_sram {a : Nat} : regionOf s a = .sram ↔ 0x10000000 ≤ a ∧ a < 0x10200000 := by
  unfold regionOf
  split_ifs <;> simp <;> omega

theorem regionOf_past_sram {a : Nat} (h1 : 0x10200000 ≤ a) (h2 : a < 0x0100000000) : regionOf s a = .hole := by
  unfold regionOf
  rw [if_neg (by omega), if_neg (by omega), if_neg (by omega), if_neg (by omega), if_neg (by omega), if_neg (by omega), if_neg (by omega)]

theorem reaches_hole (m : Master) (x : Nat) (w : Bool) : reaches m .hole x w = false := by cases m <;> rfl

/-- An access of one word that begins in the control-core memory lies in it. -/
theorem sram_whole {m : Master} {a : Nat} {w : Bool} (h : firstOutside s m a 4 w = none) (hr : regionOf s a = .sram) :
    ∀ i, i < 4 → regionOf s (a + i) = .sram := by
  intro i hi
  have ha := regionOf_sram.mp hr
  have hm := firstOutside_none h hi
  by_contra hc
  have : 0x10200000 ≤ a + i := by
    by_contra hlt
    exact hc (regionOf_sram.mpr ⟨by omega, by omega⟩)
  rw [regionOf_past_sram this (by omega), reaches_hole] at hm
  cases hm

theorem not_poisoned {a n p : Nat} (h : poisoned s a n = false) (hp : p ∈ s.poison) (h1 : p < a + n) : p + 8 ≤ a := by
  have := List.any_eq_false.mp h p hp
  simp only [Bool.and_eq_true, decide_eq_true_eq, not_and, not_lt] at this
  exact this h1

theorem storeBytes_all (keep : Nat → Bool) : ∀ (l : List Byte) (s : State) (a : Nat), (∀ i, i < l.length → keep (a + i) = true) →
    storeBytes keep s a l = mputBytes s a l
  | [], _, _, _ => rfl
  | b :: l, s, a, h => by
    have h0 : keep a = true := h 0 (Nat.succ_pos _)
    rw [storeBytes, mputBytes, storeByte, h0, if_pos rfl]
    refine storeBytes_all keep l _ _ fun i hi => ?_
    rw [Nat.add_assoc, Nat.add_comm 1 i]
    exact h (i + 1) (Nat.succ_lt_succ hi)

/-- A store in the control-core memory that touches no poisoned word stores its bytes and does nothing else. -/
theorem memWrite_sram {a : Nat} {l : List Byte} (hl : 0 < l.length) (hr : ∀ i, i < l.length → regionOf s (a + i) = .sram)
    (hp : poisoned s a l.length = false) (sec : Bool) : memWrite s a l sec = (mputBytes s a l, true) := by
  have h0 : regionOf s a = .sram := hr 0 hl
  have hlow : a < 0x1000000000 := lt_trans (regionOf_sram.mp h0).2 (by decide)
  unfold memWrite
  rw [if_neg (by rw [h0]; rintro ⟨h, -⟩; cases h)]
  extract_lets n prot whole bad s1 part hit s2 s3
  have hprot (i : Nat) (hi : i < n) : prot (a + i) = false := by simp only [prot, hr i hi, reduceCtorEq, decide_false, Bool.false_and]
  have hbad : bad = none := List.find?_eq_none.mpr fun p hm => by
    simp only [Bool.and_eq_true, decide_eq_true_eq]
    rintro ⟨⟨⟨h1, h2⟩, -⟩, -⟩
    have := not_poisoned hp hm h1
    omega
  have hs1 : s1 = s := by
    have : s.poison.filter (fun p => !(whole p && !prot p)) = s.poison := List.filter_eq_self.mpr fun p hm => by
      have hw : whole p = false := by
        simp only [whole, Bool.and_eq_false_iff, decide_eq_false_iff_not]
        by_cases h1 : p < a + l.length
        · have := not_poisoned hp hm h1; omega
        · right; unfold n; omega
      rw [hw]; rfl
    simp only [s1, this]
  have hpart (i : Nat) (hi : i < n) : part (a + i) = false := by
    by_contra hc
    have hm : (a + i) / 8 * 8 ∈ s.poison := by simpa [part, hs1] using hc
    have := not_poisoned hp hm (show (a + i) / 8 * 8 < a + l.length by unfold n at hi; omega)
    omega
  have hhit : hit = false := List.any_eq_false.mpr fun i hi => by simp [hprot i (List.mem_range.mp hi)]
  have hs3 : s3 = mputBytes s a l := by
    unfold s3 s2
    rw [hhit, hs1, drcUse_below hlow]
    exact storeBytes_all _ _ _ _ fun i hi => by simp [hprot i hi, hpart i hi]
  rw [hbad, hs3]

theorem mbytes_mputBytes (s : State) (a : Nat) (l : List Byte) : mbytes (mputBytes s a l) a l.length = l := by
  rw [mbytes_range]
  refine List.ext_getElem (by simp) fun i h1 h2 => ?_
  rw [List.getElem_map, List.getElem_range, mget_mputBytes_in l s a i h2]

theorem mputBytes_frame (s : State) (a : Nat) (l : List Byte) : frame [.mem] noReg s (mputBytes s a l) := by
  rw [mputBytes_eq]; exact frame_mem (frame_refl ..) (by decide) _

theorem mputBytes_memKept (s : State) (a : Nat) (l : List Byte) : memKept s (mputBytes s a l) (within a l.length) :=
  fun _ h => mget_mputBytes_out l s a _ (within_false h)

theorem writeError_sram {m : Master} {a : Nat} {l : List Byte} (hf : firstOutside s m a l.length true = none) (hl : 0 < l.length)
    (hr : ∀ i, i < l.length → regionOf s (a + i) = .sram) (hp : poisoned s a l.length = false) : writeError m s a l = none := by
  rw [writeError, hf, if_neg (by simp), if_pos (Or.inr (by rw [memWrite_sram hl hr hp]))]

theorem writeError_regs {m : Master} {a : Nat} {l : List Byte} (hf : firstOutside s m a l.length true = none) (hr : regionOf s a = .regs) :
    writeError m s a l = none := by
  rw [writeError, hf, if_neg (by simp), if_pos (Or.inl hr)]

theorem coreSees_none (m : Master) (b s : State) : coreSees m b s none = s := rfl

end Sys2Proof.Machine
end

section
/-! What a write of one word by a master does (R10 to R12, R25, R29, R281, R430, R458). -/

namespace Sys2Proof.Machine

/-! ### Where a write goes -/

section
variable {m : Master} {a : BitVec 40} {v : Word} {s : State}

theorem exec_registerWrite (m : Master) (a : BitVec 40) (v : Word) (s : State) : exec (.registerWrite m a v) s = .next (done (
    if s.sys.held.isSome then s
    else coreSees m s (match firstOutside s m a.toNat 4 true with
      | some x => decodeErr s (x % 2 ^ 40) true
      | none =>
        if regionOf s a.toNat = .regs then regWrite (decide (m = .core)) s a.toNat v
        else (memWrite s a.toNat (leBytes 4 v.toNat) false).1)
      (if regionOf s a.toNat = .regs ∧ windowOf a.toNat = none ∧ regDesc a.toNat = none then some Ev.decodeErr
        else writeError m s a.toNat (leBytes 4 v.toNat)))) := rfl

theorem registerWrite_held (hd : s.sys.held.isSome = true) : exec (.registerWrite m a v) s = .next (done s) := by
  rw [exec_registerWrite, if_pos hd]

/-- A master that does not reach the address. -/
theorem registerWrite_outside (hd : s.sys.held = none) {x : Nat} (hf : firstOutside s m a.toNat 4 true = some x) :
    ∃ e, exec (.registerWrite m a v) s = .next (done (coreSees m s (decodeErr s (x % 2 ^ 40) true) e)) := by
  rw [exec_registerWrite, hd, hf]
  exact ⟨_, rfl⟩

/-- A write that reaches every byte. -/
theorem registerWrite_reaches (hd : s.sys.held = none) (hf : firstOutside s m a.toNat 4 true = none) :
    exec (.registerWrite m a v) s = .next (done (coreSees m s
      (if regionOf s a.toNat = .regs then regWrite (decide (m = .core)) s a.toNat v else (memWrite s a.toNat (leBytes 4 v.toNat) false).1)
      (if regionOf s a.toNat = .regs ∧ windowOf a.toNat = none ∧ regDesc a.toNat = none then some Ev.decodeErr
        else writeError m s a.toNat (leBytes 4 v.toNat)))) := by
  rw [exec_registerWrite, hd, hf]
  rfl

/-- A register of the map: the control core sees no error. -/
theorem registerWrite_reg (hd : s.sys.held = none) (hf : firstOutside s m a.toNat 4 true = none) (hr : regionOf s a.toNat = .regs)
    (hn : regDesc a.toNat ≠ none) : exec (.registerWrite m a v) s = .next (done (regWrite (decide (m = .core)) s a.toNat v)) := by
  have he : writeError m s a.toNat (leBytes 4 v.toNat) = none := writeError_regs (by rw [leBytes_length]; exact hf) hr
  have hno : ¬ (regionOf s a.toNat = .regs ∧ windowOf a.toNat = none ∧ regDesc a.toNat = none) := fun h => hn h.2.2
  rw [registerWrite_reaches hd hf, if_pos hr, if_neg hno, he, coreSees_none]

/-- No register stands at the address. -/
theorem registerWrite_unmapped (hd : s.sys.held = none) (hf : firstOutside s m a.toNat 4 true = none) (hr : regionOf s a.toNat = .regs)
    (hw : windowOf a.toNat = none) (hn : regDesc a.toNat = none) :
    exec (.registerWrite m a v) s = .next (done (coreSees m s (decodeErr s a.toNat true) (some Ev.decodeErr))) := by
  have ht : regWrite (decide (m = .core)) s a.toNat v = decodeErr s a.toNat true := by unfold regWrite; rw [hw, hn]
  rw [registerWrite_reaches hd hf, if_pos hr, if_pos (And.intro hr (And.intro hw hn)), ht]

theorem registerWrite_sram (hd : s.sys.held = none) (hf : firstOutside s m a.toNat 4 true = none) (hr : regionOf s a.toNat = .sram)
    (hp : poisoned s a.toNat 4 = false) : exec (.registerWrite m a v) s = .next (done (mputBytes s a.toNat (leBytes 4 v.toNat))) := by
  have hl : (leBytes 4 v.toNat).length = 4 := leBytes_length ..
  have hne : regionOf s a.toNat ≠ .regs := by rw [hr]; exact nofun
  have hno : ¬ (regionOf s a.toNat = .regs ∧ windowOf a.toNat = none ∧ regDesc a.toNat = none) := fun h => hne h.1
  have hs : ∀ i, i < (leBytes 4 v.toNat).length → regionOf s (a.toNat + i) = .sram := by rw [hl]; exact sram_whole hf hr
  have hpos : 0 < (leBytes 4 v.toNat).length := by omega
  have he := writeError_sram (m := m) (by rw [hl]; exact hf) hpos hs (by rw [hl]; exact hp)
  have ht := memWrite_sram hpos hs (by rw [hl]; exact hp) false
  rw [registerWrite_reaches hd hf, if_neg hne, if_neg hno, he, ht, coreSees_none]

/-! ### The core and the host write the register region -/

theorem regDesc_range {n : Nat} (h : regDesc n ≠ none) : 0x0800000000 ≤ n ∧ n < 0x0801000000 := by
  by_contra hc
  refine h (if_pos ?_)
  omega

theorem regionOf_regs {n : Nat} (h1 : 0x0800000000 ≤ n) (h2 : n < 0x0801000000) : regionOf s n = .regs := by
  unfold regionOf
  rw [if_neg (by omega), if_neg (by omega), if_neg (by omega), if_neg (by omega), if_neg (by omega), if_pos ⟨h1, h2⟩]

theorem firstOutside_regs (hm : m = .core ∨ m = .host) {n : Nat} (h1 : 0x0800000000 ≤ n) (h2 : n + 4 ≤ 0x0801000000) :
    firstOutside s m n 4 true = none := by
  refine List.find?_eq_none.mpr fun x hx => ?_
  obtain ⟨i, hi, rfl⟩ := List.mem_map.mp hx
  have := List.mem_range.mp hi
  have hr : reaches m .regs (n + i) true = true := by rcases hm with rfl | rfl <;> rfl
  rw [regionOf_regs (by omega) (by omega), hr]
  simp only [Bool.not_true, Bool.or_false, decide_eq_true_eq]
  omega

theorem regWrite_mapped {core : Bool} {n : Nat} {fs : List Fld} (hw : windowOf n = none) (hn : regDesc n = some fs) :
    regWrite core s n v = if safAbsent s n then s else fieldWrite core s n v fs := by
  unfold regWrite; rw [hw, hn]

/-- A register that is not at the end of its region is written in full. -/
theorem registerWrite_mapped (hd : s.sys.held = none) (hm : m = .core ∨ m = .host) {fs : List Fld} (hw : windowOf a.toNat = none)
    (hn : regDesc a.toNat = some fs) (ha : a.toNat + 4 ≤ 0x0801000000) : exec (.registerWrite m a v) s =
      .next (done (if safAbsent s a.toNat then s else fieldWrite (decide (m = .core)) s a.toNat v fs)) := by
  have hne : regDesc a.toNat ≠ none := by rw [hn]; exact nofun
  obtain ⟨h1, h2⟩ := regDesc_range hne
  rw [registerWrite_reg hd (firstOutside_regs hm h1 ha) (regionOf_regs h1 h2) hne, regWrite_mapped hw hn]

theorem safAbsent_room {n : Nat} (h : safAbsent s n = true) : n + 4 ≤ 0x0801000000 := by
  simp only [safAbsent, Bool.and_eq_true, decide_eq_true_eq] at h
  have := h.2
  unfold blockBase at this
  omega

theorem plainReg_room {n : Nat} (h : plainReg n = true) : n + 4 ≤ 0x0801000000 := by
  have := plainReg_lt h
  unfold blockBase at this
  omega

end

/-! ### The fields of a register -/

section
variable {a : Nat} {s t : State} {core : Bool} {v : Word} {fs : List Fld} {f : Fld} (hw : wordFields fs = true)
  (ht : rd t a = writtenWord s core a v fs) (hf : f ∈ fs)
include hw ht hf

/-- A field behind the seals or the mode (R10, R12): the written value where it is open, its own where it is closed. -/
theorem fget_guarded (hc : commandFld a f = false) (hn : f.acc ≠ .w1c) :
    fget t a f = if fldOpen s core f then getFld v f else fget s a f := by
  unfold fget
  rw [ht]
  split
  · next ho => exact writtenWord_open hw hf ho hc
  · next ho => exact writtenWord_closed hw hf (by simpa using ho) hn

end

/-- The word that a store in the control-core memory leaves, and that all else stays. -/
theorem sramStored (s : State) (a n : Nat) : mbytes (done (mputBytes s a (leBytes 4 n))) a 4 = leBytes 4 n ∧
    memKept s (done (mputBytes s a (leBytes 4 n))) (within a 4) ∧ frame [.mem] noReg s (done (mputBytes s a (leBytes 4 n))) :=
  ⟨(mbytes_same (done_mem _) 4 a).trans (mbytes_mputBytes s a (leBytes 4 n)),
    fun b hb => (mget_of_mem (done_mem _) b).trans (mputBytes_memKept s a (leBytes 4 n) b hb), frame_done (mputBytes_frame s a _)⟩

/-- What each field holds after a write of a register that does nothing besides. -/
theorem plainWrite_fields {a : Nat} {fs : List Fld} (h : plainReg a = true) (hn : regDesc a = some fs) (core : Bool) (v : Word) (s : State) :
    let t := done (fieldWrite core s a v fs)
    (∀ f ∈ fs, f.acc = .rw → commandFld a f = false → fget t a f = getFld v f) ∧
    (∀ f ∈ fs, f.acc = .ro → fget t a f = fget s a f) ∧
    (∀ f ∈ fs, f.acc = .w1c → getFld (rd t a) f = getFld (rd s a &&& ~~~ (v &&& ~~~ setNow s a)) f) ∧
    (∀ f ∈ fs, f.acc = .rws → commandFld a f = false → fget t a f = (if sealsOpen s then getFld v f else fget s a f)) ∧
    (∀ f ∈ fs, f.acc = .rwm → commandFld a f = false → fget t a f = (if rwmFor s core then getFld v f else fget s a f)) := by
  intro t
  have hw : wordFields fs = true := regDesc_fields (plainReg_lt h) hn
  have ht : rd t a = writtenWord s core a v fs := (rd_done ..).trans (rd_fieldWrite_plain h core s v fs)
  refine ⟨fun f hf hc hk => ?_, fun f hf hc => ?_, fun f hf hc => ?_, fun f hf hc hk => ?_, fun f hf hc hk => ?_⟩
  · rw [fget_guarded hw ht hf hk (by rw [hc]; exact nofun), fldOpen, hc, if_pos rfl]
  · rw [fget_of_rd (rd_done ..), fget, rd_fieldWrite_plain h]
    exact writtenWord_closed hw hf (by rw [fldOpen, hc]) (by rw [hc]; exact nofun)
  · rw [ht]
    exact writtenWord_w1c hw hf hc
  · rw [fget_guarded hw ht hf hk (by rw [hc]; exact nofun), fldOpen, hc]
  · rw [fget_guarded hw ht hf hk (by rw [hc]; exact nofun), fldOpen, hc]

/-- A closed field raises the event of its class. -/
theorem plainWrite_events {a : Nat} {fs : List Fld} (h : plainReg a = true) (core : Bool) (v : Word) (s : State) {f : Fld} (hf : f ∈ fs) :
    (f.acc = .rws → sealsOpen s = false → evFlag (done (fieldWrite core s a v fs)) Ev.rwsDiscard = true) ∧
    (f.acc = .rwm → rwmFor s core = false → evFlag (done (fieldWrite core s a v fs)) Ev.rwmDiscard = true) := by
  have hk := fieldWrite_plain_flags h core s v fs
  constructor
  · intro hc ho
    rw [evFlag_done]
    exact hk _ (by decide) (closedNoted_rws (hc ▸ discards_of_closed hf (by rw [fldOpen, hc]; exact ho)))
  · intro hc ho
    rw [evFlag_done]
    exact hk _ (by decide) (closedNoted_rwm (hc ▸ discards_of_closed hf (by rw [fldOpen, hc]; exact ho)))

theorem registerWrite_anywhere (m : Master) (a : BitVec 40) (v : Word) (s : State) : ∃ t, exec (.registerWrite m a v) s = .next t ∧
    (s.sys.held.isSome = true → frame [] noReg s t) ∧
    (∀ x, s.sys.held = none → firstOutside s m a.toNat 4 true = some x → decodeError (x % 2 ^ 40) true s t) ∧
    (s.sys.held = none → firstOutside s m a.toNat 4 true = none → regionOf s a.toNat = .regs → windowOf a.toNat = none →
      regDesc a.toNat = none → decodeError a.toNat true s t) ∧
    (s.sys.held = none → firstOutside s m a.toNat 4 true = none → regionOf s a.toNat = .sram → poisoned s a.toNat 4 = false →
      mbytes t a.toNat 4 = leBytes 4 v.toNat ∧ memKept s t (within a.toNat 4) ∧ frame [.mem] noReg s t) := by
  obtain ⟨t, ht⟩ : ∃ t, exec (.registerWrite m a v) s = .next t := ⟨_, exec_registerWrite m a v s⟩
  have ht' {u : State} (h : exec (.registerWrite m a v) s = .next u) : t = u := Host.Outcome.next.inj (ht.symm.trans h)
  refine ⟨t, ht, fun hd => ?_, fun x hd hf => ?_, fun hd hf hr hw hn => ?_, fun hd hf hr hp => ?_⟩
  · rw [ht' (registerWrite_held hd)]
    exact frame_done (frame_refl ..)
  · obtain ⟨e, he⟩ := registerWrite_outside (v := v) hd hf
    rw [ht' he]
    exact decodeError_seen ..
  · rw [ht' (registerWrite_unmapped hd hf hr hw hn)]
    exact decodeError_seen ..
  · rw [ht' (registerWrite_sram hd hf hr hp)]
    exact sramStored ..

/-- Settles O52: by where the write goes, and in a register by the access class of each field. -/
theorem registerAccess : Obligations.RegisterAccess := by
  refine ⟨registerWrite_anywhere, fun m a v fs s hd hm hw hn => ?_⟩
  obtain ⟨t, ht⟩ : ∃ t, exec (.registerWrite m a v) s = .next t := ⟨_, exec_registerWrite m a v s⟩
  have ht' {u : State} (h : exec (.registerWrite m a v) s = .next u) : t = u := Host.Outcome.next.inj (ht.symm.trans h)
  refine ⟨t, ht, fun hs => ?_, fun hs hp => ?_⟩
  · rw [ht' (registerWrite_mapped hd hm hw hn (safAbsent_room hs)), if_pos hs]
    exact frame_done (frame_refl ..)
  · obtain ⟨hrw, hro, hw1c, hrws, hrwm⟩ := plainWrite_fields hp hn (decide (m = .core)) v s
    have hev {f : Fld} (hf : f ∈ fs) := plainWrite_events hp (decide (m = .core)) v s hf
    rw [ht' (registerWrite_mapped hd hm hw hn (plainReg_room hp)), if_neg (by rw [hs]; exact nofun)]
    exact ⟨hrw, hro, hw1c, fun f hf hc hk => ⟨hrws f hf hc hk, (hev hf).1 hc⟩, fun f hf hc hk => ⟨hrwm f hf hc hk, (hev hf).2 hc⟩,
      frame_done (fieldWrite_plain_frame hp ..)⟩

end Sys2Proof.Machine
end

section
/-! The machine after reset (R28, R65, R420, R464), and a post buffer whose ticket names a channel of another tile (R121). -/

namespace Sys2Proof.Machine

/-! ### Reset -/

theorem rd_reset (a : Nat) : rd State.reset a = regReset a := rfl

theorem mget_reset (a : Nat) : mget State.reset a = memDefault a := rfl

theorem unitWord_reset (u : Nat) : unitWord State.reset u = 0#32 := rfl

theorem unitsInv_reset : unitsInv State.reset = true := by
  simp [unitsInv, unitsZero, unitWord_reset]

/-- Settles O58: no table of the reset state lists anything, so each reads its default everywhere. -/
theorem resetState : Obligations.ResetState :=
  ⟨rfl, rfl, rfl, rfl, rd_reset, mget_reset, unitWord_reset, rfl, unitsInv_reset⟩

/-! ### A ticket of another tile -/

theorem exec_ticketPost {i : Fin 64} {k : Ticket} {l : List Ticket} {s : State} (hp : postOf s i = k :: l) (he : k.entry + 16 ≤ now s)
    (hq : (tqOf s (i / 4)).length < 1024) (ht : qTurn s (i / 4) (i % 4) = true) :
    exec (.ticketPost i) s = .next (done (tqPush (modBuf (qServe (setPost s i l) (i / 4) (i % 4)) (16 * i + k.ch) k.buf
      fun h => { h with queued := true }) (i / 4) { k with entry := now s })) := by
  show Host.Outcome.next (done _) = _
  rw [hp]
  dsimp only
  rw [if_pos ⟨he, hq, ht⟩]
  rfl

/-- A ticket of tile 0 whose channel number is 16: that channel is channel 0 of tile 1. -/
def strayTicket : Ticket :=
  { tile := 0, ch := 16, buf := 0, sparse := false, trip2 := false, tripLost := false, gen := 0, row := 0, frame := 0, shots := 0,
    sat := false, biasMove := false, subst := false, conv := false, totMean := 0, full := 0, bgBin := 0, deadline := 0, stolen := false,
    entry := 0, slot := 0 }

/-- That ticket alone has waited its 8 tile cycles in the post buffer of tile 0, and channel 0 of tile 1 holds a posted histogram that its
GT_BUF does not show. -/
def strayPost : State :=
  { State.reset with
    tb := 16
    gt := { chan := [(16, { GtChan.init with b0 := { Hist.init with st := .posted } })], post := [(0, [strayTicket])], repMode := [] } }

/-- Refutes O9: the sixth clause puts no bound on the ticket's channel number, so the post of tile 0 may mark a buffer of tile 1, whose
GT_BUF it then writes; that register is none of those that the clause lets change. -/
theorem not_histogramBuffers : ¬ Obligations.HistogramBuffers := by
  rintro ⟨-, -, -, -, -, hpost, -⟩
  have hp : postOf strayPost (0 : Fin 64) = [strayTicket] := rfl
  have he : strayTicket.entry + 16 ≤ now strayPost := by decide
  have hq : (tqOf strayPost ((0 : Fin 64) / 4)).length < 1024 := by decide
  have ht : qTurn strayPost ((0 : Fin 64) / 4) ((0 : Fin 64) % 4) = true := rfl
  obtain ⟨t, hx, -, -, -, hf⟩ := hpost 0 strayTicket [] strayPost hp he hq ht
  have hkept : rd t (R.GT_BUF 1 0) = rd strayPost (R.GT_BUF 1 0) := hf.2 _ (by decide)
  obtain rfl := Host.Outcome.next.inj ((exec_ticketPost hp he hq ht).symm.trans hx)
  rw [rd_done] at hkept
  exact absurd hkept (by decide +kernel)

end Sys2Proof.Machine
end

section
/-! What leaves memory as it was: writes of registers, and the parts of the state beside memory. -/

namespace Sys2Proof.Machine

variable {s : State}

@[simp] theorem fadd_mem (s : State) (a : Nat) (f : Fld) (n : Nat) : (fadd s a f n).mem = s.mem := rfl
@[simp] theorem finc_mem (s : State) (a : Nat) (f : Fld) : (finc s a f).mem = s.mem := rfl
@[simp] theorem fon_mem (s : State) (a : Nat) (f : Fld) : (fon s a f).mem = s.mem := by unfold fon; split <;> rfl
@[simp] theorem modVc_mem (s : State) (p v : Nat) (f : Vc → Vc) : (modVc s p v f).mem = s.mem := rfl
@[simp] theorem modDma_mem (s : State) (n : Nat) (f : DmaChan → DmaChan) : (modDma s n f).mem = s.mem := rfl
@[simp] theorem modQueue_mem (s : State) (q : Nat) (f : SlqQueue → SlqQueue) : (modQueue s q f).mem = s.mem := rfl

theorem foldl_mem {α : Type} {f : State → α → State} {l : List α} (hf : ∀ t, ∀ x ∈ l, (f t x).mem = t.mem) (s : State) :
    (l.foldl f s).mem = s.mem :=
  List.foldlRecOn (motive := fun t => t.mem = s.mem) l f rfl fun t ht x hx => (hf t x hx).trans ht

theorem wf_foldl {α : Type} {f : State → α → State} {l : List α}
    (hf : ∀ t, ∀ x ∈ l, Memory.wf t.mem = true → Memory.wf (f t x).mem = true) (h : Memory.wf s.mem = true) :
    Memory.wf (l.foldl f s).mem = true :=
  List.foldlRecOn (motive := fun t => Memory.wf t.mem = true) l f h fun t ht x hx => hf t x hx ht

theorem memRead_mem (s : State) (a n : Nat) : (memRead s a n).1.mem = s.mem := by
  have h : (drcUse (ceRead s a n) a n false).mem = s.mem := by rw [drcUse_mem, (ceRead_same s a n).1]
  unfold memRead
  dsimp only
  split
  · exact h
  · split
    · rw [ueRecord_mem, h]
    · exact h

theorem coreSees_mem (m : Master) (b s : State) (e : Option Nat) : (coreSees m b s e).mem = s.mem :=
  (coreSees_frame m b s e).1 .mem (by decide)

/-! ### Silt queues and lane ports -/

@[simp] theorem slqGive_mem (s : State) (l : List (Bool × Nat)) : (slqGive s l).mem = s.mem := rfl

@[simp] theorem slqShow_mem (s : State) (q : Nat) : (slqShow s q).mem = s.mem := by
  unfold slqShow
  dsimp only
  rw [fset_mem, fset_mem, fset_mem, fset_mem, fset_mem]

theorem slqTrim_mem (q : Nat) : ∀ (fuel : Nat) (s : State), (slqTrim fuel s q).mem = s.mem
  | 0, _ => rfl
  | fuel + 1, s => by
    rw [slqTrim]
    dsimp only
    split
    · rfl
    · split
      · rw [slqTrim_mem q fuel, slqGive_mem, modQueue_mem]
      · rw [slqGive_mem, modQueue_mem]

theorem slqMarkErr_mem (s : State) {q : Nat} (hq : q < 256) : (slqMarkErr s q).mem = s.mem := by
  rw [slqMarkErr, raise_mem _ (by omega), fon_mem]

theorem slqRelease_mem (s : State) {q : Nat} (hq : q < 256) (n : Nat) : (slqRelease s q n).mem = s.mem := by
  unfold slqRelease
  dsimp only
  split
  · rw [fon_mem, slqShow_mem, slqTrim_mem, modQueue_mem]
  · exact slqMarkErr_mem s hq

theorem slqMark_mem (s : State) (q : Nat) : (slqMark s q).mem = s.mem := by
  unfold slqMark
  split
  · rw [slqShow_mem, modQueue_mem]
  · rfl

theorem headFill_mem (s : State) (q : Nat) : (headFill s q).mem = s.mem := by unfold headFill; rw [modQueue_mem]

theorem slqRead_mem (s : State) (q n : Nat) : (slqRead s q n).mem = s.mem := by
  rw [slqRead, slqShow_mem, headFill_mem, modQueue_mem]

theorem streamSkip_mem (s : State) {q : Nat} (hq : q < 256) : (streamSkip s q).mem = s.mem := by
  unfold streamSkip
  split
  · rfl
  · extract_lets u
    have hu : u.mem = s.mem := by
      unfold u
      split
      · rfl
      · exact slqMark_mem s q
    clear_value u
    rw [slqRelease_mem _ hq, slqRead_mem, hu]

theorem ackApply_mem (s : State) (p v seq : Nat) : (ackApply s p v seq).mem = s.mem := by
  unfold ackApply
  dsimp only
  split
  · rfl
  · split
    · rw [foldl_mem fun t f _ => streamSkip_mem t f.queue.isLt, foldl_mem fun t f _ => slqRelease_mem t f.queue.isLt 1, modVc_mem]
    · rw [modVc_mem]

theorem exportDrop_mem (s : State) : (exportDrop s).mem = s.mem := by
  rw [exportDrop, raise_mem _ (by decide), finc_mem]

theorem crcFail_mem (s : State) (p : Fin 3) : (crcFail s p).mem = s.mem := by
  rw [crcFail, lnEv, raise_mem _ (by omega), finc_mem, fon_mem]

end Sys2Proof.Machine
end

section
/-! Memory keeps its canonical form (R24) under the commands that store to it. -/

namespace Sys2Proof.Machine

variable {s t : State}

/-! ### DMA channels (R361 to R365) -/

theorem dmaReadLine_mem (s : State) (a : Int) (n : Nat) : (dmaReadLine s a n).1.mem = s.mem := by
  unfold dmaReadLine
  split
  · exact memRead_mem ..
  · exact decodeErr_mem ..

theorem dmaRead_mem (s : State) (a : Int) (n : Nat) : (dmaRead s a n).1.mem = s.mem := by
  unfold dmaRead
  dsimp only
  split
  · exact dmaReadLine_mem ..
  · exact (dmaReadLine_mem ..).trans (dmaReadLine_mem ..)

theorem wf_dmaRead (a : Int) (n : Nat) (h : Memory.wf s.mem = true) : Memory.wf (dmaRead s a n).1.mem = true :=
  wf_of_mem (dmaRead_mem s a n) h

theorem wf_dmaWrite (a : Int) (bs : List Byte) (h : Memory.wf s.mem = true) : Memory.wf (dmaWrite s a bs).1.mem = true := by
  unfold dmaWrite
  split
  · exact wf_memWrite _ bs false h
  · exact wf_of_mem (decodeErr_mem ..) h

theorem wf_dmaStatusWrite (n status : Nat) (h : Memory.wf s.mem = true) : Memory.wf (dmaStatusWrite s n status).1.mem = true := by
  unfold dmaStatusWrite
  split
  · exact wf_dmaWrite _ _ h
  · exact h

@[simp] theorem setDmaState_mem (s : State) (n st : Nat) : (setDmaState s n st).mem = s.mem := rfl
@[simp] theorem setDmaCount_mem (s : State) (n v : Nat) : (setDmaCount s n v).mem = s.mem := rfl
@[simp] theorem dmaShowCrc_mem (s : State) (n : Nat) : (dmaShowCrc s n).mem = s.mem := rfl
@[simp] theorem dmaServed_mem (s : State) (n : Nat) : (dmaServed s n).mem = s.mem := rfl
@[simp] theorem dmaOutFrame_mem (s : State) (n : Nat) (x : DmaChan) (a : Int) (bs : List Byte) : (dmaOutFrame s n x a bs).mem = s.mem := rfl

theorem dmaHalt_mem (s : State) {n : Nat} (hn : n < 16) (tail : Bool) (addr : Int) : (dmaHalt s n tail addr).mem = s.mem := by
  unfold dmaHalt
  dsimp only
  rw [raise_mem _ (by omega), finc_mem, modDma_mem, wr_mem, wr_mem, fon_mem, fon_mem, setDmaState_mem]

theorem wf_dmaStop {n : Nat} (hn : n < 16) (status : Nat) (addr : Int) (h : Memory.wf s.mem = true) :
    Memory.wf (dmaStop s n status addr).mem = true :=
  wf_of_mem (dmaHalt_mem _ hn _ _) (wf_dmaStatusWrite n status h)

theorem wf_dmaKick {n : Nat} (hn : n < 16) (h : Memory.wf s.mem = true) : Memory.wf (dmaKick s n).mem = true := by
  have hr : Memory.wf (dmaRead (setDmaState s n 1) (dmaDescAddr s n : Nat) 32).1.mem = true := wf_dmaRead _ 32 (by rwa [setDmaState_mem])
  unfold dmaKick
  dsimp only
  split
  · split
    · split
      · exact wf_dmaStop hn 5 _ (by rw [setDmaCount_mem, modDma_mem]; exact hr)
      · rw [dmaShowCrc_mem, setDmaState_mem, setDmaCount_mem, modDma_mem]; exact hr
    · exact wf_dmaStop hn 3 _ (by rw [setDmaCount_mem, openVal_mem, modDma_mem]; exact hr)
  · exact h

theorem wf_dmaDoorbell (n : Fin 16) (tail : BitVec 12) (h : Memory.wf s.mem = true) (ht : exec (.dmaDoorbell n tail) s = .next t) :
    Memory.wf t.mem = true := by
  obtain rfl := Host.Outcome.next.inj ht
  rw [done_mem]
  exact wf_dmaKick n.isLt (by rwa [fset_mem])

theorem dmaBeatOutward_mem (s : State) (n : Nat) (x : DmaChan) (bs : List Byte) : (dmaBeatOutward s n x bs).mem = s.mem := by
  unfold dmaBeatOutward
  simp

theorem wf_dmaBeatInternal {n : Nat} (hn : n < 16) (x : DmaChan) (bs : List Byte) (h : Memory.wf s.mem = true) :
    Memory.wf (dmaBeatInternal s n x bs).mem = true := by
  unfold dmaBeatInternal
  extract_lets k r u
  have hu : Memory.wf u.mem = true := by
    rw [modDma_mem]
    exact wf_dmaWrite _ bs (by simpa using h)
  clear_value u
  split
  · simpa using hu
  · split
    · exact wf_dmaStop hn 2 _ hu
    · exact wf_dmaStop hn 3 _ (by simpa using hu)

theorem wf_dmaBeat (n : Fin 16) (h : Memory.wf s.mem = true) (ht : exec (.dmaBeatResponse n) s = .next t) : Memory.wf t.mem = true := by
  obtain rfl := Host.Outcome.next.inj ht
  rw [done_mem]
  split
  · extract_lets u k r v
    have hr : Memory.wf r.1.mem = true := wf_dmaRead _ k (by rwa [dmaServed_mem])
    have hv : Memory.wf v.mem = true := by simpa [v] using hr
    clear_value v
    split
    · exact wf_dmaStop n.isLt 3 _ (by simpa using hr)
    · split
      · exact wf_of_mem (dmaBeatOutward_mem ..) hv
      · exact wf_dmaBeatInternal n.isLt _ _ hv
  · exact h

/-! ### Tile buffers and ticket queues (R120, R122) -/

theorem wf_bufFree (n f : Nat) (h : Memory.wf s.mem = true) : Memory.wf (bufFree s n f).mem = true := by
  have hz : Memory.wf (mzero s (areaAddr n f) 0x1000).mem = true := wf_mzero _ _ h
  unfold bufFree
  dsimp only
  split
  · exact hz
  · exact hz

theorem wf_bufferClearDone (n : Fin 1024) (f : Fin 2) (h : Memory.wf s.mem = true) (ht : exec (.bufferClearDone n f) s = .next t) :
    Memory.wf t.mem = true := by
  obtain rfl := Host.Outcome.next.inj ht
  rw [done_mem]
  split
  · exact wf_bufFree n f h
  · exact h

theorem setTq_mem (s : State) {c : Nat} (hc : c < 64) (l : List Ticket) : (setTq s c l).mem = s.mem := by
  unfold setTq
  dsimp only
  split
  · rw [raise_mem _ (by omega)]; rfl
  · rfl

theorem wf_tqPush {c : Nat} (hc : c < 64) (k : Ticket) (h : Memory.wf s.mem = true) : Memory.wf (tqPush s c k).mem = true :=
  wf_of_mem (setTq_mem _ hc _) (wf_blockWrite _ k.bytes h)

theorem wf_ticketPost (i : Fin 64) (h : Memory.wf s.mem = true) (ht : exec (.ticketPost i) s = .next t) : Memory.wf t.mem = true := by
  obtain rfl := Host.Outcome.next.inj ht
  rw [done_mem]
  split
  · exact h
  · dsimp only
    split
    · exact wf_tqPush (by omega) _ h
    · exact h

/-! ### The world table (R197) -/

theorem wf_ttZero (h : Memory.wf s.mem = true) : Memory.wf (ttZero s).mem = true := by
  unfold ttZero
  dsimp only
  rw [fset_mem]
  split
  · exact wf_of_mem (decodeErr_mem ..) h
  · exact wf_mzero _ _ h

theorem wf_tilthClear (h : Memory.wf s.mem = true) (ht : exec .tilthClear s = .next t) : Memory.wf t.mem = true := by
  obtain rfl := Host.Outcome.next.inj ht
  rw [done_mem]
  split
  · exact h
  · rw [fon_mem, fon_mem]
    exact wf_ttZero h

theorem wf_ttEcc (a : Nat) (h : Memory.wf s.mem = true) : Memory.wf (ttEcc s a).mem = true := by
  unfold ttEcc
  split
  · exact wf_of_mem (decodeErr_mem ..) h
  · split
    · exact h
    · dsimp only
      rw [flagRaise_mem _ _ _ (by decide)]
      exact wf_mzero (s := unpoison (ueRecord s _) a 256) a 256 (wf_of_mem (ueRecord_mem ..) h)

/-- The sweeper visits way i of the bucket at address a in frame f: an aged entry becomes invalid. -/
def ttSweepWay (f a : Nat) (s : State) (i : Nat) : State :=
  let w := ttRead s (a + 32 * i)
  if w.valid && w.aged f (ttAgeMax s) then
    fset (mwr s (a + 32 * i) 4 (mrd s (a + 32 * i) 4 % 2 ^ 31)) R.TT_OCC F.TT_OCC_VALID (fget s R.TT_OCC F.TT_OCC_VALID - 1)
  else s

/-- The sweeper visits the bucket at address a in frame f. -/
def ttSweepBucket (f a : Nat) (s : State) : State :=
  if flag s R.TT_CTRL F.TT_CTRL_EN && !flag s R.TT_STAT F.TT_STAT_CLR_BUSY then (List.range 8).foldl (ttSweepWay f a) (ttEcc s a) else s

theorem exec_tilthSweep (s : State) : exec .tilthSweep s =
    let b := s.tilt.sweepAt % 2 ^ (ttSize s - 3)
    let u := ttSweepBucket (fget s R.SHT_FRAME_NO F.SHT_FRAME_NO_FRAME_NO % 65536) (ttBase s + 256 * b) s
    .next (done (if b + 1 = 2 ^ (ttSize u - 3) then finc { u with tilt := { u.tilt with sweepAt := 0 } } R.TT_CNT_D F.TT_CNT_D_SWEEPS
      else { u with tilt := { u.tilt with sweepAt := b + 1 } })) := rfl

theorem wf_ttSweepWay (f a i : Nat) (h : Memory.wf s.mem = true) : Memory.wf (ttSweepWay f a s i).mem = true := by
  unfold ttSweepWay
  dsimp only
  split
  · rw [fset_mem]
    exact wf_mwr _ 4 _ h
  · exact h

theorem wf_ttSweepBucket (f a : Nat) (h : Memory.wf s.mem = true) : Memory.wf (ttSweepBucket f a s).mem = true := by
  unfold ttSweepBucket
  split
  · exact wf_foldl (fun _ i _ ht => wf_ttSweepWay f a i ht) (wf_ttEcc a h)
  · exact h

theorem wf_tilthSweep (h : Memory.wf s.mem = true) (ht : exec .tilthSweep s = .next t) : Memory.wf t.mem = true := by
  rw [exec_tilthSweep] at ht
  extract_lets b u at ht
  have hu : Memory.wf u.mem = true := wf_ttSweepBucket _ _ h
  clear_value u
  obtain rfl := Host.Outcome.next.inj ht
  rw [done_mem]
  split
  · rw [finc_mem]
    exact hu
  · exact hu

/-! ### The SDRAM (R336) -/

theorem wf_drcInit (h : Memory.wf s.mem = true) (ht : exec .drcInit s = .next t) : Memory.wf t.mem = true := by
  obtain rfl := Host.Outcome.next.inj ht
  rw [done_mem]
  unfold drcInit
  split
  · exact wf_mzero _ _ h
  · split
    · exact h
    · exact h

theorem wf_openWords : ∀ (n : Nat) {s : State} (a : Nat), Memory.wf s.mem = true → Memory.wf (openWords n s a).mem = true
  | 0, _, _, h => h
  | n + 1, _, a, h => wf_openWords n (a + 8) (wf_mwr a 8 _ h)

theorem wf_drcPattern (h : Memory.wf s.mem = true) : Memory.wf (drcPattern s).mem = true :=
  wf_foldl (fun _ _ _ ht => wf_openWords 32 _ ht) h

theorem drcGo_mem (s : State) (st : Nat) : (drcGo s st).mem = s.mem := rfl

theorem wf_checkDone (l : BitVec 9) (h : Memory.wf s.mem = true) (ht : exec (.checkDone l) s = .next t) : Memory.wf t.mem = true := by
  have hp : Memory.wf (if s.drc.kept then s else drcPattern s).mem = true := by
    split
    · exact h
    · exact wf_drcPattern h
  obtain rfl := Host.Outcome.next.inj ht
  rw [done_mem]
  split
  · exact h
  · dsimp only
    split
    · exact hp
    · rw [flagRaise_mem _ _ _ (by decide), drcGo_mem, fset_mem]
      exact hp

/-! ### Exports and the kernel-image allocation (R398, R448) -/

theorem wf_sumLand (bs : List Byte) (h : Memory.wf s.mem = true) : Memory.wf (sumLand s bs).mem = true := by
  unfold sumLand
  split
  · exact h
  · dsimp only
    refine wf_blockWrite _ _ ?_
    split
    · rw [raise_mem _ (by decide), finc_mem, fon_mem]
      exact h
    · exact h

theorem wf_exportRx (p : Fin 3) (f : LaneFrame) (ok : Bool) (h : Memory.wf s.mem = true) (ht : exec (.exportRx p f ok) s = .next t) :
    Memory.wf t.mem = true := by
  obtain rfl := Host.Outcome.next.inj ht
  rw [done_mem]
  split
  · rw [send_mem]
    exact h
  split
  · exact h
  split
  · rw [exportDrop_mem, crcFail_mem]
    exact h
  extract_lets u k v w o
  have hv : v.mem = s.mem := by
    unfold v
    split
    · exact ackApply_mem ..
    · rw [raise_mem _ (by decide), fadd_mem]
      exact ackApply_mem ..
  have hw : Memory.wf w.mem = true := wf_of_mem (by rw [modVc_mem, hv]) h
  clear_value w
  split
  · exact hw
  split
  · exact wf_sumLand f.body hw
  split
  · exact hw
  · rw [exportDrop_mem]
    exact hw

theorem wf_kimageWrite (m : Master) (a : BitVec 40) (d : List Byte) (h : Memory.wf s.mem = true)
    (ht : exec (.kimageWrite m a d) s = .next t) : Memory.wf t.mem = true := by
  obtain rfl := Host.Outcome.next.inj ht
  rw [done_mem]
  split
  · rw [coreSees_mem]
    split
    · rw [decodeErr_mem]
      exact h
    · exact wf_memWrite _ d false h
  · exact h

/-- Settles O60: every store goes through an operation that keeps the canonical form, and no other operation touches memory. -/
theorem memoryCanonical : Obligations.MemoryCanonical := by
  intro m a d p f ok n tail ch b i l c hc s t ht h
  simp only [List.mem_cons, List.not_mem_nil, or_false] at hc
  rcases hc with rfl | rfl | rfl | rfl | rfl | rfl | rfl | rfl | rfl | rfl
  · exact wf_kimageWrite m a d h ht
  · exact wf_exportRx p f ok h ht
  · exact wf_dmaDoorbell n tail h ht
  · exact wf_dmaBeat n h ht
  · exact wf_bufferClearDone ch b h ht
  · exact wf_ticketPost i h ht
  · exact wf_tilthSweep h ht
  · exact wf_tilthClear h ht
  · exact wf_drcInit h ht
  · exact wf_checkDone l h ht

end Sys2Proof.Machine
end

section
/-! What raising an event leaves on the lane ports: it may broadcast on VC0 (R105), and every other virtual channel stays (R383). -/

namespace Sys2Proof.Machine

variable {s t u : State}

/-! ### Virtual channels -/

theorem vcOf_modVc_same (s : State) (p v : Nat) (f : Vc → Vc) : vcOf (modVc s p v f) p v = f (vcOf s p v) := by
  simp only [vcOf, lanePort, modVc, modLane, tmod, tget_tput_same]

theorem vcOf_modVc_ne (s : State) (p q : Nat) {v w : Nat} (f : Vc → Vc) (h : w ≠ v) : vcOf (modVc s p v f) q w = vcOf s q w := by
  simp only [vcOf, lanePort, modVc, modLane, tmod, tget_tput]
  split
  · next hq => rw [hq, tget_tput_ne _ _ _ _ h]
  · rfl

/-- Every virtual channel but VC0 of every port is as it was. -/
structure VcKept (s t : State) : Prop where
  vc : ∀ p v, v ≠ 0 → vcOf t p v = vcOf s p v

theorem vcKept_refl (s : State) : VcKept s s := ⟨fun _ _ _ => rfl⟩
theorem vcKept_trans (h : VcKept s t) (k : VcKept t u) : VcKept s u := ⟨fun p v hv => (k.vc p v hv).trans (h.vc p v hv)⟩

theorem vcKept_of_lanes (h : t.lanes = s.lanes) : VcKept s t := ⟨fun p v _ => by unfold vcOf lanePort; rw [h]⟩

theorem VcKept.after_lanes (k : VcKept t u) (h : t.lanes = s.lanes) : VcKept s u := vcKept_trans (vcKept_of_lanes h) k

theorem fon_lanes (s : State) (a : Nat) (f : Fld) : (fon s a f).lanes = s.lanes := by unfold fon; split <;> rfl

/-! ### Raising an event -/

theorem castRing_vc (s : State) (k p1 p2 n r v : Nat) : VcKept s (castRing s k p1 p2 n r v) := by
  unfold castRing
  exact vcKept_trans ⟨fun q _ hw => vcOf_modVc_ne s (ringOut s 2) q _ hw⟩ (vcKept_of_lanes rfl)

theorem capFireCast_vc (s : State) : VcKept s (capFireCast s) := by
  unfold capFireCast
  split
  · exact castRing_vc ..
  · exact vcKept_refl s

theorem capFire_vc (s : State) : VcKept s (capFire s) := by
  unfold capFire
  split
  · exact (capFireCast_vc _).after_lanes rfl
  · exact vcKept_refl s

theorem evCount_vc (s : State) (n : Nat) : VcKept s (evCount s n) := by
  have h : VcKept s (finc s (R.EV_ROUTE n) F.EV_ROUTE_COUNT) := vcKept_of_lanes rfl
  unfold evCount capTrigger
  dsimp only
  split
  · split
    · exact vcKept_trans h (capFire_vc _)
    · exact h
  · exact h

theorem noteEvent_lanes (s : State) (n : Nat) (old : Bool) : (noteEvent s n old).lanes = s.lanes := by
  unfold noteEvent
  dsimp only
  split <;> rfl

theorem irqRelease_lanes (s0 s : State) (n k : Nat) (f : Fld) : (irqRelease s0 s n k f).lanes = s.lanes := by
  unfold irqRelease
  split <;> rfl

theorem evFlagSet_lanes (s : State) (n : Nat) : (evFlagSet s n).lanes = s.lanes := by
  unfold evFlagSet setEvFlag
  dsimp only
  rw [fset_lanes, wr_lanes, if_pos rfl]
  exact (irqRelease_lanes ..).trans (irqRelease_lanes ..)

section
variable {again : State → Nat → State} (ho : ∀ s n, VcKept s (again s n))
include ho

theorem evNoRoom_vc (r : Bool) (s : State) : VcKept s (evNoRoom again r s) := by
  unfold evNoRoom
  split
  · exact vcKept_refl s
  · exact (ho ..).after_lanes (fon_lanes ..)

theorem evHost_vc (s : State) (n c : Nat) : VcKept s (evHost again s n c) := by
  unfold evHost
  split
  · exact (evNoRoom_vc ho ..).after_lanes rfl
  · exact vcKept_refl s

theorem evEth_vc (s : State) (n c : Nat) : VcKept s (evEth again s n c) := by
  unfold evEth
  split
  · exact (evNoRoom_vc ho ..).after_lanes rfl
  · exact vcKept_refl s

theorem evEmcy_vc (s : State) (n c : Nat) : VcKept s (evEmcy again s n c) := by
  unfold evEmcy
  split
  · dsimp only
    split
    · exact vcKept_of_lanes rfl
    · exact (ho ..).after_lanes (fon_lanes ..)
  · exact vcKept_refl s

theorem evRaise_vc (s : State) (n : Nat) : VcKept s (evRaise again s n) := by
  unfold evRaise
  exact vcKept_trans (vcKept_trans (vcKept_trans (vcKept_of_lanes (evFlagSet_lanes s n)) (evEmcy_vc ho ..)) (evHost_vc ho ..)) (evEth_vc ho ..)

end

theorem raiseFuel_vc : ∀ (fuel : Nat) (s : State) (n : Nat), VcKept s (raiseFuel fuel s n)
  | 0, s, _ => vcKept_refl s
  | fuel + 1, s, n => by
    have hc := vcKept_trans (evCount_vc s n) (vcKept_of_lanes (noteEvent_lanes (evCount s n) n (evFlag s n)))
    unfold raiseFuel
    split
    · exact vcKept_refl s
    · dsimp only
      split
      · exact hc
      · exact vcKept_trans hc (evRaise_vc (raiseFuel_vc fuel) ..)

theorem flagRaise_vc (s : State) (a : Nat) (f : Fld) (n : Nat) : VcKept s (flagRaise s a f n) :=
  VcKept.after_lanes (raiseFuel_vc ..) (fon_lanes ..)

end Sys2Proof.Machine
end

section
/-! What the host's window 1 reaches in the control-core memory (R24, R387), and what a read there does besides (R324). -/

namespace Sys2Proof.Machine

variable {s t : State}

/-! ### Reads of the control-core memory -/

theorem memRcnt_block : ∀ r < 4, inBlocks [0xF] (R.MEM_RCNT r) = true ∧ inBlocks [0xF] (R.MEM_RSTAT r) = true := by decide

/-- Corrected errors draw an open value and may raise an event. -/
theorem ceRead_frame (s : State) (a n : Nat) : frame (.free :: evParts) (inBlocks [0xF]) s (ceRead s a n) := by
  have hv := frame_openVal (frame_refl (.free :: evParts) (inBlocks [0xF]) s) (by decide)
  unfold ceRead
  split
  · exact frame_refl ..
  · next r hr =>
    obtain ⟨hc, hf⟩ := memRcnt_block r (memRegion_lt hr)
    dsimp only
    unfold ceMeet
    split
    · exact hv
    · exact frame_flagRaise (frame_fadd hv hc _ _) hf _ (by have := memRegion_lt hr; omega) (by decide) (inBlocks_ev _)

theorem ceRead_vc (s : State) (a n : Nat) : VcKept s (ceRead s a n) := by
  unfold ceRead
  split
  · exact vcKept_refl s
  · dsimp only
    unfold ceMeet
    split
    · exact vcKept_of_lanes rfl
    · exact (flagRaise_vc ..).after_lanes rfl

theorem firstPoison_none {a n : Nat} (h : poisoned s a n = false) : firstPoison s a n = none :=
  List.find?_eq_none.mpr fun p hp => List.any_eq_false.mp h p hp

theorem regionOf_below {a : Nat} (h : a < 0x1000000000) : regionOf s a ≠ .sdram := by
  intro h
  unfold regionOf at h
  split_ifs at h
  all_goals omega

/-- A read below the SDRAM that meets no poisoned word gives the bytes that stand there. -/
theorem memRead_below {a n : Nat} (ha : a < 0x1000000000) (hp : poisoned s a n = false) :
    memRead s a n = (ceRead s a n, mbytes s a n, true) := by
  obtain ⟨hm, hq⟩ := ceRead_same s a n
  have hn : firstPoison (ceRead s a n) a n = none := by unfold firstPoison; rw [hq]; exact firstPoison_none hp
  unfold memRead
  dsimp only
  rw [drcUse_below ha, if_neg fun h => regionOf_below ha h.1, hn, mbytes_same hm]

/-! ### The windows (R387) -/

section
variable {a n : Nat} (hr : inRecovery s = false) (h1 : 0x10000000 ≤ a) (h2 : a + n ≤ 0x10200000)
include hr h1 h2

theorem firstOut_sram (w : Bool) : firstOut s true a n w = none := by
  refine List.find?_eq_none.mpr fun x hx => ?_
  obtain ⟨i, hi, rfl⟩ := List.mem_map.mp hx
  have := List.mem_range.mp hi
  have hm : reaches .host .sram (a + i) w = true := rfl
  rw [regionOf_sram.mpr (by omega), hm, recoveryMay, hr]
  simp only [Bool.not_true, Bool.not_false, Bool.or_false, if_true, Bool.false_and, decide_eq_true_eq]
  omega

end

/-- An access that begins where nothing stands fails at its first byte (R25). -/
theorem firstOut_hole {win w : Bool} {a n : Nat} (hn : 0 < n) (h : regionOf s a = .hole) : firstOut s win a n w = some a := by
  obtain ⟨n, rfl⟩ := Nat.exists_eq_succ_of_ne_zero hn.ne'
  unfold firstOut
  rw [List.range_succ_eq_map, List.map_cons, Nat.add_zero, List.find?_cons_of_pos]
  rw [h, reaches_hole]
  simp

/-! ### What a request at port H comes to -/

theorem not_refused (ofs n : Nat) : refusedEarly true ofs n = false := rfl

theorem regionOf_low {a : Nat} (h : a < 0x0800000000) : regionOf s a ≠ .regs := by
  intro h
  unfold regionOf at h
  split_ifs at h
  all_goals omega

theorem brokenReg_elsewhere {a : Nat} (n : Nat) (h : regionOf s a ≠ .regs) : brokenReg s a n = false := by simp [brokenReg, h]

section
variable {ofs : Nat}

theorem hostFetch_sram {n : Nat} (hr : inRecovery s = false) (h1 : 0x10000000 ≤ winAddr s true ofs)
    (h2 : winAddr s true ofs + n ≤ 0x10200000) (hp : poisoned s (winAddr s true ofs) n = false) :
    hostFetch s true ofs n = (ceRead s (winAddr s true ofs) n, mbytes s (winAddr s true ofs) n, 0) := by
  have hne : regionOf s (winAddr s true ofs) ≠ .regs := regionOf_low (by omega)
  unfold hostFetch
  rw [not_refused, if_neg Bool.false_ne_true]
  extract_lets a
  rw [firstOut_sram hr h1 h2, memRead_below (by omega) hp]
  show (if _ then _ else if _ then _ else _) = _
  rw [brokenReg_elsewhere n hne, if_neg Bool.false_ne_true, if_neg hne]
  rfl

theorem hostStore_sram {d : List Byte} (hd : 0 < d.length) (hr : inRecovery s = false) (h1 : 0x10000000 ≤ winAddr s true ofs)
    (h2 : winAddr s true ofs + d.length ≤ 0x10200000) (hp : poisoned s (winAddr s true ofs) d.length = false) :
    hostStore s true ofs d = (mputBytes s (winAddr s true ofs) d, 0) := by
  have hne : regionOf s (winAddr s true ofs) ≠ .regs := regionOf_low (by omega)
  have hs : ∀ i, i < d.length → regionOf s (winAddr s true ofs + i) = .sram := fun i hi => regionOf_sram.mpr (by omega)
  unfold hostStore
  rw [not_refused, if_neg Bool.false_ne_true]
  extract_lets a
  rw [firstOut_sram hr h1 h2, memWrite_sram hd hs hp]
  show (if _ then _ else if _ then _ else _) = _
  rw [brokenReg_elsewhere _ hne, if_neg Bool.false_ne_true, if_neg hne]
  rfl

theorem hostStore_hole {d : List Byte} (hd : 0 < d.length) (h : regionOf s (winAddr s true ofs) = .hole) :
    hostStore s true ofs d = (decodeErr s (winAddr s true ofs % 2 ^ 40) true, 1) := by
  unfold hostStore
  rw [not_refused, if_neg Bool.false_ne_true]
  extract_lets a
  rw [firstOut_hole hd h]

/-- Window 0 reaches every register of the map. -/
theorem firstOut_regs (hr : inRecovery s = false) {a : Nat} (h1 : 0x0800000000 ≤ a) (h2 : a + 4 ≤ 0x0801000000) :
    firstOut s false a 4 true = none := by
  refine List.find?_eq_none.mpr fun x hx => ?_
  obtain ⟨i, hi, rfl⟩ := List.mem_map.mp hx
  have := List.mem_range.mp hi
  have hm : reaches .host .regs (a + i) true = true := rfl
  rw [regionOf_regs (by omega) (by omega), hm, recoveryMay, hr]
  simp only [Bool.not_true, Bool.not_false, Bool.or_false, if_true, Bool.true_and, Bool.or_eq_true, decide_eq_true_eq]
  omega

theorem ofLeBytes_leBytes_word (v : Word) : BitVec.ofNat 32 (ofLeBytes (leBytes 4 v.toNat)) = v := by
  apply BitVec.eq_of_toNat_eq
  simp only [leBytes, ofLeBytes, BitVec.toNat_ofNat]
  have := v.isLt
  omega

/-- A word written in window 0 to a register of the map is that register's write. -/
theorem hostStore_reg (hr : inRecovery s = false) (h4 : ofs % 4 = 0) (hlt : ofs < 0x1000000) (v : Word)
    (hn : (regDesc (0x0800000000 + ofs)).isSome = true) :
    hostStore s false ofs (leBytes 4 v.toNat) = (regWrite false s (0x0800000000 + ofs) v, 0) := by
  have hl : (leBytes 4 v.toNat).length = 4 := leBytes_length ..
  have hw : winAddr s false ofs = 0x0800000000 + ofs := rfl
  have hreg : regionOf s (0x0800000000 + ofs) = .regs := regionOf_regs (by omega) (by omega)
  have hb : brokenReg s (0x0800000000 + ofs) 4 = false := by
    simp only [brokenReg, Bool.and_eq_false_imp, Bool.or_eq_false_iff, decide_eq_false_iff_not]
    omega
  have he : ¬ refusedEarly false ofs 4 = true := by
    simp only [refusedEarly, Bool.not_false, Bool.true_and, Bool.or_eq_true, decide_eq_true_eq]
    omega
  have hs : regsWrite 1 s (0x0800000000 + ofs) (leBytes 4 v.toNat) = (regWrite false s (0x0800000000 + ofs) v, true) := by
    unfold regsWrite regsWrite
    rw [List.take_of_length_le hl.le, ofLeBytes_leBytes_word, hn, Bool.or_true]
    rfl
  unfold hostStore
  rw [hl, if_neg he]
  extract_lets a
  have ha : a = 0x0800000000 + ofs := hw
  rw [ha, firstOut_regs hr (by omega) (by omega)]
  show (if _ then _ else if _ then _ else _) = _
  rw [hb, if_neg Bool.false_ne_true, if_pos hreg, Nat.div_self (by decide), hs]
  rfl

end

end Sys2Proof.Machine
end

section
/-! The host's requests and their completions at port H (R29, R387): what each comes to, by the case that serves it. -/

namespace Sys2Proof.Machine

variable {s t : State}

/-! ### Requests at port H -/

@[simp] theorem vcOf_done (s : State) (p v : Nat) : vcOf (done s) p v = vcOf s p v := by unfold vcOf lanePort; rw [done_lanes]

theorem decodeErr_host (s : State) (a : Nat) (w : Bool) : (decodeErr s a w).host = s.host := (decodeErr_frame s a w).1 .host (by decide)
theorem ceRead_host (s : State) (a n : Nat) : (ceRead s a n).host = s.host := (ceRead_frame s a n).1 .host (by decide)
theorem mputBytes_host (s : State) (a : Nat) (l : List Byte) : (mputBytes s a l).host = s.host := (mputBytes_frame s a l).1 .host (by decide)

@[simp] theorem cplAdd_host (s : State) (c : Cpl) : (cplAdd s c).host = { s.host with cpls := s.host.cpls ++ [c] } := rfl
@[simp] theorem cplAdd_mem (s : State) (c : Cpl) : (cplAdd s c).mem = s.mem := rfl
@[simp] theorem vcOf_cplAdd (s : State) (c : Cpl) (p v : Nat) : vcOf (cplAdd s c) p v = vcOf s p v := rfl
@[simp] theorem fget_cplAdd (s : State) (c : Cpl) (a : Nat) (f : Fld) : fget (cplAdd s c) a f = fget s a f := rfl
@[simp] theorem flag_cplAdd (s : State) (c : Cpl) (a : Nat) (f : Fld) : flag (cplAdd s c) a f = flag s a f := rfl
@[simp] theorem modVc_host (s : State) (p v : Nat) (f : Vc → Vc) : (modVc s p v f).host = s.host := rfl

section
variable {ps : List Part} {own : Nat → Bool} (h : frame ps own s t)
include h

theorem frame_cplAdd (hp : Part.host ∈ ps) (c : Cpl) : frame ps own s (cplAdd t c) := frame_host h hp _
theorem frame_modVc (hp : Part.lanes ∈ ps) (p v : Nat) (f : Vc → Vc) : frame ps own s (modVc t p v f) := frame_lanes h hp _

end

/-- A held request stands behind those held before it. -/
theorem holdReq_held (s : State) (r : HeldReq) (k : Nat) : (holdReq s r k).host.held = s.host.held ++ [r] := rfl

theorem holdReq_frame (s : State) (r : HeldReq) (k : Nat) : frame [.host, .lanes] noReg s (holdReq s r k) :=
  frame_host (frame_lanes (frame_refl _ _ s) (by decide) _) (by decide) _

section
variable {ofs tag : Nat}

theorem writeServe_sram {d : List Byte} (hd : 0 < d.length) (hr : inRecovery s = false) (h1 : 0x10000000 ≤ winAddr s true ofs)
    (h2 : winAddr s true ofs + d.length ≤ 0x10200000) (hp : poisoned s (winAddr s true ofs) d.length = false) :
    writeServe s true ofs tag d = mputBytes s (winAddr s true ofs) d := by
  unfold writeServe
  rw [hostStore_sram hd hr h1 h2 hp]
  exact if_pos rfl

theorem writeServe_reg (hr : inRecovery s = false) (h4 : ofs % 4 = 0) (hlt : ofs < 0x1000000) (v : Word)
    (hn : (regDesc (0x0800000000 + ofs)).isSome = true) :
    writeServe s false ofs tag (leBytes 4 v.toNat) = regWrite false s (0x0800000000 + ofs) v := by
  unfold writeServe
  rw [hostStore_reg hr h4 hlt v hn]
  exact if_pos rfl

/-- A write that reaches nothing is a decode error, answered with STATUS 1. -/
theorem writeServe_hole {d : List Byte} (hd : 0 < d.length) (h : regionOf s (winAddr s true ofs) = .hole) :
    writeServe s true ofs tag d = cplAdd (decodeErr s (winAddr s true ofs % 2 ^ 40) true) ⟨false, tag, 1, []⟩ := by
  unfold writeServe
  rw [hostStore_hole hd h]
  exact if_neg Nat.one_ne_zero

end

/-- `n` bytes from offset `ofs` of window 1 lie in the control-core memory, open to the host and not poisoned. -/
structure SramOpen (s : State) (ofs n : Nat) : Prop where
  running : inRecovery s = false
  low : 0x10000000 ≤ winAddr s true ofs
  high : winAddr s true ofs + n ≤ 0x10200000
  clean : poisoned s (winAddr s true ofs) n = false

section
variable {ofs tag n : Nat}

/-- What changes port H and the lanes alone leaves the windows where they are. -/
theorem winAddr_of_frame (h : frame [.host, .lanes] noReg s t) (win : Bool) : winAddr t win ofs = winAddr s win ofs := by
  unfold winAddr
  rw [h.2 _ rfl, fget_of_rd (h.2 _ rfl)]

theorem SramOpen.of_frame (o : SramOpen s ofs n) (h : frame [.host, .lanes] noReg s t) : SramOpen t ofs n where
  running := by rw [inRecovery, fget_of_rd (h.2 _ rfl)]; exact o.running
  low := by rw [winAddr_of_frame h]; exact o.low
  high := by rw [winAddr_of_frame h]; exact o.high
  clean := by
    have hp : t.poison = s.poison := h.1 .poison (by decide)
    rw [winAddr_of_frame h, poisoned, hp]
    exact o.clean

section
variable (o : SramOpen s ofs n)
include o

/-- A read in the control-core memory: its completion waits with the bytes, and one credit returns on VC1. -/
theorem readServe_sram : readServe s true ofs tag n =
    cplAdd (modVc (ceRead s (winAddr s true ofs) n) 0 1 (fun x => { x with owe := x.owe + 1 }))
      ⟨true, tag, 0, mbytes s (winAddr s true ofs) n⟩ := by
  unfold readServe
  rw [hostFetch_sram o.running o.low o.high o.clean]

theorem readServe_host : (readServe s true ofs tag n).host =
    { s.host with cpls := s.host.cpls ++ [⟨true, tag, 0, mbytes s (winAddr s true ofs) n⟩] } := by
  rw [readServe_sram o, cplAdd_host, modVc_host, ceRead_host]

theorem readServe_owe : (vcOf (readServe s true ofs tag n) 0 1).owe = (vcOf s 0 1).owe + 1 := by
  rw [readServe_sram o, vcOf_cplAdd, vcOf_modVc_same, (ceRead_vc ..).vc 0 1 Nat.one_ne_zero]

theorem readServe_mem : (readServe s true ofs tag n).mem = s.mem := by
  rw [readServe_sram o, cplAdd_mem, modVc_mem, (ceRead_same ..).1]

theorem readServe_frame : frame (.host :: .free :: evParts) (inBlocks [0xF]) s (readServe s true ofs tag n) := by
  rw [readServe_sram o]
  have h := frame_mono (qs := .host :: .free :: evParts) (ceRead_frame s (winAddr s true ofs) n) (by decide) fun _ h => h
  exact frame_cplAdd (frame_modVc h (by decide) ..) (by decide) _

end

end

/-! ### HOST_WRITE -/

section
variable {win : Bool} {ofs : BitVec 32} {tag : Byte} {d : List Byte}

theorem exec_hostWrite_off (h : hostServed s = false ∨ d = [] ∨ 4096 < d.length) : exec (.hostWrite win ofs tag d) s = .next (done s) := by
  have hn : ¬ (hostServed s = true ∧ 1 ≤ d.length ∧ d.length ≤ 4096) := by
    rintro ⟨hs, hd, hl⟩
    rcases h with h | rfl | h
    · exact absurd (hs.symm.trans h) nofun
    · exact absurd hd (by decide)
    · omega
  exact congrArg (fun t => Host.Outcome.next (done t)) (if_neg hn)

variable (hs : hostServed s = true) (hd : d ≠ []) (hl : d.length ≤ 4096)
include hs hd hl

theorem hostWrite_on : hostServed s = true ∧ 1 ≤ d.length ∧ d.length ≤ 4096 := ⟨hs, List.length_pos_iff.mpr hd, hl⟩

/-- VC1 delivers in order: a write waits behind the requests held there. -/
theorem exec_hostWrite_held (hh : s.host.held ≠ []) : exec (.hostWrite win ofs tag d) s =
    .next (done (holdReq s (.write win ofs.toNat tag.toNat d) (heldUnits (.write win ofs.toNat tag.toNat d)))) :=
  congrArg (fun t => Host.Outcome.next (done t)) ((if_pos (hostWrite_on hs hd hl)).trans (if_neg hh))

theorem exec_hostWrite_served (hh : s.host.held = []) : exec (.hostWrite win ofs tag d) s =
    .next (done (writeServe s win ofs.toNat tag.toNat d)) :=
  congrArg (fun t => Host.Outcome.next (done t)) ((if_pos (hostWrite_on hs hd hl)).trans (if_pos hh))

end

/-- What the write of a whole register in window 0 does is what a register write of the host does. -/
theorem exec_hostWrite_reg {ofs : BitVec 32} (tag : Byte) (v : Word) (hs : hostServed s = true) (hh : s.host.held = [])
    (h4 : ofs.toNat % 4 = 0) (hlt : ofs.toNat < 0x1000000) (hr : inRecovery s = false)
    (hn : (regDesc (0x0800000000 + ofs.toNat)).isSome = true) :
    exec (.hostWrite false ofs tag (leBytes 4 v.toNat)) s =
      exec (.registerWrite .host (BitVec.ofNat 40 (0x0800000000 + ofs.toNat)) v) s := by
  have hl : (leBytes 4 v.toNat).length = 4 := leBytes_length ..
  have hd : leBytes 4 v.toNat ≠ [] := List.ne_nil_of_length_pos (by omega)
  have hheld : s.sys.held = none := Option.isNone_iff_eq_none.mp (Bool.and_eq_true_iff.mp hs).1
  have ha : (BitVec.ofNat 40 (0x0800000000 + ofs.toNat)).toNat = 0x0800000000 + ofs.toNat :=
    (BitVec.toNat_ofNat ..).trans (Nat.mod_eq_of_lt (by omega))
  rw [exec_hostWrite_served hs hd (by omega) hh, writeServe_reg hr h4 hlt v hn,
    registerWrite_reg hheld (firstOutside_regs (.inr rfl) (by omega) (by omega)) (regionOf_regs (by omega) (by omega))
      (by rw [ha]; exact Option.isSome_iff_ne_none.mp hn), ha]
  rfl

/-- What a write that no memory takes leaves. -/
theorem cplAdd_decodeErr (s : State) (x : Nat) (c : Cpl) : let t := done (cplAdd (decodeErr s x true) c)
    t.host.cpls = s.host.cpls ++ [c] ∧
    fget t R.SYS_CNT F.SYS_CNT_DECERR_CNT = satN F.SYS_CNT_DECERR_CNT.width (fget s R.SYS_CNT F.SYS_CNT_DECERR_CNT + 1) ∧
    flag t R.SYS_DECERR_HI F.SYS_DECERR_HI_WRITE = true ∧
    frame (.host :: evParts) (onlyEv [R.SYS_CNT, R.SYS_DECERR_LO, R.SYS_DECERR_HI]) s t := by
  have hf : frame (.host :: evParts) (onlyEv [R.SYS_CNT, R.SYS_DECERR_LO, R.SYS_DECERR_HI]) s (decodeErr s x true) :=
    (decodeErr_keeps s x true).frame_le (by decide) (only_covers (by decide)) (onlyEv_ev _)
  refine ⟨?_, ?_, ?_, frame_done (frame_cplAdd hf (by decide) c)⟩
  · rw [done_host, cplAdd_host, decodeErr_host]
  · rw [fget_done, fget_cplAdd, decodeErr_cnt]
  · rw [flag_done, flag_cplAdd, (decodeErr_hi ..).2]

/-! ### HOST_READ -/

section
variable {win : Bool} {ofs : BitVec 32} {tag : Byte} {n : BitVec 13}

theorem exec_hostRead_off (h : hostServed s = false) : exec (.hostRead win ofs tag n) s = .next (done s) :=
  congrArg (fun t => Host.Outcome.next (done t)) (if_pos (by rw [h]; rfl))

variable (hs : hostServed s = true)
include hs

theorem exec_hostRead_held (h : 64 ≤ readsOut s ∨ s.host.held ≠ []) : exec (.hostRead win ofs tag n) s = .next (done
    { s with host := { s.host with held := s.host.held ++ [.read win ofs.toNat tag.toNat (min 4096 (bytesOf n.toNat))] } }) :=
  congrArg (fun t => Host.Outcome.next (done t)) ((if_neg (by rw [hs]; exact nofun)).trans (if_pos h))

theorem exec_hostRead_served (hr : readsOut s < 64) (hh : s.host.held = []) : exec (.hostRead win ofs tag n) s =
    .next (done (readServe s win ofs.toNat tag.toNat (min 4096 (bytesOf n.toNat)))) :=
  congrArg (fun t => Host.Outcome.next (done t))
    ((if_neg (by rw [hs]; exact nofun)).trans (if_neg fun h => h.elim (fun h => absurd hr (Nat.not_lt.mpr h)) fun h => h hh))

end

/-! ### HOST_COMPLETION -/

/-- The head of a completion frame and its data, before padding. -/
def cplData (c : Cpl) : List Byte := leBytes 8 (c.tag % 256 * 2 ^ 40 + c.status * 2 ^ 48) ++ c.data

/-- The completion leaves on VC1, and `l` still wait. -/
def cplSent (s : State) (c : Cpl) (l : List Cpl) : State :=
  laneOut { s with host := { s.host with cpls := l } } 0 1 3 (cplData c ++ List.replicate ((8 - c.data.length % 8) % 8) 0#8)

/-- The requests that `q` lists are held. -/
def heldSet (s : State) (q : List HeldReq) : State := { s with host := { s.host with held := q } }

section
variable {c : Cpl} {l : List Cpl}

theorem cplData_take (c : Cpl) (pad : List Byte) : (cplData c ++ pad).take (8 + c.data.length) = cplData c :=
  List.take_left' (by rw [cplData, List.length_append, leBytes_length])

theorem cplSent_host (s : State) : (cplSent s c l).host = { s.host with cpls := l } := rfl

theorem cplSent_out (s : State) : (vcOf (cplSent s c l) 0 1).out = (vcOf s 0 1).out ++
    [rawFrame 1 3 0 false (cplData c ++ List.replicate ((8 - c.data.length % 8) % 8) 0#8)] := by
  rw [cplSent, laneOut, vcOf_modVc_same]
  rfl

theorem cplSent_frame (s : State) : frame [.host, .lanes] noReg s (cplSent s c l) :=
  frame_modVc (frame_host (frame_refl _ _ s) (by decide) _) (by decide) ..

theorem heldServe_nil (fuel : Nat) (h : s.host.held = []) : heldServe fuel s = s := by
  cases fuel with
  | zero => rfl
  | succ fuel => simp only [heldServe, h]

/-- There is room for the read at the head. -/
theorem heldServe_read (fuel : Nat) {win : Bool} {ofs tag n : Nat} {q : List HeldReq} (h : s.host.held = .read win ofs tag n :: q)
    (hr : readsOut s < 64) :
    heldServe (fuel + 1) s = heldServe fuel (readServe (heldSet s q) win ofs tag n) := by
  simp only [heldServe, h, hr, if_true, heldSet]

theorem exec_hostCompletion_nil (h : s.host.cpls = []) : exec .hostCompletion s = .next (done s) := by
  show execHostCompletion s = _
  unfold execHostCompletion
  rw [h]

theorem exec_hostCompletion_cons (h : s.host.cpls = c :: l) :
    exec .hostCompletion s = .next (done (heldServe (s.host.held.length + 1) (cplSent s c l))) := by
  show execHostCompletion s = _
  unfold execHostCompletion
  rw [h]
  rfl

/-- No request is held. -/
theorem exec_hostCompletion_sent (h : s.host.cpls = c :: l) (hh : s.host.held = []) :
    exec .hostCompletion s = .next (done (cplSent s c l)) := by
  rw [exec_hostCompletion_cons h, heldServe_nil (s := cplSent s c l) _ hh]

end

/-- The read held behind the completions is served as one leaves. -/
theorem exec_hostCompletion_read {c : Cpl} {l : List Cpl} {ofs tag n : Nat} (h : s.host.cpls = c :: l)
    (hh : s.host.held = [.read true ofs tag n]) (hr : (l.filter (fun c => c.read)).length < 64) (o : SramOpen s ofs n) :
    ∃ t, exec .hostCompletion s = .next t ∧ t.host = ⟨l ++ [⟨true, tag, 0, mbytes s (winAddr s true ofs) n⟩], []⟩ := by
  have hu : frame [.host, .lanes] noReg s (heldSet (cplSent s c l) []) := frame_host (cplSent_frame s) (by decide) _
  have ht : (readServe (heldSet (cplSent s c l) []) true ofs tag n).host =
      ⟨l ++ [⟨true, tag, 0, mbytes s (winAddr s true ofs) n⟩], []⟩ := by
    rw [readServe_host (o.of_frame hu), winAddr_of_frame hu, mbytes_same (hu.1 .mem (by decide))]
    rfl
  refine ⟨done (readServe (heldSet (cplSent s c l) []) true ofs tag n), ?_, ht⟩
  rw [exec_hostCompletion_cons h, hh, List.length_singleton, heldServe_read (s := cplSent s c l) 1 hh hr,
    heldServe_nil 1 (congrArg HostState.held ht)]

/-! ### The obligation -/

theorem frame_off (s : State) : frame [] noReg s (done s) := frame_done (frame_refl ..)

theorem exec_next (i : Instr) {s t u : State} (ht : exec i s = .next t) (hu : exec i s = .next u) : t = u :=
  Host.Outcome.next.inj (ht.symm.trans hu)

/-- A word written in window 0 is the register write of the host, in whatever form the data are given. -/
theorem hostWrite_word {win : Bool} {ofs : BitVec 32} (tag : Byte) {d : List Byte} (v : Word) (hs : hostServed s = true) (hh : s.host.held = [])
    (hw : win = false) (h4 : ofs.toNat % 4 = 0) (hlt : ofs.toNat < 0x1000000) (hd : d = leBytes 4 v.toNat) (hr : inRecovery s = false)
    (hn : (regDesc (0x0800000000 + ofs.toNat)).isSome = true) :
    exec (.hostWrite win ofs tag d) s = exec (.registerWrite .host (BitVec.ofNat 40 (0x0800000000 + ofs.toNat)) v) s := by
  subst hw hd
  exact exec_hostWrite_reg tag v hs hh h4 hlt hr hn

/-- What a served write in the control-core memory leaves. -/
theorem hostStored (s : State) (a : Nat) (d : List Byte) : let t := done (mputBytes s a d)
    mbytes t a d.length = d ∧ memKept s t (within a d.length) ∧ t.host = s.host ∧ frame [.mem] noReg s t :=
  ⟨(mbytes_same (done_mem _) d.length a).trans (mbytes_mputBytes s a d),
    fun b hb => (mget_of_mem (done_mem _) b).trans (mputBytes_memKept s a d b hb), (done_host _).trans (mputBytes_host s a d),
    frame_done (mputBytes_frame s a d)⟩

/-- What a served read in the control-core memory leaves. -/
theorem hostRead_served {ofs tag n : Nat} (hh : s.host.held = []) (o : SramOpen s ofs n) : let t := done (readServe s true ofs tag n)
    t.host.cpls = s.host.cpls ++ [⟨true, tag, 0, mbytes s (winAddr s true ofs) n⟩] ∧ (vcOf t 0 1).owe = (vcOf s 0 1).owe + 1 ∧
      t.host.held = [] ∧ memKept s t (fun _ => false) ∧ frame (.host :: .free :: evParts) (inBlocks [0xF]) s t := by
  refine ⟨?_, ?_, ?_, fun b _ => mget_of_mem ?_ b, frame_done (readServe_frame o)⟩
  · rw [done_host, readServe_host o]
  · rw [vcOf_done, readServe_owe o]
  · rw [done_host, readServe_host o]
    exact hh
  · rw [done_mem, readServe_mem o]

theorem hostWrite_total (win : Bool) (ofs : BitVec 32) (tag : Byte) (d : List Byte) (s : State) :
    ∃ t, exec (.hostWrite win ofs tag d) s = .next t := ⟨_, rfl⟩
theorem hostRead_total (win : Bool) (ofs : BitVec 32) (tag : Byte) (n : BitVec 13) (s : State) :
    ∃ t, exec (.hostRead win ofs tag n) s = .next t := ⟨_, rfl⟩
theorem hostCompletion_total (s : State) : ∃ t, exec .hostCompletion s = .next t := ⟨_, rfl⟩

/-- Settles O36: each command by the case that port H is in, not served, holding requests on VC1, or serving, and where the request goes. -/
theorem hostAccesses : Obligations.HostAccesses := by
  refine ⟨fun win ofs tag d s => ?_, fun win ofs tag n s => ?_, fun s => ?_⟩
  · obtain ⟨t, ht⟩ := hostWrite_total win ofs tag d s
    refine ⟨t, ht, fun h => ?_, fun hs hd hl hh => ?_, fun hs hh hd hl hw hr h1 h2 hp => ?_,
      fun v hs hh hw h4 hlt hd hr hn => hostWrite_word tag v hs hh hw h4 hlt hd hr hn, fun hs hh hd hl hw hr => ?_⟩
    · rw [exec_next _ ht (exec_hostWrite_off h)]
      exact frame_off s
    · rw [exec_next _ ht (exec_hostWrite_held hs hd hl hh)]
      exact ⟨(congrArg HostState.held (done_host _)).trans (holdReq_held ..), frame_done (holdReq_frame ..)⟩
    · subst hw
      rw [exec_next _ ht (exec_hostWrite_served hs hd hl hh), writeServe_sram (List.length_pos_iff.mpr hd) hr h1 h2 hp]
      exact hostStored ..
    · subst hw
      rw [exec_next _ ht (exec_hostWrite_served hs hd hl hh), writeServe_hole (List.length_pos_iff.mpr hd) hr]
      exact cplAdd_decodeErr ..
  · obtain ⟨t, ht⟩ := hostRead_total win ofs tag n s
    refine ⟨t, ht, fun h => ?_, fun hs h => ?_, fun hs hr hh hw hrec h1 h2 hp => ?_⟩
    · rw [exec_next _ ht (exec_hostRead_off h)]
      exact frame_off s
    · rw [exec_next _ ht (exec_hostRead_held hs h)]
      exact ⟨rfl, frame_done (frame_host (frame_refl ..) (by decide) _)⟩
    · subst hw
      rw [exec_next _ ht (exec_hostRead_served hs hr hh)]
      exact hostRead_served hh ⟨hrec, h1, h2, hp⟩
  · obtain ⟨t, ht⟩ := hostCompletion_total s
    refine ⟨t, ht, fun h => ?_, fun c l h hh => ?_, fun c l ofs tag n h hh hr hrec h1 h2 hp => ?_⟩
    · rw [exec_next _ ht (exec_hostCompletion_nil h)]
      exact frame_off s
    · rw [exec_next _ ht (exec_hostCompletion_sent h hh)]
      exact ⟨(done_host _).trans (cplSent_host s), ⟨_, (congrArg Vc.out (vcOf_done ..)).trans (cplSent_out s), rfl, cplData_take ..⟩,
        frame_done (cplSent_frame s)⟩
    · obtain ⟨u, hu, hhost⟩ := exec_hostCompletion_read h hh hr ⟨hrec, h1, h2, hp⟩
      rw [exec_next _ ht hu, hhost]
      exact ⟨rfl, rfl⟩

end Sys2Proof.Machine
end

section
/-! A pulse on a channel that holds the windows of two firing runs (R38, R95). -/

namespace Sys2Proof.Machine

/-! ### Two shots with SEQ 0 -/

/-- The shot with SEQ 0 of a calibration run whose first commanded fire tick is `fire`. -/
def runStart (fire : Nat) : ArmMsg :=
  { seq := 0, row := 0, idx := 0, depth := 1, frame := 0, fire := fire, code := 0, binw := 0, winOfs := 0, gate := 0, trip2 := false,
    prev := none, safety := false, emitter := 0, scanner := 0, withheld := false, listen := [(0, 1)] }

/-- Its window on a channel, closed or not. -/
def runStartWin (fire : Nat) (pending : Bool) : Win :=
  { msg := runStart fire, pending := pending, gainNew := false, inject := false, inj := (0, 0, false), pulses := [], recs := [],
    lastFall := none, lastRise := 0, dropped := 0, clamped := false, ofs := none, subst := false, gap := false, decided := false,
    never := false }

/-- Channel 0 is ACTIVE and holds the windows of two runs: CAL_RUN was set again, and SEQ began anew at 0 (R95), before the records of the
first run's shot were settled. The first window has closed, the second is open. -/
def twoRuns : State :=
  modFe (setFeState State.reset 0 feActive) 0 fun c => { c with wins := [runStartWin 1000 false, runStartWin 5000 true] }

/-- A pulse of 10 ticks that rises while the second run's window is open. -/
def laterPulse : PulseIn := { rise := ⟨5010, 0⟩, fall := some ⟨5020, 0⟩, high := none, clamp := false }

/-- The window with the pulse's record takes the place of both windows, for it is put back by its SEQ. -/
theorem laterPulse_replaces_both : (match exec (.pulseRecord 0 laterPulse) twoRuns with
    | .next t => decide ((feChan t (0 : Fin 1024)).wins.map Win.msg = [runStart 5000, runStart 5000])
    | _ => false) = true := by decide +kernel

theorem twoRuns_msgs : (feChan twoRuns (0 : Fin 1024)).wins.map Win.msg = [runStart 1000, runStart 5000] := by decide +kernel

/-- Refutes O2: its first clause says of every state that a pulse changes no window's shot, and two windows of one channel may carry the
same SEQ. -/
theorem not_pulsesAndBias : ¬ Obligations.PulsesAndBias := by
  rintro ⟨hpulse, -⟩
  obtain ⟨t, hx, -, hmsg, -⟩ := hpulse 0 laterPulse twoRuns
  have hboth := laterPulse_replaces_both
  rw [hx] at hboth
  have hshots : [runStart 5000, runStart 5000] = [runStart 1000, runStart 5000] :=
    (of_decide_eq_true hboth).symm.trans (hmsg.trans twoRuns_msgs)
  exact absurd hshots (by decide)

end Sys2Proof.Machine
end

section
/-! The front end of a channel (R37, R40 to R46, R52): its registers, its state beside them, and what each operation on them leaves unchanged. -/

namespace Sys2Proof.Machine

variable {ps : List Part} {own : Nat → Bool} {s t : State}

/-! ### State of a channel -/

theorem feChan_modFe_same (s : State) (n : Nat) (f : FeChan → FeChan) : feChan (modFe s n f) n = f (feChan s n) :=
  tget_tput_same ..

@[simp] theorem rd_modFe (s : State) (n : Nat) (f : FeChan → FeChan) (a : Nat) : rd (modFe s n f) a = rd s a := rfl
@[simp] theorem flag_modFe (s : State) (n : Nat) (f : FeChan → FeChan) (a : Nat) (g : Fld) : flag (modFe s n f) a g = flag s a g := rfl

theorem frame_modFe (h : frame ps own s t) (hp : Part.fe ∈ ps) (n : Nat) (f : FeChan → FeChan) : frame ps own s (modFe t n f) :=
  frame_fe h hp _

theorem feChan_done (s : State) (n : Nat) : feChan (done s) n = feChan s n := by unfold feChan; rw [done_fe]

/-! ### Registers of a channel -/

/-- No event changes a register of a tile. -/
theorem evReg_tile {a : Nat} (h : blockBase 0x20 ≤ a) : evReg a = false := by
  simp only [evReg, Bool.or_eq_false_iff, decide_eq_false_iff_not]
  unfold R.CAP_STAT blockBase at *
  omega

theorem feCfg_ne_act (t k : Nat) : R.FE_CFG t k ≠ R.FE_ACT t k := by unfold R.FE_CFG R.FE_ACT; omega
theorem feAct_ne_cfg (t k : Nat) : R.FE_ACT t k ≠ R.FE_CFG t k := (feCfg_ne_act t k).symm
theorem feCfg_ne_stat (t k : Nat) : R.FE_CFG t k ≠ R.FE_STAT t k := by unfold R.FE_CFG R.FE_STAT; omega
theorem feAct_ne_stat (t k : Nat) : R.FE_ACT t k ≠ R.FE_STAT t k := by unfold R.FE_ACT R.FE_STAT; omega
theorem feBaseline_ne_stat (t k : Nat) : R.FE_BASELINE t k ≠ R.FE_STAT t k := by unfold R.FE_BASELINE R.FE_STAT; omega

theorem feCfg_tile (t k : Nat) : evReg (R.FE_CFG t k) = false := evReg_tile (by unfold R.FE_CFG; omega)
theorem feStat_tile (t k : Nat) : evReg (R.FE_STAT t k) = false := evReg_tile (by unfold R.FE_STAT; omega)

theorem onlyEv_mem {l : List Nat} {a : Nat} (h : a ∈ l) : onlyEv l a = true := by simp [onlyEv, h]

/-! ### Flags of a channel (R57) -/

theorem feFault_frame (h : frame evParts own s t) {u k : Nat} (hu : u < 64) (ha : own (R.FE_STAT u k) = true)
    (he : ∀ a, evReg a = true → own a = true) (f : Fld) (bit : Nat) : frame evParts own s (feFault t u k f bit) := by
  unfold feFault
  extract_lets v
  have hv : frame evParts own s v := frame_fon h ha f
  split
  · exact frame_raise hv (by omega) (fun _ h => h) he
  · exact hv

theorem feFault_flag (s : State) {u : Nat} (hu : u < 64) (k : Nat) (f : Fld) (bit : Nat) (h : f.lo = f.hi) (hh : f.hi < 32) :
    flag (feFault s u k f bit) (R.FE_STAT u k) f = true := by
  unfold feFault
  extract_lets v
  have hv : flag v (R.FE_STAT u k) f = true := flag_fon_same _ _ _ h hh
  split
  · rw [flag_of_rd ((raise_frame v (by omega)).2 _ (feStat_tile ..))]
    exact hv
  · exact hv

/-! ### The two sets of a channel (R40, R41) -/

/-- PEND stands outside the settings. -/
theorem feSetMask_pend (w : Word) (v : Nat) : putFld w F.FE_ACT_PEND v &&& feSetMask = w &&& feSetMask := by
  apply BitVec.eq_of_getLsbD_eq
  intro i _
  rw [BitVec.getLsbD_and, BitVec.getLsbD_and, putFld_bit _ _ _ (by decide) (by decide)]
  split
  · next h =>
    obtain rfl : i = 27 := by simp only [F.FE_ACT_PEND] at h; omega
    rw [show feSetMask.getLsbD 27 = false by decide, Bool.and_false, Bool.and_false]
  · rfl

theorem feSetMask_idem (w : Word) : w &&& feSetMask &&& feSetMask = w &&& feSetMask := by rw [BitVec.and_assoc, BitVec.and_self]

theorem feInUse_of_rd {n : Nat} (h : rd t (R.FE_ACT (n / 16) (n % 16)) = rd s (R.FE_ACT (n / 16) (n % 16))) : feInUse t n = feInUse s n :=
  congrArg (· &&& feSetMask) h

theorem feStaged_of_rd {n : Nat} (h : rd t (R.FE_CFG (n / 16) (n % 16)) = rd s (R.FE_CFG (n / 16) (n % 16))) : feStaged t n = feStaged s n :=
  congrArg (· &&& feSetMask) h

theorem feInUse_pend (s : State) (n : Nat) (b : Bool) : feInUse (fsetB s (R.FE_ACT (n / 16) (n % 16)) F.FE_ACT_PEND b) n = feInUse s n := by
  unfold feInUse fsetB fset
  rw [rd_wr_same, feSetMask_pend]

theorem fePend_flag (s : State) (n : Nat) :
    flag (fePend s n) (R.FE_ACT (n / 16) (n % 16)) F.FE_ACT_PEND = decide (feStaged s n ≠ feInUse s n) := by
  unfold fePend
  rw [flag_modFe]
  exact flag_fsetB_same _ _ _ _ rfl (by decide)

theorem rd_fePend_cfg (s : State) (n : Nat) : rd (fePend s n) (R.FE_CFG (n / 16) (n % 16)) = rd s (R.FE_CFG (n / 16) (n % 16)) := by
  unfold fePend
  rw [rd_modFe]
  exact rd_fset_ne _ _ _ (feCfg_ne_act _ _)

theorem fePend_frame (h : frame ps own s t) (hp : Part.fe ∈ ps) {n : Nat} (ha : own (R.FE_ACT (n / 16) (n % 16)) = true) :
    frame ps own s (fePend t n) := frame_modFe (frame_fsetB h ha _ _) hp n _

/-! ### The copy at a latch point (R42) -/

/-- The set `new` in use, with the state of the channel that EN gives. -/
def setCopied (s : State) (n : Nat) (new : Word) : State :=
  if new = feInUse s n then s
  else
    let s := modFe (wr s (R.FE_ACT (n / 16) (n % 16)) new) n (fun c => { c with gainNew := true })
    if getFld new F.FE_CFG_EN = 0 then modFe (setFeState s n feOff) n (fun c => { c with exitPend := false })
    else if feState s n = feOff then setFeState s n (if groupGated s (biasGroup n) then feGated else feActive)
    else s

/-- PEND and the staging instant after the copy. -/
def pendShown (s : State) (n : Nat) : State :=
  let later := decide (feStaged s n ≠ feInUse s n)
  modFe (fsetB s (R.FE_ACT (n / 16) (n % 16)) F.FE_ACT_PEND later) n fun c => { c with
    stagedAt := if later then some (now s) else none, settle := false }

theorem feLatch_eq (s : State) (n : Nat) (new : Word) :
    feLatch s n new = tabActivate (tabActivate (pendShown (setCopied s n new) n) (n / 16) (2 * (n % 16))) (n / 16) (2 * (n % 16) + 1) := rfl

theorem tabActivate_frame (h : frame ps own s t) (hp : Part.tdc ∈ ps) (u i : Nat) : frame ps own s (tabActivate t u i) := by
  unfold tabActivate
  dsimp only
  split
  · exact frame_tdc h hp _
  · exact frame_tdc (frame_tdc h hp _) hp _

theorem rd_tabActivate (s : State) (u i a : Nat) : rd (tabActivate s u i) a = rd s a :=
  (tabActivate_frame (ps := [.tdc]) (own := noReg) (frame_refl ..) (by decide) u i).2 a rfl

theorem setFeState_frame (h : frame ps own s t) {n : Nat} (ha : own (R.FE_STAT (n / 16) (n % 16)) = true) (st : Nat) :
    frame ps own s (setFeState t n st) := frame_fset h ha _ _

/-- The copy of a new set writes it into FE_ACT, and besides at most the state of the channel. -/
theorem setCopied_new (s : State) {n : Nat} {new : Word} (h : new ≠ feInUse s n) :
    frame [.fe] (only [R.FE_STAT (n / 16) (n % 16)]) (wr s (R.FE_ACT (n / 16) (n % 16)) new) (setCopied s n new) := by
  have hw : frame [.fe] (only [R.FE_STAT (n / 16) (n % 16)]) (wr s (R.FE_ACT (n / 16) (n % 16)) new)
      (modFe (wr s (R.FE_ACT (n / 16) (n % 16)) new) n (fun c => { c with gainNew := true })) :=
    frame_modFe (frame_refl ..) (by decide) n _
  have ha : only [R.FE_STAT (n / 16) (n % 16)] (R.FE_STAT (n / 16) (n % 16)) = true := only_mem.mpr (by simp)
  unfold setCopied
  rw [if_neg h]
  dsimp only
  split
  · exact frame_modFe (setFeState_frame hw ha _) (by decide) n _
  · split
    · exact setFeState_frame hw ha _
    · exact hw

theorem setCopied_same (s : State) {n : Nat} {new : Word} (h : new = feInUse s n) : setCopied s n new = s := if_pos h

/-- A set copied is in use, and the staged set stands. -/
theorem setCopied_sets (s : State) {n : Nat} {new : Word} (hm : new &&& feSetMask = new) :
    feInUse (setCopied s n new) n = new ∧ feStaged (setCopied s n new) n = feStaged s n := by
  by_cases h : new = feInUse s n
  · rw [setCopied_same s h]
    exact ⟨h.symm, rfl⟩
  · have hf := (setCopied_new s h).2
    constructor
    · rw [feInUse_of_rd (hf _ (by simp [only, feAct_ne_stat]))]
      unfold feInUse
      rw [rd_wr_same, hm]
    · rw [feStaged_of_rd (hf _ (by simp [only, feCfg_ne_stat])), feStaged_of_rd (rd_wr_ne _ _ (feCfg_ne_act _ _))]

theorem setCopied_frame (s : State) (n : Nat) (new : Word) :
    frame [.fe] (only [R.FE_ACT (n / 16) (n % 16), R.FE_STAT (n / 16) (n % 16)]) s (setCopied s n new) := by
  by_cases h : new = feInUse s n
  · rw [setCopied_same s h]
    exact frame_refl ..
  · exact frame_trans (frame_wr (frame_refl ..) (only_mem.mpr (by simp)) new)
      (frame_mono (setCopied_new s h) (fun _ hp => hp) (only_covers (by simp [only])))

theorem pendShown_pend (s : State) (n : Nat) : feInUse (pendShown s n) n = feInUse s n ∧
    flag (pendShown s n) (R.FE_ACT (n / 16) (n % 16)) F.FE_ACT_PEND = decide (feStaged s n ≠ feInUse s n) := by
  unfold pendShown
  rw [flag_modFe]
  exact ⟨feInUse_pend s n _, flag_fsetB_same _ _ _ _ rfl (by decide)⟩

theorem pendShown_frame (h : frame ps own s t) (hp : Part.fe ∈ ps) {n : Nat} (ha : own (R.FE_ACT (n / 16) (n % 16)) = true) :
    frame ps own s (pendShown t n) := frame_modFe (frame_fsetB h ha _ _) hp n _

/-- A latch point that takes the staged set leaves nothing staged. -/
theorem feLatch_staged (s : State) (n : Nat) : feInUse (feLatch s n (feStaged s n)) n = feStaged s n ∧
    flag (feLatch s n (feStaged s n)) (R.FE_ACT (n / 16) (n % 16)) F.FE_ACT_PEND = false := by
  obtain ⟨huse, hstaged⟩ := setCopied_sets s (n := n) (new := feStaged s n) (feSetMask_idem _)
  obtain ⟨hkept, hpend⟩ := pendShown_pend (setCopied s n (feStaged s n)) n
  rw [feLatch_eq]
  have hr (a : Nat) : rd _ a = rd (pendShown (setCopied s n (feStaged s n)) n) a :=
    (rd_tabActivate _ (n / 16) (2 * (n % 16) + 1) a).trans (rd_tabActivate _ (n / 16) (2 * (n % 16)) a)
  exact ⟨(feInUse_of_rd (hr _)).trans (hkept.trans huse), (flag_of_rd (hr _) _).trans (hpend.trans (by simp [huse, hstaged]))⟩

theorem feLatch_frame (s : State) (n : Nat) (new : Word) :
    frame [.fe, .tdc] (only [R.FE_ACT (n / 16) (n % 16), R.FE_STAT (n / 16) (n % 16)]) s (feLatch s n new) := by
  rw [feLatch_eq]
  have hc := frame_mono (qs := [.fe, .tdc]) (setCopied_frame s n new) (by decide) (fun _ h => h)
  exact tabActivate_frame (tabActivate_frame (pendShown_frame hc (by decide) (only_mem.mpr (by simp))) (by decide) _ _) (by decide) _ _

/-! ### The offset trim (R52) -/

/-- The codes that the trim found for channel `k` of tile `g`, with TRIM_OK. -/
def trimFound (g : Nat) (s : State) (k : Nat) : State :=
  let (v, s) := openVal s
  let s := fset s (R.FE_TRIM g k) F.FE_TRIM_OFS_HIGH (v.toNat / 256)
  fon (fset s (R.FE_TRIM g k) F.FE_TRIM_OFS_LOW v.toNat) (R.FE_TRIM g k) F.FE_TRIM_TRIM_OK

theorem trimFound_frame (h : frame ps own s t) (hp : Part.free ∈ ps) {g k : Nat} (ha : own (R.FE_TRIM g k) = true) :
    frame ps own s (trimFound g t k) := frame_fon (frame_fset (frame_fset (frame_openVal h hp) ha _ _) ha _ _) ha _

theorem trimFound_ok (g : Nat) (s : State) (k : Nat) : flag (trimFound g s k) (R.FE_TRIM g k) F.FE_TRIM_TRIM_OK = true :=
  flag_fon_same _ _ _ rfl (by decide)

theorem feTrim_ne (g : Nat) {k m : Nat} (h : k ≠ m) : R.FE_TRIM g k ≠ R.FE_TRIM g m := by unfold R.FE_TRIM; omega

/-- TRIM_OK of every channel whose codes are found. -/
theorem trimFound_all (g : Nat) (s : State) : ∀ m, ∀ k < m, flag ((List.range m).foldl (trimFound g) s) (R.FE_TRIM g k) F.FE_TRIM_TRIM_OK = true
  | 0, _, h => absurd h (Nat.not_lt_zero _)
  | m + 1, k, h => by
    rw [List.range_succ, List.foldl_append, List.foldl_cons, List.foldl_nil]
    by_cases hk : k = m
    · subst hk
      exact trimFound_ok ..
    · have hf := trimFound_frame (own := only [R.FE_TRIM g m]) (frame_refl [.free] _ ((List.range m).foldl (trimFound g) s)) (by decide)
        (g := g) (k := m) (only_mem.mpr (by simp))
      rw [flag_of_rd (hf.2 _ (by simp [only, feTrim_ne g hk]))]
      exact trimFound_all g s m k (by omega)

/-- The end of the trim of tile `g`. -/
def trimEnded (g : Nat) (s : State) : State :=
  (List.range 16).foldl (trimFound g) (foff s (R.FE_TILE_CTRL g) F.FE_TILE_CTRL_AUTOTRIM)

/-- The registers that hold the trim codes of tile `g`. -/
def trimRegs (g : Nat) : List Nat := (List.range 16).map (R.FE_TRIM g)

theorem trimFold_frame {g : Nat} (h : frame ps own s t) (hp : Part.free ∈ ps) (ha : ∀ a ∈ trimRegs g, own a = true) :
    frame ps own s ((List.range 16).foldl (trimFound g) t) :=
  frame_foldl _ _ (fun _ _ hk h => trimFound_frame h hp (ha _ (List.mem_map_of_mem hk))) t h

theorem trimEnded_frame (g : Nat) (s : State) : frame [.free] (only (R.FE_TILE_CTRL g :: trimRegs g)) s (trimEnded g s) :=
  trimFold_frame (frame_foff (frame_refl ..) (only_mem.mpr (by simp)) _) (by decide) (fun _ h => only_mem.mpr (List.mem_cons_of_mem _ h))

theorem trimRegs_ctrl (g : Nat) : only (trimRegs g) (R.FE_TILE_CTRL g) = false := by
  simp only [only, trimRegs, List.mem_map, decide_eq_false_iff_not]
  rintro ⟨k, -, hk⟩
  unfold R.FE_TRIM R.FE_TILE_CTRL at hk
  omega

theorem trimEnded_ctrl (g : Nat) (s : State) : flag (trimEnded g s) (R.FE_TILE_CTRL g) F.FE_TILE_CTRL_AUTOTRIM = false := by
  have hf := trimFold_frame (frame_refl [.free] (only (trimRegs g)) (foff s (R.FE_TILE_CTRL g) F.FE_TILE_CTRL_AUTOTRIM)) (by decide)
    (g := g) (fun _ h => only_mem.mpr h)
  exact (flag_of_rd (hf.2 _ (trimRegs_ctrl g)) _).trans (flag_foff_same _ _ _ (by decide) (by decide))

/-! ### The baseline (R37) -/

theorem dcrAverage_frame (h : frame ps own s t) (hp : Part.fe ∈ ps) (n cur : Nat) (full : Bool) : frame ps own s (dcrAverage t n cur full).1 := by
  unfold dcrAverage
  split
  · exact frame_modFe h hp n _
  · exact h

/-- A loop that is not frozen, or not yet for a whole average, reports the present correction. -/
theorem dcrAverage_live {n : Nat} (h : dcrHeld s n = false ∨ now s < (feChan s n).heldFrom + ticksUs 10) (cur : Nat) (full : Bool) :
    (dcrAverage s n cur full).2 = (cur, full) := by
  unfold dcrAverage
  rw [if_neg]
  intro hc
  simp only [Bool.and_eq_true, decide_eq_true_eq] at hc
  rcases h with h | h
  · simp [h] at hc
  · omega

/-- A frozen loop reports what the first average over the frozen correction gave. -/
theorem dcrAverage_held {n : Nat} {v : Nat × Bool} (hd : dcrHeld s n = true) (ht : (feChan s n).heldFrom + ticksUs 10 ≤ now s)
    (hv : (feChan s n).heldVal = some v) (cur : Nat) (full : Bool) : (dcrAverage s n cur full).2 = v := by
  unfold dcrAverage
  rw [if_pos (by simp [hd, ht]), hv]
  rfl

/-- The report of a loop that is on. -/
def baselineShown (s : State) (n : Nat) (v : Nat × Bool) : State :=
  fsetB (fset (fset s (R.FE_BASELINE (n / 16) (n % 16)) F.FE_BASELINE_GAIN (fget s (R.FE_ACT (n / 16) (n % 16)) F.FE_ACT_GAIN))
    (R.FE_BASELINE (n / 16) (n % 16)) F.FE_BASELINE_CURRENT v.1) (R.FE_STAT (n / 16) (n % 16)) F.FE_STAT_DCR_LIM v.2

theorem baselineShown_reads (s : State) (n : Nat) (v : Nat × Bool) :
    fget (baselineShown s n v) (R.FE_BASELINE (n / 16) (n % 16)) F.FE_BASELINE_CURRENT = v.1 % 0x10000 ∧
    flag (baselineShown s n v) (R.FE_STAT (n / 16) (n % 16)) F.FE_STAT_DCR_LIM = v.2 := by
  refine ⟨?_, flag_fsetB_same _ _ _ _ rfl (by decide)⟩
  unfold baselineShown fsetB
  rw [fget_fset_reg _ _ _ _ (feBaseline_ne_stat _ _), fget_fset_same _ _ _ _ (by decide) (by decide)]
  rfl

theorem baselineShown_frame (h : frame ps own s t) {n : Nat} (hb : own (R.FE_BASELINE (n / 16) (n % 16)) = true)
    (hs : own (R.FE_STAT (n / 16) (n % 16)) = true) (v : Nat × Bool) : frame ps own s (baselineShown t n v) :=
  frame_fsetB (frame_fset (frame_fset h hb _ _) hb _ _) hs _ _

/-- The report of a loop that is off. -/
def baselineOff (s : State) (n : Nat) : State :=
  foff (wr s (R.FE_BASELINE (n / 16) (n % 16)) 0) (R.FE_STAT (n / 16) (n % 16)) F.FE_STAT_DCR_LIM

end Sys2Proof.Machine
end

section
/-! O1: the commands that write, latch and watch the settings of a channel, trim its offsets and report its baseline. -/

namespace Sys2Proof.Machine

/-- A write of FE_CFG that meets the threshold conditions is staged (R40, R41). -/
theorem feCfgSet_staged (s : State) (n : Nat) {v : Word} (h : feOrderOk v = true) :
    feCfgSet s n v = fePend (wr (feWrote s n) (R.FE_CFG (n / 16) (n % 16)) (v &&& feSetMask)) n := if_pos h

/-- Any other is refused. -/
theorem feCfgSet_refused (s : State) (n : Nat) {v : Word} (h : feOrderOk v = false) :
    feCfgSet s n v = feFault s (n / 16) (n % 16) F.FE_STAT_TH_ORDER 1 := if_neg (by simp [h])

theorem feCfgWrite_stages (n : Fin 1024) (v : Word) (s : State) : ∃ t, exec (.feCfgWrite n v) s = .next t ∧
    rd t (R.FE_CFG (n / 16) (n % 16)) = (if feOrderOk v then v &&& feSetMask else rd s (R.FE_CFG (n / 16) (n % 16))) ∧
    (feOrderOk v = true → flag t (R.FE_ACT (n / 16) (n % 16)) F.FE_ACT_PEND = decide (v &&& feSetMask ≠ feInUse s n)) ∧
    (feOrderOk v = false → flag t (R.FE_STAT (n / 16) (n % 16)) F.FE_STAT_TH_ORDER = true) ∧
    frame (.fe :: evParts) (onlyEv [R.FE_CFG (n / 16) (n % 16), R.FE_ACT (n / 16) (n % 16), R.FE_STAT (n / 16) (n % 16)]) s t := by
  have hu : n.val / 16 < 64 := by omega
  refine ⟨done (feCfgSet s n v), rfl, ?_⟩
  rw [rd_done, flag_done, flag_done]
  cases ho : feOrderOk v with
  | true =>
    rw [feCfgSet_staged s n ho, rd_fePend_cfg, rd_wr_same, fePend_flag]
    refine ⟨rfl, fun _ => ?_, fun h => absurd h (by decide), frame_done (fePend_frame (frame_wr (frame_modFe (frame_refl ..) (by decide) _ _)
      (onlyEv_mem (by simp)) _) (by decide) (onlyEv_mem (by simp)))⟩
    rw [feInUse_of_rd (rd_wr_ne _ _ (feAct_ne_cfg _ _)), feStaged, rd_wr_same, feSetMask_idem]
    rfl
  | false =>
    rw [feCfgSet_refused s n ho]
    have hf : frame evParts (onlyEv [R.FE_STAT (n.val / 16) (n.val % 16)]) s (feFault s (n / 16) (n % 16) F.FE_STAT_TH_ORDER 1) :=
      feFault_frame (frame_refl ..) hu (onlyEv_mem (by simp)) (onlyEv_ev _) _ _
    refine ⟨hf.2 _ (by simp [onlyEv, feCfg_ne_stat, feCfg_tile]), fun h => absurd h (by decide), fun _ => feFault_flag s hu _ _ _ rfl (by decide),
      frame_done (frame_mono hf (fun _ hp => List.mem_cons_of_mem _ hp) fun a ha => ?_)⟩
    simp only [onlyEv, List.mem_singleton, Bool.or_eq_true, decide_eq_true_eq] at ha
    simp only [onlyEv, Bool.or_eq_true, decide_eq_true_eq]
    exact ha.imp_left fun h => by simp [h]

theorem exec_feIdleLatch (n : Fin 1024) (s : State) :
    exec (.feIdleLatch n) s = .next (done (if !firing s && !windowPending s n then feLatch s n (feStaged s n) else s)) := rfl

theorem feIdleLatch_copies (n : Fin 1024) (s : State) : ∃ t, exec (.feIdleLatch n) s = .next t ∧
    (firing s = false → windowPending s n = false → feInUse t n = feStaged s n ∧ flag t (R.FE_ACT (n / 16) (n % 16)) F.FE_ACT_PEND = false) ∧
    (firing s = true ∨ windowPending s n = true → frame [] noReg s t) ∧
    frame [.fe, .tdc] (only [R.FE_ACT (n / 16) (n % 16), R.FE_STAT (n / 16) (n % 16)]) s t := by
  rw [exec_feIdleLatch]
  by_cases h : firing s = false ∧ windowPending s n = false
  · rw [if_pos (by simp [h])]
    obtain ⟨huse, hpend⟩ := feLatch_staged s n
    refine ⟨_, rfl, fun _ _ => ⟨(feInUse_of_rd (rd_done ..)).trans huse, (flag_done ..).trans hpend⟩, fun hn => ?_, frame_done (feLatch_frame ..)⟩
    simp [h] at hn
  · rw [if_neg (by simpa using h)]
    exact ⟨_, rfl, fun hf hw => absurd ⟨hf, hw⟩ h, fun _ => frame_off s, frame_done (frame_refl ..)⟩

theorem settleTimeout_stops (n : Fin 1024) (t0 : Nat) (s : State) (h : (feChan s n).stagedAt = some t0) (ht : t0 + ticksMs 1 ≤ now s) :
    ∃ t, exec (.settleTimeout n) s = .next t ∧ (feChan t n).settle = true ∧ frame [.fe] noReg s t := by
  have hx : exec (.settleTimeout n) s = .next (done (modFe s n (fun c => { c with settle := true }))) := by
    show execSettleTimeout n s = _
    unfold execSettleTimeout
    rw [h]
    dsimp only
    rw [if_pos ht]
  refine ⟨_, hx, ?_, frame_done (frame_modFe (frame_refl ..) (by decide) _ _)⟩
  rw [feChan_done, feChan_modFe_same]

theorem autotrim_starts (g : Fin 64) (s : State) : ∃ t, exec (.autotrim g) s = .next t ∧
    flag t (R.FE_TILE_CTRL g) F.FE_TILE_CTRL_AUTOTRIM = (decide (modeOf s = .calibrate) || flag s (R.FE_TILE_CTRL g) F.FE_TILE_CTRL_AUTOTRIM) ∧
    bitsKept s t (R.FE_TILE_CTRL g) [F.FE_TILE_CTRL_AUTOTRIM] ∧ frame [] (only [R.FE_TILE_CTRL g]) s t := by
  show ∃ t, execAutotrim g s = .next t ∧ _
  unfold execAutotrim
  by_cases h : modeOf s = .calibrate
  · rw [if_pos h, decide_eq_true h, Bool.true_or]
    refine ⟨_, rfl, (flag_done ..).trans (flag_fon_same _ _ _ rfl (by decide)), fun i _ hi => ?_,
      frame_done (frame_fon (frame_refl ..) (only_mem.mpr (by simp)) _)⟩
    rw [rd_done, rd_fon]
    exact fset_bit _ _ _ _ (by decide) (by decide) i (hi _ (by simp))
  · rw [if_neg h, decide_eq_false h, Bool.false_or]
    exact ⟨_, rfl, flag_done .., fun i _ _ => by rw [rd_done], frame_done (frame_refl ..)⟩

theorem autotrimDone_ends (g : Fin 64) (s : State) (h : flag s (R.FE_TILE_CTRL g) F.FE_TILE_CTRL_AUTOTRIM = true) :
    ∃ t, exec (.autotrimDone g) s = .next t ∧ flag t (R.FE_TILE_CTRL g) F.FE_TILE_CTRL_AUTOTRIM = false ∧
    (∀ k : Fin 16, flag t (R.FE_TRIM g k) F.FE_TRIM_TRIM_OK = true) ∧
    frame [.free] (only (R.FE_TILE_CTRL g :: (List.range 16).map (R.FE_TRIM g))) s t := by
  have hx : exec (.autotrimDone g) s = .next (done (trimEnded g s)) := by
    show execAutotrimDone g s = _
    unfold execAutotrimDone
    rw [if_pos h]
    rfl
  exact ⟨_, hx, (flag_done ..).trans (trimEnded_ctrl g s), fun k => (flag_done ..).trans (trimFound_all g _ 16 k k.isLt), frame_done (trimEnded_frame g s)⟩

theorem exec_feBaselineRefresh (n : Fin 1024) (cur : BitVec 32) (full : Bool) (s : State) :
    exec (.feBaselineRefresh n cur full) s = .next (done (
      if fget s (R.FE_MODE (n / 16) (n % 16)) F.FE_MODE_DCR_BW = 0 then baselineOff s n
      else baselineShown (dcrAverage s n (min 0xFFFF cur.toNat) full).1 n (dcrAverage s n (min 0xFFFF cur.toNat) full).2)) := rfl

theorem feBaselineRefresh_reports (n : Fin 1024) (cur : BitVec 32) (full : Bool) (s : State) :
    ∃ t, exec (.feBaselineRefresh n cur full) s = .next t ∧
    (fget s (R.FE_MODE (n / 16) (n % 16)) F.FE_MODE_DCR_BW = 0 →
      rd t (R.FE_BASELINE (n / 16) (n % 16)) = 0#32 ∧ flag t (R.FE_STAT (n / 16) (n % 16)) F.FE_STAT_DCR_LIM = false) ∧
    (fget s (R.FE_MODE (n / 16) (n % 16)) F.FE_MODE_DCR_BW ≠ 0 → dcrHeld s n = false ∨ now s < (feChan s n).heldFrom + ticksUs 10 →
      fget t (R.FE_BASELINE (n / 16) (n % 16)) F.FE_BASELINE_CURRENT = min 0xFFFF cur.toNat ∧
      flag t (R.FE_STAT (n / 16) (n % 16)) F.FE_STAT_DCR_LIM = full) ∧
    (∀ v, fget s (R.FE_MODE (n / 16) (n % 16)) F.FE_MODE_DCR_BW ≠ 0 → dcrHeld s n = true →
      (feChan s n).heldFrom + ticksUs 10 ≤ now s → (feChan s n).heldVal = some v →
      fget t (R.FE_BASELINE (n / 16) (n % 16)) F.FE_BASELINE_CURRENT = v.1 % 0x10000 ∧
      flag t (R.FE_STAT (n / 16) (n % 16)) F.FE_STAT_DCR_LIM = v.2) ∧
    frame [.fe] (only [R.FE_BASELINE (n / 16) (n % 16), R.FE_STAT (n / 16) (n % 16)]) s t := by
  rw [exec_feBaselineRefresh]
  by_cases h0 : fget s (R.FE_MODE (n / 16) (n % 16)) F.FE_MODE_DCR_BW = 0
  · rw [if_pos h0]
    refine ⟨_, rfl, fun _ => ⟨?_, (flag_done ..).trans (flag_foff_same _ _ _ (by decide) (by decide))⟩, fun h => absurd h0 h,
      fun _ h => absurd h0 h, frame_done (frame_foff (frame_wr (frame_refl ..) (only_mem.mpr (by simp)) _) (only_mem.mpr (by simp)) _)⟩
    rw [rd_done, baselineOff, foff, rd_fset_ne _ _ _ (feBaseline_ne_stat _ _), rd_wr_same]
    rfl
  · rw [if_neg h0]
    obtain ⟨hcur, hlim⟩ := baselineShown_reads (dcrAverage s n (min 0xFFFF cur.toNat) full).1 n (dcrAverage s n (min 0xFFFF cur.toNat) full).2
    refine ⟨_, rfl, fun h => absurd h h0, fun _ h => ?_, fun v _ hd ht hv => ?_,
      frame_done (baselineShown_frame (dcrAverage_frame (frame_refl ..) (by decide) ..) (only_mem.mpr (by simp)) (only_mem.mpr (by simp)) _)⟩
    · rw [fget_done, flag_done, hcur, hlim, dcrAverage_live h]
      exact ⟨Nat.mod_eq_of_lt (by omega), rfl⟩
    · rw [fget_done, flag_done, hcur, hlim, dcrAverage_held hd ht hv]
      exact ⟨rfl, rfl⟩

/-- Settles O1, command by command. -/
theorem frontEndSettings : Obligations.FrontEndSettings :=
  ⟨feCfgWrite_stages, feIdleLatch_copies, settleTimeout_stops, autotrim_starts, autotrimDone_ends, feBaselineRefresh_reports⟩

end Sys2Proof.Machine
end

section
/-! The step of the queue and of time (R65, R392), and POS of a tap under DLL calibration (R69). -/

namespace Sys2Proof.Machine

/-! ### A step -/

theorem step_idle {s : State} (h : s.pending = []) : step s = .next (tick s) := by unfold step; rw [h]

theorem tick_counts {s : State} (h : s.ring.hold = 0) : tick s = pulsesEnd { s with tb := s.tb + BitVec.ofNat 64 (tickLen s) } := if_pos h

theorem tick_held {s : State} (h : s.ring.hold ≠ 0) :
    tick s = { s with stepped := s.stepped - tickLen s, ring := { s.ring with hold := s.ring.hold - 1 } } := if_neg h

theorem ofNat_tickLen (s : State) : BitVec.ofNat 64 (tickLen s) = if flag s R.TDC_CLK F.TDC_CLK_CUR_MODE then 2#64 else 1#64 := by
  unfold tickLen; split <;> rfl

theorem tickLen_int (s : State) : (tickLen s : Int) = if flag s R.TDC_CLK F.TDC_CLK_CUR_MODE then 2 else 1 := by
  unfold tickLen; split <;> rfl

theorem pulsesEnd_frame (s : State) : frame [.pins] noReg s (pulsesEnd s) := frame_pins (frame_refl ..) (by decide) _

/-- A tick that counts changes the count and the pulses that end with it. -/
theorem tick_counts_frame {s : State} (h : s.ring.hold = 0) : frame [.tb, .pins] noReg s (tick s) := by
  rw [tick_counts h]
  exact frame_trans (frame_tb (frame_refl ..) (by decide) _) (frame_mono (pulsesEnd_frame _) (by decide) fun _ hn => hn)

/-- A tick that the alignment holds back changes the length of the hold and the running time. -/
theorem tick_held_frame {s : State} (h : s.ring.hold ≠ 0) : frame [.ring, .tb] noReg s (tick s) := by
  rw [tick_held h]
  exact ⟨fun p hp => by cases p <;> first | rfl | exact ⟨rfl, rfl⟩ | exact absurd (by decide) hp, fun _ _ => rfl⟩

theorem tick_units (s : State) : (tick s).units = s.units := by unfold tick; split <;> rfl

/-- Settles O57: a tick counts or is held back, by the ring's hold. -/
theorem stepRuns : Obligations.StepRuns := by
  refine ⟨fun _ _ _ => rfl, fun s hq => ⟨tick s, step_idle hq, fun h => ?_, fun h => ?_, tick_units s⟩⟩
  · refine ⟨?_, ?_, tick_counts_frame h⟩ <;> rw [tick_counts h]
    · exact congrArg (s.tb + ·) (ofNat_tickLen s)
    · rfl
  · refine ⟨?_, ?_, ?_, tick_held_frame h⟩ <;> rw [tick_held h]
    exact congrArg (s.stepped - ·) (tickLen_int s)

/-! ### Positions under DLL calibration -/

theorem posOf_dll {s : State} {u i : Nat} (h : usesTable s u i = false) (tap : Nat) :
    posOf s u i tap = if lowPower s then 32 * tap + 16 else 16 * tap + 8 := by
  unfold posOf; rw [h]; rfl

/-- Settles O54: the two positions of R69, and the fine part that follows from the one of low-power mode. -/
theorem dllPositions : Obligations.DllPositions := by
  intro u i tap s hdll
  refine ⟨fun hn => ?_, fun hl => ?_⟩
  · rw [posOf_dll hdll, hn]; rfl
  · have hpos : ∀ k, posOf s u i k = 32 * k + 16 := fun k => by rw [posOf_dll hdll, hl]; rfl
    refine ⟨hpos _, ?_, fun e he => ?_⟩
    · rw [hpos]; omega
    · unfold edgeTime
      rw [hpos, he]; omega

end Sys2Proof.Machine
end

section
/-! Fills (R71 to R73, R76): how a fill begins, what judging its counts does to tables, flags and all else, and how it ends. -/

namespace Sys2Proof.Machine

variable {ps : List Part} {own : Nat → Bool} {s t u : State}

/-! ### The beginning of a fill -/

theorem flag_fset_ne (s : State) (a : Nat) {f g : Fld} (v : Nat) (h : f.lo ≤ f.hi) (hh : f.hi < 32) (hd : g.hi < f.lo ∨ f.hi < g.lo)
    (hg : g.lo ≤ g.hi) : flag (fset s a f v) a g = flag s a g := by
  unfold flag; rw [fget_fset_ne s a f g v h hh hd hg]

theorem fillStart_fills (s : State) (n : Nat) : (fillStart s n).tdc.filling = true ∧ (fillStart s n).tdc.fillAt = now s ∧
    flag (fillStart s n) R.TDC_CAL_STAT F.TDC_CAL_STAT_FILLING = true := by
  refine ⟨rfl, by unfold fillStart fon; rfl, ?_⟩
  show flag (fset (fon s R.TDC_CAL_STAT F.TDC_CAL_STAT_FILLING) R.TDC_CAL_STAT F.TDC_CAL_STAT_FILL_UNIT n) _ _ = true
  rw [flag_fset_ne _ _ _ (by decide) (by decide) (by decide) (by decide)]
  exact flag_fon_same _ _ _ rfl (by decide)

theorem fillStart_frame (h : frame ps own s t) (hp : Part.tdc ∈ ps) (hf : own R.TDC_CAL_STAT = true) (n : Nat) :
    frame ps own s (fillStart t n) := frame_tdc (frame_fset (frame_fon h hf _) hf _ _) hp _

/-! ### What a fill's verdict rests on -/

/-- The registers of a starved group (R73). -/
def fillScope : Scope := .of [.tdc] lockRegs (fixed noReg) (by decide) (fixed_shrinks _)

/-- From `s` to `t` groups of a fill have been judged: of the fabric only its waiting tables and its starved interpolators have changed. -/
structure Judged (s t : State) : Prop where
  keeps : Keeps fillScope s t
  fabric : { t.tdc with newTabs := s.tdc.newTabs, starved := s.tdc.starved } = s.tdc

theorem Judged.refl (s : State) : Judged s s := ⟨Keeps.refl .., rfl⟩

theorem Judged.trans (h : Judged s t) (k : Judged t u) : Judged s u :=
  ⟨h.keeps.trans k.keeps, by rw [← h.fabric, ← k.fabric]⟩

/-- The registers of the sensors (R310). -/
def sensorRegs : List Nat := R.THM_IGN :: R.THM_TCTL :: (List.range 28).map R.THM_SENS

theorem sensorNeighbours_lt : ∀ n < 17, ∀ k ∈ sensorNeighbours n, k < 28 := by decide

/-- The temperature of a unit is read from the registers of the sensors. -/
theorem unitTemp_of_rd (h : ∀ a ∈ sensorRegs, rd t a = rd s a) {n : Nat} (hn : n < 65) : unitTemp t n = unitTemp s n := by
  have hs : ∀ k < 28, sensorTemp16 t k = sensorTemp16 s k := fun k hk =>
    congrArg (signed 16) (fget_of_rd (h _ (by simp [sensorRegs]; exact .inr (.inr ⟨k, hk, rfl⟩))) _)
  have hi : sensorIgnored t = sensorIgnored s := funext fun k => by
    unfold sensorIgnored; rw [h R.THM_IGN (by decide)]
  have hc : tCtl16 t = tCtl16 s := congrArg (signed 16) (fget_of_rd (h _ (by decide)) _)
  have hu : unitSensor n < 17 := by unfold unitSensor; split <;> omega
  unfold unitTemp
  dsimp only
  rw [hi, hc, hs (unitSensor n) (by omega), List.map_congr_left fun k hk => hs k (sensorNeighbours_lt _ hu k (List.mem_filter.mp hk).1)]

namespace Judged

variable (h : Judged s t)
include h

theorem fillAt : t.tdc.fillAt = s.tdc.fillAt := (congrArg TdcState.fillAt h.fabric :)
theorem fillMode : t.tdc.fillMode = s.tdc.fillMode := (congrArg TdcState.fillMode h.fabric :)
theorem clk : t.tdc.clk = s.tdc.clk := (congrArg TdcState.clk h.fabric :)

theorem tb : t.tb = s.tb ∧ t.stepped = s.stepped := h.keeps.parts .tb (by decide)
theorem now_eq : now t = now s := congrArg BitVec.toNat h.tb.1

theorem rd_ctrl : rd t R.TDC_CTRL = rd s R.TDC_CTRL := h.keeps.regs _ (by decide) (by decide)

theorem fillEnough_eq (c : FillCount) : fillEnough t c = fillEnough s c := by
  unfold fillEnough; rw [fget_of_rd h.rd_ctrl]

theorem wholeFill_eq (a b : Nat) : wholeFill t a b = wholeFill s a b := by
  unfold wholeFill fillMs; rw [h.fillAt, fget_of_rd h.rd_ctrl]

theorem fillBusy_eq (n i : Nat) : fillBusy t n i = fillBusy s n i := by
  have hst : ∀ x k, rd t (R.FE_STAT x k) = rd s (R.FE_STAT x k) := fun x k =>
    h.keeps.regs _ (by simp [fillScope, Scope.of, only, lockRegs]; unfold R.FE_STAT R.TDC_FAULT R.TDC_CAL_STAT R.TDC_CNT blockBase; omega)
      (feStat_tile ..)
  have hfe : t.fe = s.fe := h.keeps.parts .fe (by decide)
  have hfb : t.sht.fbBusy = s.sht.fbBusy := (congrArg ShtState.fbBusy (h.keeps.parts .sht (by decide)) :)
  unfold fillBusy feChan
  simp only [h.wholeFill_eq, fget_of_rd (hst _ _), hfe, hfb]

theorem fillCount_eq (n : Nat) (c : List FillCount) : fillCount t n c = fillCount s n c :=
  funext fun i => by unfold fillCount; rw [h.fillBusy_eq]

theorem fillTable_eq {n : Nat} (hn : n < 65) (c : FillCount) : fillTable t n c = fillTable s n c := by
  have hr : ∀ a ∈ sensorRegs, fillScope.regs a = false ∧ evReg a = false := by decide
  unfold fillTable upTime
  rw [h.fillMode, h.now_eq, h.tb.2, unitTemp_of_rd (fun a ha => h.keeps.regs a (hr a ha).1 (hr a ha).2) hn]

end Judged

/-! ### Judging a group -/

/-- The new table of interpolator `i`, of count `cnt i`, waits for its activation. -/
def tableTaken (n : Nat) (cnt : Nat → FillCount) (s : State) (i : Nat) : State :=
  { s with tdc := { s.tdc with
    newTabs := tput CalTab.none s.tdc.newTabs (32 * n + i) (fillTable s n (cnt i)),
    starved := s.tdc.starved.filter (· ≠ 32 * n + i) } }

/-- The flag, the unit and the count of a starved group, with its event (R73). -/
def starveNoted (s : State) (n : Nat) : State :=
  raise (finc (fset (fon s R.TDC_CAL_STAT F.TDC_CAL_STAT_STARVED) R.TDC_FAULT F.TDC_FAULT_STARVE_UNIT n) R.TDC_CNT F.TDC_CNT_STARVE_CNT)
    Ev.calStarved

/-- The interpolators of a group are starved. -/
def groupStarved (s : State) (n : Nat) (is : List Nat) : State :=
  { starveNoted s n with tdc := { (starveNoted s n).tdc with
    starved := (starveNoted s n).tdc.starved.filter (fun x => !(is.map (32 * n + ·)).contains x) ++ is.map (32 * n + ·) } }

theorem fillGroup_eq (s : State) (n : Nat) (c : List FillCount) (is : List Nat) : fillGroup s n c is =
    if is.all (fun i => fillEnough s (fillCount s n c i)) then is.foldl (tableTaken n (fillCount s n c)) s else groupStarved s n is := rfl

theorem tableTaken_judged (n : Nat) (cnt : Nat → FillCount) (s : State) (i : Nat) : Judged s (tableTaken n cnt s i) :=
  ⟨(Keeps.refl _ s).quiet (frame_tdc (frame_refl ..) (by decide) _) rfl rfl, rfl⟩

theorem tablesTaken_judged (n : Nat) (cnt : Nat → FillCount) (is : List Nat) (s : State) : Judged s (is.foldl (tableTaken n cnt) s) :=
  List.foldlRecOn (motive := Judged s) is _ (Judged.refl s) fun _ h _ _ => h.trans (tableTaken_judged ..)

theorem starveNoted_keeps (s : State) (n : Nat) : Keeps fillScope s (starveNoted s n) :=
  ((((Keeps.refl _ s).fon (by decide) _).fset (by decide) _ _).finc (by decide) _).raise (by decide)

theorem starveNoted_tdc (s : State) (n : Nat) : (starveNoted s n).tdc = s.tdc := by
  unfold starveNoted
  exact ((raise_frame _ (by decide)).1 .tdc (by decide)).trans (fon_tdc ..)

/-- A starved group shows (R73). -/
theorem starveNoted_shows (s : State) (n : Nat) : flag (starveNoted s n) R.TDC_CAL_STAT F.TDC_CAL_STAT_STARVED = true ∧
    evFlag (starveNoted s n) Ev.calStarved = true := by
  refine ⟨?_, evFlag_raise _ (by decide) fun h => absurd h.2.1 (by decide)⟩
  unfold starveNoted
  rw [flag_of_rd ((raise_frame _ (by decide)).2 _ (by decide)), flag_of_rd (rd_finc_ne _ _ (by decide)), flag_of_rd (rd_fset_ne _ _ _ (by decide))]
  exact flag_fon_same _ _ _ rfl (by decide)

theorem groupStarved_judged (s : State) (n : Nat) (is : List Nat) : Judged s (groupStarved s n is) :=
  ⟨(starveNoted_keeps s n).quiet (frame_tdc (frame_refl ..) (by decide) _) rfl rfl, by unfold groupStarved; rw [starveNoted_tdc]⟩

theorem fillGroup_judged (s : State) (n : Nat) (c : List FillCount) (is : List Nat) : Judged s (fillGroup s n c is) := by
  rw [fillGroup_eq]
  split
  · exact tablesTaken_judged ..
  · exact groupStarved_judged ..

/-! ### Tables and starvation of one interpolator -/

/-- The waiting table and the starvation under key `k` are the same in two states. -/
def SameFill (k : Nat) (s t : State) : Prop :=
  lookup t.tdc.newTabs k = lookup s.tdc.newTabs k ∧ (k ∈ t.tdc.starved ↔ k ∈ s.tdc.starved)

/-- The table `c` waits under key `k`, which is not starved. -/
def TableWaits (k : Nat) (c : CalTab) (s : State) : Prop := lookup s.tdc.newTabs k = some c ∧ k ∉ s.tdc.starved

theorem SameFill.refl (k : Nat) (s : State) : SameFill k s s := ⟨rfl, .rfl⟩
theorem SameFill.trans {k : Nat} (h : SameFill k s t) (g : SameFill k t u) : SameFill k s u := ⟨g.1.trans h.1, g.2.trans h.2⟩
theorem SameFill.waits {k : Nat} {c : CalTab} (h : SameFill k s t) (g : TableWaits k c s) : TableWaits k c t :=
  ⟨h.1.trans g.1, fun hk => g.2 (h.2.mp hk)⟩

theorem lookup_tput_ne {α : Type} [DecidableEq α] (d : α) (l : List (Nat × α)) {a b : Nat} (v : α) (h : b ≠ a) :
    lookup (tput d l a v) b = lookup l b := by
  unfold tput
  split
  · exact lookup_eraseKey_ne l h
  · rw [lookup_insertKey_ne _ v h, lookup_eraseKey_ne l h]

theorem lookup_tput_same {α : Type} [DecidableEq α] (d : α) (l : List (Nat × α)) (a : Nat) {v : α} (h : v ≠ d) :
    lookup (tput d l a v) a = some v := by
  unfold tput
  rw [if_neg h, lookup_insertKey_same _ _ _ (lookup_eraseKey_same l a)]

/-- A table that a fill gives is valid, so it is never the absent one. -/
theorem fillTable_ne_none (s : State) (n : Nat) (c : FillCount) : fillTable s n c ≠ CalTab.none := fun h =>
  Bool.noConfusion (show true = false from congrArg CalTab.valid h)

theorem tableTaken_newTabs (n : Nat) (cnt : Nat → FillCount) (s : State) (i : Nat) :
    (tableTaken n cnt s i).tdc.newTabs = tput CalTab.none s.tdc.newTabs (32 * n + i) (fillTable s n (cnt i)) := rfl
theorem tableTaken_starved (n : Nat) (cnt : Nat → FillCount) (s : State) (i : Nat) :
    (tableTaken n cnt s i).tdc.starved = s.tdc.starved.filter (· ≠ 32 * n + i) := rfl

theorem tableTaken_same (n : Nat) (cnt : Nat → FillCount) (s : State) {i k : Nat} (h : k ≠ i) :
    SameFill (32 * n + k) s (tableTaken n cnt s i) := by
  have hk : 32 * n + k ≠ 32 * n + i := by omega
  unfold SameFill
  rw [tableTaken_newTabs, tableTaken_starved, lookup_tput_ne _ _ _ hk]
  simp [h]

theorem tableTaken_waits (n : Nat) (cnt : Nat → FillCount) (s : State) (i : Nat) :
    TableWaits (32 * n + i) (fillTable s n (cnt i)) (tableTaken n cnt s i) := by
  unfold TableWaits
  rw [tableTaken_newTabs, tableTaken_starved, lookup_tput_same _ _ _ (fillTable_ne_none s n _)]
  simp

theorem tablesTaken_same (n : Nat) (cnt : Nat → FillCount) (s : State) {is : List Nat} {k : Nat} (h : k ∉ is) :
    SameFill (32 * n + k) s (is.foldl (tableTaken n cnt) s) :=
  List.foldlRecOn (motive := SameFill (32 * n + k) s) is _ (SameFill.refl ..) fun _ ht _ hi =>
    ht.trans (tableTaken_same n cnt _ fun he => h (he ▸ hi))

theorem rd_tablesTaken (n : Nat) (cnt : Nat → FillCount) (is : List Nat) (s : State) (a : Nat) : rd (is.foldl (tableTaken n cnt) s) a = rd s a :=
  List.foldlRecOn (motive := fun t => rd t a = rd s a) is _ rfl fun _ ht _ _ => ht

/-- The tables of a list of interpolators wait, each by its own count. -/
theorem tablesTaken_waits {n : Nat} (hn : n < 65) (cnt : Nat → FillCount) {i : Nat} (is : List Nat) : ∀ s : State, i ∈ is →
    TableWaits (32 * n + i) (fillTable s n (cnt i)) (is.foldl (tableTaken n cnt) s) := by
  induction is with
  | nil => exact fun _ h => absurd h List.not_mem_nil
  | cons j is ih =>
    intro s hi
    rw [List.foldl_cons]
    by_cases h : i ∈ is
    · rw [← (tableTaken_judged n cnt s j).fillTable_eq hn]
      exact ih _ h
    · obtain rfl : i = j := (List.mem_cons.mp hi).resolve_right h
      exact (tablesTaken_same n cnt _ h).waits (tableTaken_waits n cnt s i)

/-- Judging a group leaves every other interpolator of the unit as it was. -/
theorem fillGroup_same (s : State) {n : Nat} (c : List FillCount) {is : List Nat} {i : Nat} (h : i ∉ is) :
    SameFill (32 * n + i) s (fillGroup s n c is) := by
  rw [fillGroup_eq]
  split
  · exact tablesTaken_same n _ s h
  · unfold SameFill groupStarved
    rw [starveNoted_tdc]
    exact ⟨rfl, by simp [h]⟩

/-- A group that holds enough gives its tables (R72, R73). -/
theorem fillGroup_enough (s : State) {n : Nat} (hn : n < 65) (c : List FillCount) {is : List Nat} {i : Nat} (hi : i ∈ is)
    (h : is.all (fun i => fillEnough s (fillCount s n c i)) = true) :
    TableWaits (32 * n + i) (fillTable s n (fillCount s n c i)) (fillGroup s n c is) := by
  rw [fillGroup_eq, if_pos h]
  exact tablesTaken_waits hn _ is s hi

/-- The interpolator under key `k` is starved, and shown to be. -/
def Starves (k : Nat) (s : State) : Prop :=
  k ∈ s.tdc.starved ∧ flag s R.TDC_CAL_STAT F.TDC_CAL_STAT_STARVED = true ∧ evFlag s Ev.calStarved = true

/-- A group that does not is starved, and keeps its tables (R73). -/
theorem fillGroup_starves (s : State) {n : Nat} (c : List FillCount) {is : List Nat} {i : Nat} (hi : i ∈ is)
    (h : is.all (fun i => fillEnough s (fillCount s n c i)) = false) :
    Starves (32 * n + i) (fillGroup s n c is) ∧ (fillGroup s n c is).tdc.newTabs = s.tdc.newTabs := by
  rw [fillGroup_eq, if_neg (by simp [h])]
  refine ⟨⟨?_, starveNoted_shows s n⟩, ?_⟩
  · unfold groupStarved
    simp [hi]
  · unfold groupStarved
    rw [starveNoted_tdc]

/-- Judging a group leaves a flag of starvation set. -/
theorem fillGroup_flag (s : State) (n : Nat) (c : List FillCount) (is : List Nat) (h : flag s R.TDC_CAL_STAT F.TDC_CAL_STAT_STARVED = true) :
    flag (fillGroup s n c is) R.TDC_CAL_STAT F.TDC_CAL_STAT_STARVED = true := by
  rw [fillGroup_eq]
  split
  · rwa [flag_of_rd (rd_tablesTaken ..)]
  · exact (starveNoted_shows s n).1

end Sys2Proof.Machine
end

section
/-! O4: the fills of one unit and of all (R70 to R74, R76). -/

namespace Sys2Proof.Machine

variable {ps : List Part} {own : Nat → Bool} {s t : State}

/-! ### Judging a unit -/

/-- Group `k` of unit `n`: the two interpolators of a channel, or the one of a bank (R73). -/
def unitGroup (n k : Nat) : List Nat := if n < 64 then [2 * k, 2 * k + 1] else [k]

/-- The group of an interpolator. -/
def groupOf (n i : Nat) : Nat := if n < 64 then i / 2 else i

theorem mem_unitGroup {n i k : Nat} : i ∈ unitGroup n k ↔ k = groupOf n i := by
  unfold unitGroup groupOf
  split <;> simp only [List.mem_cons, List.not_mem_nil, or_false] <;> omega

/-- The listed groups of unit `n` are judged one after the other. -/
def groupsJudged (n : Nat) (c : List FillCount) (ks : List Nat) (s : State) : State :=
  ks.foldl (fun s k => fillGroup s n c (unitGroup n k)) s

/-- The groups of unit `n` are judged. -/
def unitJudged (n : Nat) (c : List FillCount) (s : State) : State := groupsJudged n c (List.range 16) s

section
variable (n : Nat) (c : List FillCount)

theorem groupsJudged_judged (ks : List Nat) (s : State) : Judged s (groupsJudged n c ks s) :=
  List.foldlRecOn (motive := Judged s) ks _ (Judged.refl s) fun _ h _ _ => h.trans (fillGroup_judged ..)

variable {n}

theorem groupsJudged_same {ks : List Nat} {i : Nat} (h : groupOf n i ∉ ks) (s : State) : SameFill (32 * n + i) s (groupsJudged n c ks s) :=
  List.foldlRecOn (motive := SameFill (32 * n + i) s) ks _ (SameFill.refl ..) fun _ ht _ hk =>
    ht.trans (fillGroup_same _ c fun hi => h (mem_unitGroup.mp hi ▸ hk))

theorem groupsJudged_starves {ks : List Nat} {i : Nat} (h : groupOf n i ∉ ks) (hs : Starves (32 * n + i) s) :
    Starves (32 * n + i) (groupsJudged n c ks s) := by
  obtain ⟨hst, hfl, hev⟩ := hs
  exact ⟨(groupsJudged_same c h s).2.mpr hst,
    List.foldlRecOn (motive := fun t => flag t R.TDC_CAL_STAT F.TDC_CAL_STAT_STARVED = true) ks _ hfl fun _ ht _ _ => fillGroup_flag _ n c _ ht,
    (groupsJudged_judged n c ks s).keeps.flags _ (by decide) hev⟩

/-- Judging a unit judges one of its groups between others. -/
theorem unitJudged_split {k : Nat} (hk : k < 16) : ∃ l1 l2, k ∉ l1 ∧ k ∉ l2 ∧
    ∀ s, unitJudged n c s = groupsJudged n c l2 (fillGroup (groupsJudged n c l1 s) n c (unitGroup n k)) := by
  obtain ⟨l1, l2, hl⟩ := List.append_of_mem (List.mem_range.mpr hk)
  have hd : (k :: (l1 ++ l2)).Nodup := List.nodup_middle.mp (hl ▸ List.nodup_range)
  obtain ⟨h1, h2⟩ := not_or.mp (mt List.mem_append.mpr (List.nodup_cons.mp hd).1)
  exact ⟨l1, l2, h1, h2, fun s => by unfold unitJudged groupsJudged; rw [hl, List.foldl_append, List.foldl_cons]⟩

/-- A group's counts are enough at its turn if they are at the beginning. -/
theorem Judged.all_eq (h : Judged s t) (is : List Nat) :
    is.all (fun i => fillEnough t (fillCount t n c i)) = is.all (fun i => fillEnough s (fillCount s n c i)) := by
  simp only [h.fillEnough_eq, h.fillCount_eq]

/-- An interpolator whose group holds enough has its new table (R72, R73). -/
theorem unitJudged_enough (hn : n < 65) {i : Nat} (hi : groupOf n i < 16)
    (h : (unitGroup n (groupOf n i)).all (fun j => fillEnough s (fillCount s n c j)) = true) :
    TableWaits (32 * n + i) (fillTable s n (fillCount s n c i)) (unitJudged n c s) := by
  obtain ⟨l1, l2, -, h2, he⟩ := unitJudged_split (n := n) c hi
  have hj := groupsJudged_judged n c l1 s
  rw [he, ← hj.fillTable_eq hn, ← hj.fillCount_eq]
  exact (groupsJudged_same c h2 _).waits (fillGroup_enough _ hn c (mem_unitGroup.mpr rfl) ((hj.all_eq c _).trans h))

/-- One whose group does not is starved and keeps the table that waits (R73). -/
theorem unitJudged_starves {i : Nat} (hi : groupOf n i < 16)
    (h : (unitGroup n (groupOf n i)).all (fun j => fillEnough s (fillCount s n c j)) = false) :
    Starves (32 * n + i) (unitJudged n c s) ∧ lookup (unitJudged n c s).tdc.newTabs (32 * n + i) = lookup s.tdc.newTabs (32 * n + i) := by
  obtain ⟨l1, l2, h1, h2, he⟩ := unitJudged_split (n := n) c hi
  have hj := groupsJudged_judged n c l1 s
  obtain ⟨hs, ht⟩ := fillGroup_starves (groupsJudged n c l1 s) c (mem_unitGroup.mpr rfl) ((hj.all_eq c _).trans h)
  rw [he]
  exact ⟨groupsJudged_starves c h2 hs, by rw [(groupsJudged_same c h2 _).1, ht, (groupsJudged_same c h1 s).1]⟩

end

/-! ### The end of a fill -/

/-- A fill of all notes the unit whose part is over. -/
def unitNoted (all : Bool) (n : Nat) (s : State) : State :=
  { s with tdc := { s.tdc with allDone := if all then s.tdc.allDone ++ [n] else [] } }

/-- No fill runs any more. -/
def fillCleared (s : State) : State :=
  foff (foff { s with tdc := { s.tdc with filling := false, lastFillEnd := now s, allDone := [] } }
    R.TDC_CAL_STAT F.TDC_CAL_STAT_FILLING) R.TDC_CTRL F.TDC_CTRL_FILL_ALL

/-- The rolling round goes on to the unit after `n`. -/
def roundGoesOn (n : Nat) (s : State) : State :=
  let s := { s with tdc := { s.tdc with nextUnit := if n = 64 then 0 else n + 1 } }
  if n = 64 then fwrap s R.TDC_CAL_STAT F.TDC_CAL_STAT_ROUNDS else s

/-- The fill of one unit, or of all, is over. -/
def fillOver (all : Bool) (n : Nat) (s : State) : State := if all then fillCleared s else roundGoesOn n (fillCleared s)

/-- What the end of unit `n`'s fill period does once its groups are judged. -/
def fillEnded (all : Bool) (n : Nat) (s : State) : State :=
  let s := unitNoted all n s
  if all ∧ s.tdc.allDone.length < 65 then s
  else
    let s := fillOver all n s
    if s.tdc.clk = .waitFill then clkWaitFrame s else s

theorem groupLists_judged (n : Nat) (c : List FillCount) (s : State) :
    (if n < 64 then (List.range 16).map (fun k => [2 * k, 2 * k + 1]) else (List.range 16).map (fun b => [b])).foldl
      (fun s g => fillGroup s n c g) s = unitJudged n c s := by
  unfold unitJudged groupsJudged unitGroup
  split <;> rw [List.foldl_map]

theorem exec_calFillEnd (u : Fin 65) (c : List FillCount) (s : State) : exec (.calFillEnd u c) s = .next (done (
    if s.tdc.filling ∧ s.tdc.fillAt + ticksMs (fillMs s) ≤ now s ∧
      (if flag s R.TDC_CTRL F.TDC_CTRL_FILL_ALL then ¬ s.tdc.allDone.contains u.val else fget s R.TDC_CAL_STAT F.TDC_CAL_STAT_FILL_UNIT = u.val) then
      fillEnded (flag s R.TDC_CTRL F.TDC_CTRL_FILL_ALL) u (unitJudged u c s)
    else s)) := by
  rw [← groupLists_judged]
  rfl

theorem exec_calFillEnd_due {u : Fin 65} (c : List FillCount) (hf : s.tdc.filling = true) (ht : s.tdc.fillAt + ticksMs (fillMs s) ≤ now s)
    (hu : if flag s R.TDC_CTRL F.TDC_CTRL_FILL_ALL then u.val ∉ s.tdc.allDone else fget s R.TDC_CAL_STAT F.TDC_CAL_STAT_FILL_UNIT = u) :
    exec (.calFillEnd u c) s = .next (done (fillEnded (flag s R.TDC_CTRL F.TDC_CTRL_FILL_ALL) u (unitJudged u c s))) := by
  rw [exec_calFillEnd, if_pos ⟨hf, ht, by simpa using hu⟩]

theorem fillOver_tdc (all : Bool) (n : Nat) (s : State) : (fillOver all n s).tdc = { s.tdc with
    filling := false, lastFillEnd := now s, allDone := [],
    nextUnit := if all then s.tdc.nextUnit else if n = 64 then 0 else n + 1 } := by
  unfold fillOver roundGoesOn
  cases all
  · simp only [Bool.false_eq_true, if_false]
    split <;> rfl
  · rfl

/-- The end of a fill leaves the fields of TDC_CAL_STAT beside FILLING and ROUNDS. -/
theorem fillOver_calStat (all : Bool) (n : Nat) (s : State) {g : Fld} (hg : g.hi < 16) (hw : g.lo ≤ g.hi) :
    flag (fillOver all n s) R.TDC_CAL_STAT g = flag s R.TDC_CAL_STAT g := by
  have hc : ∀ t, flag (fillCleared t) R.TDC_CAL_STAT g = flag t R.TDC_CAL_STAT g := fun t => by
    unfold fillCleared foff
    rw [flag_of_rd (rd_fset_ne _ _ _ (by decide)), flag_fset_ne _ _ _ (by decide) (by decide) (by simp only [F.TDC_CAL_STAT_FILLING]; omega) hw]
    rfl
  unfold fillOver roundGoesOn
  split
  · exact hc s
  · dsimp only
    split
    · unfold fwrap
      rw [flag_fset_ne _ _ _ (by decide) (by decide) (by simp only [F.TDC_CAL_STAT_ROUNDS]; omega) hw]
      exact hc s
    · exact hc s

theorem fillCleared_filling (s : State) : flag (fillCleared s) R.TDC_CAL_STAT F.TDC_CAL_STAT_FILLING = false := by
  unfold fillCleared
  rw [foff, flag_of_rd (rd_fset_ne _ _ _ (by decide))]
  exact flag_foff_same _ _ _ (by decide) (by decide)

theorem fillOver_filling (all : Bool) (n : Nat) (s : State) : flag (fillOver all n s) R.TDC_CAL_STAT F.TDC_CAL_STAT_FILLING = false := by
  unfold fillOver roundGoesOn
  split
  · exact fillCleared_filling s
  · dsimp only
    split
    · unfold fwrap
      rw [flag_fset_ne _ _ _ (by decide) (by decide) (by decide) (by decide)]
      exact fillCleared_filling s
    · exact fillCleared_filling s

section
variable (h : frame ps own s t) (hp : Part.tdc ∈ ps) (hf : own R.TDC_CAL_STAT = true) (hc : own R.TDC_CTRL = true)
include h hp hf hc

theorem fillOver_frame (all : Bool) (n : Nat) : frame ps own s (fillOver all n t) := by
  have hcl : frame ps own s (fillCleared t) := frame_foff (frame_foff (frame_tdc h hp _) hf _) hc _
  unfold fillOver roundGoesOn
  split
  · exact hcl
  · dsimp only
    split
    · exact frame_fwrap (frame_tdc hcl hp _) hf _
    · exact frame_tdc hcl hp _

theorem fillEnded_frame (hk : own R.TDC_CLK = true) (all : Bool) (n : Nat) : frame ps own s (fillEnded all n t) := by
  have hn : frame ps own s (unitNoted all n t) := frame_tdc h hp _
  unfold fillEnded
  dsimp only
  split
  · exact hn
  · split
    · exact clkWaitFrame_frame (fillOver_frame hn hp hf hc all n) hp hk hf
    · exact fillOver_frame hn hp hf hc all n

end

/-- While no mode change waits for the fill's end, the fill runs on or is over. -/
theorem fillEnded_cases (h : s.tdc.clk ≠ .waitFill) (all : Bool) (n : Nat) :
    (all = true ∧ fillEnded all n s = unitNoted all n s) ∨ fillEnded all n s = fillOver all n (unitNoted all n s) := by
  have hk : (fillOver all n (unitNoted all n s)).tdc.clk = s.tdc.clk := by rw [fillOver_tdc]; rfl
  unfold fillEnded
  dsimp only
  split
  · next hd => exact .inl ⟨hd.1, rfl⟩
  · rw [if_neg (hk ▸ h)]
    exact .inr rfl

/-- The end of a fill for which no mode change waits leaves tables and starvation as the verdict gave them. -/
theorem fillEnded_same (h : s.tdc.clk ≠ .waitFill) (all : Bool) (n k : Nat) : SameFill k s (fillEnded all n s) ∧
    flag (fillEnded all n s) R.TDC_CAL_STAT F.TDC_CAL_STAT_STARVED = flag s R.TDC_CAL_STAT F.TDC_CAL_STAT_STARVED := by
  rcases fillEnded_cases h all n with ⟨-, he⟩ | he <;> rw [he]
  · exact ⟨⟨rfl, .rfl⟩, rfl⟩
  · rw [fillOver_calStat _ _ _ (by decide) (by decide)]
    refine ⟨?_, rfl⟩
    unfold SameFill
    rw [fillOver_tdc]
    exact ⟨rfl, .rfl⟩

theorem fillEnded_event (h : evFlag s Ev.calStarved = true) (all : Bool) (n : Nat) : evFlag (fillEnded all n s) Ev.calStarved = true := by
  have hf := fillEnded_frame (frame_refl [.tdc] (only [R.TDC_CAL_STAT, R.TDC_CTRL, R.TDC_CLK]) s) (by decide) (by decide) (by decide) (by decide) all n
  exact flagsKept_of_rd (fun w hw => hf.2 _ (by simp [only]; unfold R.EV_FLAG R.TDC_CAL_STAT R.TDC_CTRL R.TDC_CLK blockBase; omega)) _ (by decide) h

/-! ### The commands -/

theorem exec_calFillStart (s : State) : exec .calFillStart s = .next (done (
    if modeOf s = .scan ∧ flag s R.TDC_CTRL F.TDC_CTRL_ROLL_EN ∧ flag s R.TDC_CTRL F.TDC_CTRL_CAL_MODE ∧
       ¬ s.tdc.filling ∧ s.tdc.clk = .stable ∧ bandOf s ≠ 5 ∧ (needsFill s ∨ s.tdc.lastFillEnd + ticksMs (fillPause s) ≤ now s) then
      fillStart { s with tdc := { s.tdc with nextUnit := nextClocked s s.tdc.nextUnit } } (nextClocked s s.tdc.nextUnit)
    else s)) := rfl

theorem calFillStart_begins (s : State) (hm : modeOf s = .scan) (hr : flag s R.TDC_CTRL F.TDC_CTRL_ROLL_EN = true)
    (hc : flag s R.TDC_CTRL F.TDC_CTRL_CAL_MODE = true) (hf : s.tdc.filling = false) (hk : s.tdc.clk = .stable) (hb : bandOf s ≠ 5)
    (ht : s.tdc.lastFillEnd + ticksMs (fillPause s) ≤ now s) :
    ∃ t, exec .calFillStart s = .next t ∧ t.tdc.filling = true ∧ t.tdc.fillAt = now s ∧
      flag t R.TDC_CAL_STAT F.TDC_CAL_STAT_FILLING = true ∧ frame [.tdc] (only [R.TDC_CAL_STAT]) s t := by
  rw [exec_calFillStart, if_pos ⟨hm, hr, hc, by simp [hf], hk, hb, .inr ht⟩]
  obtain ⟨h1, h2, h3⟩ := fillStart_fills { s with tdc := { s.tdc with nextUnit := nextClocked s s.tdc.nextUnit } } (nextClocked s s.tdc.nextUnit)
  refine ⟨_, rfl, ?_⟩
  rw [done_tdc, flag_done]
  exact ⟨h1, h2, h3, frame_done (fillStart_frame (frame_tdc (frame_refl ..) (by decide) _) (by decide) (by decide) _)⟩

theorem exec_fillAll (s : State) : exec .fillAll s = .next (done (
    if modeOf s = .calibrate ∧ bandOf s ≠ 5 then fillAllGo (fon s R.TDC_CTRL F.TDC_CTRL_FILL_ALL) else s)) := rfl

/-- A FILL_ALL that stands fills at once where the clock is stable, or is filled already. -/
theorem fillAllGo_fills (hf : flag s R.TDC_CTRL F.TDC_CTRL_FILL_ALL = true) (hm : modeOf s = .calibrate) (hb : bandOf s ≠ 5)
    (hk : s.tdc.clk = .stable) : (fillAllGo s).tdc.filling = true := by
  unfold fillAllGo
  by_cases h : s.tdc.filling = false
  · rw [if_pos ⟨hf, hm, hb, hk, h⟩]
    exact (fillStart_fills s 0).1
  · rw [if_neg fun hh => h hh.2.2.2.2]
    exact Bool.not_eq_false _ ▸ h

theorem fillAll_begins (s : State) : ∃ t, exec .fillAll s = .next t ∧
    (modeOf s ≠ .calibrate → frame [] noReg s t) ∧
    (modeOf s = .calibrate → bandOf s ≠ 5 → flag t R.TDC_CTRL F.TDC_CTRL_FILL_ALL = true ∧ (s.tdc.clk = .stable → t.tdc.filling = true)) ∧
    frame [.tdc] (only [R.TDC_CTRL, R.TDC_CAL_STAT]) s t := by
  rw [exec_fillAll]
  by_cases h : modeOf s = .calibrate ∧ bandOf s ≠ 5
  · have hr : ∀ a, a ≠ R.TDC_CTRL → rd (fon s R.TDC_CTRL F.TDC_CTRL_FILL_ALL) a = rd s a := fun a ha => (rd_fon ..).trans (rd_fset_ne _ _ _ ha)
    have hon : flag (fon s R.TDC_CTRL F.TDC_CTRL_FILL_ALL) R.TDC_CTRL F.TDC_CTRL_FILL_ALL = true := flag_fon_same _ _ _ rfl (by decide)
    have hgo := fillAllGo_frame (frame_refl [.tdc] (only [R.TDC_CAL_STAT]) (fon s R.TDC_CTRL F.TDC_CTRL_FILL_ALL)) (by decide) (by decide)
    rw [if_pos h]
    refine ⟨_, rfl, fun hn => absurd h.1 hn, fun hm hb => ⟨?_, fun hk => ?_⟩,
      frame_done (fillAllGo_frame (frame_fon (frame_refl ..) (by decide) _) (by decide) (by decide))⟩
    · rw [flag_done, flag_of_rd (hgo.2 _ (by decide)), hon]
    · rw [done_tdc]
      refine fillAllGo_fills hon ((modeOf_of_rd (hr _ (by decide))).trans hm) ?_ (by rw [fon_tdc]; exact hk)
      unfold bandOf
      rw [fget_of_rd (hr _ (by decide))]
      exact hb
  · rw [if_neg h]
    exact ⟨_, rfl, fun _ => frame_off s, fun hm hb => absurd ⟨hm, hb⟩ h, frame_done (frame_refl ..)⟩

theorem unitJudged_judged (n : Nat) (c : List FillCount) (s : State) : Judged s (unitJudged n c s) := groupsJudged_judged ..

theorem calFillEnd_stops (u : Fin 65) (c : List FillCount) (s : State) (hf : s.tdc.filling = true)
    (ht : s.tdc.fillAt + ticksMs (fillMs s) ≤ now s) (ha : flag s R.TDC_CTRL F.TDC_CTRL_FILL_ALL = false)
    (hu : fget s R.TDC_CAL_STAT F.TDC_CAL_STAT_FILL_UNIT = u) (hk : s.tdc.clk ≠ .waitFill) :
    ∃ t, exec (.calFillEnd u c) s = .next t ∧ t.tdc.filling = false ∧ t.tdc.lastFillEnd = now s ∧
      flag t R.TDC_CAL_STAT F.TDC_CAL_STAT_FILLING = false ∧ t.tdc.nextUnit = (if u.val = 64 then 0 else u.val + 1) := by
  have hj := unitJudged_judged u c s
  have he : fillEnded false u (unitJudged u c s) = fillOver false u (unitNoted false u (unitJudged u c s)) :=
    (fillEnded_cases (hj.clk ▸ hk) false u).resolve_left fun h => absurd h.1 (by decide)
  refine ⟨_, exec_calFillEnd_due c hf ht (by rw [ha]; exact hu), ?_⟩
  rw [ha, he, done_tdc, flag_done, fillOver_tdc, fillOver_filling]
  exact ⟨rfl, hj.now_eq, rfl, rfl⟩

theorem calFillEnd_judges (u : Fin 65) (c : List FillCount) (i : Nat) (own : List Nat) (s : State) (hf : s.tdc.filling = true)
    (ht : s.tdc.fillAt + ticksMs (fillMs s) ≤ now s) (hk : s.tdc.clk ≠ .waitFill)
    (hu : if flag s R.TDC_CTRL F.TDC_CTRL_FILL_ALL then u.val ∉ s.tdc.allDone else fget s R.TDC_CAL_STAT F.TDC_CAL_STAT_FILL_UNIT = u)
    (hi : i < (if u.val < 64 then 32 else 16)) (ho : own = (if u.val < 64 then [i / 2 * 2, i / 2 * 2 + 1] else [i])) :
    ∃ t, exec (.calFillEnd u c) s = .next t ∧
      (own.all (fun j => fillEnough s (fillCount s u c j)) = true →
        lookup t.tdc.newTabs (32 * u + i) = some (fillTable s u (fillCount s u c i)) ∧ 32 * u.val + i ∉ t.tdc.starved) ∧
      (own.all (fun j => fillEnough s (fillCount s u c j)) = false → 32 * u.val + i ∈ t.tdc.starved ∧
        lookup t.tdc.newTabs (32 * u + i) = lookup s.tdc.newTabs (32 * u + i) ∧
        flag t R.TDC_CAL_STAT F.TDC_CAL_STAT_STARVED = true ∧ evFlag t Ev.calStarved = true) := by
  have hj := unitJudged_judged u c s
  have hown : own = unitGroup u (groupOf u i) := by
    rw [ho]; unfold unitGroup groupOf
    split <;> simp only [Nat.mul_comm 2]
  have hg : groupOf u i < 16 := by unfold groupOf; split_ifs at hi ⊢ <;> omega
  obtain ⟨hsame, hflag⟩ := fillEnded_same (hj.clk ▸ hk) (flag s R.TDC_CTRL F.TDC_CTRL_FILL_ALL) u (32 * u + i)
  refine ⟨_, exec_calFillEnd_due c hf ht hu, ?_⟩
  rw [done_tdc, flag_done, evFlag_done, hown]
  refine ⟨fun h => hsame.waits (unitJudged_enough c u.isLt hg h), fun h => ?_⟩
  obtain ⟨⟨hst, hfl, hev⟩, htab⟩ := unitJudged_starves c hg h
  exact ⟨hsame.2.mpr hst, hsame.1.trans htab, hflag.trans hfl, fillEnded_event hev _ _⟩

theorem calFillEnd_frame (u : Fin 65) (c : List FillCount) (s : State) : ∃ t, exec (.calFillEnd u c) s = .next t ∧
    frame (.tdc :: evParts) (onlyEv [R.TDC_CAL_STAT, R.TDC_FAULT, R.TDC_CNT, R.TDC_CTRL, R.TDC_CLK]) s t := by
  have hj : frame (.tdc :: evParts) (onlyEv [R.TDC_CAL_STAT, R.TDC_FAULT, R.TDC_CNT, R.TDC_CTRL, R.TDC_CLK]) s (unitJudged u c s) :=
    (unitJudged_judged u c s).keeps.frame_le (by decide) (only_covers (by decide)) (onlyEv_ev _)
  exact ⟨_, exec_calFillEnd u c s, frame_done (iteInduction
    (fun _ => fillEnded_frame hj (by decide) (by decide) (by decide) (by decide) _ _) fun _ => frame_refl ..)⟩

theorem tabActivate_takes (s : State) (n i : Nat) {c : CalTab} (h : lookup s.tdc.newTabs (32 * n + i) = some c) :
    calTab (tabActivate s n i) n i = c ∧ lookup (tabActivate s n i).tdc.newTabs (32 * n + i) = none := by
  unfold tabActivate calTab
  dsimp only
  rw [h]
  exact ⟨tget_tput_same .., lookup_eraseKey_same ..⟩

theorem exec_fbTableActivate (b : Fin 16) (h : bankWaiting s b = []) : exec (.fbTableActivate b) s = .next (done (tabActivate s 64 b)) := by
  show execFbTableActivate b s = _
  unfold execFbTableActivate
  rw [h]; rfl

theorem fbTableActivate_takes (b : Fin 16) (s : State) (h : bankWaiting s b = []) : ∃ t, exec (.fbTableActivate b) s = .next t ∧
    (∀ c, lookup s.tdc.newTabs (32 * 64 + b) = some c → calTab t 64 b = c ∧ lookup t.tdc.newTabs (32 * 64 + b) = none) ∧
    frame [.tdc] noReg s t := by
  refine ⟨_, exec_fbTableActivate b h, fun c hc => ?_, frame_done (tabActivate_frame (frame_refl ..) (by decide) _ _)⟩
  unfold calTab
  rw [done_tdc]
  exact tabActivate_takes s 64 b hc

/-- Settles O4: each command by its own lemma; a fill's end first judges the groups, apart from each other, and then ends the fill. -/
theorem calibrationFills : Obligations.CalibrationFills :=
  ⟨calFillStart_begins, fillAll_begins, calFillEnd_stops, calFillEnd_judges, calFillEnd_frame, fbTableActivate_takes⟩

end Sys2Proof.Machine
end

section
/-! O5: the auxiliary channels (R80 to R82) and the range gate (R83). -/

namespace Sys2Proof.Machine

variable {ps : List Part} {own : Nat → Bool} {s t : State}

/-! ### State and registers of an auxiliary channel -/

theorem auxChan_modAux_same (s : State) (a : Nat) (f : AuxChan → AuxChan) : auxChan (modAux s a f) a = f (auxChan s a) := tget_tput_same ..

theorem rd_modAux (s : State) (a : Nat) (f : AuxChan → AuxChan) (r : Nat) : rd (modAux s a f) r = rd s r := rfl

theorem auxChan_of_tdc (h : t.tdc = s.tdc) (a : Nat) : auxChan t a = auxChan s a := by unfold auxChan; rw [h]

theorem auxChan_done (s : State) (a : Nat) : auxChan (done s) a = auxChan s a := auxChan_of_tdc (done_tdc s) a

theorem frame_modAux (h : frame ps own s t) (hp : Part.tdc ∈ ps) (a : Nat) (f : AuxChan → AuxChan) : frame ps own s (modAux t a f) :=
  frame_tdc h hp _

/-- The registers that show the queue of channel `a` (R81). -/
def auxQueueRegs (a : Nat) : List Nat := [R.AUX_STAT a, R.AUX_TS_F a, R.AUX_TS_LO a, R.AUX_TS_HI a]

/-- The registers that a counted edge of channel `a` may change (R80 to R82). -/
def auxRegs (a : Nat) : List Nat := auxQueueRegs a ++ [R.AUX_PER_INT a, R.AUX_PER_FRAC a, R.AUX_CNT a]

theorem auxShow_tdc (s : State) (a : Nat) : (auxShow s a).tdc = s.tdc := by
  simp only [auxShow, wr_tdc, fset_tdc, fsetB]

theorem auxShow_frame {a : Nat} (h : frame ps own s t) (ha : ∀ r ∈ auxQueueRegs a, own r = true) : frame ps own s (auxShow t a) := by
  simp only [auxQueueRegs, List.forall_mem_cons] at ha
  obtain ⟨hs, hf, hl, hh, -⟩ := ha
  exact frame_wr (frame_wr (frame_fset (frame_fsetB (frame_fset h hs _ _) hf _ _) hf _ _) hl _) hh _

theorem auxPeriod_frame {a : Nat} (h : frame ps own s t) (hp : Part.free ∈ ps) (ha : ∀ r ∈ auxRegs a, own r = true) :
    frame ps own s (auxPeriod t a) := by
  have hs : own (R.AUX_STAT a) = true := ha _ (by simp [auxRegs, auxQueueRegs])
  have hi : own (R.AUX_PER_INT a) = true := ha _ (by simp [auxRegs])
  have hf : own (R.AUX_PER_FRAC a) = true := ha _ (by simp [auxRegs])
  unfold auxPeriod
  extract_lets avg presc ts d
  split
  · exact h
  · have hq := frame_openQuot h hp (d * 512) (2 ^ (avg + presc))
    dsimp only
    split
    · exact frame_foff (frame_wr hq hi _) hs _
    · exact frame_fon (frame_fset (frame_wr hq hi _) hf _ _) hs _

/-! ### A selected edge -/

/-- A counted edge is counted and noted, before it is timed. -/
def auxNoted (s : State) (a t : Nat) : State :=
  modAux (finc s (R.AUX_CNT a) F.AUX_CNT_EDGES) a (fun c => { c with lastEdge := some (t / 128) })

/-- A counted edge enters the queue. -/
def auxQueued (s : State) (a t : Nat) : State :=
  auxShow (modAux s a (fun c => { c with fifo := c.fifo ++ [(t / 128, t % 128)], latest := (t / 128, t % 128) })) a

/-- A counted edge meets a full queue. -/
def auxDropped (s : State) (a : Nat) : State :=
  raise (finc (fon s (R.AUX_STAT a) F.AUX_STAT_LOST) (R.AUX_CNT a) F.AUX_CNT_LOST) Ev.auxLost

theorem auxCounted_eq (s : State) (a mode t : Nat) : auxCounted s a mode t =
    if mode = 1 then auxPeriod (modAux (auxNoted s a t) a (fun c => { c with times := (t :: c.times).take 1025 })) a
    else if (auxChan (auxNoted s a t) a).fifo.length < 16 then auxQueued (auxNoted s a t) a t else auxDropped (auxNoted s a t) a := rfl

theorem auxNoted_fifo (s : State) (a t : Nat) : (auxChan (auxNoted s a t) a).fifo = (auxChan s a).fifo := by
  unfold auxNoted
  rw [auxChan_modAux_same]; rfl

theorem auxQueued_fifo (s : State) (a t : Nat) : (auxChan (auxQueued s a t) a).fifo = (auxChan s a).fifo ++ [(t / 128, t % 128)] := by
  unfold auxQueued
  rw [auxChan_of_tdc (auxShow_tdc ..), auxChan_modAux_same]

/-- In TIMESTAMP mode an edge enters a queue that has room (R81). -/
theorem auxCounted_fifo {a mode : Nat} (hm : mode ≠ 1) (hl : (auxChan s a).fifo.length < 16) (x : Nat) :
    (auxChan (auxCounted s a mode x) a).fifo = (auxChan s a).fifo ++ [(x / 128, x % 128)] := by
  rw [auxCounted_eq, if_neg hm, auxNoted_fifo, if_pos hl, auxQueued_fifo, auxNoted_fifo]

section
variable (h : frame ps own s t) (hp : ∀ p ∈ Part.tdc :: Part.free :: evParts, p ∈ ps)
include h hp

theorem auxCounted_frame {a : Nat} (ha : ∀ r ∈ auxRegs a, own r = true) (he : ∀ r, evReg r = true → own r = true) (mode x : Nat) :
    frame ps own s (auxCounted t a mode x) := by
  have htdc : Part.tdc ∈ ps := hp _ (by decide)
  have hs : own (R.AUX_STAT a) = true := ha _ (by simp [auxRegs, auxQueueRegs])
  have hc : own (R.AUX_CNT a) = true := ha _ (by simp [auxRegs])
  have hn : frame ps own s (auxNoted t a x) := frame_modAux (frame_finc h hc _) htdc a _
  rw [auxCounted_eq]
  split
  · exact auxPeriod_frame (frame_modAux hn htdc a _) (hp _ (by decide)) ha
  · split
    · exact auxShow_frame (frame_modAux hn htdc a _) fun r hr => ha r (List.mem_append_left _ hr)
    · exact frame_raise (frame_finc (frame_fon hn hs _) hc _) (by decide) (fun p hm => hp p (by simp [hm])) he

end

/-- The prescaler of channel `a` (R80): it counts the edge, or holds it back. -/
def auxScaled (s : State) (a mode t : Nat) : State :=
  if 2 ^ min 8 (fget s (R.AUX_CFG a) F.AUX_CFG_PRESC) ≤ (auxChan s a).presc + 1 then
    auxCounted (modAux s a (fun c => { c with presc := 0 })) a mode t
  else modAux s a (fun c => { c with presc := (auxChan s a).presc + 1 })

/-- The load that an edge of PPS makes (R68). -/
def auxLoaded (s : State) (a tick : Nat) : State :=
  if a = 4 ∧ flag s R.TB_CTRL F.TB_CTRL_LOAD_PPS then tbLoadAt s tick F.TB_CTRL_LOAD_PPS else s

/-- The channel is off, or its gate is closed (R80). -/
def auxIdle (s : State) (a mode t : Nat) : Bool :=
  !flag s (R.AUX_CFG a) F.AUX_CFG_EN || decide (mode = 3) || (decide (mode = 2) && !gateActiveAt s t)

theorem exec_auxEdge (a : Fin 6) (e : TdcEdge) (rising : Bool) (s : State) : exec (.auxEdge a e rising) s = .next (done (
    if !auxSelected s a rising then s
    else if auxIdle (auxLoaded s a e.tick.toNat) a (fget s (R.AUX_CFG a) F.AUX_CFG_MODE) (auxTime s e) then auxLoaded s a e.tick.toNat
    else auxScaled (auxLoaded s a e.tick.toNat) a (fget s (R.AUX_CFG a) F.AUX_CFG_MODE) (auxTime s e))) := rfl

theorem auxLoaded_other {a : Nat} (h : a ≠ 4) (tick : Nat) : auxLoaded s a tick = s := if_neg fun hh => h hh.1

theorem tbLoadAt_frame (h : frame ps own s t) (hp : ∀ p ∈ Part.tb :: evParts, p ∈ ps) (hc : own R.TB_CTRL = true)
    (he : ∀ r, evReg r = true → own r = true) (tick : Nat) (bit : Fld) : frame ps own s (tbLoadAt t tick bit) := by
  have h0 : frame ps own s (foff t R.TB_CTRL bit) := frame_foff h hc _
  rw [tbLoadAt_eq]
  split
  · exact frame_raise (frame_fon h0 hc _) (by decide) (fun p hm => hp p (by simp [hm])) he
  · exact tbLoaded_frame h0 (hp _ (by decide)) (hp _ (by decide)) (hp _ (by decide)) _

theorem auxEdge_frame (a : Fin 6) (e : TdcEdge) (rising : Bool) (s : State) : ∃ t, exec (.auxEdge a e rising) s = .next t ∧
    frame (.tdc :: .tb :: .free :: evParts) (onlyEv (R.TB_CTRL :: auxRegs a)) s t := by
  have ha : ∀ r ∈ auxRegs a, onlyEv (R.TB_CTRL :: auxRegs a) r = true := fun r hr => onlyEv_mem (List.mem_cons_of_mem _ hr)
  have hl : frame (.tdc :: .tb :: .free :: evParts) (onlyEv (R.TB_CTRL :: auxRegs a)) s (auxLoaded s a e.tick.toNat) :=
    iteInduction (fun _ => tbLoadAt_frame (frame_refl ..) (by decide) (onlyEv_mem (by simp)) (onlyEv_ev _) ..) fun _ => frame_refl ..
  refine ⟨_, exec_auxEdge a e rising s, frame_done ?_⟩
  split
  · exact frame_refl ..
  split
  · exact hl
  · unfold auxScaled
    split
    · exact auxCounted_frame (frame_modAux hl (by decide) _ _) (by decide) ha (onlyEv_ev _) ..
    · exact frame_modAux hl (by decide) _ _

theorem auxEdge_times (a : Fin 6) (e : TdcEdge) (rising : Bool) (s : State) : ∃ t, exec (.auxEdge a e rising) s = .next t ∧
    (auxSelected s a rising = false → frame [] noReg s t) ∧
    (auxSelected s a rising = true → flag s (R.AUX_CFG a) F.AUX_CFG_EN = true → fget s (R.AUX_CFG a) F.AUX_CFG_MODE = 0 →
      fget s (R.AUX_CFG a) F.AUX_CFG_PRESC = 0 → (auxChan s a).presc = 0 → (auxChan s a).fifo.length < 16 → a.val ≠ 4 →
      (auxChan t a).fifo = (auxChan s a).fifo ++ [(auxTime s e / 128, auxTime s e % 128)]) ∧
    frame (.tdc :: .tb :: .free :: evParts)
      (onlyEv [R.TB_CTRL, R.AUX_STAT a, R.AUX_TS_F a, R.AUX_TS_LO a, R.AUX_TS_HI a, R.AUX_PER_INT a, R.AUX_PER_FRAC a, R.AUX_CNT a]) s t := by
  obtain ⟨t, ht, hframe⟩ := auxEdge_frame a e rising s
  have hx := ht.symm.trans (exec_auxEdge a e rising s)
  injection hx with hx
  subst hx
  refine ⟨_, ht, fun hs => ?_, fun hs hen hmode hpresc hcnt hroom h4 => ?_, hframe⟩
  · rw [if_pos (by simp [hs])]
    exact frame_off s
  · have hroom' : (auxChan (modAux s a (fun c => { c with presc := 0 })) a).fifo.length < 16 := by rw [auxChan_modAux_same]; exact hroom
    rw [if_neg (by simp [hs]), auxLoaded_other h4, hmode, if_neg (by simp [auxIdle, hen]), auxScaled, if_pos (by simp [hpresc, hcnt]),
      auxChan_done, auxCounted_fifo (by decide) hroom', auxChan_modAux_same]

/-! ### The other commands of a channel -/

theorem auxTsHiRead_takes (a : Fin 6) (s : State) : ∃ t, exec (.auxTsHiRead a) s = .next t ∧ (auxChan t a).fifo = (auxChan s a).fifo.tail ∧
    frame [.tdc] (only [R.AUX_STAT a, R.AUX_TS_F a, R.AUX_TS_LO a, R.AUX_TS_HI a]) s t := by
  refine ⟨_, rfl, ?_, frame_done (auxShow_frame (frame_modAux (frame_refl ..) (by decide) _ _) fun r hr => only_mem.mpr hr)⟩
  rw [auxChan_done, auxChan_of_tdc (auxShow_tdc ..), auxChan_modAux_same]

/-- The word that a write of AUX_CFG leaves: its reserved bits keep their value. -/
def auxCfgWord (s : State) (a : Nat) (v : Word) : Word := (rd s (R.AUX_CFG a) &&& 0x0700FF00#32) ||| (v &&& 0xF8FF00FF#32)

/-- A changed word of AUX_CFG restarts the measurement (R82). -/
def auxRestarted (s : State) (a : Nat) (w : Word) : State :=
  modAux (foff (wr s (R.AUX_CFG a) w) (R.AUX_STAT a) F.AUX_STAT_VALID) a fun c => { c with presc := 0, times := [], lastEdge := some (now s) }

theorem auxRestarted_clears (s : State) (a : Nat) (w : Word) :
    flag (auxRestarted s a w) (R.AUX_STAT a) F.AUX_STAT_VALID = false ∧ (auxChan (auxRestarted s a w) a).times = [] := by
  unfold auxRestarted
  rw [flag_of_rd (rd_modAux ..), auxChan_modAux_same]
  exact ⟨flag_foff_same _ _ _ (by decide) (by decide), rfl⟩

theorem auxRestarted_frame (s : State) (a : Nat) (w : Word) : frame [.tdc] (only [R.AUX_CFG a, R.AUX_STAT a]) s (auxRestarted s a w) :=
  frame_modAux (frame_foff (frame_wr (frame_refl ..) (only_mem.mpr (by simp)) _) (only_mem.mpr (by simp)) _) (by decide) _ _

theorem auxCfgSet_eq (s : State) (a : Nat) (v : Word) :
    auxCfgSet s a v = if auxCfgWord s a v = rd s (R.AUX_CFG a) then s else auxRestarted s a (auxCfgWord s a v) := rfl

theorem auxCfg_ne_stat (a : Nat) : R.AUX_CFG a ≠ R.AUX_STAT a := by unfold R.AUX_CFG R.AUX_STAT; omega

theorem rd_auxCfgSet (s : State) (a : Nat) (v : Word) : rd (auxCfgSet s a v) (R.AUX_CFG a) = auxCfgWord s a v := by
  rw [auxCfgSet_eq]
  split
  · next h => exact h.symm
  · rw [auxRestarted, rd_modAux, foff, rd_fset_ne _ _ _ (auxCfg_ne_stat a), rd_wr_same]

/-- MODE takes the written value. -/
theorem auxCfgWord_mode (s : State) (a : Nat) (v : Word) : getFld (auxCfgWord s a v) F.AUX_CFG_MODE = getFld v F.AUX_CFG_MODE := by
  refine Nat.eq_of_testBit_eq fun i => ?_
  rw [getFld_bit, getFld_bit]
  by_cases hi : i < F.AUX_CFG_MODE.width
  · have hmask : ∀ j < F.AUX_CFG_MODE.width, (0x0700FF00#32).getLsbD (j + F.AUX_CFG_MODE.lo) = false ∧
        (0xF8FF00FF#32).getLsbD (j + F.AUX_CFG_MODE.lo) = true := by decide
    unfold auxCfgWord
    rw [BitVec.getLsbD_or, BitVec.getLsbD_and, BitVec.getLsbD_and, (hmask i hi).1, (hmask i hi).2, Bool.and_false, Bool.false_or, Bool.and_true]
  · rw [decide_eq_false hi, Bool.false_and, Bool.false_and]

theorem auxCfgWrite_sets (a : Fin 6) (v : Word) (s : State) : ∃ t, exec (.auxCfgWrite a v) s = .next t ∧
    (rd t (R.AUX_CFG a) ≠ rd s (R.AUX_CFG a) → flag t (R.AUX_STAT a) F.AUX_STAT_VALID = false ∧ (auxChan t a).times = []) ∧
    fget t (R.AUX_CFG a) F.AUX_CFG_MODE = getFld v F.AUX_CFG_MODE ∧ frame [.tdc] (only [R.AUX_CFG a, R.AUX_STAT a]) s t := by
  refine ⟨done (auxCfgSet s a v), rfl, fun hne => ?_, ?_, frame_done ?_⟩
  · rw [rd_done, rd_auxCfgSet] at hne
    rw [flag_done, auxChan_done, auxCfgSet_eq, if_neg hne]
    exact auxRestarted_clears ..
  · rw [fget_done, fget, rd_auxCfgSet, auxCfgWord_mode]
  · rw [auxCfgSet_eq]
    exact iteInduction (fun _ => frame_refl ..) fun _ => auxRestarted_frame ..

/-- A channel in PERIOD mode has missed its edges (R82). -/
def auxMissed (s : State) (a : Nat) : State :=
  raise (modAux (foff (fon s (R.AUX_STAT a) F.AUX_STAT_TIMEOUT) (R.AUX_STAT a) F.AUX_STAT_VALID) a (fun c => { c with lastEdge := none }))
    Ev.auxTimeout

theorem exec_auxTimeout {a : Fin 6} {t0 : Nat} (h : (auxChan s a).lastEdge = some t0) (hen : flag s (R.AUX_CFG a) F.AUX_CFG_EN = true)
    (hm : fget s (R.AUX_CFG a) F.AUX_CFG_MODE = 1) (ht : t0 + ticksMs (max 1 (fget s (R.AUX_CFG a) F.AUX_CFG_TIMEOUT)) ≤ now s) :
    exec (.auxTimeout a) s = .next (done (auxMissed s a)) := by
  show execAuxTimeout a s = _
  unfold execAuxTimeout
  rw [h]
  dsimp only
  rw [if_pos ⟨hen, hm, ht⟩]
  rfl

/-- No event changes a register of the auxiliary channels. -/
theorem auxStat_quiet (a : Fin 6) : evReg (R.AUX_STAT a) = false := by revert a; decide

theorem auxMissed_frame (s : State) (a : Nat) : frame (.tdc :: evParts) (onlyEv [R.AUX_STAT a]) s (auxMissed s a) :=
  frame_raise (frame_modAux (frame_foff (frame_fon (frame_refl ..) (onlyEv_mem (by simp)) _) (onlyEv_mem (by simp)) _) (by decide) _ _)
    (by decide) (by decide) (onlyEv_ev _)

theorem auxTimeout_shows (a : Fin 6) (t0 : Nat) (s : State) (h : (auxChan s a).lastEdge = some t0)
    (hen : flag s (R.AUX_CFG a) F.AUX_CFG_EN = true) (hm : fget s (R.AUX_CFG a) F.AUX_CFG_MODE = 1)
    (ht : t0 + ticksMs (max 1 (fget s (R.AUX_CFG a) F.AUX_CFG_TIMEOUT)) ≤ now s) :
    ∃ t, exec (.auxTimeout a) s = .next t ∧ flag t (R.AUX_STAT a) F.AUX_STAT_TIMEOUT = true ∧
      flag t (R.AUX_STAT a) F.AUX_STAT_VALID = false ∧ evFlag t Ev.auxTimeout = true ∧
      frame (.tdc :: evParts) (onlyEv [R.AUX_STAT a]) s t := by
  have hr : rd (auxMissed s a) (R.AUX_STAT a) =
      rd (foff (fon s (R.AUX_STAT a) F.AUX_STAT_TIMEOUT) (R.AUX_STAT a) F.AUX_STAT_VALID) (R.AUX_STAT a) :=
    (raise_frame _ (by decide)).2 _ (auxStat_quiet a)
  refine ⟨_, exec_auxTimeout h hen hm ht, ?_, ?_, ?_, frame_done (auxMissed_frame s a)⟩
  · rw [flag_done, flag_of_rd hr, foff, flag_fset_ne _ _ _ (by decide) (by decide) (by decide) (by decide)]
    exact flag_fon_same _ _ _ rfl (by decide)
  · rw [flag_done, flag_of_rd hr]
    exact flag_foff_same _ _ _ (by decide) (by decide)
  · rw [evFlag_done]
    exact evFlag_raise _ (by decide) fun hv => absurd hv.2.1 (by decide)

/-! ### The range gate -/

/-- The registers that show the gate (R83). -/
def gateRegs : List Nat := R.GATE_CFG :: (List.range 6).map R.AUX_STAT

/-- The registers that a change of the gate may change: a capture may see it (R105). -/
def gateCapRegs : List Nat := R.GATE_CFG :: R.CAP_STAT :: (List.range 6).map R.AUX_STAT

/-- The parts that a capture trigger may change. -/
def capTrigParts : List Part := [.capture, .lanes, .cast]

section
variable (h : frame ps own s t) (hp : ∀ p ∈ capTrigParts, p ∈ ps)
include h hp

theorem frame_capFireCast : frame ps own s (capFireCast t) := by
  unfold capFireCast
  split
  · exact frame_castRing h (hp _ (by decide)) (hp _ (by decide)) ..
  · exact h

variable (hc : own R.CAP_STAT = true)
include hc

theorem frame_capFire : frame ps own s (capFire t) := by
  have hset : ∀ (u : State) (x y : Nat), frame ps own s u → frame ps own s { u with sht := { u.sht with capT := x, capEnd := y } } :=
    fun u x y hu => frame_trans hu ⟨fun p hn => by cases p <;> first | rfl | exact ⟨rfl, rfl⟩ | exact absurd (hp _ (by decide)) hn, fun _ _ => rfl⟩
  unfold capFire
  split
  · exact frame_capFireCast (hset _ _ _ (frame_fset h hc _ _)) hp
  · exact h

/-- A capture trigger changes the capture's state and end, and its broadcast. -/
theorem frame_capTrigger (b : Nat) : frame ps own s (capTrigger t b) := by
  unfold capTrigger
  split
  · exact frame_capFire h hp hc
  · exact h

end

/-- The level that GATE_CFG and AUX_STAT show. -/
def gateShown (s : State) : Bool := xor s.tdc.gateFilt (flag s R.GATE_CFG F.GATE_CFG_POL)

/-- AUX_STAT shows the gate in every channel. -/
def gateAux (s : State) (on : Bool) : State := (List.range 6).foldl (fun s a => fsetB s (R.AUX_STAT a) F.AUX_STAT_GATE on) s

theorem gateShow_eq (s : State) : gateShow s = gateAux (fsetB s R.GATE_CFG F.GATE_CFG_STATE (gateShown s)) (gateShown s) := rfl

theorem gateAux_frame (h : frame ps own s t) (ha : ∀ r ∈ (List.range 6).map R.AUX_STAT, own r = true) (on : Bool) :
    frame ps own s (gateAux t on) :=
  frame_foldl _ _ (fun _ _ hk h => frame_fsetB h (ha _ (List.mem_map_of_mem hk)) _ _) t h

theorem gateShow_frame (h : frame ps own s t) (ha : ∀ r ∈ gateRegs, own r = true) : frame ps own s (gateShow t) := by
  rw [gateShow_eq]
  exact gateAux_frame (frame_fsetB h (ha _ (by decide)) _ _) (fun r hr => ha r (List.mem_cons_of_mem _ hr)) _

theorem gateShow_state (s : State) : flag (gateShow s) R.GATE_CFG F.GATE_CFG_STATE = gateShown s := by
  have hf := gateAux_frame (frame_refl [] (only ((List.range 6).map R.AUX_STAT)) (fsetB s R.GATE_CFG F.GATE_CFG_STATE (gateShown s)))
    (fun _ h => only_mem.mpr h) (gateShown s)
  rw [gateShow_eq, flag_of_rd (hf.2 _ (by decide))]
  exact flag_fsetB_same _ _ _ _ rfl (by decide)

/-- The filtered gate has taken the level `lv` of a change at `p`, before it is shown. -/
def gateTaken (s : State) (p : Nat) (lv : Bool) : State :=
  { s with tdc := { s.tdc with gateFilt := lv, gateTrans := (p + gateFilt128 s, lv) :: s.tdc.gateTrans, gatePend := none } }

theorem gateTake_eq (s : State) (p : Nat) (lv : Bool) : gateTake s p lv = capTrigger (gateShow (gateTaken s p lv)) 0 := rfl

/-- Showing a taken level changes nothing of the fabric, and leaves GATE_CFG to be shown. -/
theorem gateTake_after (s : State) (p : Nat) (lv : Bool) : (gateTake s p lv).tdc = (gateTaken s p lv).tdc ∧
    flag (gateTake s p lv) R.GATE_CFG F.GATE_CFG_STATE = gateShown (gateTaken s p lv) := by
  have hc := frame_capTrigger (frame_refl capTrigParts (only [R.CAP_STAT]) (gateShow (gateTaken s p lv))) (by decide) (by decide) 0
  have hs := gateShow_frame (frame_refl [] (only gateRegs) (gateTaken s p lv)) fun _ h => only_mem.mpr h
  rw [gateTake_eq, flag_of_rd (hc.2 _ (by decide)), gateShow_state]
  exact ⟨(hc.1 .tdc (by decide)).trans (hs.1 .tdc (by decide)), rfl⟩

theorem gateTake_frame (s : State) (p : Nat) (lv : Bool) : frame [.tdc, .capture, .lanes, .cast] (only gateCapRegs) s (gateTake s p lv) := by
  have ht : frame [.tdc, .capture, .lanes, .cast] (only gateCapRegs) s (gateTaken s p lv) := frame_tdc (frame_refl ..) (by decide) _
  exact frame_capTrigger (gateShow_frame ht (by decide)) (by decide) (by decide) 0

/-- A change that has lasted by the time `x` is taken (R83). -/
def gateSettled (s : State) (x : Nat) : State :=
  match s.tdc.gatePend with
  | some (p, lv) => if p + gateFilt128 s ≤ x then gateTake s p lv else s
  | none => s

/-- A new raw level at the time `x`. -/
def gateSeen (s : State) (level : Bool) (x : Nat) : State :=
  { s with tdc := { s.tdc with gateRaw := level, gatePend := if level = s.tdc.gateFilt then none else some (x, level) } }

theorem gateSettled_frame (s : State) (x : Nat) : frame [.tdc, .capture, .lanes, .cast] (only gateCapRegs) s (gateSettled s x) := by
  unfold gateSettled
  split
  · exact iteInduction (fun _ => gateTake_frame ..) fun _ => frame_refl ..
  · exact frame_refl ..

theorem gateSettled_filt {p x : Nat} {lv : Bool} (h : s.tdc.gatePend = some (p, lv)) :
    (gateSettled s x).tdc.gateFilt = if p + gateFilt128 s ≤ x then lv else s.tdc.gateFilt := by
  unfold gateSettled
  rw [h]
  dsimp only
  split
  · rw [(gateTake_after s p lv).1]; rfl
  · rfl

theorem exec_gateInEdge (level : Bool) (e : TdcEdge) (s : State) : exec (.gateInEdge level e) s = .next (done (
    if level = s.tdc.gateRaw then s else gateSeen (gateSettled s (auxTime s e)) level (auxTime s e))) := rfl

theorem exec_filteredGateChange (s : State) : exec .filteredGateChange s = .next (done (gateSettled s (128 * now s))) := rfl

theorem gateInEdge_sees (level : Bool) (e : TdcEdge) (s : State) : ∃ t, exec (.gateInEdge level e) s = .next t ∧ t.tdc.gateRaw = level ∧
    (level ≠ s.tdc.gateRaw → t.tdc.gatePend = if level = t.tdc.gateFilt then none else some (auxTime s e, level)) ∧
    (∀ p lv, level ≠ s.tdc.gateRaw → s.tdc.gatePend = some (p, lv) →
      t.tdc.gateFilt = if p + gateFilt128 s ≤ auxTime s e then lv else s.tdc.gateFilt) ∧
    frame [.tdc, .capture, .lanes, .cast] (only (R.GATE_CFG :: R.CAP_STAT :: (List.range 6).map R.AUX_STAT)) s t := by
  rw [exec_gateInEdge]
  by_cases h : level = s.tdc.gateRaw
  · rw [if_pos h]
    exact ⟨_, rfl, by rw [done_tdc]; exact h.symm, fun hn => absurd h hn, fun _ _ hn => absurd h hn, frame_done (frame_refl ..)⟩
  · rw [if_neg h]
    refine ⟨_, rfl, ?_, fun _ => ?_, fun p lv _ hp => ?_, frame_done (frame_tdc (gateSettled_frame ..) (by decide) _)⟩ <;> rw [done_tdc]
    · rfl
    · rfl
    · exact gateSettled_filt hp

theorem filteredGateChange_takes (t0 : Nat) (lv : Bool) (s : State) (h : s.tdc.gatePend = some (t0, lv)) (ht : t0 + gateFilt128 s ≤ 128 * now s) :
    ∃ t, exec .filteredGateChange s = .next t ∧ t.tdc.gateFilt = lv ∧ t.tdc.gatePend = none ∧
      flag t R.GATE_CFG F.GATE_CFG_STATE = xor lv (flag s R.GATE_CFG F.GATE_CFG_POL) ∧
      frame [.tdc, .capture, .lanes, .cast] (only (R.GATE_CFG :: R.CAP_STAT :: (List.range 6).map R.AUX_STAT)) s t := by
  have hx : gateSettled s (128 * now s) = gateTake s t0 lv := by
    unfold gateSettled
    rw [h]
    exact if_pos ht
  obtain ⟨htdc, hstate⟩ := gateTake_after s t0 lv
  rw [exec_filteredGateChange, hx]
  refine ⟨_, rfl, ?_, ?_, (flag_done ..).trans hstate, frame_done (gateTake_frame ..)⟩ <;> rw [done_tdc, htdc] <;> rfl

/-- Settles O5: each command by its own lemma. -/
theorem auxAndGate : Obligations.AuxAndGate :=
  ⟨auxEdge_times, auxTsHiRead_takes, auxCfgWrite_sets, auxTimeout_shows, gateInEdge_sees, filteredGateChange_takes⟩

end Sys2Proof.Machine
end

section
/-! The engines of the pool: what setting a state, selecting an engine for self-test and ending a re-initialisation change (R135, R143, R146). -/

namespace Sys2Proof.Machine

variable {s t u : State}

/-! ### An engine -/

@[simp] theorem eng_modEng_same (s : State) (e : Nat) (f : Engine → Engine) : eng (modEng s e f) e = f (eng s e) := tget_tput_same ..

@[simp] theorem rd_modEng (s : State) (e : Nat) (f : Engine → Engine) (a : Nat) : rd (modEng s e f) a = rd s a := rfl

theorem eng_of_pool {t : State} (h : t.pool = s.pool) (e : Nat) : eng t e = eng s e := by unfold eng; rw [h]

theorem eng_done (s : State) (e : Nat) : eng (done s) e = eng s e := eng_of_pool (done_pool s) e
theorem engState_done (s : State) (e : Nat) : engState (done s) e = engState s e := fget_done ..
theorem eng_setEng (s : State) (e st e' : Nat) : eng (setEng s e st) e' = eng s e' := rfl

/-! ### Registers of the pool -/

/-- The registers of the engine pool. -/
def poolReg (a : Nat) : Bool := decide (blockBase 0xA ≤ a) && decide (a < blockBase 0xA + 0x10000)

theorem poolReg_iff {a : Nat} : poolReg a = true ↔ blockBase 0xA ≤ a ∧ a < blockBase 0xA + 0x10000 := by simp [poolReg]

theorem reserved_false {a : Nat} (hp : a ∉ placeRegs) (h : a < R.EV_FLAG 0 ∨ R.EV_FLAG 20 ≤ a) : reserved a = false := by
  simp only [reserved, hp, decide_false, Bool.false_or, Bool.and_eq_false_iff, decide_eq_false_iff_not]
  omega

theorem placeRegs_bounds {a : Nat} (h : a ∈ placeRegs) : a < blockBase 0x20 ∧ poolReg a = false := by
  revert a; decide

theorem poolReg_apart (a : Nat) (h : poolReg a = true) : reserved a = false := by
  refine reserved_false (fun hp => ?_) ?_
  · rw [(placeRegs_bounds hp).2] at h
    exact absurd h Bool.false_ne_true
  · have := poolReg_iff.mp h
    unfold R.EV_FLAG blockBase at *
    omega

theorem poolReg_quiet {a : Nat} (h : poolReg a = true) : evReg a = false := by
  have := poolReg_iff.mp h
  simp only [evReg, Bool.or_eq_false_iff, decide_eq_false_iff_not]
  unfold R.CAP_STAT blockBase at *
  omega

theorem engStat_pool {e : Nat} (he : e < 256) : poolReg (R.ENG_STAT e) = true := poolReg_iff.mpr (by unfold R.ENG_STAT; omega)

theorem clStat_pool {c : Nat} (hc : c < 16) : poolReg (R.CL_STAT c) = true := poolReg_iff.mpr (by unfold R.CL_STAT; omega)

theorem engStat_quiet (e : Nat) : evReg (R.ENG_STAT e) = false := by
  simp only [evReg, Bool.or_eq_false_iff, decide_eq_false_iff_not]
  unfold R.CAP_STAT R.ENG_STAT blockBase
  omega

theorem engStat_inj {e e' : Nat} : R.ENG_STAT e = R.ENG_STAT e' ↔ e = e' := by unfold R.ENG_STAT; omega

theorem engStat_ne_clStat (e : Nat) {c : Nat} (hc : c < 16) : R.ENG_STAT e ≠ R.CL_STAT c := by unfold R.ENG_STAT R.CL_STAT; omega

/-- What the pool changes of itself: its engines, queues and registers. -/
def poolScope : Scope where
  parts := .pool :: evParts
  regs := poolReg
  area := fixed noReg
  events _ h := List.mem_cons_of_mem _ h
  apart := poolReg_apart
  shrinks := fixed_shrinks _

theorem Keeps.pool (h : Keeps c s t) (hp : c.parts.contains .pool = true) (x : PoolState) : Keeps c s { t with pool := x } :=
  h.quiet (frame_pool (frame_refl ..) (List.contains_iff_mem.mp hp) x) rfl rfl

theorem Keeps.modEng (h : Keeps poolScope s t) (e : Nat) (f : Engine → Engine) : Keeps poolScope s (modEng t e f) := h.pool rfl _

/-! ### STATE of an engine -/

theorem rd_setEng_ne (s : State) {e a : Nat} (st : Nat) (he : a ≠ R.ENG_STAT e) (hc : a ≠ R.CL_STAT (e / 16)) :
    rd (setEng s e st) a = rd s a := by
  unfold setEng clShow
  rw [rd_fset_ne _ _ _ hc, rd_fset_ne _ _ _ he]

theorem fget_engStat_setEng (s : State) {e : Nat} (he : e < 256) (st : Nat) (f : Fld) :
    fget (setEng s e st) (R.ENG_STAT e) f = fget (fset s (R.ENG_STAT e) F.ENG_STAT_STATE st) (R.ENG_STAT e) f := by
  unfold setEng clShow
  exact fget_fset_reg _ _ _ _ (engStat_ne_clStat e (by omega))

theorem engState_setEng_same (s : State) {e : Nat} (he : e < 256) (st : Nat) : engState (setEng s e st) e = st % 8 :=
  (fget_engStat_setEng s he st _).trans (fget_fset_same _ _ _ _ (by decide) (by decide))

theorem rd_engStat_setEng_ne (s : State) {e e' : Nat} (he : e < 256) (st : Nat) (h : e' ≠ e) :
    rd (setEng s e st) (R.ENG_STAT e') = rd s (R.ENG_STAT e') :=
  rd_setEng_ne s st (fun hh => h (engStat_inj.mp hh)) (engStat_ne_clStat e' (by omega))

/-- A new STATE leaves the fields of ENG_STAT below it. -/
theorem fget_setEng_below (s : State) {e : Nat} (he : e < 256) (st : Nat) {f : Fld} (hf : f.lo ≤ f.hi) (hh : f.hi < 29) :
    fget (setEng s e st) (R.ENG_STAT e) f = fget s (R.ENG_STAT e) f :=
  (fget_engStat_setEng s he st f).trans (fget_fset_ne _ _ _ _ _ (by decide) (by decide) (.inl hh) hf)

theorem setEng_keeps (h : Keeps poolScope s t) {e : Nat} (he : e < 256) (st : Nat) : Keeps poolScope s (setEng t e st) :=
  (h.fset (engStat_pool he) _ _).fset (clStat_pool (by omega)) _ _

/-! ### Selection for self-test -/

/-- From `s` to `t` at most engines have been selected for self-test (R143): those may leave IDLE or BUSY for DRAIN; of the other registers
and fields of the pool nothing has changed. -/
structure Selects (s t : State) : Prop where
  keeps : Keeps poolScope s t
  state : ∀ e, engState t e = engState s e ∨ (engState s e = engIdle ∨ engState s e = engBusy) ∧ engState t e = engDrain
  below : ∀ e f, f.lo ≤ f.hi → f.hi < 29 → fget t (R.ENG_STAT e) f = fget s (R.ENG_STAT e) f
  regs : ∀ a, evReg a = false → (∀ e, a ≠ R.ENG_STAT e) → (∀ c, c < 16 → a ≠ R.CL_STAT c) → rd t a = rd s a
  engines : t.pool.engines = s.pool.engines

theorem Selects.refl (s : State) : Selects s s := ⟨Keeps.refl .., fun _ => .inl rfl, fun _ _ _ _ => rfl, fun _ _ _ _ => rfl, rfl⟩

theorem Selects.trans (h : Selects s t) (k : Selects t u) : Selects s u where
  keeps := h.keeps.trans k.keeps
  state e := by
    rcases h.state e with h | ⟨h, hd⟩
    · rw [← h]; exact k.state e
    · refine .inr ⟨h, ?_⟩
      rcases k.state e with k | ⟨k, -⟩
      · exact k.trans hd
      · rw [hd] at k; exact absurd k (by decide)
  below e f hf hh := (k.below e f hf hh).trans (h.below e f hf hh)
  regs a he hs hc := (k.regs a he hs hc).trans (h.regs a he hs hc)
  engines := k.engines.trans h.engines

/-- A step that touches CL_STAT at most selects nobody. -/
theorem Selects.quiet (h : Selects s t) (hk : Keeps poolScope t u)
    (hr : ∀ a, evReg a = false → (∀ c, c < 16 → a ≠ R.CL_STAT c) → rd u a = rd t a) (he : u.pool.engines = t.pool.engines) : Selects s u :=
  have hs : ∀ e, rd u (R.ENG_STAT e) = rd t (R.ENG_STAT e) := fun e => hr _ (engStat_quiet e) fun _ hc => engStat_ne_clStat e hc
  h.trans ⟨hk, fun e => .inl (fget_of_rd (hs e) _), fun e f _ _ => fget_of_rd (hs e) f, fun a he _ hc => hr a he hc, he⟩

theorem Selects.clStat (h : Selects s t) {c : Nat} (hc : c < 16) (f : Fld) (v : Nat) : Selects s (fset t (R.CL_STAT c) f v) :=
  h.quiet ((Keeps.refl _ t).fset (clStat_pool hc) f v) (fun _ _ hn => rd_fset_ne t f v (hn c hc)) rfl

theorem Selects.sel (h : Selects s t) (x : List (Nat × Nat)) : Selects s { t with pool := { t.pool with sel := x } } :=
  h.quiet ((Keeps.refl _ t).pool rfl _) (fun _ _ _ => rfl) rfl

theorem Selects.raise (h : Selects s t) {n : Nat} (hn : n < 640) : Selects s (raise t n) :=
  h.quiet ((Keeps.refl _ t).raise hn) (fun a ha _ => (raise_frame t hn).2 a ha)
    (congrArg PoolState.engines ((raise_frame t hn).1 .pool (by decide)))

theorem Selects.drain (h : Selects s t) {e : Nat} (he : e < 256) (hi : engState t e = engIdle ∨ engState t e = engBusy) :
    Selects s (setEng t e engDrain) := by
  refine h.trans ⟨setEng_keeps (Keeps.refl ..) he _, fun e' => ?_, fun e' f hf hh => ?_, fun a _ hs hc => ?_, rfl⟩
  · by_cases hn : e' = e
    · subst hn
      exact .inr ⟨hi, engState_setEng_same t he _⟩
    · exact .inl (fget_of_rd (rd_engStat_setEng_ne t he _ hn) _)
  · by_cases hn : e' = e
    · subst hn
      exact fget_setEng_below t he _ hf hh
    · exact fget_of_rd (rd_engStat_setEng_ne t he _ hn) f
  · exact rd_setEng_ne t _ (hs e) (hc _ (by omega))

theorem nextSel_some {c p j : Nat} (h : nextSel s c p = some j) :
    j < 16 ∧ (engState s (16 * c + j) = engIdle ∨ engState s (16 * c + j) = engBusy) := by
  obtain ⟨i, -, rfl⟩ := List.mem_map.mp (List.mem_of_find?_eq_some h)
  exact ⟨Nat.mod_lt _ (by decide), by simpa using List.find?_some h⟩

theorem selectAfter_selects (s : State) {c : Nat} (hc : c < 16) (p : Nat) : Selects s (selectAfter s c p) := by
  unfold selectAfter
  extract_lets src u
  have hu : Selects s u := (Selects.refl s).sel _
  clear_value u
  split
  · split
    · next j hj =>
      obtain ⟨h16, hstate⟩ := nextSel_some hj
      refine ((hu.sel _).clStat hc _ _).drain (e := 16 * c + j) (by omega) ?_
      rwa [engState, fget_fset_reg _ _ _ _ (engStat_ne_clStat _ hc)]
    · exact hu
  · exact hu

theorem selectFirst_selects (s : State) {c : Nat} (hc : c < 16) : Selects s (selectFirst s c) := by
  unfold selectFirst
  split
  · exact selectAfter_selects s hc 15
  · exact Selects.refl s

theorem reinitEnd_selects (s : State) {c : Nat} (hc : c < 16) : Selects s (reinitEnd s c) := by
  unfold reinitEnd
  split
  · exact (((Selects.refl s).clStat hc _ 0).raise (by omega)).trans (selectFirst_selects _ hc)
  · exact Selects.refl s

theorem testLeft_selects (s : State) {e : Nat} (he : e < 256) : Selects s (testLeft s e) := by
  unfold testLeft
  split
  · exact selectAfter_selects s (by omega) _
  · exact reinitEnd_selects s (by omega)

end Sys2Proof.Machine
end

section
/-! O10: a steal from a queue whose occupancy is not shown (R132, R133, R152). -/

namespace Sys2Proof.Machine

theorem exec_stealProbe {e : Fin 256} {v : Nat} {s : State} (hs : stealing s e = true) (hv : victimOf s (e / 16) = some v)
    (hq : qTurn s v 21 = true) (hg : stealGrant s v (e / 16) = true) : exec (.stealProbe e) s = .next (done (
      let k := min (ceilDiv (stealable s v).length 2) (max 1 (fget s R.ENP_CTRL F.ENP_CTRL_STEAL_MAX))
      let x := stealOut k (tqOf s v)
      let bad := x.1.filterMap (fun k => firstPoison s (tqAddr s v k.slot) 16)
      let good := x.1.filter (fun k => (firstPoison s (tqAddr s v k.slot) 16).isNone)
      let t := setTq (qServe s v 22) v x.2
      let t := bad.foldl (fun t p => histLoss (finc (ueRecord t p) (R.CL_CNT_C v) F.CL_CNT_C_EXPIRED) v F.ENP_STAT_EXPIRED) t
      let t := fadd (fadd t (R.CL_CNT_B v) F.CL_CNT_B_STOLEN_OUT k) (R.CL_CNT_B (e / 16)) F.CL_CNT_B_STOLEN_IN k
      { t with pool := { t.pool with moves := t.pool.moves ++ [⟨e, now t + 2 * (8 + ceilDiv k 4), good⟩] } })) := by
  show Host.Outcome.next (done _) = _
  rw [if_pos hs, hv]
  dsimp only
  rw [hq, hg]
  rfl

/-- A ticket of tile 0 that no thief has taken and whose deadline is too far off for help (R131). -/
def calmTicket : Ticket := { strayTicket with ch := 0, deadline := 5000 }

/-- Engine 0 is idle and cluster 1 holds two tickets, but its CL_Q.OCC still reads 0. Its QHI is 1, and QUEUE_HIGH of the cluster is routed to
EMCY. -/
def unshownQueue : State :=
  let s := fset State.reset (R.ENG_STAT 0) F.ENG_STAT_STATE engIdle
  let s := fset s (R.CL_CTRL 1) F.CL_CTRL_QHI 1
  let s := fon s (R.EV_ROUTE 262) F.EV_ROUTE_EMCY
  { s with pool := { s.pool with queues := [(1, [calmTicket, calmTicket])] } }

theorem unshownQueue_steals : stealing unshownQueue (0 : Fin 256) = true ∧ victimOf unshownQueue ((0 : Fin 256) / 16) = some 1 ∧
    qTurn unshownQueue 1 21 = true ∧ stealGrant unshownQueue 1 ((0 : Fin 256) / 16) = true := by decide +kernel

/-- Refutes O10: the third clause lets a steal change no event where nothing is poisoned, but the steal writes the victim's occupancy anew, and
where OCC read too low before, that reaches QHI and raises QUEUE_HIGH (R152). -/
theorem not_ticketTakes : ¬ Obligations.TicketTakes := by
  rintro ⟨-, -, hsteal, -⟩
  obtain ⟨hs, hv, hq, hg⟩ := unshownQueue_steals
  obtain ⟨t, hx, ht⟩ := hsteal 0 1 unshownQueue hs hv hq hg
  obtain ⟨-, -, hframe⟩ := ht _ rfl
  have hkept : t.evt = unshownQueue.evt := (hframe rfl).1 .evt (by decide)
  obtain rfl := Host.Outcome.next.inj ((exec_stealProbe hs hv hq hg).symm.trans hx)
  rw [done_evt] at hkept
  exact absurd hkept (by decide +kernel)

end Sys2Proof.Machine
end

section
/-! O11: an engine in LOAD takes the images of the sets that it needs, one after the other (R135, R147). -/

namespace Sys2Proof.Machine

variable {s : State}

theorem mbytes_length (s : State) (a n : Nat) : (mbytes s a n).length = n := by rw [mbytes_range]; simp

/-- A store of a block that runs into a hole of the address map is a decode error (R25). -/
theorem blockWrite_hole {a i : Nat} {l : List Byte} (hi : i < l.length) (h : regionOf s (a + i) = .hole) :
    ∃ x, blockWrite s a l = decodeErr s x true := by
  have hf : (firstHole s a l.length).isSome = true := by
    simp only [firstHole, List.find?_isSome, List.mem_map, List.mem_range]
    exact ⟨a + i, ⟨i, hi, rfl⟩, by rw [h]; rfl⟩
  obtain ⟨x, hx⟩ := Option.isSome_iff_exists.mp hf
  exact ⟨x % 2 ^ 40, by unfold blockWrite; rw [hx]⟩

/-- The images of the sets that an engine needs (R147). -/
def neededImages (s : State) : List (Nat × Nat) := (neededBanks s).filterMap fun b => (lookup s.pool.src b).map fun a => (b, a)

/-- An engine of a cluster under re-initialisation goes on to TEST with every set that it needs (R135, R146, R147). -/
theorem exec_engineLoadDone_reinit {e : Fin 256} {s t : State} (hl : engState s e = engLoad) (hn : (neededImages s).isEmpty = false)
    (hc : (neededImages s).all (fun x => imgCrcOk s x.2) = true) (ht : (neededImages s).foldl (fun s x => bankLoaded s e x.1 x.2) s = t)
    (hr : (eng t e).reinit = true) :
    exec (.engineLoadDone e) s = .next (done (setEng (modEng t e fun x => { x with testAt := now t }) e engTest)) := by
  have hm : (eng (modEng t e fun x => { x with testAt := now t }) e).reinit = true := by rw [eng_modEng_same]; exact hr
  subst ht
  show Host.Outcome.next (done _) = _
  unfold neededImages at hn hc hm ⊢
  rw [if_pos hl]
  dsimp only
  rw [hn, if_neg Bool.false_ne_true, if_pos hc, if_pos hm]

/-- A set that is loaded shows in ENP_KINFO at most. -/
theorem rd_bankLoaded (s : State) (e b a : Nat) {x : Nat} (hx : x ≠ R.ENP_KINFO) : rd (bankLoaded s e b a) x = rd (loadBank s e b a) x := by
  unfold bankLoaded
  dsimp only
  split
  · rw [rd_fset_ne _ _ _ hx, rd_modEng]
  · rw [rd_modEng]

/-- A set that runs past the last engine's memory is a decode error (R25, R27). -/
theorem bankLoaded_overrun {e b a : Nat} (hb : bankAddr e b ≤ 0x0301000000) (hn : 0x0301000000 < bankAddr e b + imgSize s a) :
    fget (bankLoaded s e b a) R.SYS_CNT F.SYS_CNT_DECERR_CNT =
      satN F.SYS_CNT_DECERR_CNT.width (fget s R.SYS_CNT F.SYS_CNT_DECERR_CNT + 1) := by
  have hi : 0x0301000000 - bankAddr e b < (mbytes s a (imgSize s a)).length := by rw [mbytes_length]; omega
  have hh : regionOf s (bankAddr e b + (0x0301000000 - bankAddr e b)) = .hole := by rw [Nat.add_sub_cancel' hb]; rfl
  obtain ⟨x, hx⟩ := blockWrite_hole hi hh
  rw [← decodeErr_cnt s x true, ← hx]
  exact fget_of_rd (rd_bankLoaded s e b a (by decide)) _

/-- A swap is loading. Engine 0 waits in LOAD, in a cluster under re-initialisation; the image of the active set, 64 bytes long, stands in the
control-core memory, and that of the new set in bank 0 of engine 0 itself, 32 bytes from its start. -/
def nestedImages : State :=
  { fset State.reset R.ENP_KSWAP F.ENP_KSWAP_STATE 1 with
    mem := [(0x10000004, 0x40#8), (0x10000027, 1#8)]
    pool := { State.reset.pool with
      src := [(0, 0x10000000), (1, 0x0300000020)]
      engines := [(0, { Engine.init with reinit := true })] } }

theorem nestedImages_needed : engState nestedImages (0 : Fin 256) = engLoad ∧ neededBanks nestedImages = [0, 1] ∧
    neededImages nestedImages = [(0, 0x10000000), (1, 0x0300000020)] ∧ imgCrcOk nestedImages 0x10000000 = true ∧
    imgCrcOk nestedImages 0x0300000020 = true := by decide +kernel

/-- The bytes of the first image overwrite SIZE of the second. -/
theorem nestedImages_size : imgSize (bankLoaded nestedImages (0 : Fin 256) 0 0x10000000) 0x0300000020 = 2 ^ 24 ∧
    fget (bankLoaded nestedImages (0 : Fin 256) 0 0x10000000) R.SYS_CNT F.SYS_CNT_DECERR_CNT = 0 ∧
    (eng (bankLoaded nestedImages (0 : Fin 256) 0 0x10000000) (0 : Fin 256)).reinit = true := by decide +kernel


/-- A set that is loaded changes at most the banks of its engine. -/
theorem eng_bankLoaded_reinit (s : State) (e b a : Nat) : (eng (bankLoaded s e b a) e).reinit = (eng s e).reinit := by
  have hl : eng (loadBank s e b a) e = eng s e := eng_of_pool ((blockWrite_keeps s _ (mbytes s a (imgSize s a))).parts .pool (of_decide_eq_false rfl)) e
  rw [← hl]
  unfold bankLoaded
  dsimp only
  split
  · rw [eng_of_pool (fset_pool ..), eng_modEng_same]
  · rw [eng_modEng_same]

theorem nestedImages_good : ∀ b ∈ neededBanks nestedImages, ∀ a, lookup nestedImages.pool.src b = some a → imgCrcOk nestedImages a = true := by
  obtain ⟨-, hb, -, h0, h1⟩ := nestedImages_needed
  rw [hb]
  intro b hb a ha
  obtain rfl | rfl : b = 0 ∨ b = 1 := by simpa using hb
  · obtain rfl := Option.some.inj ha
    exact h0
  · obtain rfl := Option.some.inj ha
    exact h1

theorem nestedImages_loads : ∃ f, exec (.engineLoadDone 0) nestedImages = .next (done (setEng
    (modEng (bankLoaded (bankLoaded nestedImages (0 : Fin 256) 0 0x10000000) (0 : Fin 256) 1 0x0300000020) (0 : Fin 256) f)
    (0 : Fin 256) engTest)) := by
  obtain ⟨hl, -, hn, h0, h1⟩ := nestedImages_needed
  obtain ⟨-, -, hr⟩ := nestedImages_size
  have ht : (neededImages nestedImages).foldl (fun s x => bankLoaded s (0 : Fin 256) x.1 x.2) nestedImages =
      bankLoaded (bankLoaded nestedImages (0 : Fin 256) 0 0x10000000) (0 : Fin 256) 1 0x0300000020 := by
    rw [hn, List.foldl_cons, List.foldl_cons, List.foldl_nil]
  refine ⟨_, exec_engineLoadDone_reinit hl (by rw [hn]; rfl) (by rw [hn]; simp [h0, h1]) ht ?_⟩
  rw [eng_bankLoaded_reinit, hr]

/-- Refutes O11: the sixth clause bounds the images as they stand before the load, and where the first image overwrites the header of the
second, the engine loads more of it than its bank holds. Here the second load leaves the engine memories, which is a decode error (R25). -/
theorem not_kernelRuns : ¬ Obligations.KernelRuns := by
  rintro ⟨-, -, -, -, -, hload, -⟩
  obtain ⟨hsize, hcnt, -⟩ := nestedImages_size
  obtain ⟨t, hx, -, -, -, -, hf⟩ := hload 0 nestedImages nestedImages_needed.1 ⟨0x10000000, rfl⟩ nestedImages_good
  have hkept : fget t R.SYS_CNT F.SYS_CNT_DECERR_CNT = 0 := fget_of_rd (hf.2 R.SYS_CNT (by decide)) _
  obtain ⟨f, hload⟩ := nestedImages_loads
  obtain rfl := Host.Outcome.next.inj (hload.symm.trans hx)
  rw [fget_done, fget_of_rd (rd_setEng_ne _ _ (by decide) (by decide)), fget_of_rd (rd_modEng ..),
    bankLoaded_overrun (by decide) (by rw [hsize]; decide), hcnt] at hkept
  exact absurd hkept (by decide)

end Sys2Proof.Machine
end

section
/-! An engine retires (R135, R141, R145): what it loses, what it shows and what stays. -/

namespace Sys2Proof.Machine

variable {s t u : State}

/-! ### Scopes -/

theorem tileReg_apart (a : Nat) (h : decide (blockBase 0x20 ≤ a) = true) : reserved a = false := by
  have ha := of_decide_eq_true h
  refine reserved_false (fun hp => ?_) (.inr ?_)
  · have := (placeRegs_bounds hp).1
    omega
  · unfold R.EV_FLAG blockBase at *
    omega

/-- What a tile changes of itself when it frees a buffer. -/
def tileScope : Scope where
  parts := .gt :: evParts
  regs a := decide (blockBase 0x20 ≤ a)
  area := fixed noReg
  events _ h := List.mem_cons_of_mem _ h
  apart := tileReg_apart
  shrinks := fixed_shrinks _

/-- An engine retires: the pool, the buffers that it held, and gap records for the histograms that are lost. -/
def retireScope : Scope := gapScope.union (poolScope.union tileScope)

theorem Scope.In.trans {c d e : Scope} (h : c.In d s) (k : d.In e s) : c.In e s :=
  ⟨fun p hp => k.parts p (h.parts p hp), fun a ha => k.regs a (h.regs a ha), fun a ha => k.area a (h.area a ha)⟩

theorem gap_in_retire (s : State) : gapScope.In retireScope s := Scope.in_left ..
theorem pool_in_retire (s : State) : poolScope.In retireScope s := (Scope.in_left ..).trans (Scope.in_right ..)
theorem tile_in_retire (s : State) : tileScope.In retireScope s := (Scope.in_right ..).trans (Scope.in_right ..)

theorem retireScope_area (s : State) (a : Nat) : retireScope.area s a = gapArea s a := by
  simp [retireScope, Scope.union, gapScope, poolScope, tileScope, Scope.of, fixed, noReg]

theorem poolReg_inBlocks {l : List Nat} (hl : 0xA ∈ l) {a : Nat} (h : poolReg a = true) : inBlocks l a = true := by
  have := poolReg_iff.mp h
  simp only [inBlocks, Bool.or_eq_true, List.any_eq_true, decide_eq_true_eq]
  exact .inl ⟨_, hl, this⟩

theorem retireScope_covers {l : List Nat} (hl : 0xA ∈ l) (hg : gapRegs.all (tilesAnd l) = true) (a : Nat) (h : retireScope.regs a = true) :
    tilesAnd l a = true := by
  simp only [retireScope, Scope.union, Bool.or_eq_true] at h
  rcases h with h | h | h
  · exact only_covers hg a h
  · simp [tilesAnd, poolReg_inBlocks hl h]
  · have h : decide (blockBase 0x20 ≤ a) = true := h
    simp [tilesAnd, of_decide_eq_true h]

theorem tilesAnd_ev (l : List Nat) (a : Nat) (h : evReg a = true) : tilesAnd l a = true := by simp [tilesAnd, inBlocks_ev l a h]

/-! ### The histograms of an engine -/

theorem bufClear_keeps (s : State) (n f : Nat) : Keeps tileScope s (bufClear s n f) := by
  have hb : tileScope.regs (R.GT_BUF (n / 16) (n % 16)) = true := decide_eq_true (by unfold R.GT_BUF; omega)
  have hg (f : GtChan → GtChan) : Keeps tileScope s (modGt s n f) := (Keeps.refl _ s).quiet (frame_gt (frame_refl ..) (by decide) _) rfl rfl
  exact (hg _).fset hb _ _

theorem releaseBuf_keeps (s : State) (k : Ticket) : Keeps tileScope s (releaseBuf s k) := by
  unfold releaseBuf
  split
  · exact bufClear_keeps ..
  · exact Keeps.refl ..

theorem loseHeld_keeps (s : State) (e : Nat) : Keeps retireScope s (loseHeld s e) := by
  unfold loseHeld
  refine (((Keeps.refl _ s).modEng e _).mono (pool_in_retire s)).trans ((Keeps.refl _ _).foldl fun t r _ => ?_)
  have hr : Keeps retireScope t (if r.fetched then t else releaseBuf t r.tk) := by
    split
    · exact Keeps.refl ..
    · exact (releaseBuf_keeps t r.tk).mono (tile_in_retire t)
  exact hr.trans ((gapAdd_keeps _ (by decide) ..).mono (gap_in_retire _))

/-! ### Retirement -/

theorem rd_flagRaise_ne (s : State) {a b n : Nat} (f : Fld) (hn : n < 640) (h : b ≠ a) (he : evReg b = false) :
    rd (flagRaise s a f n) b = rd s b := by
  rw [flagRaise, (raise_frame _ hn).2 b he, rd_fon, rd_fset_ne _ _ _ h]

theorem flag_flagRaise_same (s : State) {a n : Nat} (f : Fld) (hn : n < 640) (hf : f.lo = f.hi) (hh : f.hi < 32) (he : evReg a = false) :
    flag (flagRaise s a f n) a f = true := by
  rw [flagRaise, flag_of_rd ((raise_frame _ hn).2 a he), flag_fon_same _ _ _ hf hh]

theorem Selects.retired (h : Selects s t) {e : Nat} (hr : engState s e = engRetired) : engState t e = engRetired := by
  rcases h.state e with h | ⟨h, -⟩
  · exact h.trans hr
  · rw [hr] at h
    exact absurd h (by decide)

theorem Selects.rd_enpStat (h : Selects s t) : rd t R.ENP_STAT = rd s R.ENP_STAT :=
  h.regs _ (by decide) (fun e => by unfold R.ENP_STAT R.ENG_STAT; omega) fun c _ => by unfold R.ENP_STAT R.CL_STAT; omega

/-- What the pool shows of engine e's retirement (R135, R145). -/
def retireShown (s : State) (e cause : Nat) : State :=
  let c := e / 16
  let s := setEng (fset s (R.ENG_STAT e) F.ENG_STAT_CAUSE cause) e engRetired
  let s := fset s (R.ENP_RETIRED (e / 32)) F.ENP_RETIRED_RETIRED
    (setBitN (fget s (R.ENP_RETIRED (e / 32)) F.ENP_RETIRED_RETIRED) (e % 32) true)
  let s := flagRaise s R.ENP_STAT F.ENP_STAT_RETIRE (256 + 4 * c)
  if inService s c ≤ fget s (R.CL_CTRL c) F.CL_CTRL_RET_WARN then
    flagRaise s R.ENP_STAT F.ENP_STAT_RET_WARN (256 + 4 * c + 3) else s

/-- Where engine e was selected for self-test, the next one is (R143). -/
def passedOn (s : State) (e : Nat) : State := if lookup s.pool.sel (e / 16) = some (e % 16) then selectAfter s (e / 16) (e % 16) else s

theorem retire_eq (s : State) (e cause : Nat) : retire s e cause =
    reinitEnd (modEng (passedOn (retireShown (loseHeld s e) e cause) e) e fun x => { x with reinit := false, banks := [] }) (e / 16) := rfl

theorem enpRetired_pool {m : Nat} (hm : m < 8) : poolReg (R.ENP_RETIRED m) = true := poolReg_iff.mpr (by unfold R.ENP_RETIRED; omega)

section
variable {e : Nat} (he : e < 256)
include he

theorem retireShown_keeps (s : State) (cause : Nat) : Keeps poolScope s (retireShown s e cause) := by
  unfold retireShown
  extract_lets c u v w
  have hw : Keeps poolScope s w := ((setEng_keeps ((Keeps.refl _ s).fset (engStat_pool he) _ _) he _).fset
    (enpRetired_pool (by omega)) _ _).flagRaise (by decide) _ (by omega)
  clear_value w
  split
  · exact hw.flagRaise (by decide) _ (by omega)
  · exact hw

theorem passedOn_selects (s : State) : Selects s (passedOn s e) := by
  unfold passedOn
  split
  · exact selectAfter_selects s (by omega) _
  · exact Selects.refl s

theorem retire_keeps (s : State) (cause : Nat) : Keeps retireScope s (retire s e cause) := by
  rw [retire_eq]
  have h := (retireShown_keeps he (loseHeld s e) cause).trans (passedOn_selects he _).keeps
  exact (loseHeld_keeps s e).trans (((h.modEng e _).trans (reinitEnd_selects _ (by omega)).keeps).mono (pool_in_retire _))

theorem rd_retireShown (s : State) (cause : Nat) : rd (retireShown s e cause) (R.ENG_STAT e) =
    rd (setEng (fset s (R.ENG_STAT e) F.ENG_STAT_CAUSE cause) e engRetired) (R.ENG_STAT e) := by
  have hs : R.ENG_STAT e ≠ R.ENP_STAT := by unfold R.ENG_STAT R.ENP_STAT; omega
  have hr : R.ENG_STAT e ≠ R.ENP_RETIRED (e / 32) := by unfold R.ENG_STAT R.ENP_RETIRED; omega
  unfold retireShown
  extract_lets c u v w
  have hw : rd w (R.ENG_STAT e) = rd u (R.ENG_STAT e) :=
    (rd_flagRaise_ne v _ (by omega) hs (engStat_quiet e)).trans (rd_fset_ne u _ _ hr)
  clear_value w
  split
  · rw [rd_flagRaise_ne w _ (by omega) hs (engStat_quiet e), hw]
  · exact hw

theorem retireShown_flag (s : State) (cause : Nat) : flag (retireShown s e cause) R.ENP_STAT F.ENP_STAT_RETIRE = true := by
  unfold retireShown
  extract_lets c u v w
  have hw : flag w R.ENP_STAT F.ENP_STAT_RETIRE = true := flag_flagRaise_same v _ (by omega) rfl (by decide) (by decide)
  clear_value w
  split
  · rw [flagRaise, flag_of_rd ((raise_frame _ (by omega)).2 _ (by decide)), flag, fget_fon_ne _ _ _ _ (by decide) (by decide) (by decide) (by decide)]
    exact hw
  · exact hw

/-- What shows of a retired engine, whatever is selected for self-test in its place. -/
theorem retire_shows (s : State) {cause : Nat} (hc : cause < 8) : engState (retire s e cause) e = engRetired ∧
    fget (retire s e cause) (R.ENG_STAT e) F.ENG_STAT_CAUSE = cause ∧ flag (retire s e cause) R.ENP_STAT F.ENP_STAT_RETIRE = true := by
  have hstate : engState (retireShown (loseHeld s e) e cause) e = engRetired := by
    rw [engState, fget_of_rd (rd_retireShown he ..)]
    exact engState_setEng_same _ he _
  have hcause : fget (retireShown (loseHeld s e) e cause) (R.ENG_STAT e) F.ENG_STAT_CAUSE = cause := by
    rw [fget_of_rd (rd_retireShown he ..), fget_setEng_below _ he _ (by decide) (by decide), fget_fset_same _ _ _ _ (by decide) (by decide)]
    exact Nat.mod_eq_of_lt hc
  have hflag := retireShown_flag he (loseHeld s e) cause
  rw [retire_eq]
  generalize retireShown (loseHeld s e) e cause = u at *
  have h1 := passedOn_selects he u
  generalize passedOn u e = v at *
  have h2 := reinitEnd_selects (modEng v e fun x => { x with reinit := false, banks := [] }) (c := e / 16) (by omega)
  exact ⟨h2.retired (h1.retired hstate), (h2.below e _ (by decide) (by decide)).trans ((h1.below e _ (by decide) (by decide)).trans hcause),
    (flag_of_rd h2.rd_enpStat _).trans ((flag_of_rd h1.rd_enpStat _).trans hflag)⟩

end

end Sys2Proof.Machine
end

section
/-! An engine's local memory: its errors (R325, R326), and what a self-test leaves there (R136, R144). -/

namespace Sys2Proof.Machine

variable {s t u : State}

/-! ### Errors of the memories -/

/-- The errors of the memories alone. -/
def errScope : Scope := .of [] memErrRegs (fixed noReg) (by decide) (fixed_shrinks _)

theorem errScope_region {r : Nat} (h : r < 4) {a : Nat} (ha : a ∈ [R.MEM_RSTAT r, R.MEM_RCNT r, R.MEM_RADDR r]) : errScope.regs a = true :=
  only_mem.mpr (List.mem_append_right _ (List.mem_flatMap.mpr ⟨r, List.mem_range.mpr h, ha⟩))

/-- A poisoned word that is read changes nothing but the registers that record it. -/
theorem ueRecord_errs (s : State) (a : Nat) : Keeps errScope s (ueRecord s a) := by
  unfold ueRecord
  split
  · next r hr =>
    have h4 := memRegion_lt hr
    exact ((((Keeps.refl _ s).fon (errScope_region h4 (by simp)) _).finc (errScope_region h4 (by simp)) _).fset
      (errScope_region h4 (by simp)) _ _).raise (by omega)
  · exact ((((Keeps.refl _ s).wr rfl _).wr rfl _).finc rfl _).flagRaise rfl _ (by decide)

theorem imgRead_errs (s : State) (a n : Nat) : Keeps errScope s (imgRead s a n) := by
  unfold imgRead
  split
  · exact ueRecord_errs ..
  · exact Keeps.refl ..

/-! ### Content that is left open -/

/-- Bytes of memory take open values. -/
def openScope (p : Nat → Bool) : Scope := .of [.free, .mem, .poison] [] (fixed p) (by decide) (fixed_shrinks _)

theorem openScope_free (p : Nat → Bool) : Part.free ∈ (openScope p).parts := List.mem_append_left _ (by decide)

theorem frame_free {ps : List Part} {own : Nat → Bool} (h : frame ps own s t) (hp : Part.free ∈ ps) (x : Nat) :
    frame ps own s { t with free := x } :=
  frame_trans h ⟨fun p hn => by cases p <;> first | exact absurd hp hn | rfl | exact ⟨rfl, rfl⟩, fun b _ => rfl⟩

theorem regionOf_engine {a : Nat} (h1 : 0x0300000000 ≤ a) (h2 : a < 0x0301000000) : regionOf s a = .engine := by
  unfold regionOf
  rw [if_neg (by omega), if_neg (by omega), if_neg (by omega), if_neg (by omega), if_pos ⟨h1, h2⟩]

/-- A store inside the engine memories takes place. -/
theorem blockWrite_engine {a : Nat} {l : List Byte} (h1 : 0x0300000000 ≤ a) (h2 : a + l.length ≤ 0x0301000000) :
    blockWrite s a l = mputBytes (unpoison s a l.length) a l := by
  have hf : firstHole s a l.length = none := by
    refine List.find?_eq_none.mpr fun x hx => ?_
    obtain ⟨i, hi, rfl⟩ := List.mem_map.mp hx
    have hi := List.mem_range.mp hi
    rw [regionOf_engine (by omega) (by omega)]
    decide
  have hs : regionOf s a ≠ .sdram := regionOf_below (by omega)
  unfold blockWrite drcUse
  rw [hf]
  dsimp only
  rw [if_neg (fun h => hs h.1), if_pos (.inr (.inl hs))]

theorem openFill_keeps (s : State) {a n : Nat} (h1 : 0x0300000000 ≤ a) (h2 : a + 8 * n ≤ 0x0301000000) :
    Keeps (openScope (within a (8 * n))) s (openFill s a n) := by
  unfold openFill
  have hl : ((List.range n).flatMap fun i => leBytes 8 (Config.freeWord (s.free + i)).toNat).length = 8 * n := by
    simp [List.length_flatMap, leBytes_length, Nat.mul_comm]
  rw [blockWrite_engine h1 (by rw [hl]; exact h2)]
  have hk : Keeps (openScope (within a (8 * n))) s { s with free := s.free + n } :=
    (Keeps.refl _ s).quiet (frame_free (frame_refl ..) (openScope_free _) _) rfl rfl
  exact (hk.poison rfl _).mputBytes rfl a _ fun b hb => by rwa [hl] at hb

theorem openVal_keeps (p : Nat → Bool) (s : State) : Keeps (openScope p) s (openVal s).2 :=
  (Keeps.refl _ s).quiet (frame_openVal (frame_refl ..) (openScope_free p)) rfl rfl

/-! ### An engine at work -/

/-- What an engine at work changes beside the pool: errors are recorded, and bytes take open values. -/
def workScope (p : Nat → Bool) : Scope := errScope.union (openScope p)

theorem err_in_work (p : Nat → Bool) (s : State) : errScope.In (workScope p) s := Scope.in_left ..
theorem open_in_work (p : Nat → Bool) (s : State) : (openScope p).In (workScope p) s := Scope.in_right ..

theorem workScope_regs {p : Nat → Bool} {a : Nat} (h : (workScope p).regs a = true) : a ∈ memErrRegs := by
  rcases Bool.or_eq_true_iff.mp h with h | h
  · exact only_mem.mp h
  · exact absurd ((only_mem (l := []) (a := a)).mp h) List.not_mem_nil

theorem memErrRegs_outside : ∀ a ∈ memErrRegs, poolReg a = false := by decide

theorem Keeps.poolRegs {p : Nat → Bool} (h : Keeps (workScope p) s t) {a : Nat} (ha : poolReg a = true) : rd t a = rd s a := by
  refine h.regs a ?_ (poolReg_quiet ha)
  by_contra hr
  rw [memErrRegs_outside a (workScope_regs (by simpa using hr))] at ha
  exact absurd ha Bool.false_ne_true

theorem Keeps.workPool {p : Nat → Bool} (h : Keeps (workScope p) s t) : t.pool = s.pool :=
  h.parts .pool (show Part.pool ∉ ([] ++ evParts) ++ ([.free, .mem, .poison] ++ evParts) by decide)

theorem Keeps.workTime {p : Nat → Bool} (h : Keeps (workScope p) s t) : t.tb = s.tb ∧ t.stepped = s.stepped :=
  h.parts .tb (show Part.tb ∉ ([] ++ evParts) ++ ([.free, .mem, .poison] ++ evParts) by decide)

/-- Beside the engine's own count, its corrected errors are those of its memory (R325). -/
theorem engineCe_errs (s : State) (e n : Nat) : Keeps errScope (fadd s (R.ENG_STAT e) F.ENG_STAT_ECC_CE n) (engineCe s e n) := by
  unfold engineCe
  dsimp only
  split
  · exact Keeps.refl ..
  · exact (((Keeps.refl _ _).fon rfl _).fadd rfl _ _).raise (by decide)

end Sys2Proof.Machine
end

section
/-! O12: the self-test of an engine (R135, R143, R144). -/

namespace Sys2Proof.Machine

variable {s t u : State}

/-! ### SELF_TEST_START -/

theorem exec_selfTestStart (e : Fin 256) (s : State) : exec (.selfTestStart e) s = .next (done (
    if engState s e = engDrain ∧ (eng s e).run = none then setEng (modEng s e fun x => { x with testAt := now s }) e engTest else s)) := rfl

theorem selfTestStart_enters (e : Fin 256) (s : State) : ∃ t, exec (.selfTestStart e) s = .next t ∧
    (engState s e = engDrain → (eng s e).run = none → engState t e = engTest ∧ (eng t e).testAt = now s) ∧
    (engState s e ≠ engDrain → frame [] noReg s t) ∧ frame [.pool] (only [R.ENG_STAT e, R.CL_STAT (e / 16)]) s t := by
  refine ⟨_, exec_selfTestStart e s, fun hd hr => ?_, fun hd => ?_, frame_done ?_⟩
  · rw [if_pos ⟨hd, hr⟩, engState_done, eng_done, eng_setEng, eng_modEng_same]
    exact ⟨engState_setEng_same _ e.isLt _, rfl⟩
  · rw [if_neg fun h => hd h.1]
    exact frame_done (frame_refl ..)
  · split
    · exact frame_fset (frame_fset (frame_pool (frame_refl ..) (by decide) _) (only_mem.mpr (by simp)) _ _) (only_mem.mpr (by simp)) _ _
    · exact frame_refl ..

/-! ### What the end of a test changes -/

/-- An engine passes its test and works on. -/
def passScope (p : Nat → Bool) : Scope := (workScope p).union poolScope

/-- An engine fails its test and retires. -/
def failScope (p : Nat → Bool) : Scope := (workScope p).union retireScope

theorem workScope_area (p : Nat → Bool) (s : State) (a : Nat) : (workScope p).area s a = p a := by
  simp [workScope, Scope.union, errScope, openScope, Scope.of, fixed, noReg]

theorem passScope_area (p : Nat → Bool) (s : State) (a : Nat) : (passScope p).area s a = p a := by
  show ((workScope p).area s a || false) = _
  rw [workScope_area, Bool.or_false]

theorem failScope_area (p : Nat → Bool) (s : State) (a : Nat) : (failScope p).area s a = (gapArea s a || p a) := by
  show ((workScope p).area s a || retireScope.area s a) = _
  rw [workScope_area, retireScope_area, Bool.or_comm]

theorem passScope_covers (p : Nat → Bool) (a : Nat) (h : (passScope p).regs a = true) : inBlocks [0xA, 0xF] a = true := by
  rcases Bool.or_eq_true_iff.mp h with h | h
  · exact only_covers (l := memErrRegs) (by decide) a (only_mem.mpr (workScope_regs h))
  · exact poolReg_inBlocks (by decide) h

theorem failScope_covers (p : Nat → Bool) (a : Nat) (h : (failScope p).regs a = true) : tilesAnd [0, 8, 0xA, 0xB, 0xF] a = true := by
  rcases Bool.or_eq_true_iff.mp h with h | h
  · exact only_covers (l := memErrRegs) (by decide) a (only_mem.mpr (workScope_regs h))
  · exact retireScope_covers (by decide) (by decide) a h

theorem workScope_parts (p : Nat → Bool) : (workScope p).parts = ([] ++ evParts) ++ ([.free, .mem, .poison] ++ evParts) := rfl

theorem Keeps.passFrame {p : Nat → Bool} (h : Keeps (passScope p) s t) :
    Machine.frame (.pool :: .free :: .mem :: .poison :: evParts) (inBlocks [0xA, 0xF]) s t :=
  h.frame_le (by rw [show (passScope p).parts = _ ++ _ from rfl, workScope_parts]; decide) (passScope_covers p) (inBlocks_ev _)

theorem Keeps.failFrame {p : Nat → Bool} (h : Keeps (failScope p) s t) :
    Machine.frame (.pool :: .gt :: .free :: gapParts ++ evParts) (tilesAnd [0, 8, 0xA, 0xB, 0xF]) s t :=
  h.frame_le (by rw [show (failScope p).parts = _ ++ _ from rfl, workScope_parts]; decide) (failScope_covers p) (tilesAnd_ev _)

theorem Keeps.passMem {p : Nat → Bool} (h : Keeps (passScope p) s t) : memKept s t p := fun a ha => h.mem a (by rw [passScope_area]; exact ha)

theorem Keeps.failMem {p : Nat → Bool} (h : Keeps (failScope p) s t) : memKept s t (fun a => gapArea s a || p a) := fun a ha =>
  h.mem a (by rw [failScope_area]; exact ha)

/-! ### SELF_TEST_DONE -/

/-- The golden vectors of an engine's sets that read poisoned (R144, R326). -/
def goldenErrors (s : State) (e : Nat) : List Nat :=
  (s.pool.src.filter fun p => (eng s e).banks.contains p.1).filterMap fun p =>
    firstPoison s (p.2 + mrd s (p.2 + 0x14) 4) (mrd s (p.2 + 0x18) 4)

/-- The test of engine e has run: the errors that it met are recorded, and its memory above 0xC000 holds open values. -/
def testRun (s : State) (e ce : Nat) : State :=
  openFill ((goldenErrors s e).foldl ueRecord (engineCe s e ce)) (engAddr e + 0xC000) 2048

/-- Engine e has passed its test. -/
def testPassed (s : State) (e : Nat) : State :=
  let s := finc (fset s (R.ENG_STAT e) F.ENG_STAT_LAST_PASS 0) (R.CL_CNT_D (e / 16)) F.CL_CNT_D_ST_PASS
  let s := modEng s e fun x => { x with passAt := some (upTime s), reinit := false }
  testLeft (setEng s e (if lacksSet s e then engLoad else engIdle)) e

theorem engineCe_pool (s : State) (e n : Nat) : (engineCe s e n).pool = s.pool := (engineCe_errs s e n).parts .pool (by decide)
theorem engineCe_poison (s : State) (e n : Nat) : (engineCe s e n).poison = s.poison := (engineCe_errs s e n).parts .poison (by decide)

theorem exec_selfTestDone_clean {e : Fin 256} {pass : Bool} {ce : BitVec 16} (ht : engState s e = engTest)
    (hp : firstPoison s (engAddr e) 0x10000 = none) : exec (.selfTestDone e pass ce false) s = .next (done (
      let u := testRun s e ce.toNat
      if pass && decide (now u ≤ (eng u e).testAt + stSlot u) && (goldenErrors s e).isEmpty then testPassed u e
      else retire (finc u (R.CL_CNT_D (e / 16)) F.CL_CNT_D_ST_FAIL) e 1)) := by
  have hc : firstPoison (engineCe s e ce.toNat) (engAddr e) 0x10000 = none := by unfold firstPoison; rw [engineCe_poison]; exact hp
  have hg : ((engineCe s e ce.toNat).pool.src.filter fun p => (eng (engineCe s e ce.toNat) e).banks.contains p.1) =
      s.pool.src.filter fun p => (eng s e).banks.contains p.1 := by rw [engineCe_pool, eng_of_pool (engineCe_pool ..)]
  show Host.Outcome.next (done _) = _
  rw [if_neg (not_not_intro ht), if_neg Bool.false_ne_true, hc]
  dsimp only
  rw [hg]
  rfl

theorem exec_selfTestDone_ue {e : Fin 256} {pass : Bool} {ce : BitVec 16} {ue : Bool} (ht : engState s e = engTest)
    (h : ue = true ∨ (firstPoison s (engAddr e) 0x10000).isSome = true) : ∃ u a, Keeps (openScope noReg) (engineCe s e ce.toNat) u ∧
      exec (.selfTestDone e pass ce ue) s = .next (done (engineUe u e a)) := by
  cases ue with
  | true =>
    let u := engineCe s e ce.toNat
    refine ⟨_, engAddr e + 8 * ((openVal u).1.toNat % 8192), openVal_keeps noReg u, ?_⟩
    show Host.Outcome.next (done _) = _
    rw [if_neg (not_not_intro ht), if_pos rfl]
    rfl
  | false =>
    obtain ⟨p, hp⟩ := Option.isSome_iff_exists.mp (h.resolve_left Bool.false_ne_true)
    have hc : firstPoison (engineCe s e ce.toNat) (engAddr e) 0x10000 = some p := by unfold firstPoison; rw [engineCe_poison]; exact hp
    refine ⟨_, p, Keeps.refl _ _, ?_⟩
    show Host.Outcome.next (done _) = _
    rw [if_neg (not_not_intro ht), if_neg Bool.false_ne_true, hc]

theorem exec_selfTestDone_idle {e : Fin 256} {pass : Bool} {ce : BitVec 16} {ue : Bool} (ht : engState s e ≠ engTest) :
    exec (.selfTestDone e pass ce ue) s = .next (done s) := by
  show Host.Outcome.next (done _) = _
  rw [if_pos ht]

/-! ### What a test leaves -/

theorem testRun_keeps (s : State) {e : Nat} (he : e < 256) (ce : Nat) :
    Keeps (workScope (within (engAddr e + 0xC000) 0x4000)) (fadd s (R.ENG_STAT e) F.ENG_STAT_ECC_CE ce) (testRun s e ce) := by
  have herr : Keeps errScope (fadd s (R.ENG_STAT e) F.ENG_STAT_ECC_CE ce) ((goldenErrors s e).foldl ueRecord (engineCe s e ce)) :=
    (engineCe_errs s e ce).foldl fun t a _ => ueRecord_errs t a
  have h1 : 0x0300000000 ≤ engAddr e + 0xC000 := by unfold engAddr; omega
  have h2 : engAddr e + 0xC000 + 8 * 2048 ≤ 0x0301000000 := by unfold engAddr; omega
  exact (herr.mono (err_in_work _ _)).next (openFill_keeps _ h1 h2) (open_in_work _ _)

theorem work_in_fail (p : Nat → Bool) (s : State) : (workScope p).In (failScope p) s := Scope.in_left ..
theorem retire_in_fail (p : Nat → Bool) (s : State) : retireScope.In (failScope p) s := Scope.in_right ..
theorem pool_in_fail (p : Nat → Bool) (s : State) : poolScope.In (failScope p) s := (pool_in_retire s).trans (retire_in_fail p s)
theorem err_in_fail (p : Nat → Bool) (s : State) : errScope.In (failScope p) s := (err_in_work p s).trans (work_in_fail p s)

theorem clCntD_pool {c : Nat} (hc : c < 16) : poolReg (R.CL_CNT_D c) = true := poolReg_iff.mpr (by unfold R.CL_CNT_D; omega)

/-- An engine that fails the test retires (R144). -/
theorem testFailed_keeps (s : State) {e : Nat} (he : e < 256) (ce : Nat) : Keeps (failScope (within (engAddr e + 0xC000) 0x4000)) s
    (retire (finc (testRun s e ce) (R.CL_CNT_D (e / 16)) F.CL_CNT_D_ST_FAIL) e 1) :=
  have hce := ((Keeps.refl poolScope s).fadd (engStat_pool he) F.ENG_STAT_ECC_CE ce).mono (pool_in_fail (within (engAddr e + 0xC000) 0x4000) s)
  have hrun := hce.next (testRun_keeps s he ce) (work_in_fail _ _)
  (hrun.next ((Keeps.refl poolScope _).finc (clCntD_pool (by omega)) _) (pool_in_fail _ _)).next (retire_keeps he _ 1) (retire_in_fail _ _)

theorem engineUe_keeps (s : State) {e : Nat} (he : e < 256) (a : Nat) : Keeps (failScope noReg) s (engineUe s e a) :=
  ((ueRecord_errs s a).mono (err_in_fail noReg s)).next (retire_keeps he _ 3) (retire_in_fail _ _)

theorem engineCe_fail (s : State) {e : Nat} (he : e < 256) (n : Nat) : Keeps (failScope noReg) s (engineCe s e n) :=
  (((Keeps.refl poolScope s).fadd (engStat_pool he) _ n).mono (pool_in_fail noReg s)).next (engineCe_errs s e n) (err_in_fail _ _)

theorem selfTestDone_fails (e : Fin 256) (ce : BitVec 16) (s : State) (ht : engState s e = engTest)
    (hp : firstPoison s (engAddr e) 0x10000 = none) :
    ∃ t, exec (.selfTestDone e false ce false) s = .next t ∧ engState t e = engRetired ∧
      fget t (R.ENG_STAT e) F.ENG_STAT_CAUSE = 1 ∧ flag t R.ENP_STAT F.ENP_STAT_RETIRE = true ∧
      memKept s t (fun a => gapArea s a || within (engAddr e + 0xC000) 0x4000 a) ∧
      frame (.pool :: .gt :: .free :: gapParts ++ evParts) (tilesAnd [0, 8, 0xA, 0xB, 0xF]) s t := by
  have hk := (testFailed_keeps s e.isLt ce.toNat).done
  obtain ⟨hr, hc, hf⟩ := retire_shows e.isLt (finc (testRun s e ce.toNat) (R.CL_CNT_D (e / 16)) F.CL_CNT_D_ST_FAIL) (cause := 1) (by decide)
  exact ⟨_, exec_selfTestDone_clean ht hp, (engState_done ..).trans hr, (fget_done ..).trans hc, (flag_done ..).trans hf, hk.failMem, hk.failFrame⟩

theorem selfTestDone_error (e : Fin 256) (pass : Bool) (ce : BitVec 16) (ue : Bool) (s : State) (ht : engState s e = engTest)
    (h : ue = true ∨ (firstPoison s (engAddr e) 0x10000).isSome = true) :
    ∃ t, exec (.selfTestDone e pass ce ue) s = .next t ∧ engState t e = engRetired ∧ fget t (R.ENG_STAT e) F.ENG_STAT_CAUSE = 3 ∧
      memKept s t (gapArea s) ∧ frame (.pool :: .gt :: .free :: gapParts ++ evParts) (tilesAnd [0, 8, 0xA, 0xB, 0xF]) s t := by
  obtain ⟨u, a, hu, hx⟩ := exec_selfTestDone_ue (pass := pass) (ce := ce) ht h
  have hwork := (engineCe_fail s e.isLt ce.toNat).next hu ((open_in_work ..).trans (work_in_fail ..))
  have hk := (hwork.trans (engineUe_keeps u e.isLt a)).done
  obtain ⟨hr, hc, -⟩ := retire_shows e.isLt (ueRecord u a) (cause := 3) (by decide)
  refine ⟨_, hx, (engState_done ..).trans hr, (fget_done ..).trans hc, fun b hb => hk.failMem b ?_, hk.failFrame⟩
  show (gapArea s b || false) = false
  rw [hb, Bool.or_false]

/-! ### A passed test -/

theorem fget_fadd_same (s : State) (a : Nat) (f : Fld) (n : Nat) (h : f.lo ≤ f.hi) (hh : f.hi < 32) :
    fget (fadd s a f n) a f = satN f.width (fget s a f + n) := by
  rw [fadd, fget_fset_same _ _ _ _ h hh]
  exact Nat.mod_eq_of_lt (lt_of_le_of_lt (Nat.min_le_right _ _) (Nat.sub_lt (Nat.two_pow_pos _) Nat.one_pos))

/-- The pass of engine e is noted and counted; it is still in TEST. -/
def passNoted (s : State) (e : Nat) : State :=
  let s := finc (fset s (R.ENG_STAT e) F.ENG_STAT_LAST_PASS 0) (R.CL_CNT_D (e / 16)) F.CL_CNT_D_ST_PASS
  modEng s e fun x => { x with passAt := some (upTime s), reinit := false }

theorem testPassed_eq (s : State) (e : Nat) : testPassed s e =
    testLeft (setEng (passNoted s e) e (if lacksSet (passNoted s e) e then engLoad else engIdle)) e := rfl

theorem rd_passNoted (s : State) (e a : Nat) : rd (passNoted s e) a =
    rd (finc (fset s (R.ENG_STAT e) F.ENG_STAT_LAST_PASS 0) (R.CL_CNT_D (e / 16)) F.CL_CNT_D_ST_PASS) a := by
  unfold passNoted
  exact rd_modEng ..

theorem clCntD_ne_engStat (c : Nat) {e : Nat} (hc : c < 16) : R.CL_CNT_D c ≠ R.ENG_STAT e := by unfold R.CL_CNT_D R.ENG_STAT; omega
theorem clCntD_ne_clStat (c d : Nat) : R.CL_CNT_D c ≠ R.CL_STAT d := by unfold R.CL_CNT_D R.CL_STAT; omega

section
variable {e : Nat} (he : e < 256)
include he

theorem passNoted_keeps (s : State) : Keeps poolScope s (passNoted s e) :=
  (((Keeps.refl _ s).fset (engStat_pool he) _ _).finc (clCntD_pool (by omega)) _).modEng e _

theorem testPassed_keeps (s : State) : Keeps poolScope s (testPassed s e) := by
  rw [testPassed_eq]
  exact (setEng_keeps (passNoted_keeps he s) he _).trans (testLeft_selects _ he).keeps

theorem testPassed_state (s : State) : engState (testPassed s e) e ≠ engTest ∧ engState (testPassed s e) e ≠ engRetired := by
  rw [testPassed_eq]
  generalize hv : setEng _ e _ = v
  have hstate : engState v e = engLoad ∨ engState v e = engIdle := by
    rw [← hv, engState_setEng_same _ he]
    split
    · exact .inl rfl
    · exact .inr rfl
  rcases (testLeft_selects v he).state e with h | ⟨-, h⟩
  · rw [h]
    rcases hstate with h | h <;> rw [h] <;> decide
  · rw [h]
    decide

theorem testPassed_passAt (s : State) : (eng (testPassed s e) e).passAt = some (upTime s) := by
  have hn : eng (testPassed s e) e = eng (passNoted s e) e := by
    rw [testPassed_eq]
    unfold eng
    rw [(testLeft_selects _ he).engines]
    rfl
  rw [hn, passNoted, eng_modEng_same]
  rfl

/-- Of ENG_STAT, a passed test changes beside STATE only LAST_PASS, to 0. -/
theorem testPassed_below (s : State) {f : Fld} (hf : f.lo ≤ f.hi) (hh : f.hi < 29) :
    fget (testPassed s e) (R.ENG_STAT e) f = fget (fset s (R.ENG_STAT e) F.ENG_STAT_LAST_PASS 0) (R.ENG_STAT e) f := by
  rw [testPassed_eq, (testLeft_selects _ he).below e f hf hh, fget_setEng_below _ he _ hf hh, fget_of_rd (rd_passNoted ..)]
  exact fget_of_rd (rd_finc_ne _ _ (clCntD_ne_engStat _ (by omega)).symm) f

theorem testPassed_count (s : State) : fget (testPassed s e) (R.CL_CNT_D (e / 16)) F.CL_CNT_D_ST_PASS =
    satN F.CL_CNT_D_ST_PASS.width (fget s (R.CL_CNT_D (e / 16)) F.CL_CNT_D_ST_PASS + 1) := by
  have hc : e / 16 < 16 := by omega
  rw [testPassed_eq, fget_of_rd ((testLeft_selects _ he).regs _ (poolReg_quiet (clCntD_pool hc)) (fun _ => clCntD_ne_engStat _ hc)
    fun _ _ => clCntD_ne_clStat _ _), fget_of_rd (rd_setEng_ne _ _ (clCntD_ne_engStat _ hc) (clCntD_ne_clStat _ _)),
    fget_of_rd (rd_passNoted ..), finc, fget_fadd_same _ _ _ _ (by decide) (by decide), fget_fset_reg _ _ _ _ (clCntD_ne_engStat _ hc)]

/-- What the test itself leaves of the engine: its time, its limit and its registers but ECC_CE (R143, R144). -/
theorem testRun_same (s : State) (ce : Nat) : now (testRun s e ce) = now s ∧ upTime (testRun s e ce) = upTime s ∧
    eng (testRun s e ce) e = eng s e ∧ stSlot (testRun s e ce) = stSlot s ∧
    (∀ a, poolReg a = true → a ≠ R.ENG_STAT e → rd (testRun s e ce) a = rd s a) := by
  have hk := testRun_keeps s he ce
  obtain ⟨htb, hstep⟩ := hk.workTime
  have hr : ∀ a, poolReg a = true → a ≠ R.ENG_STAT e → rd (testRun s e ce) a = rd s a := fun a ha hn =>
    (hk.poolRegs ha).trans (rd_fset_ne _ _ _ hn)
  have hnow : now (testRun s e ce) = now s := congrArg BitVec.toNat htb
  refine ⟨hnow, ?_, eng_of_pool hk.workPool e, ?_, hr⟩
  · unfold upTime
    rw [hnow, hstep]
    rfl
  · unfold stSlot
    rw [fget_of_rd (hr R.ENP_ST (by decide) (by unfold R.ENP_ST R.ENG_STAT; omega))]

theorem testRun_eccCe (s : State) (ce : Nat) : fget (testRun s e ce) (R.ENG_STAT e) F.ENG_STAT_ECC_CE =
    satN F.ENG_STAT_ECC_CE.width (fget s (R.ENG_STAT e) F.ENG_STAT_ECC_CE + ce) :=
  (fget_of_rd ((testRun_keeps s he ce).poolRegs (engStat_pool he)) _).trans (fget_fadd_same _ _ _ _ (by decide) (by decide))

theorem testPassed_pass (s : State) (ce : Nat) :
    Keeps (passScope (within (engAddr e + 0xC000) 0x4000)) s (testPassed (testRun s e ce) e) := by
  have hp (u : State) : poolScope.In (passScope (within (engAddr e + 0xC000) 0x4000)) u := Scope.in_right ..
  exact ((((Keeps.refl poolScope s).fadd (engStat_pool he) _ ce).mono (hp s)).next (testRun_keeps s he ce) (Scope.in_left ..)).next
    (testPassed_keeps he _) (hp _)

end

theorem firstPoison_nil (h : s.poison = []) (a n : Nat) : firstPoison s a n = none := by unfold firstPoison; rw [h]; rfl

theorem goldenErrors_nil (h : s.poison = []) (e : Nat) : goldenErrors s e = [] :=
  List.filterMap_eq_nil_iff.mpr fun _ _ => firstPoison_nil h ..

theorem selfTestDone_passes (e : Fin 256) (ce : BitVec 16) (s : State) (ht : engState s e = engTest)
    (hn : now s ≤ (eng s e).testAt + stSlot s) (hp : s.poison = []) :
    ∃ t, exec (.selfTestDone e true ce false) s = .next t ∧ engState t e ≠ engTest ∧ engState t e ≠ engRetired ∧
      (eng t e).passAt = some (upTime s) ∧ fget t (R.ENG_STAT e) F.ENG_STAT_LAST_PASS = 0 ∧
      fget t (R.CL_CNT_D (e / 16)) F.CL_CNT_D_ST_PASS =
        satN F.CL_CNT_D_ST_PASS.width (fget s (R.CL_CNT_D (e / 16)) F.CL_CNT_D_ST_PASS + 1) ∧
      fget t (R.ENG_STAT e) F.ENG_STAT_ECC_CE = satN F.ENG_STAT_ECC_CE.width (fget s (R.ENG_STAT e) F.ENG_STAT_ECC_CE + ce.toNat) ∧
      memKept s t (within (engAddr e + 0xC000) 0x4000) ∧ frame (.pool :: .free :: .mem :: .poison :: evParts) (inBlocks [0xA, 0xF]) s t := by
  have he := e.isLt
  have hc : (e : Nat) / 16 < 16 := by omega
  have hx := exec_selfTestDone_clean (pass := true) (ce := ce) ht (firstPoison_nil hp ..)
  obtain ⟨hnow, hup, heng, hslot, hregs⟩ := testRun_same he s ce.toNat
  have hecc := testRun_eccCe he s ce.toNat
  have hk := (testPassed_pass he s ce.toNat).done
  dsimp only at hx
  generalize testRun s e ce.toNat = u at *
  rw [goldenErrors_nil hp, hnow, heng, hslot, decide_eq_true hn, Bool.true_and, Bool.true_and, List.isEmpty_nil, if_pos rfl] at hx
  obtain ⟨hnt, hnr⟩ := testPassed_state he u
  refine ⟨_, hx, ?_, ?_, ?_, ?_, ?_, ?_, hk.passMem, hk.passFrame⟩
  · rwa [engState_done]
  · rwa [engState_done]
  · rw [eng_done, testPassed_passAt he, hup]
  · rw [fget_done, testPassed_below he u (by decide) (by decide), fget_fset_same _ _ _ _ (by decide) (by decide)]
    rfl
  · rw [fget_done, testPassed_count he, fget_of_rd (hregs _ (clCntD_pool hc) (clCntD_ne_engStat _ hc))]
  · rw [fget_done, testPassed_below he u (by decide) (by decide), fget_fset_ne _ _ _ _ _ (by decide) (by decide) (by decide) (by decide), hecc]

/-! ### SELF_TEST_TIMEOUT -/

theorem exec_selfTestTimeout {e : Fin 256} (ht : engState s e = engTest) (hl : (eng s e).testAt + stSlot s ≤ now s) :
    exec (.selfTestTimeout e) s = .next (done (retire (finc s (R.CL_CNT_D (e / 16)) F.CL_CNT_D_ST_FAIL) e 1)) := by
  show Host.Outcome.next (done _) = _
  rw [if_pos ⟨ht, hl⟩]

theorem Keeps.retireFrame (h : Keeps retireScope s t) :
    Machine.frame (.pool :: .gt :: gapParts ++ evParts) (tilesAnd [0, 8, 0xA, 0xB]) s t :=
  h.frame_le (by decide) (retireScope_covers (by decide) (by decide)) (tilesAnd_ev _)

theorem Keeps.retireMem (h : Keeps retireScope s t) : memKept s t (gapArea s) := fun a ha => h.mem a (by rw [retireScope_area]; exact ha)

theorem selfTestTimeout_retires (e : Fin 256) (s : State) (ht : engState s e = engTest) (hl : (eng s e).testAt + stSlot s ≤ now s) :
    ∃ t, exec (.selfTestTimeout e) s = .next t ∧ engState t e = engRetired ∧ fget t (R.ENG_STAT e) F.ENG_STAT_CAUSE = 1 ∧
      memKept s t (gapArea s) ∧ frame (.pool :: .gt :: gapParts ++ evParts) (tilesAnd [0, 8, 0xA, 0xB]) s t := by
  have hcount : Keeps poolScope s (finc s (R.CL_CNT_D (e / 16)) F.CL_CNT_D_ST_FAIL) := (Keeps.refl _ s).finc (clCntD_pool (by omega)) _
  have hk := ((hcount.mono (pool_in_retire s)).trans (retire_keeps e.isLt _ 1)).done
  obtain ⟨hr, hc, -⟩ := retire_shows e.isLt (finc s (R.CL_CNT_D (e / 16)) F.CL_CNT_D_ST_FAIL) (cause := 1) (by decide)
  exact ⟨_, exec_selfTestTimeout ht hl, (engState_done ..).trans hr, (fget_done ..).trans hc, hk.retireMem, hk.retireFrame⟩

end Sys2Proof.Machine
end

section
/-! O12: the hitless kernel swap (R147). -/

namespace Sys2Proof.Machine

variable {s t u : State}

/-! ### The registers of a swap -/

theorem swapState_of_rd (h : rd t R.ENP_KSWAP = rd s R.ENP_KSWAP) : swapState t = swapState s := fget_of_rd h _
theorem activeBank_of_rd (h : rd t R.ENP_KSWAP = rd s R.ENP_KSWAP) : activeBank t = activeBank s := fget_of_rd h _

theorem swapState_setSwap (s : State) (v : Nat) : swapState (setSwap s v) = v % 8 := fget_fset_same _ _ _ _ (by decide) (by decide)

theorem activeBank_setSwap (s : State) (v : Nat) : activeBank (setSwap s v) = activeBank s :=
  fget_fset_ne _ _ _ _ _ (by decide) (by decide) (by decide) (by decide)

theorem swapState_kinfo (s : State) (f : Fld) (v : Nat) : swapState (fset s R.ENP_KINFO f v) = swapState s :=
  swapState_of_rd (rd_fset_ne _ _ _ (by decide))

theorem activeBank_kinfo (s : State) (f : Fld) (v : Nat) : activeBank (fset s R.ENP_KINFO f v) = activeBank s :=
  activeBank_of_rd (rd_fset_ne _ _ _ (by decide))

/-- ERR beside a new STATE. -/
def swapErr (s : State) (st err : Nat) : State := fset (setSwap s st) R.ENP_KSWAP F.ENP_KSWAP_ERR err

theorem swapErr_shows (s : State) {st err : Nat} (hs : st < 8) (he : err < 4) : swapState (swapErr s st err) = st ∧
    activeBank (swapErr s st err) = activeBank s ∧ fget (swapErr s st err) R.ENP_KSWAP F.ENP_KSWAP_ERR = err := by
  refine ⟨?_, ?_, ?_⟩
  · exact (fget_fset_ne _ _ _ _ _ (by decide) (by decide) (by decide) (by decide)).trans
      ((swapState_setSwap s st).trans (Nat.mod_eq_of_lt hs))
  · exact (fget_fset_ne _ _ _ _ _ (by decide) (by decide) (by decide) (by decide)).trans (activeBank_setSwap s st)
  · exact (fget_fset_same _ _ _ _ (by decide) (by decide)).trans (Nat.mod_eq_of_lt he)

/-- The set of one bank is forgotten. -/
def setForgotten (s : State) (b : Nat) : State := { s with pool := { s.pool with src := eraseKey s.pool.src b } }

theorem setForgotten_src (s : State) (b : Nat) : lookup (setForgotten s b).pool.src b = none := lookup_eraseKey_same ..

@[simp] theorem rd_setForgotten (s : State) (b a : Nat) : rd (setForgotten s b) a = rd s a := rfl

/-! ### A swap that fails -/

/-- A swap fails or starts. -/
def swapScope : Scope := .of [.pool] [R.ENP_KSWAP, R.ENP_STAT] (fixed noReg) (by decide) (fixed_shrinks _)

/-- The clusters' events are raised. -/
def swapRaised (s : State) : State := (List.range 16).foldl (fun s c => raise s (256 + 4 * c + 3)) s

theorem swapFail_eq (s : State) (err : Nat) : swapFail s err =
    swapRaised (fon (setForgotten (swapErr s 0 err) (1 - activeBank (swapErr s 0 err))) R.ENP_STAT F.ENP_STAT_KSWAP_ERR) := rfl

theorem swapRaised_keeps (s : State) : Keeps swapScope s (swapRaised s) :=
  (Keeps.refl _ s).foldl fun t c hc => (Keeps.refl _ t).raise (by have := List.mem_range.mp hc; omega)

theorem rd_swapRaised (s : State) {a : Nat} (h : evReg a = false) : rd (swapRaised s) a = rd s a :=
  List.foldlRecOn (motive := fun t => rd t a = rd s a) _ _ rfl fun t ht c hc =>
    ((raise_frame t (by have := List.mem_range.mp hc; omega)).2 a h).trans ht

theorem swapErr_keeps (s : State) (st err : Nat) : Keeps swapScope s (swapErr s st err) := ((Keeps.refl _ s).fset rfl _ _).fset rfl _ _

theorem swapFail_keeps (s : State) (err : Nat) : Keeps swapScope s (swapFail s err) := by
  rw [swapFail_eq]
  exact (((swapErr_keeps s 0 err).pool rfl _).fon rfl _).trans (swapRaised_keeps _)

theorem rd_swapFail (s : State) (err : Nat) : rd (swapFail s err) R.ENP_KSWAP = rd (swapErr s 0 err) R.ENP_KSWAP := by
  rw [swapFail_eq, rd_swapRaised _ (by decide), rd_fon, rd_fset_ne _ _ _ (by decide), rd_setForgotten]

theorem swapFail_shows (s : State) {err : Nat} (he : err < 4) : swapState (swapFail s err) = 0 ∧
    activeBank (swapFail s err) = activeBank s ∧ fget (swapFail s err) R.ENP_KSWAP F.ENP_KSWAP_ERR = err ∧
    flag (swapFail s err) R.ENP_STAT F.ENP_STAT_KSWAP_ERR = true := by
  obtain ⟨hs, hb, hv⟩ := swapErr_shows s (st := 0) (by decide) he
  refine ⟨(swapState_of_rd (rd_swapFail s err)).trans hs, (activeBank_of_rd (rd_swapFail s err)).trans hb,
    (fget_of_rd (rd_swapFail s err) _).trans hv, ?_⟩
  rw [swapFail_eq, flag_of_rd (rd_swapRaised _ (by decide))]
  exact flag_fon_same _ _ _ rfl (by decide)

/-! ### KSWAP_REQ -/

/-- Loading of the set at address a starts, into the bank that is not active. -/
def swapStarted (s : State) (a : Nat) : State :=
  let s := swapErr s 1 0
  { s with pool := { s.pool with
    src := insertKey (eraseKey s.pool.src (1 - activeBank s)) (1 - activeBank s) a, swapAt := now s,
    engines := s.pool.engines.map (fun p => (p.1, { p.2 with banks := p.2.banks.filter (· ≠ 1 - activeBank s) })) } }

theorem exec_kswapReq (s : State) : exec .kswapReq s = .next (done (
    let a := (rd s R.ENP_KSRC_LO).toNat + fget s R.ENP_KSRC_HI F.ENP_KSRC_HI_ADDR * 2 ^ 32
    if swapState s ≠ 0 then s else if !imgHdrOk s a then swapFail (imgRead s a 0x40) 1 else swapStarted s a)) := rfl

theorem swapStarted_shows (s : State) (a : Nat) : swapState (swapStarted s a) = 1 ∧ activeBank (swapStarted s a) = activeBank s ∧
    lookup (swapStarted s a).pool.src (1 - activeBank s) = some a ∧ (swapStarted s a).pool.swapAt = now s := by
  obtain ⟨hs, hb, -⟩ := swapErr_shows s (st := 1) (err := 0) (by decide) (by decide)
  refine ⟨hs, hb, ?_, rfl⟩
  show lookup (insertKey (eraseKey s.pool.src (1 - activeBank (swapErr s 1 0))) (1 - activeBank (swapErr s 1 0)) a) _ = _
  rw [hb]
  exact lookup_insertKey_same _ _ _ (lookup_eraseKey_same ..)

theorem swapStarted_keeps (s : State) (a : Nat) : Keeps swapScope s (swapStarted s a) := (swapErr_keeps s 1 0).pool rfl _

theorem imgRead_clean {a n : Nat} (h : firstPoison s a n = none) : imgRead s a n = s := by unfold imgRead; rw [h]

/-- What a request changes, where its header reads poisoned or not. -/
theorem swapReq_keeps (s : State) (a : Nat) : Keeps (errScope.union swapScope) s (if swapState s ≠ 0 then s
    else if !imgHdrOk s a then swapFail (imgRead s a 0x40) 1 else swapStarted s a) := by
  split
  · exact Keeps.refl ..
  · split
    · exact ((imgRead_errs s a 0x40).mono (Scope.in_left ..)).next (swapFail_keeps _ 1) (Scope.in_right ..)
    · exact (swapStarted_keeps s a).mono (Scope.in_right ..)

theorem swapReq_clean {a : Nat} (h : firstPoison s a 0x40 = none) : Keeps swapScope s (if swapState s ≠ 0 then s
    else if !imgHdrOk s a then swapFail (imgRead s a 0x40) 1 else swapStarted s a) := by
  rw [imgRead_clean h]
  split
  · exact Keeps.refl ..
  · split
    · exact swapFail_keeps s 1
    · exact swapStarted_keeps s a

theorem kswapReq_starts (a : Nat) (s : State) (ha : a = (rd s R.ENP_KSRC_LO).toNat + fget s R.ENP_KSRC_HI F.ENP_KSRC_HI_ADDR * 2 ^ 32) :
    ∃ t, exec .kswapReq s = .next t ∧
      (swapState s ≠ 0 → frame [] noReg s t) ∧
      (swapState s = 0 → imgHdrOk s a = true → swapState t = 1 ∧ lookup t.pool.src (1 - activeBank s) = some a ∧
        t.pool.swapAt = now s ∧ activeBank t = activeBank s) ∧
      (swapState s = 0 → imgHdrOk s a = false → swapState t = 0 ∧ fget t R.ENP_KSWAP F.ENP_KSWAP_ERR = 1 ∧
        flag t R.ENP_STAT F.ENP_STAT_KSWAP_ERR = true) ∧
      (firstPoison s a 0x40 = none → frame (.pool :: evParts) (onlyEv [R.ENP_KSWAP, R.ENP_STAT]) s t) ∧
      frame (.pool :: evParts) (fun x => inBlocks [0xF] x || decide (x ∈ [R.ENP_KSWAP, R.ENP_STAT])) s t := by
  refine ⟨_, exec_kswapReq s, ?_⟩
  dsimp only
  rw [← ha]
  refine ⟨fun h => ?_, fun h hh => ?_, fun h hh => ?_, fun hp => ?_, ?_⟩
  · rw [if_pos h]
    exact frame_done (frame_refl ..)
  · obtain ⟨hs, hb, hl, hn⟩ := swapStarted_shows s a
    rw [if_neg (not_not_intro h), hh, if_neg (by decide), done_pool]
    exact ⟨(swapState_of_rd (rd_done ..)).trans hs, hl, hn, (activeBank_of_rd (rd_done ..)).trans hb⟩
  · obtain ⟨hs, -, he, hf⟩ := swapFail_shows (imgRead s a 0x40) (err := 1) (by decide)
    rw [if_neg (not_not_intro h), hh, if_pos (by decide), fget_done, flag_done]
    exact ⟨(swapState_of_rd (rd_done ..)).trans hs, he, hf⟩
  · exact (swapReq_clean hp).done.frame_le (by decide) (only_covers (by decide)) (onlyEv_ev _)
  · refine (swapReq_keeps s a).done.frame_le (by decide) (fun x hx => ?_) fun x hx => by rw [inBlocks_ev _ x hx, Bool.true_or]
    rcases Bool.or_eq_true_iff.mp hx with hx | hx
    · rw [only_covers (own := inBlocks [0xF]) (l := memErrRegs) (by decide) x hx, Bool.true_or]
    · exact Bool.or_eq_true_iff.mpr (.inr hx)

/-! ### The other commands of a swap -/

/-- A swap ends without a new set, and the bank that is not active is free. -/
def swapEnded (s : State) : State :=
  let s := fset (setSwap s 0) R.ENP_KINFO F.ENP_KINFO_SET_NEW 0
  setForgotten s (1 - activeBank s)

theorem swapEnded_shows (s : State) : swapState (swapEnded s) = 0 ∧ activeBank (swapEnded s) = activeBank s ∧
    fget (swapEnded s) R.ENP_KINFO F.ENP_KINFO_SET_NEW = 0 ∧ lookup (swapEnded s).pool.src (1 - activeBank s) = none := by
  have hb : activeBank (fset (setSwap s 0) R.ENP_KINFO F.ENP_KINFO_SET_NEW 0) = activeBank s :=
    (activeBank_kinfo ..).trans (activeBank_setSwap s 0)
  unfold swapEnded
  refine ⟨(swapState_kinfo ..).trans (swapState_setSwap s 0), hb, ?_, ?_⟩
  · rw [fget_of_rd (rd_setForgotten ..), fget_fset_same _ _ _ _ (by decide) (by decide)]
    rfl
  · rw [← hb]
    exact setForgotten_src ..

theorem swapEnded_frame (s : State) : frame [.pool] (only [R.ENP_KSWAP, R.ENP_KINFO]) s (swapEnded s) :=
  frame_pool (frame_fset (frame_fset (frame_refl ..) (by decide) _ _) (by decide) _ _) (by decide) _

theorem exec_kswapCancel (s : State) : exec .kswapCancel s = .next (done (if swapping s then swapEnded s else s)) := rfl

theorem kswapCancel_ends (s : State) : ∃ t, exec .kswapCancel s = .next t ∧ (swapping s = false → frame [] noReg s t) ∧
    (swapping s = true → swapState t = 0 ∧ fget t R.ENP_KINFO F.ENP_KINFO_SET_NEW = 0 ∧ activeBank t = activeBank s) ∧
    frame [.pool] (only [R.ENP_KSWAP, R.ENP_KINFO]) s t := by
  refine ⟨_, exec_kswapCancel s, fun h => ?_, fun h => ?_, frame_done ?_⟩
  · rw [h]
    exact frame_done (frame_refl ..)
  · obtain ⟨hs, hb, hn, -⟩ := swapEnded_shows s
    rw [if_pos h, fget_done]
    exact ⟨(swapState_of_rd (rd_done ..)).trans hs, hn, (activeBank_of_rd (rd_done ..)).trans hb⟩
  · split
    · exact swapEnded_frame s
    · exact frame_refl ..

theorem kswapOldFreed_frees (s : State) (hs : swapState s = 3)
    (hk : ∀ k ∈ poolTickets s, (k.frame + 2 ^ 16 - fget s R.ENP_KSWAP F.ENP_KSWAP_SWAP_FRAME) % 2 ^ 16 < 2 ^ 15) :
    ∃ t, exec .kswapOldFreed s = .next t ∧ swapState t = 0 ∧ activeBank t = activeBank s ∧
      lookup t.pool.src (1 - activeBank s) = none ∧ frame [.pool] (only [R.ENP_KSWAP, R.ENP_KINFO]) s t := by
  have hx : exec .kswapOldFreed s = .next (done (swapEnded s)) := by
    show Host.Outcome.next (done (if _ then swapEnded s else s)) = _
    rw [if_pos (by simpa [hs] using hk)]
  obtain ⟨h0, hb, -, hl⟩ := swapEnded_shows s
  refine ⟨_, hx, (swapState_of_rd (rd_done ..)).trans h0, (activeBank_of_rd (rd_done ..)).trans hb, ?_, frame_done (swapEnded_frame s)⟩
  rw [done_pool]
  exact hl

theorem mrd_two_lt (s : State) (a : Nat) : mrd s a 2 < 2 ^ 16 := by
  simp only [mrd, mbytes, ofLeBytes]
  omega

theorem kswapLoaded_reports (a : Nat) (s : State) (hs : swapState s = 1) (hn : now s < s.pool.swapAt + ticksUs 200)
    (ha : lookup s.pool.src (1 - activeBank s) = some a)
    (he : ∀ e, e < 256 → 1 - activeBank s ∈ (eng s e).banks ∨ (engState s e ≠ engIdle ∧ engState s e ≠ engBusy)) :
    ∃ t, exec .kswapLoaded s = .next t ∧ swapState t = 2 ∧ fget t R.ENP_KINFO F.ENP_KINFO_SET_NEW = mrd s a 2 ∧
      frame [] (only [R.ENP_KSWAP, R.ENP_KINFO]) s t := by
  have hall : ((List.range 256).all fun e => (eng s e).banks.contains (1 - activeBank s) ||
      !(decide (engState s e = engIdle) || decide (engState s e = engBusy))) = true := by
    rw [List.all_eq_true]
    intro e h
    rcases he e (List.mem_range.mp h) with h | ⟨h1, h2⟩
    · simp [h]
    · simp [h1, h2]
  have hx : exec .kswapLoaded s = .next (done (fset (setSwap s 2) R.ENP_KINFO F.ENP_KINFO_SET_NEW (mrd s a 2))) := by
    show Host.Outcome.next (done _) = _
    rw [hall, if_pos (by simp [hs, hn]), ha]
    rfl
  refine ⟨_, hx, ?_, ?_, frame_done (frame_fset (frame_fset (frame_refl ..) (by decide) _ _) (by decide) _ _)⟩
  · exact (swapState_of_rd (rd_done ..)).trans ((swapState_kinfo ..).trans (swapState_setSwap s 2))
  · rw [fget_done, fget_fset_same _ _ _ _ (by decide) (by decide)]
    exact Nat.mod_eq_of_lt (mrd_two_lt s a)

theorem kswapTimeout_fails (s : State) (hs : swapState s = 1) (hn : s.pool.swapAt + ticksUs 200 ≤ now s) :
    ∃ t, exec .kswapTimeout s = .next t ∧ swapState t = 0 ∧
      fget t R.ENP_KSWAP F.ENP_KSWAP_ERR = 2 ∧ flag t R.ENP_STAT F.ENP_STAT_KSWAP_ERR = true ∧ activeBank t = activeBank s ∧
      frame (.pool :: evParts) (onlyEv [R.ENP_KSWAP, R.ENP_STAT, R.ENP_KINFO]) s t := by
  have hx : exec .kswapTimeout s = .next (done (fset (swapFail s 2) R.ENP_KINFO F.ENP_KINFO_SET_NEW 0)) := by
    show Host.Outcome.next (done _) = _
    rw [if_pos ⟨hs, hn⟩]
  obtain ⟨h0, hb, he, hf⟩ := swapFail_shows s (err := 2) (by decide)
  have hr (a : Nat) (ha : a ≠ R.ENP_KINFO) : rd (done (fset (swapFail s 2) R.ENP_KINFO F.ENP_KINFO_SET_NEW 0)) a = rd (swapFail s 2) a :=
    (rd_done ..).trans (rd_fset_ne _ _ _ ha)
  refine ⟨_, hx, (swapState_of_rd (hr _ (by decide))).trans h0, (fget_of_rd (hr _ (by decide)) _).trans he,
    (flag_of_rd (hr _ (by decide)) _).trans hf, (activeBank_of_rd (hr _ (by decide))).trans hb, frame_done (frame_fset ?_ (by decide) _ _)⟩
  exact (swapFail_keeps s 2).frame_le (by decide) (only_covers (by decide)) (onlyEv_ev _)

/-- Settles O12: each command by its own lemma. -/
theorem selfTestAndSwap : Obligations.SelfTestAndSwap :=
  ⟨selfTestStart_enters, selfTestDone_passes, selfTestDone_fails, selfTestDone_error,
    fun _ _ _ _ s ht => ⟨done s, exec_selfTestDone_idle ht, frame_done (frame_refl ..)⟩, selfTestTimeout_retires, kswapReq_starts,
    kswapCancel_ends, kswapLoaded_reports, kswapTimeout_fails, kswapOldFreed_frees⟩

end Sys2Proof.Machine
end

section
/-! O53: CNT_CLR (R56): counters that fill their registers, counters beside something else, and PEAK of the ticket queues (R149). -/

namespace Sys2Proof.Machine

variable {s t : State}

/-! ### Whole registers -/

/-- The registers of a list read 0. -/
def regsZeroed (l : List Nat) (s : State) : State := l.foldl (fun s a => wr s a 0) s

theorem rd_regsZeroed (l : List Nat) (a : Nat) : ∀ s, rd (regsZeroed l s) a = if a ∈ l then 0#32 else rd s a := by
  induction l with
  | nil => exact fun _ => rfl
  | cons b l ih =>
    intro s
    show rd (regsZeroed l (wr s b 0)) a = _
    rw [ih, rd_wr]
    by_cases hl : a ∈ l <;> by_cases hb : a = b <;> simp [hl, hb]

theorem regsZeroed_time (l : List Nat) (s : State) : (regsZeroed l s).evNow = s.evNow ∧ (regsZeroed l s).tb = s.tb :=
  List.foldlRecOn (motive := fun t : State => t.evNow = s.evNow ∧ t.tb = s.tb) l _ ⟨rfl, rfl⟩ fun _ h _ _ => h

/-! ### Fields of registers -/

/-- Each field of a list takes the value that `v` gives for its register. -/
def fldsSet (v : State → Nat → Nat) (l : List (Nat × Fld)) (s : State) : State := l.foldl (fun s p => fset s p.1 p.2 (v s p.1)) s

/-- The fields lie within words, and two in one register share no bit. -/
def fldsDistinct (l : List (Nat × Fld)) : Prop := ∀ p ∈ l, fldFits p.2 = true ∧ ∀ q ∈ l, q.1 = p.1 → q = p ∨ fldsApart q.2 p.2 = true

/-- Writing a listed field changes no value that a listed register is to take. -/
def valueKept (v : State → Nat → Nat) (l : List (Nat × Fld)) : Prop :=
  ∀ s, ∀ p ∈ l, ∀ q ∈ l, ∀ x, v (fset s q.1 q.2 x) p.1 = v s p.1

variable {v : State → Nat → Nat} {l : List (Nat × Fld)}

theorem fldsDistinct.tail {p : Nat × Fld} (h : fldsDistinct (p :: l)) : fldsDistinct l := fun q hq =>
  have ⟨hf, ha⟩ := h q (List.mem_cons_of_mem _ hq)
  ⟨hf, fun r hr => ha r (List.mem_cons_of_mem _ hr)⟩

theorem valueKept.tail {p : Nat × Fld} (h : valueKept v (p :: l)) : valueKept v l := fun s q hq r hr =>
  h s q (List.mem_cons_of_mem _ hq) r (List.mem_cons_of_mem _ hr)

/-- A field reads the same where its bits do. -/
theorem fget_of_bits {a : Nat} {f : Fld} (hf : f.lo ≤ f.hi)
    (h : ∀ i, f.lo ≤ i → i ≤ f.hi → (rd t a).getLsbD i = (rd s a).getLsbD i) :
    fget t a f = fget s a f := by
  refine Nat.eq_of_testBit_eq fun i => ?_
  unfold fget
  rw [getFld_bit, getFld_bit]
  by_cases hi : i < f.width
  · rw [h (i + f.lo) (by omega) (by unfold Fld.width at hi; omega)]
  · simp [hi]

/-- A bit that lies in none of the fields stays. -/
theorem fldsSet_bit (v : State → Nat → Nat) {a i : Nat} : ∀ {l : List (Nat × Fld)},
    (∀ p ∈ l, p.1 = a → fldFits p.2 = true ∧ (i < p.2.lo ∨ p.2.hi < i)) → ∀ s, (rd (fldsSet v l s) a).getLsbD i = (rd s a).getLsbD i := by
  intro l
  induction l with
  | nil => exact fun _ _ => rfl
  | cons p l ih =>
    intro h s
    show (rd (fldsSet v l (fset s p.1 p.2 (v s p.1))) a).getLsbD i = _
    rw [ih fun q hq => h q (List.mem_cons_of_mem _ hq)]
    by_cases ha : p.1 = a
    · obtain ⟨hf, hi⟩ := h p (List.mem_cons_self ..) ha
      obtain ⟨hl, hh⟩ := (fldFits_iff _).mp hf
      rw [← ha]
      exact fset_bit s p.1 p.2 _ hl hh i hi
    · rw [rd_fset_ne _ _ _ (Ne.symm ha)]

theorem rd_fldsSet_ne (v : State → Nat → Nat) {a : Nat} (h : a ∉ l.map (·.1)) (s : State) : rd (fldsSet v l s) a = rd s a :=
  List.foldlRecOn (motive := fun t => rd t a = rd s a) l _ rfl fun t ht p hp =>
    (rd_fset_ne t _ _ fun ha => h (List.mem_map.mpr ⟨p, hp, ha.symm⟩)).trans ht

/-- Each listed field holds its value afterwards. -/
theorem fget_fldsSet (hd : fldsDistinct l) (hk : valueKept v l) {p : Nat × Fld} (hp : p ∈ l) :
    ∀ s, v s p.1 < 2 ^ p.2.width → fget (fldsSet v l s) p.1 p.2 = v s p.1 := by
  induction l with
  | nil => exact absurd hp List.not_mem_nil
  | cons q l ih =>
    intro s hv
    have hq : q ∈ q :: l := List.mem_cons_self ..
    show fget (fldsSet v l (fset s q.1 q.2 (v s q.1))) p.1 p.2 = _
    by_cases hl : p ∈ l
    · have hs := hk s p hp q hq (v s q.1)
      rw [ih hd.tail hk.tail hl _ (hs ▸ hv), hs]
    · obtain rfl : p = q := (List.mem_cons.mp hp).resolve_right hl
      obtain ⟨hf, ha⟩ := hd p hp
      obtain ⟨hlo, hhi⟩ := (fldFits_iff _).mp hf
      have hrest : fget (fldsSet v l (fset s p.1 p.2 (v s p.1))) p.1 p.2 = fget (fset s p.1 p.2 (v s p.1)) p.1 p.2 := by
        refine fget_of_bits hlo fun i h1 h2 => fldsSet_bit v (fun r hr hra => ⟨(hd.tail r hr).1, ?_⟩) _
        have hapart := (ha r (List.mem_cons_of_mem _ hr) hra).resolve_left (fun e => hl (e ▸ hr))
        have := (fldsApart_iff _ _).mp hapart
        omega
      rw [hrest, fget_fset_same _ _ _ _ hlo hhi, Nat.mod_eq_of_lt hv]

theorem fldsDistinct_of_same {f : Fld} (hf : fldFits f = true) (h : ∀ p ∈ l, p.2 = f) : fldsDistinct l := fun p hp =>
  ⟨h p hp ▸ hf, fun q hq he => .inl (Prod.ext he ((h q hq).trans (h p hp).symm))⟩

/-! ### The counters of a block -/

/-- PEAK of every ticket queue. -/
def peakFlds : List (Nat × Fld) := (List.range 16).map fun c => (R.CL_Q c, F.CL_Q_PEAK)

theorem cntClr_eq (s : State) (b : CntBlock) : cntClr s b =
    let t := fldsSet cntLeft (cntFlds b) (regsZeroed (cntRegs b) s)
    if b = .enp then fldsSet (fun s a => fget s a F.CL_Q_OCC) peakFlds t else t := by
  simp only [peakFlds, fldsSet, List.foldl_map]
  rfl

theorem cntLeft_of_time (he : t.evNow = s.evNow) (hb : t.tb = s.tb) (a : Nat) : cntLeft t a = cntLeft s a := by
  unfold cntLeft setInCycle
  rw [he, hb]

theorem cntLeft_le (s : State) (a : Nat) : cntLeft s a ≤ 1 := by
  unfold cntLeft b2n
  split
  · split <;> decide
  · decide

theorem cntLeft_kept (l : List (Nat × Fld)) : valueKept cntLeft l := fun _ _ _ _ _ _ => cntLeft_of_time rfl rfl _

theorem snd_of_mem_flatMap {n : Nat} {g : Nat → Nat} {f : Fld} {p : Nat × Fld} (h : p ∈ (List.range n).flatMap fun i => [(g i, f)]) :
    p.2 = f := by
  obtain ⟨i, -, hi⟩ := List.mem_flatMap.mp h
  rw [List.mem_singleton.mp hi]

theorem cntFlds_distinct (b : CntBlock) : fldsDistinct (cntFlds b) := by
  cases b
  case enp => exact fldsDistinct_of_same (f := F.ENG_STAT_ECC_CE) rfl fun _ => snd_of_mem_flatMap
  case ctl => unfold fldsDistinct; decide
  case emg => exact fldsDistinct_of_same (f := F.SEC_STAT_STALL_STOPS) rfl fun _ => snd_of_mem_flatMap
  case lane p => exact fldsDistinct_of_same (f := F.LN_PRBS_ERRORS) rfl (by revert p; decide)
  case evt => exact fldsDistinct_of_same (f := F.EV_ROUTE_COUNT) rfl fun _ => snd_of_mem_flatMap
  case event n => exact fldsDistinct_of_same (f := F.EV_ROUTE_COUNT) rfl fun p hp => by rw [List.mem_singleton.mp hp]
  case sys => unfold fldsDistinct; decide
  all_goals exact fun p hp => absurd hp List.not_mem_nil

theorem mem_enpFlds {a : Nat} (h : a ∈ (cntFlds .enp).map (·.1)) : ∃ e < 256, a = R.ENG_STAT e := by
  obtain ⟨p, hp, rfl⟩ := List.mem_map.mp h
  obtain ⟨e, he, hp⟩ := List.mem_flatMap.mp hp
  exact ⟨e, List.mem_range.mp he, by rw [List.mem_singleton.mp hp]⟩

theorem mem_enpRegs {a : Nat} (h : a ∈ cntRegs .enp) : ∃ c < 16, a ∈ [R.CL_CNT_A c, R.CL_CNT_B c, R.CL_CNT_C c, R.CL_CNT_D c, R.CL_LAT c] := by
  obtain ⟨c, hc, ha⟩ := List.mem_flatMap.mp h
  exact ⟨c, List.mem_range.mp hc, ha⟩

theorem enpRegs_apart (a : Nat) (h : a ∈ cntRegs .enp) : a ∉ (cntFlds .enp).map (·.1) := by
  intro hf
  obtain ⟨c, hc, ha⟩ := mem_enpRegs h
  obtain ⟨e, he, rfl⟩ := mem_enpFlds hf
  simp only [R.CL_CNT_A, R.CL_CNT_B, R.CL_CNT_C, R.CL_CNT_D, R.CL_LAT, R.ENG_STAT, List.mem_cons, List.not_mem_nil, or_false] at ha
  omega

/-- No counter that fills its register lies in a register of the others. -/
theorem cntRegs_apart (b : CntBlock) : ∀ a ∈ cntRegs b, a ∉ (cntFlds b).map (·.1) := by
  cases b
  case enp => exact enpRegs_apart
  case ctl => decide
  case emg => decide
  case lane p => revert p; decide
  case evt => exact fun _ h => absurd h List.not_mem_nil
  case event => exact fun _ h => absurd h List.not_mem_nil
  case sys => exact fun _ h => absurd h List.not_mem_nil
  all_goals
    intro a _ h
    obtain ⟨p, hp, -⟩ := List.mem_map.mp h
    exact absurd hp List.not_mem_nil

/-! ### The ticket queues -/

theorem peakFlds_distinct : fldsDistinct peakFlds := by
  refine fldsDistinct_of_same (f := F.CL_Q_PEAK) rfl fun p hp => ?_
  obtain ⟨c, -, rfl⟩ := List.mem_map.mp hp
  rfl

theorem peakFlds_kept : valueKept (fun s a => fget s a F.CL_Q_OCC) peakFlds := by
  intro s p hp q hq x
  obtain ⟨c, -, rfl⟩ := List.mem_map.mp hq
  by_cases h : p.1 = R.CL_Q c
  · simp only [h]
    exact fget_fset_ne _ _ _ _ _ (by decide) (by decide) (by decide) (by decide)
  · exact fget_fset_reg _ _ _ _ h

theorem peakFlds_regs : peakFlds.map (·.1) = (List.range 16).map R.CL_Q := by rw [peakFlds, List.map_map]; rfl

theorem clQ_apart {c : Nat} (hc : c < 16) : R.CL_Q c ∉ cntRegs .enp ∧ R.CL_Q c ∉ (cntFlds .enp).map (·.1) := by
  constructor
  · intro h
    obtain ⟨d, hd, ha⟩ := mem_enpRegs h
    simp only [R.CL_CNT_A, R.CL_CNT_B, R.CL_CNT_C, R.CL_CNT_D, R.CL_LAT, R.CL_Q, List.mem_cons, List.not_mem_nil, or_false] at ha
    omega
  · intro h
    obtain ⟨e, he, ha⟩ := mem_enpFlds h
    unfold R.CL_Q R.ENG_STAT at ha
    omega

theorem peakFlds_apart {a : Nat} (h : a ∈ cntRegs .enp ∨ a ∈ (cntFlds .enp).map (·.1)) : a ∉ peakFlds.map (·.1) := by
  rw [peakFlds_regs]
  intro hq
  obtain ⟨c, hc, rfl⟩ := List.mem_map.mp hq
  obtain ⟨hr, hf⟩ := clQ_apart (List.mem_range.mp hc)
  exact h.elim hr hf

/-! ### The command -/

/-- The counters of a block but PEAK are cleared. -/
def countsCleared (s : State) (b : CntBlock) : State := fldsSet cntLeft (cntFlds b) (regsZeroed (cntRegs b) s)

/-- Beside PEAK of the ticket queues, CNT_CLR clears a block's counters and no more. -/
theorem rd_cntClr (s : State) {b : CntBlock} {a : Nat} (h : b = .enp → a ∉ peakFlds.map (·.1)) :
    rd (cntClr s b) a = rd (countsCleared s b) a := by
  rw [cntClr_eq]
  dsimp only
  split
  · next hb => exact rd_fldsSet_ne _ (h hb) _
  · rfl

theorem cntClr_reg (s : State) {b : CntBlock} {a : Nat} (ha : a ∈ cntRegs b) : rd (cntClr s b) a = 0#32 := by
  rw [rd_cntClr s fun hb => peakFlds_apart (.inl (hb ▸ ha)), countsCleared, rd_fldsSet_ne _ (cntRegs_apart b a ha), rd_regsZeroed, if_pos ha]

theorem one_lt_two_pow_width (f : Fld) : 1 < 2 ^ f.width := Nat.one_lt_two_pow (Nat.succ_ne_zero _)

theorem cntClr_fld (s : State) {b : CntBlock} {p : Nat × Fld} (hp : p ∈ cntFlds b) : fget (cntClr s b) p.1 p.2 = cntLeft s p.1 := by
  obtain ⟨he, ht⟩ := regsZeroed_time (cntRegs b) s
  rw [fget_of_rd (rd_cntClr s fun hb => peakFlds_apart (.inr (hb ▸ List.mem_map_of_mem hp))), countsCleared,
    fget_fldsSet (cntFlds_distinct b) (cntLeft_kept _) hp _ (lt_of_le_of_lt (cntLeft_le ..) (one_lt_two_pow_width _)), cntLeft_of_time he ht]

theorem cntClr_peak (s : State) (c : Fin 16) : fget (cntClr s .enp) (R.CL_Q c) F.CL_Q_PEAK = fget s (R.CL_Q c) F.CL_Q_OCC := by
  obtain ⟨hr, hf⟩ := clQ_apart c.isLt
  have hp : (R.CL_Q c, F.CL_Q_PEAK) ∈ peakFlds := List.mem_map.mpr ⟨c, List.mem_range.mpr c.isLt, rfl⟩
  rw [cntClr_eq]
  dsimp only
  rw [if_pos rfl, fget_fldsSet peakFlds_distinct peakFlds_kept hp _ (fget_lt _ _ F.CL_Q_OCC)]
  exact fget_of_rd ((rd_fldsSet_ne _ hf _).trans ((rd_regsZeroed _ _ s).trans (if_neg hr))) _

theorem cntClr_bits (s : State) {b : CntBlock} {a : Nat} (ha : a ∉ cntRegs b) : bitsKept s (cntClr s b) a
    ((cntFlds b).filterMap (fun p => if p.1 = a then some p.2 else none) ++ if b = .enp then [F.CL_Q_PEAK] else []) := by
  intro i _ hout
  have hflds : ∀ p ∈ cntFlds b, p.1 = a → fldFits p.2 = true ∧ (i < p.2.lo ∨ p.2.hi < i) := fun p hp he =>
    ⟨(cntFlds_distinct b p hp).1, hout _ (List.mem_append_left _ (List.mem_filterMap.mpr ⟨p, hp, if_pos he⟩))⟩
  have hcleared : (rd (countsCleared s b) a).getLsbD i = (rd s a).getLsbD i := by
    rw [countsCleared, fldsSet_bit cntLeft hflds, rd_regsZeroed, if_neg ha]
  rw [← hcleared, cntClr_eq]
  dsimp only
  split
  · next hb =>
    refine fldsSet_bit _ (fun p hp _ => ⟨(peakFlds_distinct p hp).1, ?_⟩) _
    obtain ⟨c, -, rfl⟩ := List.mem_map.mp hp
    exact hout _ (List.mem_append_right _ (by rw [if_pos hb]; exact List.mem_singleton_self _))
  · rfl

theorem fldsSet_frame {own : Nat → Bool} (v : State → Nat → Nat) (hl : ∀ a ∈ l.map (·.1), own a = true) (h : frame [] own s t) :
    frame [] own s (fldsSet v l t) :=
  frame_foldl _ l (fun _ _ hp hu => frame_fset hu (hl _ (List.mem_map_of_mem hp)) _ _) t h

theorem cntClr_frame (s : State) (b : CntBlock) :
    frame [] (only (cntRegs b ++ (cntFlds b).map (·.1) ++ if b = .enp then (List.range 16).map R.CL_Q else [])) s (cntClr s b) := by
  have hcleared : frame [] (only (cntRegs b ++ (cntFlds b).map (·.1) ++ if b = .enp then (List.range 16).map R.CL_Q else [])) s
      (countsCleared s b) :=
    fldsSet_frame _ (fun a ha => only_mem.mpr (List.mem_append_left _ (List.mem_append_right _ ha)))
      (frame_foldl _ _ (fun _ a ha hu => frame_wr hu (only_mem.mpr (List.mem_append_left _ (List.mem_append_left _ ha))) 0) s (frame_refl ..))
  rw [cntClr_eq]
  dsimp only
  split
  · next hb =>
    rw [if_pos hb] at hcleared
    exact fldsSet_frame _ (fun a ha => only_mem.mpr (List.mem_append_right _ (peakFlds_regs ▸ ha))) hcleared
  · next hb =>
    rw [if_neg hb] at hcleared
    exact hcleared

/-- Settles O53: whole registers are written 0, the other counters field by field, and no two of them share a bit. -/
theorem countersCleared : Obligations.CountersCleared := by
  intro b s
  refine ⟨done (cntClr s b), rfl, fun a ha => ?_, fun p hp => ?_, fun hb c => ?_, fun a ha i hi hout => ?_, frame_done (cntClr_frame s b)⟩
  · rw [rd_done, cntClr_reg s ha]
  · rw [fget_done, cntClr_fld s hp]
  · rw [fget_done, hb, cntClr_peak]
  · rw [rd_done, cntClr_bits s ha i hi hout]

end Sys2Proof.Machine
end

section
/-! An item of a slice in its silt queue, and the close of the slice's unit (R353 to R355). -/

namespace Sys2Proof.Machine

variable {s t : State}

theorem Keeps.modQueue (h : Keeps siltScope s t) (q : Nat) (f : SlqQueue → SlqQueue) : Keeps siltScope s (modQueue t q f) := h.slq _

theorem slqItem_keeps (s : State) {q : Nat} (hq : q < 256) (row frame : Nat) (bs : List Byte) (reserve : Bool) :
    Keeps siltScope s (slqItem s q row frame bs reserve).1 := by
  obtain ⟨-, hstat, hcnt⟩ := siltRegs_queue hq
  unfold slqItem
  split
  · exact Keeps.refl ..
  dsimp only
  split
  · split
    · exact (Keeps.refl _ s).fon rfl _
    · exact ((((Keeps.refl _ s).fon hstat _).finc hcnt _).foff hstat _).raise (by omega)
  · next u ht =>
    exact ((((slqTake_keeps _ _ ht).modQueue q _).trans (slqFlush_keeps ..)).fon hstat _).trans (slqShow_keeps _ hq)

theorem slqClose_keeps (s : State) (q row frame : Nat) (hdr : List Byte) : Keeps siltScope s (slqClose s q row frame hdr) := by
  unfold slqClose
  split
  · exact Keeps.refl ..
  · exact ((((Keeps.refl _ s).modQueue q _).trans (slqFlush_keeps ..)).trans (slqFlush_keeps ..)).trans (headFill_keeps ..)

/-! ### The unit of a closed slice -/

theorem slqQueue_of_slq (h : t.slq = s.slq) (q : Nat) : slqQueue t q = slqQueue s q := by unfold slqQueue; rw [h]

@[simp] theorem slqQueue_modQueue_same (s : State) (q : Nat) (f : SlqQueue → SlqQueue) : slqQueue (modQueue s q f) q = f (slqQueue s q) :=
  tget_tput_same ..

theorem headFill_units (s : State) (q : Nat) : (slqQueue (headFill s q) q).units = (slqQueue s q).units := by
  unfold headFill
  rw [slqQueue_modQueue_same]

theorem clayStore_slq (s : State) (a : Nat) (l : List Byte) : (clayStore s a l).slq = s.slq :=
  (clayStore_keeps s a l).parts .slq (show Part.slq ∉ [.mem, .poison] ++ evParts by decide)

theorem blockWrite_slq (s : State) (a : Nat) (l : List Byte) : (blockWrite s a l).slq = s.slq :=
  (blockWrite_keeps s a l).parts .slq (show Part.slq ∉ [.mem, .poison, .dram] ++ evParts by decide)

theorem segStore_slq (s : State) (g : Bool × Nat) (o : Nat) (bs : List Byte) : (segStore s g o bs).slq = s.slq := by
  unfold segStore
  split
  · split
    · exact blockWrite_slq ..
    · rfl
  · split
    · exact clayStore_slq ..
    · rfl

/-- Lines that pass to the segments leave the queues as they were. -/
theorem slqFlush_slq (s : State) (u : SlqUnit) (a b : Nat) : (slqFlush s u a b).slq = s.slq := by
  unfold slqFlush
  refine List.foldlRecOn (motive := fun t : State => t.slq = s.slq) _ _ rfl fun t ht i _ => ?_
  split
  · exact (segStore_slq ..).trans ht
  · exact ht

/-- Every unit of the slice is closed in the queue where the slice closes (R355). -/
theorem slqClose_closed (s : State) (q row frame : Nat) (hdr : List Byte) :
    ∀ u ∈ (slqQueue (slqClose s q row frame hdr) q).units, u.key = some (row, frame) → u.closed = true := by
  unfold slqClose
  split
  · next hn =>
    intro u hu hk
    simpa [hk] using List.find?_eq_none.mp hn u hu
  · next v _ =>
    dsimp only
    rw [headFill_units, slqQueue_of_slq ((slqFlush_slq ..).trans (slqFlush_slq ..)), slqQueue_modQueue_same]
    intro u hu hk
    obtain ⟨w, -, rfl⟩ := List.mem_map.mp hu
    split at hk
    · next hw => rw [if_pos hw]
    · next hw =>
      rw [if_neg hw]
      simpa [hk] using hw

end Sys2Proof.Machine
end

section
/-! What a point leaves in the tilth table (R193 to R198), and the angles that it is formed with (R173, R174, R326). -/

namespace Sys2Proof.Machine

variable {c : Scope} {s t : State}

/-! ### Bytes of the table -/

theorem lookup_filter_out {α : Type} {q : Nat × α → Bool} {a : Nat} (h : ∀ v, q (a, v) = true) (l : List (Nat × α)) :
    lookup (l.filter q) a = lookup l a := by
  induction l with
  | nil => rfl
  | cons p l ih =>
    obtain ⟨k, v⟩ := p
    by_cases hk : k = a
    · subst hk; simp [h, lookup]
    · cases hq : q (k, v) <;> simp [hq, lookup, hk, ih]

theorem mget_mzero_out (s : State) {a n b : Nat} (h : within a n b = false) : mget (mzero s a n) b = mget s b := by
  have hout : ∀ v : Byte, (fun c : Host.Cell => !(decide (a ≤ c.1) && decide (c.1 < a + n))) (b, v) = true := by
    intro v
    have := within_false h
    simp only [Bool.not_eq_true', Bool.and_eq_false_iff, decide_eq_false_iff_not]
    omega
  unfold mget mzero tget
  dsimp only
  rw [lookup_filter_out hout]

theorem Keeps.mzero (h : Keeps c s t) (hp : c.parts.contains .mem = true) (a n : Nat) (ha : ∀ b, within a n b = true → c.area t b = true) :
    Keeps c s (mzero t a n) :=
  h.memory hp _ fun b hb => mget_mzero_out t (by
    by_contra hw
    simp [ha b (by simpa using hw)] at hb)

/-- The registers of the table, and those of errors of the memories and of the map. -/
def tableRegs : List Nat := [R.TT_STAT, R.TT_OCC, R.TT_CNT_A, R.TT_CNT_B, R.TT_CNT_C] ++ decodeRegs ++ memErrRegs

/-- A point's work on the table: bytes of an area, its registers and its errors (R25, R197). -/
def tableScope (p : Nat → Bool) : Scope := .of [.mem, .poison] tableRegs (fixed p) (by decide) (fixed_shrinks _)

/-- The bytes of the table. -/
def ttArea (s : State) : Nat → Bool := within (ttBase s) (2 ^ ttSize s * 32)

variable {p : Nat → Bool}

theorem err_in_table (p : Nat → Bool) (s : State) : errScope.In (tableScope p) s :=
  Scope.of_in rfl (show memErrRegs.all (only tableRegs) = true by decide) fun _ h => absurd h Bool.false_ne_true

theorem ttEcc_keeps (s : State) {a : Nat} (ha : ∀ b, within a 256 b = true → p b = true) : Keeps (tableScope p) s (ttEcc s a) := by
  unfold ttEcc
  split
  · exact (decodeErr_keeps s _ false).mono (decode_in rfl)
  split
  · exact Keeps.refl ..
  · exact ((((((ueRecord_errs s _).mono (err_in_table p s)).poison rfl _).mzero rfl a 256 ha).fset rfl _ _).finc rfl _).flagRaise rfl _ (by decide)

theorem ttWrite_keeps (s : State) {a : Nat} (x : TtWay) (cls : Nat) (ha : ∀ b, within a 32 b = true → p b = true) :
    Keeps (tableScope p) s (ttWrite s a x cls) := by
  unfold ttWrite
  split
  · exact (decodeErr_keeps s _ true).mono (decode_in rfl)
  · exact (Keeps.refl _ s).mputBytes rfl a _ fun b hb => ha b (by simpa [wordsBytes, leBytes_length] using hb)

/-- A bucket lies inside the table (R193). -/
theorem ttBucket_within (s : State) (vx vy vz : Nat) {b : Nat}
    (h : within (ttBase s + ttBucket (ttSize s) vx vy vz * 256) 256 b = true) : ttArea s b = true := by
  have hs : 12 ≤ ttSize s ∧ ttSize s ≤ 17 := by unfold ttSize; omega
  have hb : ttBucket (ttSize s) vx vy vz < 2 ^ (ttSize s - 3) := by
    unfold ttBucket
    dsimp only
    refine (Nat.div_lt_iff_lt_mul (Nat.two_pow_pos _)).mpr ?_
    rw [← Nat.pow_add, show ttSize s - 3 + (35 - ttSize s) = 32 by omega]
    exact BitVec.isLt _
  have he : 2 ^ ttSize s = 8 * 2 ^ (ttSize s - 3) := by
    rw [show (8 : Nat) = 2 ^ 3 by rfl, ← Nat.pow_add]
    congr 1
    omega
  obtain ⟨h1, h2⟩ := within_true h
  exact within_intro (by omega) (by rw [he]; omega)

/-- The ways of a bucket. -/
theorem way_within {a i b : Nat} (hi : i < 8) (h : within (a + 32 * i) 32 b = true) : within a 256 b = true := by
  obtain ⟨h1, h2⟩ := within_true h
  exact within_intro (by omega) (by omega)

/-! ### Looking a point up -/

theorem ttVictim_mem (f : Nat) {ws : List (Nat × TtWay)} (h : ws ≠ []) : ttVictim f ws ∈ ws := by
  obtain ⟨w, ws, rfl⟩ := List.exists_cons_of_ne_nil h
  refine List.foldlRecOn (motive := fun b => b ∈ w :: ws) ws _ (List.mem_cons_self ..) fun b hb x hx => ?_
  split
  · exact List.mem_cons_of_mem _ hx
  · exact hb

/-- A point has been looked up: the table may have changed, and an entry that is to be written stands in it (R195, R196). -/
structure LookedUp (s : State) (r : State × Nat × Option (Nat × TtWay)) : Prop where
  keeps : Keeps (tableScope (ttArea s)) s r.1
  entry : ∀ a w, r.2.2 = some (a, w) → ∀ b, within a 32 b = true → ttArea s b = true

theorem lookedUp_reads (h : Keeps (tableScope (ttArea s)) s t) (n : Nat) : LookedUp s (t, n, none) := ⟨h, fun _ _ h => by cases h⟩

theorem lookedUp_writes (h : Keeps (tableScope (ttArea s)) s t) (n : Nat) {a : Nat} (w : TtWay) (ha : ∀ b, within a 32 b = true → ttArea s b = true) :
    LookedUp s (t, n, some (a, w)) := ⟨h, fun _ _ h => by cases h; exact ha⟩

theorem ttUpdate_lookedUp (s : State) (p : EgoPose) (f range az el intensity width : Nat) (angle : Bool) :
    LookedUp s (ttUpdate s p f range az el intensity width angle) := by
  -- The kernel, asked whether two matches agree, computes with the bucket's contents and runs out of stack. So the function stands under a
  -- name, and its continuation, then its state and ways, are quantified again behind `id`, where no comparison looks into them.
  suffices h : ∀ F, F = ttUpdate → LookedUp s (F s p f range az el intensity width angle) from h _ rfl
  intro F hF
  delta ttUpdate at hF
  subst hF
  beta_reduce
  generalize worldOf p range az el = o
  generalize hK : (fun (x y z : Int) => _) = K
  revert K
  refine id fun K hK => ?_
  obtain ⟨x, y, z⟩ := o
  show LookedUp s (K x y z)
  subst hK
  beta_reduce
  extract_lets +onlyGivenNames vx vy vz a u ws age fresh
  have hu : Keeps (tableScope (ttArea s)) s u := ((Keeps.refl _ s).finc rfl _).trans (ttEcc_keeps _ fun b hb => ttBucket_within s vx vy vz hb)
  have hw : ∀ q ∈ ws, ∀ b, within q.1 32 b = true → ttArea s b = true := by
    intro q hq b hb
    obtain ⟨i, hi, rfl⟩ := List.mem_map.mp hq
    exact ttBucket_within s vx vy vz (way_within (List.mem_range.mp hi) hb)
  have hne : ws ≠ [] := by simp [ws]
  clear_value u ws age fresh
  revert u ws
  refine id fun u ws hu hw hne => ?_
  split
  · next b w hf =>
    have hb := hw _ (List.mem_of_find?_eq_some hf)
    dsimp only
    split
    · exact lookedUp_reads hu _
    split
    · exact lookedUp_writes hu _ _ hb
    split
    · exact lookedUp_writes hu _ _ hb
    split
    · exact lookedUp_writes hu _ _ hb
    · exact lookedUp_reads hu _
  split
  · exact lookedUp_reads hu _
  split
  · next b w hf =>
    refine lookedUp_writes ?_ _ _ (hw _ (List.mem_of_find?_eq_some hf))
    split
    · exact hu
    · exact hu.fset rfl _ _
  · have hb := hw _ (ttVictim_mem f hne)
    refine lookedUp_writes ?_ _ _ hb
    have hv := (hu.fon (a := R.TT_STAT) rfl F.TT_STAT_FULL).finc (a := R.TT_CNT_B) rfl F.TT_CNT_B_EVICT
    split
    · exact (hv.finc rfl _).flagRaise rfl _ (by decide)
    · exact hv

/-! ### PERSIST and CLASS -/

theorem classOf_lt (s : State) (none : Bool) (persist width intensity : Nat) (light : Bool) : classOf s none persist width intensity light < 4 := by
  unfold classOf
  dsimp only
  split
  · decide
  split
  · decide
  split
  · decide
  · decide

/-- What a point does to the table and which CLASS it takes (R195, R196, R198). -/
theorem tilthPoint_keeps (s : State) (e : Echo) (range az el : Nat) (angle : Bool) :
    Keeps (tableScope (ttArea s)) s (tilthPoint s e range az el angle).1 ∧ (tilthPoint s e range az el angle).2.2 < 4 := by
  unfold tilthPoint
  extract_lets cls
  have hcls : ∀ b n, cls b n < 4 := fun _ _ => classOf_lt ..
  clear_value cls
  split
  · exact ⟨((Keeps.refl _ s).fon rfl _).finc rfl _, hcls ..⟩
  · next p _ =>
    split
    · exact ⟨Keeps.refl .., hcls ..⟩
    split
    · exact ⟨Keeps.refl .., hcls ..⟩
    have h := ttUpdate_lookedUp s p (e.frame % 65536) range az el e.intensity e.width angle
    generalize ttUpdate s p (e.frame % 65536) range az el e.intensity e.width angle = r at h
    revert r
    refine id fun r h => ?_
    obtain ⟨hk, hw⟩ := h
    split
    · exact ⟨hk, hcls ..⟩
    · exact ⟨hk.trans (ttWrite_keeps _ _ _ (hw _ _ rfl)), hcls ..⟩

end Sys2Proof.Machine
end

section
/-! From echo to point (R171 to R182, R354): how an echo leaves the point stage, and what that changes. -/

namespace Sys2Proof.Machine

variable {s t : State}

/-! ### Scopes -/

/-- What is done before a point is counted: its angles are sought, it is looked up in the tilth table and stored in its silt queue. -/
def formScope (area : Nat → Bool) : Scope := siltScope.union ((tableScope area).union (workScope noReg))

theorem silt_in_form (area : Nat → Bool) (s : State) : siltScope.In (formScope area) s := Scope.in_left ..
theorem table_in_form (area : Nat → Bool) (s : State) : (tableScope area).In (formScope area) s := (Scope.in_left ..).trans (Scope.in_right ..)
theorem work_in_form (area : Nat → Bool) (s : State) : (workScope noReg).In (formScope area) s := (Scope.in_right ..).trans (Scope.in_right ..)

theorem Keeps.formPs (h : Keeps (formScope area) s t) : t.ps = s.ps :=
  h.parts .ps (show Part.ps ∉ ([.slq, .mem, .poison, .dram] ++ evParts) ++ (([.mem, .poison] ++ evParts) ++ (([] ++ evParts) ++
    ([.free, .mem, .poison] ++ evParts))) by decide)

theorem Keeps.formPoints (h : Keeps (formScope area) s t) (f : Fld) : Machine.fget t R.PS_POINTS f = Machine.fget s R.PS_POINTS f :=
  h.fget (a := R.PS_POINTS) rfl (by decide) f

/-- The registers in which the point stage marks degraded angles (R174). -/
def angleRegs : List Nat := [R.PS_STAT, R.PS_CNT_B]

def angleScope : Scope := .of [] angleRegs (fixed noReg) (by decide) (fixed_shrinks _)

/-- The registers of the point stage's counters, and those that show a lost echo. -/
def stageRegs : List Nat := R.PS_POINTS :: R.ENP_STAT :: angleRegs ++ (List.range 4).map R.CLS_CNT ++ (List.range 16).map R.CL_LAT

/-- The point stage counts an echo that leaves it, and tells its slice and channel A. -/
def stageScope : Scope := .of [.ps, .saf] stageRegs (fixed noReg) (by decide) (fixed_shrinks _)

/-- Everything that an echo changes as it leaves the point stage. -/
def pointScope (area : Nat → Bool) : Scope := (formScope area).union (gapScope.union stageScope)

theorem form_in_point (area : Nat → Bool) (s : State) : (formScope area).In (pointScope area) s := Scope.in_left ..
theorem gap_in_point (area : Nat → Bool) (s : State) : gapScope.In (pointScope area) s := (Scope.in_left ..).trans (Scope.in_right ..)
theorem stage_in_point (area : Nat → Bool) (s : State) : stageScope.In (pointScope area) s := (Scope.in_right ..).trans (Scope.in_right ..)

theorem angle_in_stage (s : State) : angleScope.In stageScope s := Scope.of_in rfl rfl fun _ h => h

theorem clsCnt_stage {k : Nat} (h : k < 4) : stageScope.regs (R.CLS_CNT k) = true :=
  only_mem.mpr (List.mem_append_left _ (List.mem_append_right _ (List.mem_map.mpr ⟨k, List.mem_range.mpr h, rfl⟩)))

theorem clLat_stage (k : Fin 16) : stageScope.regs (R.CL_LAT k) = true :=
  only_mem.mpr (List.mem_append_right _ (List.mem_map.mpr ⟨k, List.mem_range.mpr k.isLt, rfl⟩))

theorem Keeps.points (h : Keeps stageScope s t) (x : PsState) : Keeps stageScope s { t with ps := x } :=
  h.quiet (frame_ps (frame_refl ..) (by decide) x) rfl rfl

/-! ### Angles -/

theorem angleUes_errs (s : State) (n : Nat) (stop : DecSample → Bool) : Keeps errScope s (angleUes s n stop) :=
  (Keeps.refl ..).foldl fun t a _ => ueRecord_errs t a

theorem thetaAt_keeps (s : State) (n ref : Nat) : Keeps (workScope noReg) s (thetaAt s n ref).2 := by
  unfold thetaAt
  split
  · split
    · exact Keeps.refl ..
    · exact Keeps.refl ..
  · exact Keeps.refl ..
  · exact Keeps.refl ..
  · exact (openVal_keeps noReg s).mono (open_in_work ..)

theorem Keeps.workTable (h : Keeps (workScope noReg) s t) : ttArea t = ttArea s := by
  have hb : ∀ a ∈ [R.TT_BASE_HI, R.TT_BASE_LO], rd t a = rd s a := fun a ha =>
    h.regs a (by revert a; decide) (by revert a; decide)
  unfold ttArea ttBase ttSize
  rw [fget_of_rd (hb R.TT_BASE_HI (by decide)), fget_of_rd (hb R.TT_BASE_HI (by decide)), hb R.TT_BASE_LO (by decide)]

/-! ### Channel A -/

/-- Channel A alone learns of the point. -/
theorem toChannelA_eq (s : State) (x : Slice) (p : Point) : ∃ y, toChannelA s x p = { s with saf := y } := by
  unfold toChannelA markBadA
  split
  · dsimp only
    split
    · exact ⟨_, rfl⟩
    · exact ⟨_, rfl⟩
  · exact ⟨s.saf, rfl⟩

theorem toChannelA_keeps (s : State) (x : Slice) (p : Point) : Keeps stageScope s (toChannelA s x p) := by
  obtain ⟨y, h⟩ := toChannelA_eq s x p
  rw [h]
  exact (Keeps.refl _ s).quiet (frame_saf (frame_refl ..) (by decide) y) rfl rfl

theorem toChannelA_ps (s : State) (x : Slice) (p : Point) : (toChannelA s x p).ps = s.ps := by
  obtain ⟨y, h⟩ := toChannelA_eq s x p
  rw [h]

theorem rd_toChannelA (s : State) (x : Slice) (p : Point) (a : Nat) : rd (toChannelA s x p) a = rd s a := by
  obtain ⟨y, h⟩ := toChannelA_eq s x p
  rw [h]
  rfl

/-! ### What leaves the point stage's state as it was -/

theorem fon_ps (s : State) (a : Nat) (f : Fld) : (fon s a f).ps = s.ps := by unfold fon; split <;> rfl

theorem raise_ps (s : State) {n : Nat} (hn : n < 640) : (raise s n).ps = s.ps := (raise_frame s hn).1 .ps (by decide)

theorem finc_ps (s : State) (a : Nat) (f : Fld) : (finc s a f).ps = s.ps := rfl

theorem psLate_ps (s : State) : (psLate s).ps = s.ps := by
  rw [psLate, raise_ps _ (by decide), finc_ps, fon_ps]

theorem gapStore_ps (s : State) (p : GapRec → Bool) : (gapStore s p).ps = s.ps := by
  have h : Keeps (clayScope fun _ => true) s (gapStore s p) := (Keeps.refl _ s).foldl fun t g _ => by
    split
    · exact (clayStore_keeps t _ _).mono (Scope.of_in rfl rfl fun _ _ => rfl)
    · exact Keeps.refl ..
  exact h.parts .ps (show Part.ps ∉ [.mem, .poison] ++ evParts by decide)

/-- A gap record leaves the pending echoes as they were. -/
theorem gapAdd_echoes (s : State) (reason tile mask row frame first len seq : Nat) :
    (gapAdd s reason tile mask row frame first len seq).ps.echoes = s.ps.echoes := by
  unfold gapAdd
  split
  · rfl
  extract_lets s1 s2 p hit src q hit' i s3 src' s4
  have h2 : s2.ps = s.ps := by
    unfold s2 unarm
    split <;> rfl
  clear_value s2
  split
  · rw [psLate_ps, h2]
  have h3 : s3.ps = s2.ps := by
    unfold s3
    split
    · exact gapStore_ps ..
    split
    · exact gapStore_ps ..
    split
    · exact gapStore_ps ..
    · rw [raise_ps _ (by decide), fon_ps]
  have h4 : s4.ps.echoes = s.ps.echoes := by
    rw [show s4.ps.echoes = s3.ps.echoes from rfl, h3, h2]
  clear_value s4
  split
  · exact h4
  · exact h4

/-! ### An echo that is lost -/

theorem histLoss_ps (s : State) (n : Fin 16) (f : Fld) : (histLoss s n f).ps = s.ps := by
  rw [histLoss, raise_ps _ (by omega), fon_ps]

theorem creditLost_keeps (s : State) (x : Slice) (e : Echo) : Keeps (gapScope.union stageScope) s (creditLost s x e) := by
  unfold creditLost histLoss
  extract_lets u
  have hu : Keeps gapScope s u := by
    unfold u
    split
    · exact Keeps.refl ..
    · exact gapAdd_keeps _ (by decide) ..
  clear_value u
  have hl : Keeps stageScope u (raise (fon (finc u (R.CL_LAT e.cl.val) F.CL_LAT_OUT_DROP) R.ENP_STAT F.ENP_STAT_OUT_DROP) (256 + 4 * e.cl.val + 1)) :=
    (((Keeps.refl _ u).finc (clLat_stage e.cl) _).fon rfl _).raise (by omega)
  exact (hu.mono (Scope.in_left ..)).trans (hl.mono (Scope.in_right ..))

theorem creditLost_echoes (s : State) (x : Slice) (e : Echo) : (creditLost s x e).ps.echoes = s.ps.echoes := by
  unfold creditLost
  extract_lets u
  have hu : u.ps.echoes = s.ps.echoes := by
    unfold u
    split
    · rfl
    · exact gapAdd_echoes ..
  clear_value u
  rw [histLoss_ps, finc_ps, hu]

theorem creditLost_flag (s : State) (x : Slice) (e : Echo) : flag (creditLost s x e) R.ENP_STAT F.ENP_STAT_OUT_DROP = true :=
  flag_flagRaise_same _ _ (by omega) rfl (by decide) (by decide)

/-! ### A point that its silt queue takes -/

/-- Degraded angles are marked (R174). -/
def angleMarked (s : State) (stale old : Bool) : State :=
  let s := if stale then
      raise (finc (fon s R.PS_STAT F.PS_STAT_ANG_STALE) R.PS_CNT_B F.PS_CNT_B_ANG_STALE_CNT) Ev.angleDegraded else s
  if old then raise (finc (fon s R.PS_STAT F.PS_STAT_ANG_OLD) R.PS_CNT_B F.PS_CNT_B_ANG_OLD_CNT) Ev.angleDegraded else s

/-- What forming a point does once its silt queue has taken it. -/
def pointStored (s : State) (x : Slice) (p : Point) (stale old : Bool) : State :=
  toChannelA (modSlice (angleMarked (finc (finc s R.PS_POINTS F.PS_POINTS_POINTS) (R.CLS_CNT p.cls) F.CLS_CNT_COUNT) stale old)
    x.row.num x.frame (fun y => { y with points := y.points + 1 })) x p

theorem angleMarked_keeps (s : State) (stale old : Bool) : Keeps angleScope s (angleMarked s stale old) := by
  unfold angleMarked
  extract_lets u
  have hu : Keeps angleScope s u := by
    unfold u
    split
    · exact (((Keeps.refl _ s).fon rfl _).finc rfl _).raise (by decide)
    · exact Keeps.refl ..
  clear_value u
  split
  · exact ((hu.fon rfl _).finc rfl _).raise (by decide)
  · exact hu

theorem angleMarked_ps (s : State) (stale old : Bool) : (angleMarked s stale old).ps = s.ps :=
  (angleMarked_keeps s stale old).parts .ps (show Part.ps ∉ [] ++ evParts by decide)

theorem pointStored_keeps (s : State) (x : Slice) {p : Point} (hp : p.cls < 4) (stale old : Bool) : Keeps stageScope s (pointStored s x p stale old) := by
  have hc := ((Keeps.refl stageScope s).finc rfl F.PS_POINTS_POINTS (a := R.PS_POINTS)).finc (clsCnt_stage hp) F.CLS_CNT_COUNT
  exact ((hc.trans ((angleMarked_keeps _ stale old).mono (angle_in_stage _))).points _).trans (toChannelA_keeps ..)

theorem pointStored_echoes (s : State) (x : Slice) (p : Point) (stale old : Bool) : (pointStored s x p stale old).ps.echoes = s.ps.echoes := by
  unfold pointStored modSlice
  rw [toChannelA_ps]
  dsimp only
  rw [angleMarked_ps]
  rfl

theorem fget_ps (s : State) (x : PsState) (a : Nat) (f : Fld) : fget { s with ps := x } a f = fget s a f := rfl

theorem pointStored_counts (s : State) (x : Slice) {p : Point} (hp : p.cls < 4) (stale old : Bool) :
    fget (pointStored s x p stale old) R.PS_POINTS F.PS_POINTS_POINTS =
      satN F.PS_POINTS_POINTS.width (fget s R.PS_POINTS F.PS_POINTS_POINTS + 1) := by
  have hn : R.PS_POINTS ≠ R.CLS_CNT p.cls := by
    have := hp
    unfold R.PS_POINTS R.CLS_CNT
    omega
  rw [pointStored, fget_of_rd (rd_toChannelA ..), modSlice, fget_ps, (angleMarked_keeps _ stale old).fget (by decide) (by decide), finc, fadd,
    fget_fset_reg _ _ _ _ hn, finc, fget_fadd_same _ _ _ _ (by decide) (by decide)]

end Sys2Proof.Machine
end

section
/-! An echo leaves the point stage (R173, R174): what forming its point comes to, and what that changes. -/

namespace Sys2Proof.Machine

variable {s t u : State}

/-! ### Forming a point -/

/-- What forming a point comes to: it is late for its slice, its silt queue takes it, or the queue does not (R180, R354). -/
inductive Formed (s : State) (x : Slice) (e : Echo) : State → Prop
  | late (u : State) (p : Point) (h : Keeps (formScope (ttArea s)) s u) (hx : sliceOf s x.row.num x.frame = none) :
      Formed s x e (toChannelA (psLate u) x p)
  | stored (u : State) (p : Point) (stale old : Bool) (h : Keeps (formScope (ttArea s)) s u) (hp : p.cls < 4) :
      Formed s x e (pointStored u x p stale old)
  | lost (u : State) (h : Keeps (formScope (ttArea s)) s u) : Formed s x e (creditLost u x e)

theorem formPoint_formed (s : State) (x : Slice) (e : Echo) (ref : Nat) (tx ty : Theta) : Formed s x e (formPoint s x e ref tx ty) := by
  unfold formPoint
  extract_lets em dir gain az el range stale old
  have hform := tilthPoint_keeps s e range az el (stale || old)
  generalize tilthPoint s e range az el (stale || old) = r at hform
  obtain ⟨u, persist, cls⟩ := r
  obtain ⟨htable, hcls⟩ := hform
  dsimp -zeta only at htable hcls ⊢
  have hu := htable.mono (table_in_form _ s)
  extract_lets p bs
  split
  · next hx => exact .late u p hu (Option.isNone_iff_eq_none.mp hx)
  split
  · next v hv =>
    have hk := (slqItem_keeps u x.queue.isLt x.row.num x.frame bs false).mono (silt_in_form (ttArea s) u)
    rw [hv] at hk
    exact .stored v p stale old (hu.trans hk) hcls
  · exact .lost _ ((slqItem_keeps s x.queue.isLt x.row.num x.frame bs false).mono (silt_in_form (ttArea s) s))

theorem Formed.keeps {x : Slice} {e : Echo} (h : Formed s x e t) : Keeps (pointScope (ttArea s)) s t := by
  cases h with
  | late u p h _ =>
    exact ((h.mono (form_in_point _ s)).trans ((psLate_keeps u).mono (gap_in_point _ u))).trans ((toChannelA_keeps ..).mono (stage_in_point _ _))
  | stored u p stale old h hp => exact (h.mono (form_in_point _ s)).trans ((pointStored_keeps u x hp stale old).mono (stage_in_point _ u))
  | lost u h => exact (h.mono (form_in_point _ s)).trans ((creditLost_keeps u x e).mono (Scope.in_right ..))

theorem Formed.echoes {x : Slice} {e : Echo} (h : Formed s x e t) : t.ps.echoes = s.ps.echoes := by
  cases h with
  | late u p h _ => rw [toChannelA_ps, psLate_ps, h.formPs]
  | stored u p stale old h _ => rw [pointStored_echoes, h.formPs]
  | lost u h => rw [creditLost_echoes, h.formPs]

/-- A point of an open slice is counted, or its loss shows. -/
theorem Formed.counted {x y : Slice} {e : Echo} (h : Formed s x e t) (hx : sliceOf s x.row.num x.frame = some y) :
    fget t R.PS_POINTS F.PS_POINTS_POINTS = satN F.PS_POINTS_POINTS.width (fget s R.PS_POINTS F.PS_POINTS_POINTS + 1) ∨
      flag t R.ENP_STAT F.ENP_STAT_OUT_DROP = true := by
  cases h with
  | late u p h hn => exact absurd (hn.symm.trans hx) (by simp)
  | stored u p stale old h hp => exact .inl (by rw [pointStored_counts u x hp, h.formPoints])
  | lost u h => exact .inr (creditLost_flag u x e)

/-! ### Pairing an echo -/

@[simp] theorem sliceOf_dropEcho (s : State) (i row frame : Nat) : sliceOf (dropEcho s i) row frame = sliceOf s row frame := rfl
@[simp] theorem shutOf_dropEcho (s : State) (i row frame : Nat) : shutOf (dropEcho s i) row frame = shutOf s row frame := rfl

/-- The search for the angles of an echo records the errors that it meets, and an angle may take an open value (R173, R174, R326). -/
theorem pairEcho_forms (s : State) (i : Nat) {e : Echo} {x : Slice} {ref : Nat} (hx : (sliceOf s e.row e.frame).or (shutOf s e.row e.frame) = some x)
    (hr : x.refFor e = some (some ref)) : ∃ u, Keeps (workScope noReg) (dropEcho s i) u ∧ Formed u x e (pairEcho s i e) := by
  unfold pairEcho
  extract_lets s0
  rw [show (sliceOf s0 e.row e.frame).or (shutOf s0 e.row e.frame) = some x from hx]
  dsimp -zeta only
  rw [hr]
  dsimp -zeta only
  split
  · extract_lets stop s1 s2
    have h : Keeps (workScope noReg) s0 s2 := ((angleUes_errs s0 _ stop).trans (angleUes_errs s1 _ stop)).mono (err_in_work ..)
    exact ⟨_, (h.trans (thetaAt_keeps ..)).trans (thetaAt_keeps ..), formPoint_formed ..⟩
  · exact ⟨_, Keeps.refl .., formPoint_formed ..⟩

/-- Without a reference time the echo leaves, and is at most counted as late (R180). -/
theorem pairEcho_leaves (s : State) (i : Nat) {e : Echo}
    (h : ∀ x ref, (sliceOf s e.row e.frame).or (shutOf s e.row e.frame) = some x → x.refFor e ≠ some (some ref)) :
    pairEcho s i e = dropEcho s i ∨ pairEcho s i e = psLate (dropEcho s i) := by
  unfold pairEcho
  extract_lets s0
  split
  · exact .inr rfl
  · next x hx =>
    split
    · next ref hr => exact absurd hr (h x ref hx)
    · split
      · exact .inr rfl
      · exact .inl rfl

theorem dropEcho_keeps (s : State) (i : Nat) : Keeps stageScope s (dropEcho s i) := (Keeps.refl _ s).points _

theorem Keeps.dropped {i : Nat} (h : Keeps (workScope noReg) (dropEcho s i) u) : ttArea u = ttArea s := h.workTable

theorem pairEcho_keeps (s : State) (i : Nat) (e : Echo) : Keeps (pointScope (ttArea s)) s (pairEcho s i e) := by
  have hd := (dropEcho_keeps s i).mono (stage_in_point (ttArea s) s)
  by_cases hr : ∃ x ref, (sliceOf s e.row e.frame).or (shutOf s e.row e.frame) = some x ∧ x.refFor e = some (some ref)
  · obtain ⟨x, ref, hx, hr⟩ := hr
    obtain ⟨u, hu, hf⟩ := pairEcho_forms s i hx hr
    have hk := hf.keeps
    rw [hu.dropped] at hk
    exact (hd.trans ((hu.mono (work_in_form (ttArea s) _)).mono (form_in_point ..))).trans hk
  · rcases pairEcho_leaves s i fun x ref hx h => hr ⟨x, ref, hx, h⟩ with h | h
    · rw [h]
      exact hd
    · rw [h]
      exact hd.trans ((psLate_keeps _).mono (gap_in_point ..))

theorem pairEcho_echoes (s : State) (i : Nat) (e : Echo) : (pairEcho s i e).ps.echoes = s.ps.echoes.eraseIdx i := by
  by_cases hr : ∃ x ref, (sliceOf s e.row e.frame).or (shutOf s e.row e.frame) = some x ∧ x.refFor e = some (some ref)
  · obtain ⟨x, ref, hx, hr⟩ := hr
    obtain ⟨u, hu, hf⟩ := pairEcho_forms s i hx hr
    rw [hf.echoes, (hu.mono (work_in_form (ttArea s) _)).formPs]
    rfl
  · rcases pairEcho_leaves s i fun x ref hx h => hr ⟨x, ref, hx, h⟩ with h | h
    · rw [h]
      rfl
    · rw [h, psLate_ps]
      rfl

theorem sliceOf_key {row frame : Nat} {x : Slice} (h : sliceOf s row frame = some x) : x.row.num = row ∧ x.frame = frame := by
  simpa using List.find?_some h

theorem sliceOf_of_ps (h : t.ps = s.ps) (row frame : Nat) : sliceOf t row frame = sliceOf s row frame := by unfold sliceOf; rw [h]

theorem pairEcho_counted (s : State) (i : Nat) {e : Echo} {x : Slice} {ref : Nat} (hx : sliceOf s e.row e.frame = some x)
    (hr : x.refFor e = some (some ref)) :
    fget (pairEcho s i e) R.PS_POINTS F.PS_POINTS_POINTS = satN F.PS_POINTS_POINTS.width (fget s R.PS_POINTS F.PS_POINTS_POINTS + 1) ∨
      flag (pairEcho s i e) R.ENP_STAT F.ENP_STAT_OUT_DROP = true := by
  obtain ⟨u, hu, hf⟩ := pairEcho_forms s i (by rw [hx]; rfl) hr
  have hform := hu.mono (work_in_form (ttArea s) _)
  obtain ⟨hrow, hframe⟩ := sliceOf_key hx
  have hopen : sliceOf u x.row.num x.frame = some x := by
    rw [sliceOf_of_ps hform.formPs, sliceOf_dropEcho, hrow, hframe, hx]
  have hcount := hf.counted hopen
  rwa [hform.formPoints] at hcount

/-! ### ANGLE_PAIRING and ANGLE_WAIT_TIMEOUT -/

/-- The first echo that may leave, with or without a wait that has ended, leaves the point stage (R173, R174). -/
def echoLeaves (s : State) (wait : Bool) : State :=
  match firstReady s wait with
  | some (i, e) => pairEcho s i e
  | none => s

theorem echoLeaves_none {wait : Bool} (h : firstReady s wait = none) : echoLeaves s wait = s := by unfold echoLeaves; rw [h]

theorem echoLeaves_some {wait : Bool} {i : Nat} {e : Echo} (h : firstReady s wait = some (i, e)) : echoLeaves s wait = pairEcho s i e := by
  unfold echoLeaves; rw [h]

theorem echoLeaves_keeps (s : State) (wait : Bool) : Keeps (pointScope (ttArea s)) s (echoLeaves s wait) := by
  unfold echoLeaves
  split
  · exact pairEcho_keeps ..
  · exact Keeps.refl ..

theorem pointScope_parts (area : Nat → Bool) : ∀ p ∈ (pointScope area).parts, p ∈ Part.slq :: .dram :: .free :: gapParts ++ evParts :=
  show ∀ p ∈ (([.slq, .mem, .poison, .dram] ++ evParts) ++ (([.mem, .poison] ++ evParts) ++ (([] ++ evParts) ++ ([.free, .mem, .poison] ++ evParts)))) ++
    ((gapParts ++ evParts) ++ ([.ps, .saf] ++ evParts)), p ∈ Part.slq :: .dram :: .free :: gapParts ++ evParts by decide

/-- The registers of the silt queues, by their blocks. -/
theorem siltScope_covers {l : List Nat} (he : 0xE ∈ l) (hl : (R.SLQ_STAT :: R.SLQ_POOL_C :: R.SLQ_POOL_S :: R.DRC_CNT_A :: decodeRegs).all (inBlocks l) = true) :
    ∀ a, siltScope.regs a = true → inBlocks l a = true := by
  intro a ha
  rcases Bool.or_eq_true_iff.mp ha with h | h
  · exact only_covers hl a h
  · simp only [Bool.and_eq_true, decide_eq_true_eq] at h
    exact silt_inBlocks he a h.1 h.2

theorem workScope_covers {p : Nat → Bool} {l : List Nat} (hl : memErrRegs.all (inBlocks l) = true) :
    ∀ a, (workScope p).regs a = true → inBlocks l a = true := fun a ha => List.all_eq_true.mp hl a (workScope_regs ha)

theorem pointScope_covers (area : Nat → Bool) (a : Nat) (h : (pointScope area).regs a = true) : inBlocks [0, 8, 0xA, 0xB, 0xE, 0xF] a = true := by
  simp only [pointScope, formScope, Scope.union, Bool.or_eq_true] at h
  rcases h with (h | h | h) | h | h
  · exact siltScope_covers (by decide) (by decide) a h
  · exact only_covers (show tableRegs.all (inBlocks [0, 8, 0xA, 0xB, 0xE, 0xF]) = true by decide) a h
  · exact workScope_covers (by decide) a h
  · exact only_covers (show gapRegs.all (inBlocks [0, 8, 0xA, 0xB, 0xE, 0xF]) = true by decide) a h
  · exact only_covers (show stageRegs.all (inBlocks [0, 8, 0xA, 0xB, 0xE, 0xF]) = true by decide) a h

theorem pointScope_area (s : State) (area : Nat → Bool) (a : Nat) : (pointScope area).area s a = (spillArea s a || area a || gapArea s a) := by
  simp [pointScope, formScope, siltScope, tableScope, workScope, errScope, openScope, gapScope, stageScope, Scope.union, Scope.of, fixed, noReg]

/-- What leaving the point stage does, whether the wait for the angles has ended or not (R173, R174). -/
theorem echoLeaves_does (s : State) (wait : Bool) :
    (firstReady s wait = none → frame [] noReg s (done (echoLeaves s wait))) ∧
    (∀ i e, firstReady s wait = some (i, e) → (done (echoLeaves s wait)).ps.echoes = s.ps.echoes.eraseIdx i) ∧
    (∀ i e x ref, firstReady s wait = some (i, e) → sliceOf s e.row e.frame = some x → x.refFor e = some (some ref) →
      fget (done (echoLeaves s wait)) R.PS_POINTS F.PS_POINTS_POINTS =
          satN F.PS_POINTS_POINTS.width (fget s R.PS_POINTS F.PS_POINTS_POINTS + 1) ∨
        flag (done (echoLeaves s wait)) R.ENP_STAT F.ENP_STAT_OUT_DROP = true) ∧
    memKept s (done (echoLeaves s wait)) (fun a => within (ttBase s) (2 ^ ttSize s * 32) a || gapArea s a || spillArea s a) ∧
    frame (.slq :: .dram :: .free :: gapParts ++ evParts) (inBlocks [0, 8, 0xA, 0xB, 0xE, 0xF]) s (done (echoLeaves s wait)) := by
  have hk := (echoLeaves_keeps s wait).done
  refine ⟨fun h => ?_, fun i e h => ?_, fun i e x ref h hx hr => ?_, fun a ha => hk.mem a ?_,
    hk.frame_le (pointScope_parts _) (pointScope_covers _) (inBlocks_ev _)⟩
  · rw [echoLeaves_none h]
    exact frame_done (frame_refl ..)
  · rw [done_ps, echoLeaves_some h, pairEcho_echoes]
  · rw [fget_done, flag_done, echoLeaves_some h]
    exact pairEcho_counted s i hx hr
  · simp only [Bool.or_eq_false_iff] at ha
    obtain ⟨⟨htable, hgap⟩, hspill⟩ := ha
    rw [pointScope_area, hspill, hgap, ttArea, htable]
    rfl

end Sys2Proof.Machine
end

section
/-! The close of a slice (R179 to R182, R355): what leaves with it, what its unit takes, and what its lateness shows. -/

namespace Sys2Proof.Machine

variable {s t u : State}

/-! ### The steps of a close -/

/-- The slice and its pending gap records leave. -/
def sliceRemoved (s : State) (x : Slice) : State :=
  { s with
    sht := { s.sht with gaps := s.sht.gaps.filter (fun g => !(decide (g.row = x.row.num) && decide (g.frame = x.frame))) },
    ps := { s.ps with slices := s.ps.slices.filter (fun y => !(decide (y.row.num = x.row.num) && decide (y.frame = x.frame))) } }

/-- Gap records and header go to the unit of a slice that has one, and the unit closes. -/
def sliceWritten (s : State) (x : Slice) (gs : List GapRec) (close : Nat) : State :=
  if x.stored then
    let r := sliceGaps s x gs
    let h := sliceHeader r.1 x close r.2
    slqClose h.1 x.queue.val x.row.num x.frame h.2
  else s

/-- A close that is not in time shows as such (R180). -/
def timeoutShown (s : State) : State := raise (finc (fon s R.PS_STAT F.PS_STAT_TIMEOUT) R.PS_CNT_A F.PS_CNT_A_TIMEOUT_CNT) Ev.sliceTimeout

/-- What the safety island learns of a slice that closes before all its points are formed (R182, R253). -/
def sliceShut (s : State) (x : Slice) : State :=
  if x.row.safety then
    let live := s.ps.shut.filter (fun y => s.saf.frames.any (fun f => decide (f.no = y.frame)))
    markBadA { s with ps := { s.ps with shut := live ++ [x] } } x.frame
  else s

/-- What every close does: the slice leaves, and its unit closes with its gap records and its header. -/
def sliceEnded (s : State) (x : Slice) (close : Nat) : State :=
  sliceWritten (sliceRemoved s x) x (s.sht.gaps.filter (fun g => g.row = x.row.num ∧ g.frame = x.frame)) close

theorem sliceClose_eq (s : State) (x : Slice) (close : Nat) :
    sliceClose s x close = if close = 0 then sliceEnded s x close else sliceShut (timeoutShown (sliceEnded s x close)) x := rfl

theorem sliceClose_complete (s : State) (x : Slice) : sliceClose s x 0 = sliceEnded s x 0 := by rw [sliceClose_eq, if_pos rfl]

theorem sliceClose_overdue (s : State) (x : Slice) : sliceClose s x 1 = sliceShut (timeoutShown (sliceEnded s x 1)) x := by
  rw [sliceClose_eq, if_neg (by decide)]

/-! ### Scopes -/

/-- An item that no unit could take (R104), or that reads poisoned (R326). -/
def unstoredScope : Scope := .of [.sht] (R.SHT_STAT :: memErrRegs) (fixed noReg) (by decide) (fixed_shrinks _)

/-- The gap records and the header of a slice go to its unit. -/
def writtenScope : Scope := siltScope.union unstoredScope

/-- A slice closes. -/
def closeScope : Scope := writtenScope.union (.of [.sht, .ps] [] (fixed noReg) (by decide) (fixed_shrinks _))

/-- An overdue slice shows as such. -/
def overdueScope : Scope := .of [.ps, .saf] [R.PS_STAT, R.PS_CNT_A] (fixed noReg) (by decide) (fixed_shrinks _)

theorem silt_in_written (s : State) : siltScope.In writtenScope s := Scope.in_left ..
theorem unstored_in_written (s : State) : unstoredScope.In writtenScope s := Scope.in_right ..
theorem err_in_unstored (s : State) : errScope.In unstoredScope s :=
  Scope.of_in rfl (show memErrRegs.all (only (R.SHT_STAT :: memErrRegs)) = true by decide) fun _ h => h

theorem closeScope_area (s : State) (a : Nat) : closeScope.area s a = spillArea s a := by
  simp [closeScope, writtenScope, siltScope, unstoredScope, Scope.union, Scope.of, fixed, noReg]

theorem closeScope_covers (a : Nat) (h : closeScope.regs a = true) : inBlocks [0, 8, 0xB, 0xE, 0xF] a = true := by
  simp only [closeScope, writtenScope, Scope.union, Bool.or_eq_true] at h
  rcases h with (h | h) | h
  · exact siltScope_covers (by decide) (by decide) a h
  · exact only_covers (show (R.SHT_STAT :: memErrRegs).all (inBlocks [0, 8, 0xB, 0xE, 0xF]) = true by decide) a h
  · exact absurd ((only_mem (l := []) (a := a)).mp h) List.not_mem_nil

theorem Keeps.writtenPs (h : Keeps writtenScope s t) : t.ps = s.ps := h.parts .ps (by decide)

/-! ### The unit of the slice -/

/-- The state keeps its pending gap records as the writing of a slice changes it. -/
structure Writes (s t : State) : Prop where
  keeps : Keeps writtenScope s t
  gaps : t.sht.gaps = s.sht.gaps

theorem Writes.refl (s : State) : Writes s s := ⟨Keeps.refl .., rfl⟩
theorem Writes.trans (h : Writes s t) (k : Writes t u) : Writes s u := ⟨h.keeps.trans k.keeps, k.gaps.trans h.gaps⟩

theorem gaps_of_sht (h : Part.sht.same s t) : t.sht.gaps = s.sht.gaps := by
  have := congrArg ShtState.gaps h
  exact this

theorem Keeps.siltWrites (h : Keeps siltScope s t) : Writes s t := ⟨h.mono (silt_in_written s), gaps_of_sht (h.parts .sht (by decide))⟩

theorem ueRecord_writes (s : State) (a : Nat) : Writes s (ueRecord s a) :=
  have h := ueRecord_errs s a
  ⟨(h.mono (err_in_unstored s)).mono (unstored_in_written s), gaps_of_sht (h.parts .sht (by decide))⟩

theorem gapUnstored_writes (s : State) (tile : Nat) : Writes s (gapUnstored s tile) := by
  have hlost (l : List Nat) : Keeps unstoredScope s { s with sht := { s.sht with lostTiles := l } } :=
    (Keeps.refl _ s).quiet (frame_sht (frame_refl ..) (by decide) (by decide) _) rfl rfl
  refine ⟨(((hlost _).fon rfl _).raise (by decide)).mono (unstored_in_written s), ?_⟩
  refine (gaps_of_sht ((raise_frame _ (by decide)).1 .sht (by decide))).trans ?_
  unfold fon
  split <;> rfl

theorem sliceGaps_writes (s : State) (x : Slice) (gs : List GapRec) : Writes s (sliceGaps s x gs).1 := by
  unfold sliceGaps
  refine List.foldlRecOn (motive := fun acc : State × Nat => Writes s acc.1) _ _ (Writes.refl s) fun acc h g _ => ?_
  split
  · exact h.trans ((ueRecord_writes ..).trans (gapUnstored_writes ..))
  · have hi := h.trans (slqItem_keeps acc.1 x.queue.isLt x.row.num x.frame (mbytes acc.1 (gapAddr acc.1 g.slot) 16) true).siltWrites
    dsimp only
    split
    · exact hi
    · exact hi.trans (gapUnstored_writes ..)

theorem sliceHeader_writes (s : State) (x : Slice) (close gaps : Nat) : Writes s (sliceHeader s x close gaps).1 := by
  unfold sliceHeader
  dsimp only
  split
  · exact gapUnstored_writes ..
  split
  · exact (ueRecord_writes ..).trans (gapUnstored_writes ..)
  · exact Writes.refl s

theorem sliceWritten_writes (s : State) (x : Slice) (gs : List GapRec) (close : Nat) : Writes s (sliceWritten s x gs close) := by
  unfold sliceWritten
  split
  · exact ((sliceGaps_writes s x gs).trans (sliceHeader_writes ..)).trans (slqClose_keeps ..).siltWrites
  · exact Writes.refl s

/-! ### The close -/

theorem sliceRemoved_keeps (s : State) (x : Slice) : Keeps closeScope s (sliceRemoved s x) := by
  have hf (y : ShtState) (z : PsState) : frame closeScope.parts closeScope.regs s { s with sht := y, ps := z } :=
    frame_ps (frame_sht (frame_refl ..) (by decide) (by decide) y) (by decide) z
  exact (Keeps.refl _ s).quiet (hf _ _) rfl rfl

theorem sliceEnded_writes (s : State) (x : Slice) (close : Nat) : Writes (sliceRemoved s x) (sliceEnded s x close) := sliceWritten_writes ..

theorem sliceEnded_keeps (s : State) (x : Slice) (close : Nat) : Keeps closeScope s (sliceEnded s x close) :=
  (sliceRemoved_keeps s x).trans ((sliceEnded_writes s x close).keeps.mono (Scope.in_left ..))

theorem sliceEnded_ps (s : State) (x : Slice) (close : Nat) : (sliceEnded s x close).ps = (sliceRemoved s x).ps :=
  (sliceEnded_writes s x close).keeps.writtenPs

/-- The slice is open no longer. -/
theorem sliceOf_ended (s : State) (x : Slice) (close : Nat) : sliceOf (sliceEnded s x close) x.row.num x.frame = none := by
  rw [sliceOf_of_ps (sliceEnded_ps ..)]
  refine List.find?_eq_none.mpr fun y hy => ?_
  have := (List.mem_filter.mp hy).2
  simpa [imp_iff_not_or] using this

/-- No gap record of the slice is pending. -/
theorem gaps_ended (s : State) (x : Slice) (close : Nat) : ∀ g ∈ (sliceEnded s x close).sht.gaps, g.row ≠ x.row.num ∨ g.frame ≠ x.frame := by
  rw [(sliceEnded_writes s x close).gaps]
  intro g hg
  have := (List.mem_filter.mp hg).2
  simpa [imp_iff_not_or] using this

theorem sliceEnded_closed (s : State) {x : Slice} (close : Nat) (hx : x.stored = true) :
    ∀ u ∈ (slqQueue (sliceEnded s x close) x.queue).units, u.key = some (x.row.num, x.frame) → u.closed = true := by
  unfold sliceEnded sliceWritten
  rw [if_pos hx]
  exact slqClose_closed _ _ _ _ _

/-! ### What an overdue close shows -/

theorem timeoutShown_keeps (s : State) : Keeps overdueScope s (timeoutShown s) := (((Keeps.refl _ s).fon rfl _).finc rfl _).raise (by decide)

theorem sliceShut_keeps (s : State) (x : Slice) : Keeps overdueScope s (sliceShut s x) := by
  unfold sliceShut markBadA
  split
  · exact (Keeps.refl _ s).quiet (frame_saf (frame_ps (frame_refl overdueScope.parts overdueScope.regs s) (by decide) _) (by decide) _) rfl rfl
  · exact Keeps.refl ..

theorem rd_sliceShut (s : State) (x : Slice) (a : Nat) : rd (sliceShut s x) a = rd s a := by
  unfold sliceShut
  split
  · rfl
  · rfl

theorem sliceShut_slices (s : State) (x : Slice) : (sliceShut s x).ps.slices = s.ps.slices := by
  unfold sliceShut
  split
  · rfl
  · rfl

theorem timeoutShown_ps (s : State) : (timeoutShown s).ps = s.ps := by
  rw [timeoutShown, raise_ps _ (by decide), finc_ps, fon_ps]

theorem timeoutShown_flag (s : State) : flag (timeoutShown s) R.PS_STAT F.PS_STAT_TIMEOUT = true := by
  rw [timeoutShown, flag_of_rd ((raise_frame _ (by decide)).2 _ (by decide)), flag_of_rd (rd_finc_ne _ _ (by decide))]
  exact flag_fon_same _ _ _ rfl (by decide)

theorem timeoutShown_event (s : State) : evFlag (timeoutShown s) Ev.sliceTimeout = true :=
  evFlag_raise _ (by decide) fun h => absurd h.2.2 (by decide)

/-- The frame of a SAFETY row's slice that closes before all its points are formed is invalid in channel A (R253). -/
theorem sliceShut_bad (s : State) {x : Slice} (hx : x.row.safety = true) : ∀ g ∈ (sliceShut s x).saf.frames, g.no = x.frame → g.badA = true := by
  unfold sliceShut
  rw [if_pos hx]
  intro g hg hn
  obtain ⟨f, -, rfl⟩ := List.mem_map.mp hg
  split at hn
  · next h => rw [if_pos h]
  · next h => exact absurd hn h

end Sys2Proof.Machine
end

section
/-! O13: echoes become points, slices close, and summation slots age out (R168, R173, R174, R179, R180). -/

namespace Sys2Proof.Machine

variable {s : State}

/-! ### SLICE_CLOSE -/

theorem sliceClose_closes (r : Fin 16384) (f : BitVec 32) (x : Slice) (s : State) (hx : sliceOf s r f.toNat = some x) (hr : sliceReady s x = true) :
    ∃ t, exec (.sliceClose r f) s = .next t ∧ sliceOf t r f.toNat = none ∧
      (∀ g ∈ t.sht.gaps, g.row ≠ x.row.num ∨ g.frame ≠ x.frame) ∧ t.ps.echoes = s.ps.echoes ∧
      (∀ u ∈ (slqQueue t x.queue).units, x.stored = true → u.key = some (x.row.num, x.frame) → u.closed = true) ∧
      memKept s t (spillArea s) ∧
      frame (.slq :: .dram :: .sht :: .ps :: .mem :: .poison :: evParts) (inBlocks [0, 8, 0xB, 0xE, 0xF]) s t := by
  have he : exec (.sliceClose r f) s = .next (done (sliceClose s x 0)) := by
    show execSliceClose r f s = _
    unfold execSliceClose
    rw [hx]
    dsimp only
    rw [if_pos hr]
  obtain ⟨hrow, hframe⟩ := sliceOf_key hx
  have hk := (sliceEnded_keeps s x 0).done
  rw [sliceClose_complete] at he
  refine ⟨_, he, ?_, ?_, ?_, ?_, fun a ha => hk.mem a (by rw [closeScope_area]; exact ha),
    hk.frame_le (by decide) closeScope_covers (inBlocks_ev _)⟩
  · rw [sliceOf_of_ps (done_ps _), ← hrow, ← hframe, sliceOf_ended]
  · rw [done_sht]
    exact gaps_ended s x 0
  · rw [done_ps, sliceEnded_ps]
    rfl
  · rw [slqQueue_of_slq (done_slq _)]
    exact fun u hu hs hkey => sliceEnded_closed s 0 hs u hu hkey

theorem sliceClose_waits (r : Fin 16384) (f : BitVec 32) (s : State) (h : ∀ x, sliceOf s r f.toNat = some x → sliceReady s x = false) :
    ∃ t, exec (.sliceClose r f) s = .next t ∧ frame [] noReg s t := by
  refine ⟨_, rfl, frame_done ?_⟩
  split
  · next x hx =>
    rw [h x hx]
    exact frame_refl ..
  · exact frame_refl ..

/-! ### SLICE_TIMEOUT -/

/-- What an overdue slice changes: its close, and what shows of it. -/
def timeoutScope : Scope := closeScope.union overdueScope

theorem timeoutScope_covers (a : Nat) (h : timeoutScope.regs a = true) : inBlocks [0, 8, 0xB, 0xE, 0xF] a = true := by
  rcases Bool.or_eq_true_iff.mp h with h | h
  · exact closeScope_covers a h
  · exact only_covers (show [R.PS_STAT, R.PS_CNT_A].all (inBlocks [0, 8, 0xB, 0xE, 0xF]) = true by decide) a h

theorem timeoutScope_area (s : State) (a : Nat) : timeoutScope.area s a = spillArea s a := by
  show (closeScope.area s a || overdueScope.area s a) = _
  rw [closeScope_area]
  exact Bool.or_false _

theorem sliceTimeout_closes (r : Fin 16384) (f : BitVec 32) (x : Slice) (s : State) (hx : sliceOf s r f.toNat = some x)
    (ht : x.frameTick + rowEnd s x.row + ticksUs (100 * max 1 (fget s R.PS_CTRL F.PS_CTRL_SLICE_TO)) ≤ now s) :
    ∃ t, exec (.sliceTimeout r f) s = .next t ∧ sliceOf t r f.toNat = none ∧ flag t R.PS_STAT F.PS_STAT_TIMEOUT = true ∧
      evFlag t Ev.sliceTimeout = true ∧ memKept s t (spillArea s) ∧
      (x.row.safety = true → ∀ g ∈ t.saf.frames, g.no = x.frame → g.badA = true) ∧
      frame (.slq :: .dram :: gapParts ++ evParts) (inBlocks [0, 8, 0xB, 0xE, 0xF]) s t := by
  have he : exec (.sliceTimeout r f) s = .next (done (sliceClose s x 1)) := by
    show execSliceTimeout r f s = _
    unfold execSliceTimeout
    rw [hx]
    dsimp only
    rw [if_pos ht]
  obtain ⟨hrow, hframe⟩ := sliceOf_key hx
  have hk : Keeps timeoutScope s (done (sliceShut (timeoutShown (sliceEnded s x 1)) x)) :=
    (((sliceEnded_keeps s x 1).mono (Scope.in_left ..)).trans
      (((timeoutShown_keeps _).trans (sliceShut_keeps ..)).mono (Scope.in_right ..))).done
  rw [sliceClose_overdue] at he
  refine ⟨_, he, ?_, ?_, ?_, fun a ha => hk.mem a (by rw [timeoutScope_area]; exact ha), fun hs => ?_,
    hk.frame_le (by decide) timeoutScope_covers (inBlocks_ev _)⟩
  · rw [sliceOf_of_ps (done_ps _), sliceOf, sliceShut_slices, timeoutShown_ps, ← hrow, ← hframe]
    exact sliceOf_ended s x 1
  · rw [flag_done, flag_of_rd (rd_sliceShut ..), timeoutShown_flag]
  · rw [evFlag_done, evFlag, rd_sliceShut]
    exact timeoutShown_event _
  · rw [done_saf]
    exact sliceShut_bad _ hs

/-! ### SUM_SLOT_AGE_OUT -/

theorem sumSlot_ages (i : BitVec 16) (x : SumSlot) (s : State) (hx : lookup s.ps.slots i.toNat = some x)
    (ha : x.landed + ticksUs (100 * max 1 (fget s R.PS_SUM F.PS_SUM_SUM_AGE)) ≤ now s) :
    ∃ t, exec (.sumSlotAgeOut i) s = .next t ∧ lookup t.ps.slots i.toNat = none ∧
      fget t R.PS_CNT_C F.PS_CNT_C_SUM_UNUSED = satN F.PS_CNT_C_SUM_UNUSED.width (fget s R.PS_CNT_C F.PS_CNT_C_SUM_UNUSED + 1) ∧
      frame [.ps] (only [R.PS_CNT_C]) s t := by
  have he : exec (.sumSlotAgeOut i) s =
      .next (done (finc { s with ps := { s.ps with slots := eraseKey s.ps.slots i.toNat } } R.PS_CNT_C F.PS_CNT_C_SUM_UNUSED)) := by
    show execSumSlotAgeOut i s = _
    unfold execSumSlotAgeOut
    rw [hx]
    dsimp only
    rw [if_pos ha]
  refine ⟨_, he, ?_, ?_, frame_done (frame_finc (frame_ps (frame_refl ..) (by decide) _) (by decide) _)⟩
  · rw [done_ps]
    exact lookup_eraseKey_same ..
  · rw [fget_done, finc, fget_fadd_same _ _ _ _ (by decide) (by decide)]
    rfl

/-- Settles O13: an echo leaves the point stage in the same way whether its angles are here or its wait has ended, and a slice closes in the
same steps whether it is complete or overdue. -/
theorem pointsAndSlices : Obligations.PointsAndSlices :=
  ⟨fun s => ⟨_, rfl, echoLeaves_does s false⟩, fun s => ⟨_, rfl, echoLeaves_does s true⟩, sliceClose_closes, sliceClose_waits,
    sliceTimeout_closes, sumSlot_ages⟩

end Sys2Proof.Machine
end

section
/-! O14: the world frame and the tilth table (R192, R197): a committed displacement, the sweeper's visit to a bucket, and a clearing. -/

namespace Sys2Proof.Machine

variable {s t : State}

/-! ### EGO_COMMIT -/

theorem fon_tilt (s : State) (a : Nat) (f : Fld) : (fon s a f).tilt = s.tilt := by unfold fon; split <;> rfl

theorem egoCommit_waits (s : State) : ∃ t, exec .egoCommit s = .next t ∧ flag t R.EGO_CTRL F.EGO_CTRL_PENDING = true ∧ t.tilt.pose = s.tilt.pose ∧
    t.tilt.commits.head? = some (now s / 2, ⟨signed 16 (fget s R.EGO_DXY F.EGO_DXY_DX), signed 16 (fget s R.EGO_DXY F.EGO_DXY_DY),
      signed 16 (fget s R.EGO_DZP F.EGO_DZP_DZ), signed 16 (fget s R.EGO_DZP F.EGO_DZP_DPSI)⟩) ∧
    frame [.tilt] (only [R.EGO_CTRL]) s t := by
  refine ⟨_, rfl, ?_, ?_, ?_, frame_done (frame_fon (frame_tilt (frame_refl ..) (by decide) _) (by decide) _)⟩
  · rw [flag_done, flag_fon_same _ _ _ rfl (by decide)]
  · rw [done_tilt, fon_tilt]
  · rw [done_tilt, fon_tilt]
    rfl

/-! ### An entry of the table -/

/-- An entry reads the same where its 32 bytes do. -/
theorem ttRead_of_mget {a : Nat} (h : ∀ b, within a 32 b = true → mget t b = mget s b) : ttRead t a = ttRead s a := by
  have hw : ∀ i, i < 6 → mrd t (a + 4 * i) 4 = mrd s (a + 4 * i) 4 := by
    intro i hi
    unfold mrd
    rw [mbytes_range, mbytes_range]
    refine congrArg ofLeBytes (List.map_congr_left fun j hj => h _ (within_intro (by omega) ?_))
    have := List.mem_range.mp hj
    omega
  unfold ttRead
  simp only [hw 0 (by decide), hw 1 (by decide), hw 2 (by decide), hw 3 (by decide), hw 4 (by decide), hw 5 (by decide)]

theorem ttRead_of_mem (h : t.mem = s.mem) (a : Nat) : ttRead t a = ttRead s a := ttRead_of_mget fun b _ => mget_of_mem h b

/-- An entry outside clay memory is not valid (R25). -/
theorem ttRead_valid (s : State) (a : Nat) : (ttRead s a).valid = ((clayOut a 32).isNone && bitOf (mrd s a 4) 31) := by
  cases h : clayOut a 32 with
  | none => simp [ttRead, h]
  | some x => simp [ttRead, h, bitOf]

/-- A 31-bit number written to the first word of an entry leaves it invalid. -/
theorem ttRead_mwr_invalid (s : State) (a v : Nat) : (ttRead (mwr s a 4 (v % 2 ^ 31)) a).valid = false := by
  have hw : mrd (mwr s a 4 (v % 2 ^ 31)) a 4 = v % 2 ^ 31 := by
    have hb := mbytes_mputBytes s a (leBytes 4 (v % 2 ^ 31))
    rw [leBytes_length] at hb
    unfold mrd mwr
    rw [hb]
    simp only [leBytes, ofLeBytes, BitVec.toNat_ofNat]
    omega
  rw [ttRead_valid, hw, bitOf_eq, Nat.testBit_lt_two_pow (Nat.mod_lt _ (by decide)), Bool.and_false]

/-! ### The sweeper -/

section
variable (f a : Nat)

theorem ttSweepWay_keeps (s : State) {i : Nat} (hi : i < 8) : Keeps (tableScope (within a 256)) s (ttSweepWay f a s i) := by
  unfold ttSweepWay
  dsimp only
  split
  · refine ((Keeps.refl _ s).mputBytes rfl _ _ fun b hb => way_within hi ?_).fset rfl _ _
    obtain ⟨h1, h2⟩ := within_true hb
    rw [leBytes_length] at h2
    exact within_intro h1 (by omega)
  · exact Keeps.refl ..

theorem ttSweepWays_keeps (s : State) {n : Nat} (hn : n ≤ 8) :
    Keeps (tableScope (within a 256)) s ((List.range n).foldl (ttSweepWay f a) s) :=
  (Keeps.refl _ s).foldl fun t _ hi => ttSweepWay_keeps f a t (Nat.lt_of_lt_of_le (List.mem_range.mp hi) hn)

theorem ttSweepBucket_keeps (s : State) : Keeps (tableScope (within a 256)) s (ttSweepBucket f a s) := by
  unfold ttSweepBucket
  split
  · exact (ttEcc_keeps s fun _ h => h).trans (ttSweepWays_keeps f a _ (by decide))
  · exact Keeps.refl ..

/-- The sweeper leaves the way that it visits valid where it was and is not aged. -/
theorem ttSweepWay_visits (s : State) (i : Nat) : (ttRead (ttSweepWay f a s i) (a + 32 * i)).valid =
    ((ttRead s (a + 32 * i)).valid && !(ttRead s (a + 32 * i)).aged f (ttAgeMax s)) := by
  unfold ttSweepWay
  dsimp only
  split
  · next h =>
    obtain ⟨-, hold⟩ := Bool.and_eq_true_iff.mp h
    rw [ttRead_of_mem (fset_mem ..), ttRead_mwr_invalid, hold, Bool.not_true, Bool.and_false]
  · next h =>
    have hyoung : ∀ v g : Bool, ¬ (v && g) = true → v = (v && !g) := by decide
    exact hyoung _ _ h

theorem ttSweepWay_apart (s : State) {i j : Nat} (h : j ≠ i) : ttRead (ttSweepWay f a s i) (a + 32 * j) = ttRead s (a + 32 * j) := by
  unfold ttSweepWay
  dsimp only
  split
  · rw [ttRead_of_mem (fset_mem ..)]
    refine ttRead_of_mget fun b hb => mget_mputBytes_out _ s _ b ?_
    obtain ⟨h1, h2⟩ := within_true hb
    rw [leBytes_length]
    omega
  · rfl

theorem Keeps.ageMax {p : Nat → Bool} (h : Keeps (tableScope p) s t) : ttAgeMax t = ttAgeMax s := by
  unfold ttAgeMax
  rw [h.fget (a := R.TT_AGE) (show only tableRegs R.TT_AGE = false by decide) (by decide)]

theorem Keeps.tableSize {p : Nat → Bool} (h : Keeps (tableScope p) s t) : ttSize t = ttSize s := by
  unfold ttSize
  rw [h.fget (a := R.TT_BASE_HI) (show only tableRegs R.TT_BASE_HI = false by decide) (by decide)]

/-- Each way before the nth has been swept, and the others are as they were. -/
theorem ttSweepWays_sweep (s : State) {n : Nat} (hn : n ≤ 8) :
    (∀ i, i < n → (ttRead ((List.range n).foldl (ttSweepWay f a) s) (a + 32 * i)).valid =
      ((ttRead s (a + 32 * i)).valid && !(ttRead s (a + 32 * i)).aged f (ttAgeMax s))) ∧
    ∀ i, n ≤ i → ttRead ((List.range n).foldl (ttSweepWay f a) s) (a + 32 * i) = ttRead s (a + 32 * i) := by
  induction n with
  | zero => exact ⟨fun i hi => absurd hi (Nat.not_lt_zero i), fun _ _ => rfl⟩
  | succ n ih =>
    obtain ⟨hswept, hrest⟩ := ih (by omega)
    have hage := (ttSweepWays_keeps f a s (n := n) (by omega)).ageMax
    rw [List.range_succ, List.foldl_append, List.foldl_cons, List.foldl_nil]
    refine ⟨fun i hi => ?_, fun i hi => ?_⟩
    · by_cases hin : i = n
      · subst hin
        rw [ttSweepWay_visits, hrest i (Nat.le_refl i), hage]
      · rw [ttSweepWay_apart _ _ _ hin, hswept i (by omega)]
    · rw [ttSweepWay_apart _ _ _ (by omega), hrest i (by omega)]

/-- A bucket with no poisoned word keeps its entries as it is read. -/
theorem ttEcc_reads (h : firstPoison s a 256 = none) (b : Nat) : ttRead (ttEcc s a) b = ttRead s b := by
  refine ttRead_of_mem ?_ b
  unfold ttEcc
  split
  · exact decodeErr_mem ..
  · rw [h]

theorem ttSweepBucket_sweeps (hen : flag s R.TT_CTRL F.TT_CTRL_EN = true) (hbusy : flag s R.TT_STAT F.TT_STAT_CLR_BUSY = false)
    (hp : firstPoison s a 256 = none) {i : Nat} (hi : i < 8) : (ttRead (ttSweepBucket f a s) (a + 32 * i)).valid =
      ((ttRead s (a + 32 * i)).valid && !(ttRead s (a + 32 * i)).aged f (ttAgeMax s)) := by
  unfold ttSweepBucket
  rw [if_pos (by rw [hen, hbusy]; rfl), (ttSweepWays_sweep f a _ (Nat.le_refl 8)).1 i hi, ttEcc_reads a hp,
    (ttEcc_keeps (p := within a 256) s fun _ h => h).ageMax]

theorem ttSweepBucket_off (h : flag s R.TT_CTRL F.TT_CTRL_EN = false) : ttSweepBucket f a s = s := if_neg (by rw [h]; exact Bool.false_ne_true)

end

/-- The sweeper goes on to the next bucket; after the last one a sweep has been made. -/
def sweepMoved (s : State) (b : Nat) : State :=
  if b + 1 = 2 ^ (ttSize s - 3) then finc { s with tilt := { s.tilt with sweepAt := 0 } } R.TT_CNT_D F.TT_CNT_D_SWEEPS
  else { s with tilt := { s.tilt with sweepAt := b + 1 } }

theorem exec_tilthSweep_moves {b : Nat} (hb : b = s.tilt.sweepAt % 2 ^ (ttSize s - 3)) : exec .tilthSweep s =
    .next (done (sweepMoved (ttSweepBucket (fget s R.SHT_FRAME_NO F.SHT_FRAME_NO_FRAME_NO % 65536) (ttBase s + 256 * b) s) b)) := by
  subst hb
  unfold sweepMoved
  exact exec_tilthSweep s

theorem sweepMoved_mem (s : State) (b : Nat) : (sweepMoved s b).mem = s.mem := by unfold sweepMoved; split <;> rfl

theorem sweepMoved_sweepAt (s : State) (b : Nat) : (sweepMoved s b).tilt.sweepAt = if b + 1 = 2 ^ (ttSize s - 3) then 0 else b + 1 := by
  unfold sweepMoved; split <;> rfl

theorem sweepMoved_frame (s : State) (b : Nat) : frame [.tilt] (only [R.TT_CNT_D]) s (sweepMoved s b) := by
  have hmove : ∀ n, frame [.tilt] (only [R.TT_CNT_D]) s { s with tilt := { s.tilt with sweepAt := n } } := fun n =>
    frame_tilt (frame_refl ..) (by decide) _
  unfold sweepMoved
  split
  · exact frame_finc (hmove 0) (by decide) _
  · exact hmove _

/-- What the sweep of a bucket may change, as a frame. -/
theorem Keeps.tableFrame {p : Nat → Bool} (h : Keeps (tableScope p) s t) :
    Machine.frame (.tilt :: .mem :: .poison :: evParts) (inBlocks [0, 0xB, 0xF]) s t :=
  h.frame_le (fun _ hp => List.mem_cons_of_mem _ hp) (only_covers (by decide)) (inBlocks_ev _)

theorem Keeps.tableMem {p : Nat → Bool} (h : Keeps (tableScope p) s t) : memKept s t p := h.mem

theorem tilthSweep_sweeps (b : Nat) (s : State) (hb : b = s.tilt.sweepAt % 2 ^ (ttSize s - 3)) : ∃ t, exec .tilthSweep s = .next t ∧
    t.tilt.sweepAt = (if b + 1 = 2 ^ (ttSize s - 3) then 0 else b + 1) ∧
    (flag s R.TT_CTRL F.TT_CTRL_EN = true → flag s R.TT_STAT F.TT_STAT_CLR_BUSY = false →
      firstPoison s (ttBase s + 256 * b) 256 = none → ∀ i, i < 8 →
      (ttRead t (ttBase s + 256 * b + 32 * i)).valid = ((ttRead s (ttBase s + 256 * b + 32 * i)).valid &&
        !(ttRead s (ttBase s + 256 * b + 32 * i)).aged (fget s R.SHT_FRAME_NO F.SHT_FRAME_NO_FRAME_NO % 65536) (ttAgeMax s))) ∧
    (flag s R.TT_CTRL F.TT_CTRL_EN = false → t.mem = s.mem) ∧
    memKept s t (within (ttBase s + 256 * b) 256) ∧
    frame (.tilt :: .mem :: .poison :: evParts) (inBlocks [0, 0xB, 0xF]) s t := by
  have he := exec_tilthSweep_moves hb
  generalize hu : ttSweepBucket (fget s R.SHT_FRAME_NO F.SHT_FRAME_NO_FRAME_NO % 65536) (ttBase s + 256 * b) s = u at he
  have hk : Keeps (tableScope (within (ttBase s + 256 * b) 256)) s u := hu ▸ ttSweepBucket_keeps ..
  have hm : (done (sweepMoved u b)).mem = u.mem := by rw [done_mem, sweepMoved_mem]
  refine ⟨done (sweepMoved u b), he, ?_, fun hen hbusy hp i hi => ?_, fun hen => ?_, fun x hx => ?_, ?_⟩
  · rw [done_tilt, sweepMoved_sweepAt, hk.tableSize]
  · rw [ttRead_of_mem hm, ← hu, ttSweepBucket_sweeps _ _ hen hbusy hp hi]
  · rw [hm, ← hu, ttSweepBucket_off _ _ hen]
  · rw [mget_of_mem hm]
    exact hk.tableMem x hx
  · exact frame_done (frame_trans hk.tableFrame (frame_mono (sweepMoved_frame u b) (by simp) (only_covers (by decide))))

/-! ### TILTH_CLEAR -/

/-- A clearing has begun. -/
def tilthCleared (s : State) : State := fon (fon (ttZero s) R.TT_STAT F.TT_STAT_CLEAR) R.TT_STAT F.TT_STAT_CLR_BUSY

theorem exec_tilthClear (s : State) : exec .tilthClear s = .next (done (if modeOf s = .scan then s else tilthCleared s)) := rfl

/-- A clearing changes bytes of an area, the table's state and what a decode error shows (R25, R197). -/
def clearScope (p : Nat → Bool) : Scope :=
  .of [.mem, .poison] ([R.TT_STAT, R.TT_OCC] ++ decodeRegs) (fixed p) (by decide) (fixed_shrinks _)

theorem ttZero_outside {x : Nat} (h : clayOut (ttBase s) (2 ^ ttSize s * 32) = some x) :
    ttZero s = fset (decodeErr s (x % 2 ^ 40) true) R.TT_OCC F.TT_OCC_VALID 0 := by
  unfold ttZero
  dsimp only
  split
  · next y hy =>
    obtain rfl : y = x := Option.some.inj (hy.symm.trans h)
    rfl
  · next hy => cases hy.symm.trans h

theorem ttZero_inside (h : clayOut (ttBase s) (2 ^ ttSize s * 32) = none) : ttZero s =
    fset (mzero (unpoison s (ttBase s) (2 ^ ttSize s * 32)) (ttBase s) (2 ^ ttSize s * 32)) R.TT_OCC F.TT_OCC_VALID 0 := by
  unfold ttZero
  dsimp only
  split
  · next y hy => cases hy.symm.trans h
  · rfl

theorem clearEnds_keeps {p : Nat → Bool} (h : Keeps (clearScope p) s t) : Keeps (clearScope p) s
    (fon (fon (fset t R.TT_OCC F.TT_OCC_VALID 0) R.TT_STAT F.TT_STAT_CLEAR) R.TT_STAT F.TT_STAT_CLR_BUSY) :=
  ((h.fset rfl _ _).fon rfl _).fon rfl _

theorem tilthCleared_keeps (s : State) {p : Nat → Bool} (hp : ∀ b, within (ttBase s) (2 ^ ttSize s * 32) b = true → p b = true) :
    Keeps (clearScope p) s (tilthCleared s) := by
  unfold tilthCleared
  cases hc : clayOut (ttBase s) (2 ^ ttSize s * 32) with
  | some x =>
    rw [ttZero_outside hc]
    exact clearEnds_keeps ((decodeErr_keeps ..).mono (decode_in rfl))
  | none =>
    rw [ttZero_inside hc]
    exact clearEnds_keeps (((Keeps.refl _ s).poison rfl _).mzero rfl _ _ hp)

theorem tilthCleared_shows (s : State) : flag (tilthCleared s) R.TT_STAT F.TT_STAT_CLR_BUSY = true ∧
    fget (tilthCleared s) R.TT_OCC F.TT_OCC_VALID = 0 := by
  have hocc : R.TT_OCC ≠ R.TT_STAT := by decide
  refine ⟨flag_fon_same _ _ _ rfl (by decide), ?_⟩
  rw [tilthCleared, fget_fon_reg _ _ _ hocc, fget_fon_reg _ _ _ hocc, ttZero, fget_fset_same _ _ _ _ (by decide) (by decide), Nat.zero_mod]

theorem tilthCleared_mem (s : State) : (tilthCleared s).mem = (ttZero s).mem := by rw [tilthCleared, fon_mem, fon_mem]

theorem lookup_filter_drop {α : Type} {q : Nat × α → Bool} {a : Nat} (h : ∀ v, q (a, v) = false) (l : List (Nat × α)) :
    lookup (l.filter q) a = none := by
  induction l with
  | nil => rfl
  | cons p l ih =>
    obtain ⟨k, v⟩ := p
    cases hq : q (k, v) with
    | false => rw [List.filter_cons_of_neg (by simp [hq]), ih]
    | true =>
      have hk : k ≠ a := by
        rintro rfl
        rw [h] at hq
        cases hq
      rw [List.filter_cons_of_pos hq, lookup, if_neg hk, ih]

theorem mget_mzero_in (s : State) {a n b : Nat} (h : within a n b = true) : mget (mzero s a n) b = memDefault b := by
  have hnone : lookup (mzero s a n).mem b = none := by
    have hkey : ∀ v : Byte, (fun c : Host.Cell => !(decide (a ≤ c.1) && decide (c.1 < a + n))) (b, v) = false := by
      intro v
      obtain ⟨h1, h2⟩ := within_true h
      simp [h1, h2]
    exact lookup_filter_drop hkey s.mem
  unfold mget tget
  rw [hnone]
  rfl

theorem clayOut_none {a n : Nat} (h : clayOut a n = none) : 0x0100000000 ≤ a ∧ a + n ≤ 0x0100E00000 := by
  unfold clayOut at h
  split at h
  · cases h
  · split at h
    · cases h
    · omega

/-- Clay memory lies above the boot ROM, so an unlisted byte of it reads 0. -/
theorem memDefault_clay {a : Nat} (h : 0x0100000000 ≤ a) : memDefault a = 0 := if_neg (by omega)

theorem tilthCleared_zero (h : clayOut (ttBase s) (2 ^ ttSize s * 32) = none) {i : Nat} (hi : i < 2 ^ ttSize s * 32) :
    mget (tilthCleared s) (ttBase s + i) = 0 := by
  have hb := (clayOut_none h).1
  rw [mget_of_mem (tilthCleared_mem s), ttZero_inside h, mget_of_mem (fset_mem ..),
    mget_mzero_in _ (within_intro (Nat.le_add_right ..) (Nat.add_lt_add_left hi _)), memDefault_clay (by omega)]

theorem tilthCleared_inside (h : clayOut (ttBase s) (2 ^ ttSize s * 32) = none) :
    frame [.mem, .poison] (only [R.TT_STAT, R.TT_OCC]) s (tilthCleared s) := by
  rw [tilthCleared, ttZero_inside h]
  exact frame_fon (frame_fon (frame_fset (frame_mem (frame_poison (frame_refl ..) (by decide) _) (by decide) _) (by decide) _ _)
    (by decide) _) (by decide) _

theorem tilthCleared_outside {x : Nat} (h : clayOut (ttBase s) (2 ^ ttSize s * 32) = some x) : (tilthCleared s).mem = s.mem ∧
    evFlag (tilthCleared s) Ev.decodeErr = true := by
  refine ⟨?_, ?_⟩
  · rw [tilthCleared_mem, ttZero_outside h, fset_mem, decodeErr_mem]
  · rw [tilthCleared, ttZero_outside h]
    exact (clearEnds_keeps (Keeps.refl (clearScope noReg) _)).flags _ (by decide) (decodeErr_event ..)

theorem tilthClear_clears (s : State) : ∃ t, exec .tilthClear s = .next t ∧ (modeOf s = .scan → frame [] noReg s t) ∧
    (modeOf s ≠ .scan → flag t R.TT_STAT F.TT_STAT_CLR_BUSY = true ∧ fget t R.TT_OCC F.TT_OCC_VALID = 0 ∧
      (clayOut (ttBase s) (2 ^ ttSize s * 32) = none → (∀ i, i < 2 ^ ttSize s * 32 → mget t (ttBase s + i) = 0) ∧
        frame [.mem, .poison] (only [R.TT_STAT, R.TT_OCC]) s t) ∧
      (∀ x, clayOut (ttBase s) (2 ^ ttSize s * 32) = some x → t.mem = s.mem ∧ evFlag t Ev.decodeErr = true)) ∧
    memKept s t (within (ttBase s) (2 ^ ttSize s * 32)) ∧
    frame (.mem :: .poison :: evParts) (onlyEv [R.TT_STAT, R.TT_OCC, R.SYS_CNT, R.SYS_DECERR_LO, R.SYS_DECERR_HI]) s t := by
  refine ⟨_, exec_tilthClear s, ?_⟩
  by_cases hm : modeOf s = .scan
  · rw [if_pos hm]
    exact ⟨fun _ => frame_off s, fun hn => absurd hm hn, fun x _ => mget_of_mem (done_mem s) x, frame_done (frame_refl ..)⟩
  · rw [if_neg hm]
    have hk := (tilthCleared_keeps s (p := within (ttBase s) (2 ^ ttSize s * 32)) fun _ h => h).done
    obtain ⟨hbusy, hocc⟩ := tilthCleared_shows s
    refine ⟨fun hs => absurd hs hm, fun _ => ⟨?_, ?_, fun hc => ⟨fun i hi => ?_, frame_done (tilthCleared_inside hc)⟩, fun x hc => ?_⟩, hk.mem,
      hk.frame_le (fun _ hp => hp) (fun a ha => onlyEv_mem (only_mem.mp ha)) (onlyEv_ev _)⟩
    · rw [flag_done, hbusy]
    · rw [fget_done, hocc]
    · rw [mget_of_mem (done_mem _), tilthCleared_zero hc hi]
    · rw [done_mem, evFlag_done]
      exact tilthCleared_outside hc

/-! ### TILTH_CLEAR_DONE -/

/-- A clearing has ended. -/
def clearEnded (s : State) : State := foff (foff s R.TT_STAT F.TT_STAT_CLEAR) R.TT_STAT F.TT_STAT_CLR_BUSY

theorem exec_tilthClearDone (s : State) :
    exec .tilthClearDone s = .next (done (if flag s R.TT_STAT F.TT_STAT_CLR_BUSY then clearEnded s else s)) := rfl

theorem clearEnded_bits (s : State) : bitsKept s (clearEnded s) R.TT_STAT [F.TT_STAT_CLEAR, F.TT_STAT_CLR_BUSY] := by
  intro i _ hout
  rw [clearEnded, foff, foff, fset_bit _ _ _ _ (by decide) (by decide) i (hout _ (by simp)),
    fset_bit _ _ _ _ (by decide) (by decide) i (hout _ (by simp))]

theorem tilthClearDone_ends (s : State) : ∃ t, exec .tilthClearDone s = .next t ∧ flag t R.TT_STAT F.TT_STAT_CLR_BUSY = false ∧
    (flag s R.TT_STAT F.TT_STAT_CLR_BUSY = false → frame [] noReg s t) ∧
    bitsKept s t R.TT_STAT [F.TT_STAT_CLEAR, F.TT_STAT_CLR_BUSY] ∧ frame [] (only [R.TT_STAT]) s t := by
  refine ⟨_, exec_tilthClearDone s, ?_⟩
  cases hb : flag s R.TT_STAT F.TT_STAT_CLR_BUSY with
  | false =>
    rw [if_neg (by decide)]
    exact ⟨by rw [flag_done, hb], fun _ => frame_off s, fun i _ _ => by rw [rd_done], frame_done (frame_refl ..)⟩
  | true =>
    rw [if_pos rfl]
    refine ⟨?_, (fun h => absurd h (by decide)), fun i hi hout => ?_, frame_done (frame_foff (frame_foff (frame_refl ..) (by decide) _) (by decide) _)⟩
    · rw [flag_done, clearEnded, flag_foff_same _ _ _ (by decide) (by decide)]
    · rw [rd_done, clearEnded_bits s i hi hout]

/-- Settles O14: each command by its own lemma; a bucket is swept way by way, and no way's write reaches another. -/
theorem tilthTable : Obligations.TilthTable :=
  ⟨egoCommit_waits, tilthSweep_sweeps, tilthClear_clears, tilthClearDone_ends⟩

end Sys2Proof.Machine
end

section
/-! What the operations of the energy governor that several commands share keep (R232 to R235): the accumulators and reservations, the
armed shots, and the registers of its block. -/

namespace Sys2Proof.Machine

variable {ps qs : List Part} {own : Nat → Bool} {s t u : State}

/-- A change of no register fits any frame that allows its parts. -/
theorem frame_of_noReg (h : frame ps noReg s t) (hp : ∀ p ∈ ps, p ∈ qs) : frame qs own s t :=
  frame_mono h hp fun _ ha => absurd ha Bool.false_ne_true

/-! ### Registers of the governor -/

theorem bankReg_quiet (b : Fin 16) : ∀ a ∈ [R.BANK_STAT b, R.BANK_MEAS b, R.BANK_CNT b], evReg a = false := by
  revert b; decide

theorem bankReg_block (b : Fin 16) : ∀ a ∈ [R.BANK_STAT b, R.BANK_MEAS b, R.BANK_CNT b], inBlocks [7] a = true := by
  revert b; decide

theorem bankReg_apart (b : Fin 16) : R.EMG_STAT ≠ R.BANK_STAT b ∧ R.BANK_MEAS b ≠ R.BANK_STAT b ∧ R.BANK_MEAS b ≠ R.EMG_STAT := by
  revert b; decide

/-! ### What leaves the governor's state or the shots as they were -/

theorem fon_emg (s : State) (a : Nat) (f : Fld) : (fon s a f).emg = s.emg := by unfold fon; split <;> rfl

theorem raise_emg (s : State) {n : Nat} (hn : n < 640) : (raise s n).emg = s.emg := (raise_frame s hn).1 .emg (by decide)

theorem rd_emg (s : State) (x : EmgState) (a : Nat) : rd { s with emg := x } a = rd s a := by unfold rd; rfl

/-- The armed shots are the same where the scheduler's state is. -/
theorem shotOf_of_sht (h : Part.sht.same s t) (q : Nat) : shotOf t q = shotOf s q := by
  have hs := congrArg ShtState.shots h
  unfold shotOf
  exact congrArg _ hs

theorem shotOf_done (s : State) (q : Nat) : shotOf (done s) q = shotOf s q := by unfold shotOf; rw [done_sht]

/-! ### The armed shots -/

theorem frame_modShot (h : frame ps own s t) (hp : Part.sht ∈ ps) (q : Nat) (f : Shot → Shot) : frame ps own s (modShot t q f) := by
  refine frame_trans h ⟨fun p hn => ?_, fun a _ => rfl⟩
  cases p
  case sht => exact absurd hp hn
  case capture | tb => exact ⟨rfl, rfl⟩
  all_goals rfl

/-- A shot that has been changed is found under its SEQ. -/
theorem shotOf_modShot {q : Nat} {x : Shot} (hx : shotOf s q = some x) (f : Shot → Shot) (hf : ∀ y : Shot, (f y).msg.seq = y.msg.seq) :
    shotOf (modShot s q f) q = some (f x) := by
  have hseq : x.msg.seq = q := by simpa using List.find?_some hx
  have hkey : (fun y : Shot => decide (y.msg.seq = q)) ∘ (fun y => if y.msg.seq = q then f y else y) = fun y => decide (y.msg.seq = q) := by
    funext y
    simp only [Function.comp_apply]
    split
    · rw [hf]
    · rfl
  unfold shotOf modShot at *
  rw [List.find?_map, hkey, hx, Option.map_some, if_pos hseq]

/-! ### Inhibits (R235) -/

/-- A bank may have been inhibited, and a flag of EMG_STAT raised; of the governor's state only the inhibit's first cycle has changed. -/
structure MayInhibit (b : Fin 16) (s t : State) : Prop where
  shown : frame (.emg :: evParts) (onlyEv [R.EMG_STAT, R.BANK_STAT b]) s t
  kept : t.emg = { s.emg with inhFrom := t.emg.inhFrom }

theorem MayInhibit.refl (b : Fin 16) (s : State) : MayInhibit b s s := ⟨frame_refl .., rfl⟩

theorem MayInhibit.trans {b : Fin 16} (h : MayInhibit b s t) (k : MayInhibit b t u) : MayInhibit b s u :=
  ⟨frame_trans h.shown k.shown, k.kept.trans (by rw [h.kept])⟩

theorem flagRaise_may (b : Fin 16) (s : State) (f : Fld) {n : Nat} (hn : n < 640) : MayInhibit b s (flagRaise s R.EMG_STAT f n) := by
  refine ⟨frame_flagRaise (frame_refl ..) (by simp [onlyEv]) f hn (fun p h => List.mem_cons_of_mem _ h) (onlyEv_ev _), ?_⟩
  rw [flagRaise, raise_emg _ hn, fon_emg]

theorem bankInhibit_frame (b : Fin 16) (s : State) (cause : Nat) :
    frame (.emg :: evParts) (onlyEv [R.BANK_STAT b]) s (bankInhibit s b cause) := by
  have hown : onlyEv [R.BANK_STAT b] (R.BANK_STAT b) = true := by simp [onlyEv]
  unfold bankInhibit
  split
  · exact frame_refl ..
  · exact frame_raise (frame_fset (frame_emg (frame_fset (frame_fon (frame_refl ..) hown _) hown _ _) (by simp) _) hown _ _) (by omega)
      (fun p h => List.mem_cons_of_mem _ h) (onlyEv_ev _)

theorem bankInhibit_may (b : Fin 16) (s : State) (cause : Nat) : MayInhibit b s (bankInhibit s b cause) := by
  refine ⟨frame_mono (bankInhibit_frame b s cause) (fun _ h => h) fun a ha => ?_, ?_⟩
  · simp only [onlyEv, Bool.or_eq_true, decide_eq_true_eq, List.mem_cons] at ha ⊢
    exact ha.imp_left .inr
  · unfold bankInhibit
    split
    · rfl
    · rw [raise_emg _ (by omega)]
      rfl

theorem bankInhibit_inhibits (b : Fin 16) (s : State) (cause : Nat) :
    flag (bankInhibit s b cause) (R.BANK_STAT b) F.BANK_STAT_INH = true := by
  unfold bankInhibit
  split
  · assumption
  · rw [flag_of_rd ((raise_frame _ (by omega)).2 _ (bankReg_quiet b _ (by simp))),
      flag_fset_ne _ _ _ (by decide) (by decide) (by decide) (by decide)]
    show flag (fset (fon s _ _) _ _ cause) _ _ = true
    rw [flag_fset_ne _ _ _ (by decide) (by decide) (by decide) (by decide)]
    exact flag_fon_same _ _ _ rfl (by decide)

theorem MayInhibit.rd {b : Fin 16} (h : MayInhibit b s t) {a : Nat} (he : evReg a = false) (hs : a ≠ R.EMG_STAT) (hb : a ≠ R.BANK_STAT b) :
    rd t a = rd s a := h.shown.2 a (by simp [onlyEv, he, hs, hb])

theorem MayInhibit.block {b : Fin 16} (h : MayInhibit b s t) : frame (.emg :: evParts) (inBlocks [7]) s t := by
  refine frame_mono h.shown (fun p hp => hp) fun a ha => ?_
  simp only [onlyEv, Bool.or_eq_true, decide_eq_true_eq, List.mem_cons, List.not_mem_nil, or_false] at ha
  rcases ha with (rfl | rfl) | ha
  · decide
  · exact bankReg_block b _ (by simp)
  · exact inBlocks_ev _ a ha

/-! ### Reservations (R232) -/

/-- The governor's block may have changed, and its events; the accumulators of the emitters and the reservations are as they were. -/
structure SumsKept (s t : State) : Prop where
  shown : frame (.emg :: evParts) (inBlocks [7]) s t
  resv : t.emg.resv = s.emg.resv
  emit : t.emg.emit = s.emg.emit

theorem MayInhibit.sums {b : Fin 16} (h : MayInhibit b s t) : SumsKept s t :=
  ⟨h.block, by rw [h.kept], by rw [h.kept]⟩

theorem sumsKept_refl (s : State) : SumsKept s s := ⟨frame_refl .., rfl, rfl⟩

theorem SumsKept.fset (h : SumsKept s t) {a : Nat} (ha : inBlocks [7] a = true) (f : Fld) (v : Nat) : SumsKept s (fset t a f v) :=
  ⟨frame_fset h.shown ha f v, h.resv, h.emit⟩

theorem SumsKept.finc (h : SumsKept s t) {a : Nat} (ha : inBlocks [7] a = true) (f : Fld) : SumsKept s (finc t a f) := h.fset ha f _

theorem SumsKept.fon (h : SumsKept s t) {a : Nat} (ha : inBlocks [7] a = true) (f : Fld) : SumsKept s (fon t a f) :=
  ⟨frame_fon h.shown ha f, by rw [fon_emg, h.resv], by rw [fon_emg, h.emit]⟩

/-- The reservation of the shot q has been replaced by the energy e. -/
structure Charges (q e : Nat) (s t : State) : Prop where
  shown : frame (.emg :: evParts) (inBlocks [7]) s t
  freed : ∀ r ∈ t.emg.resv, r.seq ≠ q
  charged : ∀ r, s.emg.resv.find? (fun r => r.seq = q) = some r →
    emAcc t r.emitter = (emAcc s r.emitter).change r.msBin r.dsBin e r.amount

theorem settleResv_emg (s : State) (q e : Nat) : frame [.emg] noReg s (settleResv s q e) := by
  unfold settleResv
  split
  · exact frame_refl ..
  · exact frame_emg (frame_emg (frame_refl ..) (by decide) _) (by decide) _

theorem settleResv_act (s : State) (q e : Nat) : (settleResv s q e).emg.act = s.emg.act := by unfold settleResv; split <;> rfl

theorem settleResv_charges (s : State) (q e : Nat) : Charges q e s (settleResv s q e) where
  shown := frame_of_noReg (settleResv_emg s q e) (by simp)
  freed := by
    unfold settleResv
    split
    · next h => simpa using h
    · exact fun r hr => by simpa using (List.mem_filter.mp hr).2
  charged r hr := by
    unfold settleResv
    rw [hr]
    exact tget_tput_same ..

theorem Charges.after {q e : Nat} (h : Charges q e s t) (k : SumsKept t u) : Charges q e s u where
  shown := frame_trans h.shown k.shown
  freed := k.resv ▸ h.freed
  charged r hr := by rw [← h.charged r hr, emAcc, emAcc, k.emit]

theorem Charges.before {q e : Nat} (k : Charges q e t u) (h : SumsKept s t) : Charges q e s u where
  shown := frame_trans h.shown k.shown
  freed := k.freed
  charged r hr := by rw [k.charged r (h.resv.symm ▸ hr), emAcc, emAcc, h.emit]

end Sys2Proof.Machine
end

section
/-! O17: the windows of the accumulators (R236), the samples of a pulse (R233), its settlement (R232, R234, R235) and the monitor of the
banks (R235). -/

namespace Sys2Proof.Machine

variable {s t : State}

/-! ### EMG_BIN_BOUNDARY -/

/-- The accumulators once the bins that have left their windows are dropped. -/
def accsPruned (s : State) (l : List (Nat × Acc)) : List (Nat × Acc) :=
  (l.map (fun p => (p.1, p.2.prune (curMs s) (curDs s)))).filter (fun p => p.2 ≠ Acc.init)

theorem exec_emgBinBoundary (s : State) : exec .emgBinBoundary s = .next (done { s with emg := { s.emg with
    emit := accsPruned s s.emg.emit, sect := accsPruned s s.emg.sect, msBin := curMs s, dsBin := curDs s } }) := rfl

theorem mem_accsPruned {l : List (Nat × Acc)} {p : Nat × Acc} :
    p ∈ accsPruned s l ↔ (∃ q ∈ l, (q.1, q.2.prune (curMs s) (curDs s)) = p) ∧ p.2 ≠ Acc.init := by
  simp [accsPruned]

/-- A bin that has left its window has no part in the sum. -/
theorem windowSum_filter (l : List (Nat × Nat)) (cur : Nat) : windowSum (l.filter (fun p => cur ≤ p.1 + 100)) cur = windowSum l cur := by
  unfold windowSum
  rw [List.filter_filter]
  congr 3
  funext p
  cases decide (cur ≤ p.1 + 100) <;> simp

theorem a100_prune (s : State) (a : Acc) : a100 s (a.prune (curMs s) (curDs s)) = a100 s a := windowSum_filter ..
theorem a10s_prune (s : State) (a : Acc) : a10s s (a.prune (curMs s) (curDs s)) = a10s s a := windowSum_filter ..

/-- The windows move with the timebase alone. -/
theorem a100_of_tb (h : t.tb = s.tb) (a : Acc) : a100 t a = a100 s a := by unfold a100 curMs now; rw [h]
theorem a10s_of_tb (h : t.tb = s.tb) (a : Acc) : a10s t a = a10s s a := by unfold a10s curDs now; rw [h]

theorem emgBinBoundary_drops (s : State) : ∃ t, exec .emgBinBoundary s = .next t ∧ t.emg.msBin = curMs s ∧ t.emg.dsBin = curDs s ∧
    (∀ p ∈ t.emg.emit, ∃ q ∈ s.emg.emit, q.1 = p.1 ∧ a100 t p.2 = a100 s q.2 ∧ a10s t p.2 = a10s s q.2) ∧
    (∀ q ∈ s.emg.emit, a100 s q.2 ≠ 0 → ∃ p ∈ t.emg.emit, p.1 = q.1 ∧ a100 t p.2 = a100 s q.2) ∧
    t.emg.resv = s.emg.resv ∧ frame [.emg] noReg s t := by
  refine ⟨_, exec_emgBinBoundary s, ?_⟩
  rw [done_emg]
  refine ⟨rfl, rfl, fun p hp => ?_, fun q hq hsum => ?_, rfl, frame_done (frame_emg (frame_refl ..) (by decide) _)⟩
  · obtain ⟨⟨q, hq, rfl⟩, -⟩ := mem_accsPruned.mp hp
    exact ⟨q, hq, rfl, (a100_of_tb (done_tb _) _).trans (a100_prune s q.2), (a10s_of_tb (done_tb _) _).trans (a10s_prune s q.2)⟩
  · refine ⟨(q.1, q.2.prune (curMs s) (curDs s)), mem_accsPruned.mpr ⟨⟨q, hq, rfl⟩, fun hinit => hsum ?_⟩, rfl,
      (a100_of_tb (done_tb _) _).trans (a100_prune s q.2)⟩
    exact (a100_prune s q.2).symm.trans (congrArg (a100 s) hinit)

/-! ### V_PRE_SAMPLE and V_POST_SAMPLE -/

theorem exec_vPreSample {q : BitVec 48} {v : BitVec 14} {x : Shot} (hx : shotOf s q.toNat = some x) (ht : vPreAt x.msg.fire ≤ 128 * now s) :
    exec (.vPreSample q v) s = .next (done (if x.msg.withheld = true then s
      else modShot s q.toNat (fun y => { y with vpre := some v.toNat }))) := by
  show execVPreSample q v s = _
  unfold execVPreSample
  rw [hx]
  cases hw : x.msg.withheld <;> simp [hw, ht]

theorem vPreSample_samples (q : BitVec 48) (v : BitVec 14) (x : Shot) (s : State) (hx : shotOf s q.toNat = some x)
    (ht : vPreAt x.msg.fire ≤ 128 * now s) :
    ∃ t, exec (.vPreSample q v) s = .next t ∧ (x.msg.withheld = true → frame [] noReg s t) ∧
      (x.msg.withheld = false → shotOf t q.toNat = some { x with vpre := some v.toNat }) ∧ frame [.sht] noReg s t := by
  refine ⟨_, exec_vPreSample hx ht, ?_⟩
  cases hw : x.msg.withheld with
  | true =>
    rw [if_pos rfl]
    exact ⟨fun _ => frame_off s, nofun, frame_done (frame_refl ..)⟩
  | false =>
    rw [if_neg (by decide)]
    refine ⟨nofun, fun _ => ?_, frame_done (frame_modShot (frame_refl ..) (by decide) _ _)⟩
    rw [shotOf_done]
    exact shotOf_modShot hx _ fun _ => rfl

theorem exec_vPostSample {q : BitVec 48} {v : BitVec 14} {x : Shot} {fb : Nat} (hx : shotOf s q.toNat = some x) (hfb : x.fbTick = some fb)
    (ht : vPostAt s x.bank fb ≤ 128 * now s) : exec (.vPostSample q v) s = .next (done (if x.ok = some false then s
      else postNote (modShot s q.toNat (fun y => { y with vpost := some v.toNat, skip := measSkip s x fb })) x.bank x.msg.fire
        (vPostAt s x.bank fb))) := by
  show execVPostSample q v s = _
  unfold execVPostSample
  rw [hx]
  simp only [hfb, ht, true_and, ne_eq, ite_not]
  rfl

theorem frame_postNote {ps : List Part} {own : Nat → Bool} (h : frame ps own s t) (hp : Part.emg ∈ ps) (b fire post : Nat) :
    frame ps own s (postNote t b fire post) := frame_emg h hp _

theorem vPostSample_samples (q : BitVec 48) (v : BitVec 14) (x : Shot) (fb : Nat) (s : State) (hx : shotOf s q.toNat = some x)
    (hfb : x.fbTick = some fb) (ht : vPostAt s x.bank fb ≤ 128 * now s) :
    ∃ t, exec (.vPostSample q v) s = .next t ∧ (x.ok = some false → frame [] noReg s t) ∧
      (x.ok ≠ some false → shotOf t q.toNat = some { x with vpost := some v.toNat, skip := measSkip s x fb }) ∧
      frame [.sht, .emg] noReg s t := by
  refine ⟨_, exec_vPostSample hx hfb ht, ?_⟩
  by_cases hok : x.ok = some false
  · rw [if_pos hok]
    exact ⟨fun _ => frame_off s, fun h => absurd hok h, frame_done (frame_refl ..)⟩
  · rw [if_neg hok]
    refine ⟨fun h => absurd h hok, fun _ => ?_, frame_done (frame_postNote (frame_modShot (frame_refl ..) (by decide) _ _) (by decide) _ _ _)⟩
    rw [shotOf_done]
    exact shotOf_modShot hx (fun y => { y with vpost := some v.toNat, skip := measSkip s x fb }) fun _ => rfl

/-! ### Settlement -/

/-- The shot of a SEQ is marked as settled, and the governor has settled in this tile cycle (R240). -/
def shotMarked (s : State) (q : Nat) : State := govDid (modShot s q (fun y => { y with settled := true })) 2

theorem shotMarked_frame (s : State) (q : Nat) : frame [.sht, .emg] noReg s (shotMarked s q) :=
  frame_emg (frame_modShot (frame_refl ..) (by decide) _ _) (by decide) _

theorem shotOf_shotMarked {q : Nat} {x : Shot} (hx : shotOf s q = some x) : shotOf (shotMarked s q) q = some { x with settled := true } :=
  shotOf_modShot hx (fun y => { y with settled := true }) fun _ => rfl

section
variable (s) (x : Shot)

/-- A measured shot is charged and its run of R235 counted; the limits are not judged yet. -/
def measuredCharged (e : Nat) : State :=
  let s := fset s (R.BANK_MEAS x.bank) F.BANK_MEAS_E_LAST (satN 16 e)
  let s := settleResv s x.msg.seq (max e (eFloor s))
  { s with emg := { s.emg with
    senseRun := tput 0 s.emg.senseRun x.bank (if e < eFloor s then tget 0 s.emg.senseRun x.bank + 1 else 0) } }

theorem settleMeasured_eq (e : Nat) : settleMeasured s x e =
    if e1Max (measuredCharged s x e) < e then
      bankInhibit (flagRaise (measuredCharged s x e) R.EMG_STAT F.EMG_STAT_OVER_PULSE 532) x.bank 1
    else if 8 ≤ tget 0 (measuredCharged s x e).emg.senseRun x.bank then bankInhibit (measuredCharged s x e) x.bank 3
    else measuredCharged s x e := rfl

theorem settleMeasured_may (e : Nat) : MayInhibit x.bank (measuredCharged s x e) (settleMeasured s x e) := by
  rw [settleMeasured_eq]
  split
  · exact (flagRaise_may _ _ _ (by decide)).trans (bankInhibit_may ..)
  · split
    · exact bankInhibit_may ..
    · exact MayInhibit.refl ..

theorem e1Max_measuredCharged (e : Nat) : e1Max (measuredCharged s x e) = e1Max s := by
  have hact : (measuredCharged s x e).emg.act = s.emg.act := settleResv_act ..
  unfold e1Max sealFld sealWord
  rw [hact]

theorem measuredCharged_charges (e : Nat) : Charges x.msg.seq (max e (eFloor s)) s (measuredCharged s x e) :=
  ((settleResv_charges ..).before ((sumsKept_refl s).fset (bankReg_block x.bank _ (by simp)) _ _)).after
    ⟨frame_emg (frame_refl ..) (by decide) _, rfl, rfl⟩

theorem measuredCharged_last (e : Nat) : fget (measuredCharged s x e) (R.BANK_MEAS x.bank) F.BANK_MEAS_E_LAST = satN 16 e := by
  have hrd : rd (measuredCharged s x e) (R.BANK_MEAS x.bank) = rd (fset s (R.BANK_MEAS x.bank) F.BANK_MEAS_E_LAST (satN 16 e)) (R.BANK_MEAS x.bank) :=
    (settleResv_emg ..).2 _ rfl
  rw [fget_of_rd hrd, fget_fset_same _ _ _ _ (by decide) (by decide)]
  exact Nat.mod_eq_of_lt (Nat.lt_of_le_of_lt (Nat.min_le_right ..) (by decide))

theorem settleMeasured_last (e : Nat) : fget (settleMeasured s x e) (R.BANK_MEAS x.bank) F.BANK_MEAS_E_LAST = satN 16 e := by
  obtain ⟨-, hstat, hemg⟩ := bankReg_apart x.bank
  rw [fget_of_rd ((settleMeasured_may s x e).rd (bankReg_quiet x.bank _ (by simp)) hemg hstat), measuredCharged_last]

theorem settleMeasured_over {e : Nat} (h : e1Max s < e) : flag (settleMeasured s x e) (R.BANK_STAT x.bank) F.BANK_STAT_INH = true := by
  rw [settleMeasured_eq, if_pos (by rwa [e1Max_measuredCharged])]
  exact bankInhibit_inhibits ..

/-- E_c of a shot (R234): E_meas of a measured shot, at least EFLOOR, and else E1_MAX. -/
def chargedEnergy : Nat :=
  if x.ok = some true ∧ x.skip = false then max (eMeas s x.bank (x.vpre.getD 0) (x.vpost.getD 0)) (eFloor s) else e1Max s

end

section
variable {x : Shot}

theorem settleShot_unmeasured (h : x.ok ≠ some true) : settleShot s x =
    finc (settleResv (shotMarked s x.msg.seq) x.msg.seq (e1Max s)) (R.BANK_CNT x.bank) F.BANK_CNT_UNMEAS := by
  unfold settleShot
  split
  · contradiction
  · rfl

theorem settleShot_skipped (h : x.ok = some true) (hs : x.skip = true) : settleShot s x =
    settleResv (fon (finc (shotMarked s x.msg.seq) (R.BANK_CNT x.bank) F.BANK_CNT_MEAS_SKIP) R.EMG_STAT F.EMG_STAT_MEAS_SKIP) x.msg.seq
      (e1Max s) := by
  unfold settleShot
  rw [h]
  exact (if_pos hs).trans rfl

theorem settleShot_measured (h : x.ok = some true) (hs : x.skip = false) : settleShot s x =
    settleMeasured (shotMarked s x.msg.seq) x (eMeas s x.bank (x.vpre.getD 0) (x.vpost.getD 0)) := by
  unfold settleShot
  rw [h]
  exact (if_neg (by simp [hs])).trans rfl

/-- A settlement replaces the reservation by E_c (R232). -/
theorem settleShot_charges (s : State) (x : Shot) :
    Charges x.msg.seq (chargedEnergy s x) (shotMarked s x.msg.seq) (settleShot s x) := by
  have hcnt := bankReg_block x.bank (R.BANK_CNT x.bank) (by simp)
  unfold chargedEnergy
  by_cases hok : x.ok = some true
  · cases hs : x.skip with
    | true =>
      rw [if_neg (by simp), settleShot_skipped hok hs]
      exact (settleResv_charges ..).before (((sumsKept_refl _).finc hcnt _).fon (by decide) _)
    | false =>
      rw [if_pos ⟨hok, rfl⟩, settleShot_measured hok hs]
      exact (measuredCharged_charges (shotMarked s x.msg.seq) x _).after (settleMeasured_may ..).sums
  · rw [if_neg (fun h => hok h.1), settleShot_unmeasured hok]
    exact (settleResv_charges ..).after ((sumsKept_refl _).finc hcnt _)

theorem settleShot_unmeas (h : x.ok ≠ some true) : fget (settleShot s x) (R.BANK_CNT x.bank) F.BANK_CNT_UNMEAS =
    satN F.BANK_CNT_UNMEAS.width (fget s (R.BANK_CNT x.bank) F.BANK_CNT_UNMEAS + 1) := by
  rw [settleShot_unmeasured h, finc, fget_fadd_same _ _ _ _ (by decide) (by decide), fget_of_rd ((settleResv_emg ..).2 _ rfl),
    fget_of_rd ((shotMarked_frame ..).2 _ rfl)]

theorem settleShot_measSkip (h : x.ok = some true) (hs : x.skip = true) : flag (settleShot s x) R.EMG_STAT F.EMG_STAT_MEAS_SKIP = true := by
  rw [settleShot_skipped h hs, flag_of_rd ((settleResv_emg ..).2 _ rfl)]
  exact flag_fon_same _ _ _ rfl (by decide)

end

theorem exec_shotSettle {q : BitVec 48} {x : Shot} (hx : shotOf s q.toNat = some x) (hr : settleReady s x = true) (ht : govTurn s 2 = true)
    (hfirst : ∀ y ∈ s.sht.shots, settleReady s y = true → x.msg.fire ≤ y.msg.fire) :
    exec (.shotSettle q) s = .next (done (settleShot s x)) := by
  have hall : s.sht.shots.all (fun y => !settleReady s y || decide (x.msg.fire ≤ y.msg.fire)) = true := by
    refine List.all_eq_true.mpr fun y hy => ?_
    cases hy' : settleReady s y with
    | false => rfl
    | true => simpa using hfirst y hy hy'
  show execShotSettle q s = _
  unfold execShotSettle
  rw [hx]
  simp only [hr, ht, hall, Bool.and_self, if_true]

theorem emAcc_done (s : State) (e : Nat) : emAcc (done s) e = emAcc s e := by unfold emAcc; rw [done_emg]

theorem shotSettle_settles (q : BitVec 48) (x : Shot) (s : State) (hx : shotOf s q.toNat = some x) (hr : settleReady s x = true)
    (ht : govTurn s 2 = true) (hfirst : ∀ y ∈ s.sht.shots, settleReady s y = true → x.msg.fire ≤ y.msg.fire) :
    ∃ t, exec (.shotSettle q) s = .next t ∧ shotOf t q.toNat = some { x with settled := true } ∧
      (∀ r ∈ t.emg.resv, r.seq ≠ q.toNat) ∧
      (x.ok = some false → fget t (R.BANK_CNT x.bank) F.BANK_CNT_UNMEAS =
        satN F.BANK_CNT_UNMEAS.width (fget s (R.BANK_CNT x.bank) F.BANK_CNT_UNMEAS + 1)) ∧
      (∀ r, x.ok = some false → s.emg.resv.find? (fun r => r.seq = q.toNat) = some r →
        emAcc t r.emitter = (emAcc s r.emitter).change r.msBin r.dsBin (e1Max s) r.amount) ∧
      (x.ok = some true → x.skip = true → flag t R.EMG_STAT F.EMG_STAT_MEAS_SKIP = true) ∧
      (∀ pre post, x.ok = some true → x.skip = false → x.vpre = some pre → x.vpost = some post →
        fget t (R.BANK_MEAS x.bank) F.BANK_MEAS_E_LAST = satN 16 (eMeas s x.bank pre post) ∧
        (e1Max s < eMeas s x.bank pre post → flag t (R.BANK_STAT x.bank) F.BANK_STAT_INH = true) ∧
        (∀ r, s.emg.resv.find? (fun r => r.seq = q.toNat) = some r →
          emAcc t r.emitter = (emAcc s r.emitter).change r.msBin r.dsBin (max (eMeas s x.bank pre post) (eFloor s)) r.amount)) ∧
      frame (.sht :: .emg :: evParts) (inBlocks [7]) s t := by
  have hq : x.msg.seq = q.toNat := by simpa using List.find?_some hx
  have hc := settleShot_charges s x
  have hmark := shotOf_shotMarked hx
  refine ⟨_, exec_shotSettle hx hr ht hfirst, ?_⟩
  simp only [fget_done, flag_done, done_emg, emAcc_done]
  rw [← hq] at hmark ⊢
  refine ⟨?_, hc.freed, fun hok => settleShot_unmeas (by simp [hok]), fun r hok hres => ?_, settleShot_measSkip,
    fun pre post hok hs hpre hpost => ?_, frame_done (frame_trans (frame_of_noReg (shotMarked_frame ..) (by simp))
      (frame_mono hc.shown (fun p h => List.mem_cons_of_mem _ h) (fun _ h => h)))⟩
  · rw [shotOf_done, shotOf_of_sht (hc.shown.1 .sht (by decide)), hmark]
  · have hce : chargedEnergy s x = e1Max s := if_neg (by simp [hok])
    exact hce ▸ hc.charged r hres
  · have hce : chargedEnergy s x = max (eMeas s x.bank pre post) (eFloor s) := by simp [chargedEnergy, hok, hs, hpre, hpost]
    refine ⟨?_, fun hover => ?_, fun r hres => hce ▸ hc.charged r hres⟩
    · rw [settleShot_measured hok hs, settleMeasured_last, hpre, hpost]; rfl
    · rw [settleShot_measured hok hs, hpre, hpost]
      exact settleMeasured_over _ x hover

/-! ### STORE_MONITOR_SAMPLE -/

section
variable (s) (b : Fin 16) (v : BitVec 14)

/-- The stored energy of bank b at the sense code v exceeds ESTORE_MAX (R235). -/
def storePast : Bool :=
  decide (sealFld s (R.BANK_CFG b) F.BANK_CFG_ESTORE_MAX * 100 * (2 * vSqDen) <
    sealFld s (R.BANK_CAL b) F.BANK_CAL_CRES * 25 * senseSq s b v.toNat)

/-- The run of samples above ESTORE_MAX that ends with this one. -/
def storeRunNow : Nat := if storePast s b v then tget 0 s.emg.storeRun b + 1 else 0

/-- The monitor has taken a sample: its code and the run. -/
def monitorTaken : State :=
  let u := fset (govDid s 3) (R.BANK_MEAS b) F.BANK_MEAS_VNOW v.toNat
  { u with emg := { u.emg with storeRun := tput 0 u.emg.storeRun b (storeRunNow s b v) } }

/-- The sample is judged: three above ESTORE_MAX inhibit the bank. -/
def monitorJudged : State :=
  if 3 ≤ storeRunNow s b v then bankInhibit (flagRaise (monitorTaken s b v) R.EMG_STAT F.EMG_STAT_STORE_OVER 533) b 2
  else monitorTaken s b v

theorem exec_storeMonitorSample : exec (.storeMonitorSample b v) s =
    .next (done (if measPending s b || !govTurn s 3 then s else monitorJudged s b v)) := rfl

theorem monitorTaken_frame : frame (.emg :: evParts) (inBlocks [7]) s (monitorTaken s b v) :=
  frame_emg (frame_fset (frame_emg (frame_refl ..) (by decide) _) (bankReg_block b _ (by simp)) _ _) (by decide) _

theorem monitorJudged_may : MayInhibit b (monitorTaken s b v) (monitorJudged s b v) := by
  unfold monitorJudged
  split
  · exact (flagRaise_may _ _ _ (by decide)).trans (bankInhibit_may ..)
  · exact MayInhibit.refl ..

theorem monitorJudged_vnow : fget (monitorJudged s b v) (R.BANK_MEAS b) F.BANK_MEAS_VNOW = v.toNat := by
  obtain ⟨-, hstat, hemg⟩ := bankReg_apart b
  have hv : fget (monitorTaken s b v) (R.BANK_MEAS b) F.BANK_MEAS_VNOW = v.toNat := by
    rw [monitorTaken, fget_of_rd (rd_emg ..), fget_fset_same _ _ _ _ (by decide) (by decide)]
    exact Nat.mod_eq_of_lt v.isLt
  rw [fget_of_rd ((monitorJudged_may s b v).rd (bankReg_quiet b _ (by simp)) hemg hstat), hv]

variable {s b v}

theorem monitorJudged_over (hrun : 2 ≤ tget 0 s.emg.storeRun b) (hpast : storePast s b v = true) :
    flag (monitorJudged s b v) (R.BANK_STAT b) F.BANK_STAT_INH = true ∧
    flag (monitorJudged s b v) R.EMG_STAT F.EMG_STAT_STORE_OVER = true := by
  have h3 : 3 ≤ storeRunNow s b v := by
    rw [storeRunNow, if_pos hpast]
    omega
  rw [monitorJudged, if_pos h3]
  obtain ⟨hstat, -, -⟩ := bankReg_apart b
  have hquiet : evReg R.EMG_STAT = false := by decide
  refine ⟨bankInhibit_inhibits .., ?_⟩
  rw [flag_of_rd ((bankInhibit_frame b _ 2).2 _ (by simp [onlyEv, hstat, hquiet]))]
  exact flag_flagRaise_same _ _ (by decide) rfl (by decide) hquiet

end

theorem storeMonitorSample_monitors (b : Fin 16) (v : BitVec 14) (s : State) : ∃ t, exec (.storeMonitorSample b v) s = .next t ∧
    (measPending s b = true ∨ govTurn s 3 = false → frame [] noReg s t) ∧
    (measPending s b = false → govTurn s 3 = true → fget t (R.BANK_MEAS b) F.BANK_MEAS_VNOW = v.toNat) ∧
    (measPending s b = false → govTurn s 3 = true → 2 ≤ tget 0 s.emg.storeRun b → sealFld s (R.BANK_CFG b) F.BANK_CFG_ESTORE_MAX * 100 * (2 * vSqDen) <
        sealFld s (R.BANK_CAL b) F.BANK_CAL_CRES * 25 * senseSq s b v.toNat →
      flag t (R.BANK_STAT b) F.BANK_STAT_INH = true ∧ flag t R.EMG_STAT F.EMG_STAT_STORE_OVER = true) ∧
    frame (.emg :: evParts) (inBlocks [7]) s t := by
  refine ⟨_, exec_storeMonitorSample s b v, ?_⟩
  cases hoff : measPending s b || !govTurn s 3 with
  | true =>
    rw [if_pos rfl]
    have hno : measPending s b = false → govTurn s 3 ≠ true := fun hp ht => by simp [hp, ht] at hoff
    exact ⟨fun _ => frame_off s, fun hp ht => absurd ht (hno hp), fun hp ht => absurd ht (hno hp), frame_done (frame_refl ..)⟩
  | false =>
    have hon : ¬ (measPending s b = true ∨ govTurn s 3 = false) := by simpa using hoff
    rw [if_neg (by decide)]
    simp only [fget_done, flag_done]
    exact ⟨fun h => absurd h hon, fun _ _ => monitorJudged_vnow s b v,
      fun _ _ hrun hpast => monitorJudged_over hrun (decide_eq_true hpast),
      frame_done (frame_trans (monitorTaken_frame s b v) (monitorJudged_may s b v).block)⟩

/-- Settles O17: each command by its own lemma; every settlement, measured or not, charges E_c of R234 in place of the reservation. -/
theorem pulseEnergy : Obligations.PulseEnergy :=
  ⟨emgBinBoundary_drops, vPreSample_samples, vPostSample_samples, shotSettle_settles, storeMonitorSample_monitors⟩

end Sys2Proof.Machine
end

section
/-! The flash (R440) and its records (R441): what is read after bytes are erased and programmed, and what the write of a record leaves. -/

namespace Sys2Proof.Machine

variable {s t : State}

/-- Bytes that are programmed from an offset upwards leave every other byte of a table as it was. -/
theorem tget_programmed_out (d : Byte) (a : Nat) {x : Nat} : ∀ (l : List Byte) (k : Nat) (m : List (Nat × Byte)),
    x < a + k ∨ a + k + l.length ≤ x → tget d ((l.zipIdx k).foldl (fun m p => tput d m (a + p.2) p.1) m) x = tget d m x := by
  intro l
  induction l with
  | nil => exact fun _ _ _ => rfl
  | cons b l ih =>
    intro k m h
    rw [List.length_cons] at h
    rw [List.zipIdx_cons, List.foldl_cons, ih (k + 1) _ (by omega), tget_tput_ne _ _ _ _ (by omega)]

/-- Each programmed byte reads as it was programmed. -/
theorem tget_programmed_in (d : Byte) (a : Nat) : ∀ (l : List Byte) (k : Nat) (m : List (Nat × Byte)) (i : Nat) (h : i < l.length),
    tget d ((l.zipIdx k).foldl (fun m p => tput d m (a + p.2) p.1) m) (a + k + i) = l[i] := by
  intro l
  induction l with
  | nil => exact fun _ _ i h => absurd h (Nat.not_lt_zero i)
  | cons b l ih =>
    intro k m i h
    rw [List.zipIdx_cons, List.foldl_cons]
    cases i with
    | zero => rw [tget_programmed_out d a l (k + 1) _ (by omega)]; exact tget_tput_same ..
    | succ i => rw [show a + k + (i + 1) = a + (k + 1) + i by omega, ih (k + 1) _ i (by simpa using h), List.getElem_cons_succ]

theorem flashGet_flashPut_out (s : State) {a x : Nat} (l : List Byte) (h : x < a ∨ a + l.length ≤ x) :
    flashGet (flashPut s a l) x = flashGet s x := tget_programmed_out _ a l 0 _ h

theorem flashBytes_flashPut (s : State) (a : Nat) (l : List Byte) : flashBytes (flashPut s a l) a l.length = l := by
  refine List.ext_getElem (by simp [flashBytes]) fun i h _ => ?_
  simp only [flashBytes, List.getElem_map, List.getElem_range]
  exact tget_programmed_in _ a l 0 _ i (by simpa [flashBytes] using h)

theorem flashGet_flashErase_out (s : State) {a n x : Nat} (h : x < a ∨ a + n ≤ x) : flashGet (flashErase s a n) x = flashGet s x := by
  unfold flashGet flashErase tget
  rw [lookup_filter_out fun _ => by simpa using h]

/-- What is read of the flash rests on its bytes alone. -/
theorem flashGet_of_flash (h : t.sec.flash = s.sec.flash) (x : Nat) : flashGet t x = flashGet s x := by unfold flashGet; rw [h]

theorem flashBytes_of_flash (h : t.sec.flash = s.sec.flash) (a n : Nat) : flashBytes t a n = flashBytes s a n := by
  unfold flashBytes; simp only [flashGet_of_flash h]

/-- The flash once bytes are programmed from an offset whose sector is erased. -/
def sectorWritten (s : State) (a : Nat) (b : List Byte) : State := flashPut (flashErase s a 0x10000) a b

theorem recWrite_sec {kind k q : Nat} (h : (k, q) = (lookup s.sec.inForce kind).getD (1, 0)) (payload block : List Byte) :
    (recWrite s kind payload block).sec =
      let u := sectorWritten s (areaBase kind + 0x10000 * (1 - k)) (recBytes s kind ((q + 1) % 2 ^ 32) (recPad payload) block)
      { u.sec with inForce := insertKey (eraseKey u.sec.inForce kind) kind (1 - k, (q + 1) % 2 ^ 32), flashAt := now s } := by
  unfold recWrite
  rw [← h]
  rfl

/-- The write of a record leaves it in the slot that was not in force (R441). -/
theorem recWrite_records (s : State) (kind : Nat) (payload block : List Byte) :
    recordWritten kind payload block s (recWrite s kind payload block) := by
  intro k q at_ b hk ha hb
  have hsec := recWrite_sec hk payload block
  rw [← ha, ← hb] at hsec
  have hflash : (recWrite s kind payload block).sec.flash = (sectorWritten s at_ b).sec.flash := by rw [hsec]
  refine ⟨?_, ?_, fun x hx => ?_⟩
  · rw [hsec]
    exact lookup_insertKey_same _ _ _ (lookup_eraseKey_same ..)
  · rw [flashBytes_of_flash hflash]
    exact flashBytes_flashPut ..
  · rw [flashGet_of_flash hflash, sectorWritten, flashGet_flashPut_out _ _ (by omega), flashGet_flashErase_out _ (by omega)]

theorem recWrite_frame (s : State) (kind : Nat) (payload block : List Byte) : frame [.sec] noReg s (recWrite s kind payload block) :=
  frame_sec (frame_sec (frame_sec (frame_refl ..) (by decide) _) (by decide) _) (by decide) _

theorem recBytes_of_sec (h : t.sec = s.sec) (kind n : Nat) (payload block : List Byte) :
    recBytes t kind n payload block = recBytes s kind n payload block := by unfold recBytes; rw [h]

/-- The record of a state counts for any other with the same keys and flash. -/
theorem recordWritten_of_sec {s' t' : State} {kind : Nat} {payload block : List Byte} (hs : s'.sec = s.sec) (ht : t'.sec = t.sec)
    (h : recordWritten kind payload block s t) : recordWritten kind payload block s' t' := by
  intro k q at_ b hk ha hb
  obtain ⟨hforce, hbytes, hrest⟩ := h k q at_ b (hs ▸ hk) ha (hb.trans (recBytes_of_sec hs ..))
  refine ⟨ht ▸ hforce, ?_, fun x hx => ?_⟩
  · rw [flashBytes_of_flash (congrArg SecState.flash ht), hbytes]
  · rw [flashGet_of_flash (congrArg SecState.flash ht), hrest x hx, flashGet_of_flash (congrArg SecState.flash hs)]

end Sys2Proof.Machine
end

section
/-! O18: the release of a bank (R235), the commit of the sealed set (R242), the steps of a reference (R241) and the stall stop (R239). -/

namespace Sys2Proof.Machine

variable {s t : State}

/-! ### BANK_RELEASE -/

/-- The inhibit of a bank has ended, and its runs begin afresh. -/
def bankReleased (s : State) (b : Fin 16) : State :=
  let s := fset (foff s (R.BANK_STAT b) F.BANK_STAT_INH) (R.BANK_STAT b) F.BANK_STAT_CAUSE 0
  { s with emg := { s.emg with senseRun := tput 0 s.emg.senseRun b 0, storeRun := tput 0 s.emg.storeRun b 0 } }

theorem exec_bankRelease (s : State) (b : Fin 16) : exec (.bankRelease b) s = .next (done (withRwm s fun s => bankReleased s b)) := rfl

theorem bankReleased_shows (s : State) (b : Fin 16) : flag (bankReleased s b) (R.BANK_STAT b) F.BANK_STAT_INH = false ∧
    fget (bankReleased s b) (R.BANK_STAT b) F.BANK_STAT_CAUSE = 0 := by
  have hrd := rd_emg (fset (foff s (R.BANK_STAT b) F.BANK_STAT_INH) (R.BANK_STAT b) F.BANK_STAT_CAUSE 0) (bankReleased s b).emg (R.BANK_STAT b)
  refine ⟨(flag_of_rd hrd _).trans ?_, (fget_of_rd hrd _).trans ?_⟩
  · rw [flag_fset_ne _ _ _ (by decide) (by decide) (by decide) (by decide), flag_foff_same _ _ _ (by decide) (by decide)]
  · rw [fget_fset_same _ _ _ _ (by decide) (by decide), Nat.zero_mod]

theorem bankReleased_runs (s : State) (b : Fin 16) : tget 0 (bankReleased s b).emg.senseRun b = 0 ∧
    tget 0 (bankReleased s b).emg.storeRun b = 0 := ⟨tget_tput_same 0 s.emg.senseRun b 0, tget_tput_same 0 s.emg.storeRun b 0⟩

theorem bankRelease_releases (b : Fin 16) (s : State) : ∃ t, exec (.bankRelease b) s = .next t ∧
    (rwmOk s = true → flag t (R.BANK_STAT b) F.BANK_STAT_INH = false ∧ fget t (R.BANK_STAT b) F.BANK_STAT_CAUSE = 0 ∧
      tget 0 t.emg.senseRun b = 0 ∧ tget 0 t.emg.storeRun b = 0) ∧
    (rwmOk s = false → rd t (R.BANK_STAT b) = rd s (R.BANK_STAT b) ∧ t.emg = s.emg ∧ evFlag t Ev.rwmDiscard = true) ∧
    frame (.emg :: evParts) (onlyEv [R.BANK_STAT b]) s t := by
  have hown : onlyEv [R.BANK_STAT b] (R.BANK_STAT b) = true := by simp [onlyEv]
  refine ⟨_, exec_bankRelease s b, ?_⟩
  cases hr : rwmOk s with
  | true =>
    rw [withRwm_ok hr]
    obtain ⟨hinh, hcause⟩ := bankReleased_shows s b
    refine ⟨fun _ => ⟨(flag_done ..).trans hinh, (fget_done ..).trans hcause, ?_⟩, nofun,
      frame_done (frame_emg (frame_fset (frame_foff (frame_refl ..) hown _) hown _ _) (by simp) _)⟩
    rw [done_emg]
    exact bankReleased_runs s b
  | false =>
    rw [withRwm_discards hr]
    refine ⟨nofun, fun _ => ⟨?_, ?_, ?_⟩,
      frame_done (frame_raise (frame_refl ..) (by decide) (fun p h => List.mem_cons_of_mem _ h) (onlyEv_ev _))⟩
    · rw [rd_done, (raise_frame s (by decide)).2 _ (bankReg_quiet b _ (by simp))]
    · rw [done_emg, raise_emg _ (by decide)]
    · rw [evFlag_done, (rwmDiscard_refuses s).2]

/-! ### EMG_COMMIT -/

/-- An active set drives every reference that must stand at 0 V, and shows CAP_OK (R241, R242). -/
def sealShown (s : State) (words : List (Nat × Word)) : State :=
  fon (resrefForce { s with emg := { s.emg with act := words, presetDone := true } }) R.EMG_STAT F.EMG_STAT_CAP_OK

theorem resrefForce_frame (s : State) : frame [] (inBlocks [7]) s (resrefForce s) :=
  frame_foldl _ _ (fun _ b hb ht => frame_fset ht (bankReg_block ⟨b, List.mem_range.mp hb⟩ _ (by simp)) _ _) s (frame_refl ..)

theorem sealShown_frame (s : State) (words : List (Nat × Word)) : frame [.emg] (inBlocks [7]) s (sealShown s words) :=
  frame_fon (frame_trans (frame_emg (frame_refl ..) (by decide) _) (frame_mono (resrefForce_frame _) (by simp) (fun _ h => h))) (by decide) _

theorem sealShown_act (s : State) (words : List (Nat × Word)) : (sealShown s words).emg.act = words := by
  rw [sealShown, fon_emg, (resrefForce_frame _).1 .emg (by decide)]

/-- The preset of R237 changes the accumulators alone. -/
theorem sealActivate_presets (s : State) (words : List (Nat × Word)) :
    frame [.emg] noReg (sealShown s words) (sealActivate s words) ∧ (sealActivate s words).emg.act = (sealShown s words).emg.act := by
  unfold sealActivate
  dsimp only
  split
  · exact ⟨frame_emg (frame_refl ..) (by decide) _, rfl⟩
  · exact ⟨frame_refl .., rfl⟩

theorem sealActivate_frame (s : State) (words : List (Nat × Word)) : frame [.emg] (inBlocks [7]) s (sealActivate s words) :=
  frame_trans (sealShown_frame s words) (frame_of_noReg (sealActivate_presets s words).1 (fun _ h => h))

theorem sealActivate_act (s : State) (words : List (Nat × Word)) : (sealActivate s words).emg.act = words :=
  (sealActivate_presets s words).2.trans (sealShown_act s words)

theorem sealActivate_capOk (s : State) (words : List (Nat × Word)) : flag (sealActivate s words) R.EMG_STAT F.EMG_STAT_CAP_OK = true := by
  obtain ⟨hpreset, -⟩ := sealActivate_presets s words
  rw [flag_of_rd (hpreset.2 _ rfl)]
  exact flag_fon_same _ _ _ rfl (by decide)

/-- The staged set has become the active set in this tile cycle (R240, R242). -/
def emgCommitted (s : State) : State := govDid (emgCopy s) 5

theorem emgCopy_frame (s : State) : frame (.emg :: evParts) (inBlocks [7]) s (emgCopy s) :=
  frame_raise (frame_wr (frame_mono (sealActivate_frame ..) (by simp) (fun _ h => h)) (by decide) _) (by decide)
    (fun p h => List.mem_cons_of_mem _ h) (inBlocks_ev _)

theorem emgCommitted_frame (s : State) : frame (.emg :: evParts) (inBlocks [7]) s (emgCommitted s) :=
  frame_emg (emgCopy_frame s) (by simp) _

theorem emgCommitted_act (s : State) : (emgCommitted s).emg.act = stagedWords s := by
  show (emgCopy s).emg.act = _
  rw [emgCopy, raise_emg _ (by decide), wr_emg, sealActivate_act]

theorem emgCommitted_shows (s : State) : rd (emgCommitted s) R.EMG_ACT_CRC = stagedCrc s ∧
    flag (emgCommitted s) R.EMG_STAT F.EMG_STAT_CAP_OK = true := by
  have hrd : ∀ a, evReg a = false → rd (emgCommitted s) a = rd (wr (sealActivate s (stagedWords s)) R.EMG_ACT_CRC (stagedCrc s)) a :=
    fun a ha => (rd_emg ..).trans ((raise_frame _ (by decide)).2 a ha)
  refine ⟨?_, ?_⟩
  · rw [hrd _ (by decide), rd_wr_same]
  · rw [flag_of_rd (hrd _ (by decide)), flag_of_rd (rd_wr_ne _ _ (by decide)), sealActivate_capOk]

theorem emgPayload_of_emg (h : t.emg = s.emg) : emgPayload t = emgPayload s := by unfold emgPayload; rw [h]

/-- The commit has been made, and the emission record written (R441). -/
def emgRecorded (s : State) : State := recWrite (emgCommitted s) 4 (emgPayload (emgCommitted s)) []

theorem emgRecorded_from (s : State) : frame [.sec] noReg (emgCommitted s) (emgRecorded s) := recWrite_frame ..

theorem emgRecorded_frame (s : State) : frame (.emg :: .sec :: evParts) (inBlocks [7]) s (emgRecorded s) :=
  frame_trans (frame_mono (emgCommitted_frame s) (List.cons_subset_cons _ (List.subset_cons_self ..)) (fun _ h => h))
    (frame_of_noReg (emgRecorded_from s) (by simp))

theorem emgRecorded_emg (s : State) : (emgRecorded s).emg = (emgCommitted s).emg := (emgRecorded_from s).1 .emg (by decide)

theorem emgRecorded_shows (s : State) : rd (emgRecorded s) R.EMG_ACT_CRC = stagedCrc s ∧
    flag (emgRecorded s) R.EMG_STAT F.EMG_STAT_CAP_OK = true := by
  obtain ⟨hcrc, hcap⟩ := emgCommitted_shows s
  have hregs := fun a => (emgRecorded_from s).2 a rfl
  exact ⟨(hregs _).trans hcrc, (flag_of_rd (hregs _) _).trans hcap⟩

theorem emgRecorded_records (s : State) : recordWritten 4 (emgPayload (emgRecorded s)) [] s (emgRecorded s) := by
  rw [emgPayload_of_emg (emgRecorded_emg s)]
  exact recordWritten_of_sec ((emgCommitted_frame s).1 .sec (by decide)).symm rfl (recWrite_records (emgCommitted s) 4 _ [])

theorem recordWritten_done {kind : Nat} {payload block : List Byte} (h : recordWritten kind payload block s t) :
    recordWritten kind payload block s (done t) := recordWritten_of_sec rfl (done_sec t) h

theorem emgCapErr_frame (s : State) : frame evParts (inBlocks [7]) s (emgCapErr s) :=
  frame_flagRaise (frame_refl ..) (by decide) _ (by decide) (fun _ h => h) (inBlocks_ev _)

theorem exec_emgCommit (s : State) : exec .emgCommit s = .next (done (
    if !sealsOpen s then raise s Ev.rwsDiscard
    else if !govTurn s 5 then s
    else if modeOf s = .standby ∧ rd s R.EMG_EXP_CRC = stagedCrc s then emgRecorded s
    else emgCapErr s)) := rfl

theorem emgCommit_commits (s : State) : ∃ t, exec .emgCommit s = .next t ∧
    (sealsOpen s = false → t.emg = s.emg ∧ evFlag t Ev.rwsDiscard = true) ∧
    (sealsOpen s = true → govTurn s 5 = false → frame [] noReg s t) ∧
    (sealsOpen s = true → govTurn s 5 = true → modeOf s = .standby → rd s R.EMG_EXP_CRC = stagedCrc s →
      rd t R.EMG_ACT_CRC = stagedCrc s ∧ t.emg.act = stagedWords s ∧ flag t R.EMG_STAT F.EMG_STAT_CAP_OK = true ∧
      recordWritten 4 (emgPayload t) [] s t) ∧
    (sealsOpen s = true → govTurn s 5 = true → modeOf s ≠ .standby ∨ rd s R.EMG_EXP_CRC ≠ stagedCrc s →
      t.emg = s.emg ∧ t.sec = s.sec ∧ flag t R.EMG_STAT F.EMG_STAT_CAP_ERR = true) ∧
    frame (.emg :: .sec :: evParts) (inBlocks [7]) s t := by
  refine ⟨_, exec_emgCommit s, ?_⟩
  have hparts : ∀ p ∈ evParts, p ∈ Part.emg :: .sec :: evParts := fun p h => List.mem_cons_of_mem _ (List.mem_cons_of_mem _ h)
  cases hopen : sealsOpen s with
  | false =>
    rw [if_pos (by decide)]
    refine ⟨fun _ => ⟨?_, ?_⟩, nofun, nofun, nofun, frame_done (frame_raise (frame_refl ..) (by decide) hparts (inBlocks_ev _))⟩
    · rw [done_emg, raise_emg _ (by decide)]
    · rw [evFlag_done, evFlag_raise _ (by decide) fun hv => absurd hv.2.2 (by decide)]
  | true =>
    rw [if_neg (by decide)]
    cases hturn : govTurn s 5 with
    | false =>
      rw [if_pos (by decide)]
      exact ⟨nofun, fun _ _ => frame_off s, fun _ => nofun, fun _ => nofun, frame_done (frame_refl ..)⟩
    | true =>
      rw [if_neg (by decide)]
      by_cases hok : modeOf s = .standby ∧ rd s R.EMG_EXP_CRC = stagedCrc s
      · rw [if_pos hok]
        obtain ⟨hcrc, hcap⟩ := emgRecorded_shows s
        refine ⟨nofun, fun _ => nofun, fun _ _ _ _ => ⟨(rd_done ..).trans hcrc, ?_, (flag_done ..).trans hcap, ?_⟩,
          fun _ _ hbad => absurd hok (not_and_or.mpr hbad), frame_done (emgRecorded_frame s)⟩
        · rw [done_emg, emgRecorded_emg, emgCommitted_act]
        · rw [emgPayload_of_emg (done_emg _)]
          exact recordWritten_done (emgRecorded_records s)
      · rw [if_neg hok]
        have he := emgCapErr_frame s
        refine ⟨nofun, fun _ => nofun, fun _ _ hm hc => absurd ⟨hm, hc⟩ hok, fun _ _ _ => ⟨?_, ?_, ?_⟩,
          frame_done (frame_mono he hparts (fun _ h => h))⟩
        · rw [done_emg, he.1 .emg (by decide)]
        · rw [done_sec, he.1 .sec (by decide)]
        · rw [flag_done, emgCapErr, flag_flagRaise_same _ _ (by decide) rfl (by decide) (by decide)]

/-! ### RESREF_STEP -/

/-- The code that RESREF[b] drives next (R241): one code towards its target, and never above REF_MAX. -/
def resrefNext (s : State) (b : Fin 16) : Nat :=
  if resrefZero s b then 0
  else if min (refMax s b) (fget s (R.BANK_STAT b) F.BANK_STAT_OUT) < resrefTarget s b then
    min (refMax s b) (fget s (R.BANK_STAT b) F.BANK_STAT_OUT) + 1
  else if resrefTarget s b < min (refMax s b) (fget s (R.BANK_STAT b) F.BANK_STAT_OUT) then
    min (refMax s b) (fget s (R.BANK_STAT b) F.BANK_STAT_OUT) - 1
  else min (refMax s b) (fget s (R.BANK_STAT b) F.BANK_STAT_OUT)

theorem exec_resrefStep (b : Fin 16) (s : State) :
    exec (.resrefStep b) s = .next (done (fset s (R.BANK_STAT b) F.BANK_STAT_OUT (resrefNext s b))) := rfl

theorem refMax_lt (s : State) (b : Nat) : refMax s b < 2 ^ F.BANK_STAT_OUT.width := Nat.mod_lt _ (Nat.two_pow_pos _)

theorem resrefTarget_le (s : State) (b : Nat) : resrefTarget s b ≤ refMax s b := by
  unfold resrefTarget
  split
  · exact Nat.zero_le _
  · exact Nat.min_le_right ..

theorem resrefNext_le (s : State) (b : Fin 16) : resrefNext s b ≤ refMax s b := by
  have := resrefTarget_le s b
  have := Nat.min_le_left (refMax s b) (fget s (R.BANK_STAT b) F.BANK_STAT_OUT)
  unfold resrefNext
  split
  · omega
  · split <;> [omega; split <;> omega]

theorem resrefStep_steps (b : Fin 16) (s : State) : ∃ t, exec (.resrefStep b) s = .next t ∧
    fget t (R.BANK_STAT b) F.BANK_STAT_OUT = (if resrefZero s b then 0
      else if min (refMax s b) (fget s (R.BANK_STAT b) F.BANK_STAT_OUT) < resrefTarget s b then
        min (refMax s b) (fget s (R.BANK_STAT b) F.BANK_STAT_OUT) + 1
      else if resrefTarget s b < min (refMax s b) (fget s (R.BANK_STAT b) F.BANK_STAT_OUT) then
        min (refMax s b) (fget s (R.BANK_STAT b) F.BANK_STAT_OUT) - 1
      else min (refMax s b) (fget s (R.BANK_STAT b) F.BANK_STAT_OUT)) ∧
    bitsKept s t (R.BANK_STAT b) [F.BANK_STAT_OUT] ∧ frame [] (only [R.BANK_STAT b]) s t := by
  refine ⟨_, exec_resrefStep b s, ?_, fun i _ hout => ?_, frame_done (frame_fset (frame_refl ..) (by simp [only]) _ _)⟩
  · rw [fget_done, fget_fset_same _ _ _ _ (by decide) (by decide)]
    exact Nat.mod_eq_of_lt (Nat.lt_of_le_of_lt (resrefNext_le s b) (refMax_lt s b))
  · rw [rd_done, fset_bit _ _ _ _ (by decide) (by decide) i (hout _ (by simp))]

/-! ### STALL_STOP -/

theorem secStat_quiet (c : Fin 2) : evReg (R.SEC_STAT c) = false := by
  revert c; decide

/-- The governor has heard of the stall of a scanner. -/
def stallHeard (s : State) (c : Fin 2) : State :=
  govDid { s with ctl := { s.ctl with scns := tmod Scanner.init s.ctl.scns c (fun x => { x with stalled := false }) } } 3

/-- The declaration of a stall has been taken by the governor, and counted. -/
def stallTaken (s : State) (c : Fin 2) : State :=
  let u := finc (fon (stallHeard s c) (R.SEC_STAT c) F.SEC_STAT_STALL_INH) (R.SEC_STAT c) F.SEC_STAT_STALL_STOPS
  { u with emg := { u.emg with stallAt := tput 0 u.emg.stallAt c (now u) } }

theorem exec_stallStop (c : Fin 2) (s : State) : exec (.stallStop c) s =
    .next (done (if (scanner s c).stalled && govTurn s 3 then raise (stallTaken s c) (528 + c) else s)) := rfl

theorem stallHeard_frame (c : Fin 2) (s : State) : frame [.emg, .ctl] noReg s (stallHeard s c) :=
  frame_emg (frame_ctl (frame_refl ..) (by decide) _) (by decide) _

theorem stallTaken_frame (c : Fin 2) (s : State) : frame (.emg :: .ctl :: evParts) (onlyEv [R.SEC_STAT c]) s (stallTaken s c) := by
  have hown : onlyEv [R.SEC_STAT c] (R.SEC_STAT c) = true := by simp [onlyEv]
  exact frame_emg (frame_finc (frame_fon (frame_of_noReg (stallHeard_frame c s) (by simp)) hown _) hown _) (by simp) _

theorem stallTaken_scanner (c : Fin 2) (s : State) : (scanner (stallTaken s c) c).stalled = false := by
  have hctl : (stallTaken s c).ctl.scns = tmod Scanner.init s.ctl.scns c (fun x => { x with stalled := false }) := rfl
  rw [scanner, hctl, tmod, tget_tput_same]

theorem stallTaken_at (c : Fin 2) (s : State) : tget 0 (stallTaken s c).emg.stallAt c = now s := by
  have hat : (stallTaken s c).emg.stallAt = tput 0 s.emg.stallAt c (now s) := rfl
  rw [hat, tget_tput_same]

theorem stallTaken_shows (c : Fin 2) (s : State) : flag (stallTaken s c) (R.SEC_STAT c) F.SEC_STAT_STALL_INH = true ∧
    fget (stallTaken s c) (R.SEC_STAT c) F.SEC_STAT_STALL_STOPS =
      satN F.SEC_STAT_STALL_STOPS.width (fget s (R.SEC_STAT c) F.SEC_STAT_STALL_STOPS + 1) := by
  refine ⟨?_, ?_⟩
  · rw [stallTaken, flag_of_rd (rd_emg ..)]
    show flag (fset (fon (stallHeard s c) _ _) _ _ _) _ _ = true
    rw [flag_fset_ne _ _ _ (by decide) (by decide) (by decide) (by decide)]
    exact flag_fon_same _ _ _ rfl (by decide)
  · rw [stallTaken, fget_of_rd (rd_emg ..), finc, fget_fadd_same _ _ _ _ (by decide) (by decide),
      fget_fon_ne _ _ _ _ (by decide) (by decide) (by decide) (by decide), fget_of_rd ((stallHeard_frame c s).2 _ rfl)]

theorem stallStop_stops (c : Fin 2) (s : State) : ∃ t, exec (.stallStop c) s = .next t ∧
    (govTurn s 3 = false ∨ (scanner s c).stalled = false → frame [] noReg s t) ∧
    (govTurn s 3 = true → (scanner s c).stalled = true → (scanner t c).stalled = false ∧ flag t (R.SEC_STAT c) F.SEC_STAT_STALL_INH = true ∧
      fget t (R.SEC_STAT c) F.SEC_STAT_STALL_STOPS =
        satN F.SEC_STAT_STALL_STOPS.width (fget s (R.SEC_STAT c) F.SEC_STAT_STALL_STOPS + 1) ∧
      tget 0 t.emg.stallAt c = now s ∧ evFlag t (528 + c) = true) ∧ frame (.emg :: .ctl :: evParts) (onlyEv [R.SEC_STAT c]) s t := by
  have hn : 528 + c.val < 536 := by omega
  refine ⟨_, exec_stallStop c s, ?_⟩
  cases hon : (scanner s c).stalled && govTurn s 3 with
  | false =>
    rw [if_neg (by decide)]
    refine ⟨fun _ => frame_off s, fun ht hs => ?_, frame_done (frame_refl ..)⟩
    simp [ht, hs] at hon
  | true =>
    rw [if_pos rfl]
    obtain ⟨hs, ht⟩ := Bool.and_eq_true_iff.mp hon
    obtain ⟨hinh, hstops⟩ := stallTaken_shows c s
    have hr := raise_frame (stallTaken s c) (n := 528 + c) (by omega)
    have hreg := hr.2 _ (secStat_quiet c)
    refine ⟨fun h => by simp [hs, ht] at h, fun _ _ => ⟨?_, ?_, ?_, ?_, ?_⟩,
      frame_done (frame_raise (stallTaken_frame c s) (by omega) (fun p h => List.mem_cons_of_mem _ (List.mem_cons_of_mem _ h)) (onlyEv_ev _))⟩
    · rw [scanner, done_ctl, hr.1 .ctl (by decide)]
      exact stallTaken_scanner c s
    · rw [flag_done, flag_of_rd hreg, hinh]
    · rw [fget_done, fget_of_rd hreg, hstops]
    · rw [done_emg, hr.1 .emg (by decide), stallTaken_at]
    · rw [evFlag_done, evFlag_raise _ (by omega) (by omega)]

/-! ### OUTPUT_GATE -/

/-- The output gate of scanner c holds the triggers of its banks low. -/
def outputGated (s : State) (c : Fin 2) : State :=
  let s := fon s (R.SEC_STAT c) F.SEC_STAT_GATE
  { s with pins := { s.pins with emitTrig := s.pins.emitTrig.filter (fun p => bankScanner s (p.1 / 8) ≠ c.val) } }

theorem exec_outputGate (c : Fin 2) (s : State) :
    exec (.outputGate c) s = .next (done (if flag s (R.SEC_STAT c) F.SEC_STAT_STALL_INH then outputGated s c else s)) := rfl

theorem outputGate_gates (c : Fin 2) (s : State) : ∃ t, exec (.outputGate c) s = .next t ∧
    (flag s (R.SEC_STAT c) F.SEC_STAT_STALL_INH = false → frame [] noReg s t) ∧
    (flag s (R.SEC_STAT c) F.SEC_STAT_STALL_INH = true → flag t (R.SEC_STAT c) F.SEC_STAT_GATE = true ∧
      ∀ p, p ∈ t.pins.emitTrig ↔ p ∈ s.pins.emitTrig ∧ bankScanner s (p.1 / 8) ≠ c.val) ∧
    frame [.pins] (only [R.SEC_STAT c]) s t := by
  refine ⟨_, exec_outputGate c s, ?_⟩
  cases hinh : flag s (R.SEC_STAT c) F.SEC_STAT_STALL_INH with
  | false =>
    rw [if_neg (by decide)]
    exact ⟨fun _ => frame_off s, nofun, frame_done (frame_refl ..)⟩
  | true =>
    rw [if_pos rfl]
    refine ⟨nofun, fun _ => ⟨?_, fun p => ?_⟩,
      frame_done (frame_pins (frame_fon (frame_refl ..) (by simp [only]) _) (by decide) _)⟩
    · rw [flag_done]
      exact flag_fon_same _ _ _ rfl (by decide)
    · have htrig : (outputGated s c).pins.emitTrig = s.pins.emitTrig.filter (fun p => bankScanner s (p.1 / 8) ≠ c.val) := rfl
      rw [done_pins, htrig, List.mem_filter, decide_eq_true_iff]

/-- Settles O18: each command by its own lemma; the preset of a first commit changes no more than the accumulators. -/
theorem emissionControl : Obligations.EmissionControl :=
  ⟨bankRelease_releases, emgCommit_commits, resrefStep_steps, stallStop_stops, outputGate_gates⟩

end Sys2Proof.Machine
end
